-- ==== Sys2Proof/Word.lean ====
section
/-! DEFINITION. The word types of the HG-1: 32-bit registers (00, "Notation"), bytes and 64-bit words. -/

namespace Sys2Proof

/-- A 32-bit register or FP32 word. -/
abbrev Word := BitVec 32

/-- A byte of memory. -/
abbrev Byte := BitVec 8

/-- A 64-bit word: a token (R141), an operation (R176), a header (R95). -/
abbrev Dword := BitVec 64

/-- A 16-bit word: a BF16 element, a pointer, a sequence number. -/
abbrev Half := BitVec 16

end Sys2Proof
end

