-- ==== Sys2Proof/Syntax.lean ====
section
/-! DEFINITION. The commands of the HG-1: one constructor per row of spec/opcode_table.json. Every command
carries t, the moment at which it arrives, in tu = 1/6 ns (log entry 1). The table gives no row any bits. -/

namespace Sys2Proof

/-- A unit that works through a firing list (R175, R379). Clusters are numbered 0 to 831 (R379), cores and
vector units by position 0 to 31 (R17), link ports by link, stream engines by stack. -/
inductive UnitId where
  | feeder (cl f : Nat)
  | core (cl pos : Nat)
  | tree (cl : Nat)
  | vu (cl pos : Nat)
  | quant (cl inst : Nat)
  | port (link : Nat)
  | engine (e : Nat)
  | field
deriving DecidableEq, Repr

/-- One of the 8 function tables of a vector unit (R204): base B, step exponent k, entries T. -/
structure FnTable where
  base : Word := 0
  k : Int := 0
  entries : List Word := []
deriving DecidableEq, Repr

/-- A unit's part of an image: its firing list and the tables of R175. -/
structure UnitDecl where
  unit : UnitId
  list : List Dword := []
  routes : List Word := []
  plans : List Dword := []
  shapes : List Word := []
  consts : List Word := []
  tables : List FnTable := []
deriving DecidableEq, Repr

/-- A pool as an image declares it (R158). For HBM `base` is a device address, for SRAM an offset. -/
structure PoolDecl where
  id : Nat
  inHbm : Bool := false
  cluster : Nat := 0
  base : Nat := 0
  bufSize : Nat := 0
  handles : Nat := 0
deriving DecidableEq, Repr

/-- A stream as an image declares it (R151, R168): its edges with their initial credits C, its limit N in µs. -/
structure StreamDecl where
  id : Nat
  pool : Nat
  producers : List UnitId := []
  consumers : List (UnitId × Nat) := []
  limit : Nat := 1000
  rowLen : Nat := 32
  elems : Nat := 0
deriving DecidableEq, Repr

/-- A Ulurex image as the model carries it (log entry 15: the manual does not give the image's format).
Cluster numbers inside are relative: 0 to clusters - 1. -/
structure Image where
  level : Nat := 1
  taster : Bool := false
  clusters : Nat := 0
  fastClusters : List Nat := []
  bufKib : List (Nat × Nat) := []
  units : List UnitDecl := []
  pools : List PoolDecl := []
  streams : List StreamDecl := []
  groups : List (Nat × List UnitId) := []
  descs : List (Nat × Nat × List Byte) := []
  linkLimits : List (Nat × Nat) := []
  hbm : List (Nat × Nat) := []
deriving DecidableEq, Repr

/-- What the calibration steps of R255 measured for one core: dark offsets by engine, LO phase, knots by (engine, cell),
gains and offsets by engine, LINE_CODES and lock slopes (2^-16 converter codes per heater code) by ring, K_FF in codes
per °C. -/
structure CalValues where
  dark : List (Nat × Int) := []
  lo : Nat := 0
  knots : List (Nat × List (BitVec 8)) := []
  rows : List (Nat × Word × Word) := []
  lines : List (Nat × Nat) := []
  kff : Nat := 68
  slopes : List (Nat × Int) := []
deriving DecidableEq, Repr

/-- A frame of the header lane with the layout of R394: its fields from bit 0 up, its reserved bits [111:94] and its CRC. -/
structure HeaderFrame where
  kind : BitVec 4 := 0
  bypassLeft : BitVec 2 := 0
  bytes : BitVec 12 := 0
  dest : Half := 0
  src : Half := 0
  stream : BitVec 12 := 0
  pseq : Half := 0
  lseq : Half := 0
  reserved : BitVec 18 := 0
  crc : Half := 0
deriving DecidableEq, Repr

/-- The rank of a claim on the rotation spare, highest first (R23). -/
inductive ClaimRank where
  | retirement
  | mislock
  | calibration
deriving DecidableEq, Repr

/-- What firmware's access to host memory gave: the data, or the number of the descriptor whose access failed (R361, R375). -/
inductive Fetched (α : Type) where
  | data (x : α)
  | failed (desc : Nat)
deriving DecidableEq, Repr

/-- Something seen from outside at the moment t (log entry 1). -/
structure Seen (α : Type) where
  t : Nat
  it : α
deriving DecidableEq, Repr

/-- A reading of the 54 V input: mv millivolts, past the row's threshold since the moment since (R436). -/
structure SupplyReading where
  mv : Nat
  since : Nat
deriving DecidableEq, Repr

/-- The lengths in tu of the last two cycles of an angle source (R319). -/
structure GoodCycles where
  first : Nat
  second : Nat
deriving DecidableEq, Repr

/-- A complete MCTP message: message type, PCI vendor ID and the slot it carries (R356). -/
structure MctpMessage where
  kind : Byte
  vendor : Half
  slot : List Byte
deriving DecidableEq, Repr

/-- The commands, in the order of spec/opcode_table.json. -/
inductive Instr where
  -- firing-list operations: t, the unit, the image whose list runs
  | nop (t : Nat) (u : UnitId) (img : Nat)
  | endOp (t : Nat) (u : UnitId) (img : Nat)
  | loop (t : Nat) (u : UnitId) (img : Nat)
  | fence (t : Nat) (u : UnitId) (img : Nat)
  | waitang (t : Nat) (u : UnitId) (img : Nat)
  | event (t : Nat) (u : UnitId) (img : Nat)
  | listFault (t : Nat) (u : UnitId) (img : Nat)
  | feed (t : Nat) (u : UnitId) (img : Nat)
  | wfill (t : Nat) (u : UnitId) (img : Nat)
  | wload (t : Nat) (u : UnitId) (img : Nat)
  | swap (t : Nat) (u : UnitId) (img : Nat)
  | rscale (t : Nat) (u : UnitId) (img : Nat)
  | tile (t : Nat) (u : UnitId) (img : Nat)
  | reduce (t : Nat) (u : UnitId) (img : Nat)
  | vAdd (t : Nat) (u : UnitId) (img : Nat)
  | vSub (t : Nat) (u : UnitId) (img : Nat)
  | vMul (t : Nat) (u : UnitId) (img : Nat)
  | vMax (t : Nat) (u : UnitId) (img : Nat)
  | vMin (t : Nat) (u : UnitId) (img : Nat)
  | vScale (t : Nat) (u : UnitId) (img : Nat)
  | vAxpy (t : Nat) (u : UnitId) (img : Nat)
  | vClamp (t : Nat) (u : UnitId) (img : Nat)
  | vCopy (t : Nat) (u : UnitId) (img : Nat)
  | vTable (t : Nat) (u : UnitId) (img : Nat)
  | vExp (t : Nat) (u : UnitId) (img : Nat)
  | vRecip (t : Nat) (u : UnitId) (img : Nat)
  | vRsqrt (t : Nat) (u : UnitId) (img : Nat)
  | vRmaxabs (t : Nat) (u : UnitId) (img : Nat)
  | vRmax (t : Nat) (u : UnitId) (img : Nat)
  | vRsum (t : Nat) (u : UnitId) (img : Nat)
  | vBmaxabs (t : Nat) (u : UnitId) (img : Nat)
  | vNstats (t : Nat) (u : UnitId) (img : Nat)
  | vNapply (t : Nat) (u : UnitId) (img : Nat)
  | vSmstats (t : Nat) (u : UnitId) (img : Nat)
  | vSmapply (t : Nat) (u : UnitId) (img : Nat)
  | vGather (t : Nat) (u : UnitId) (img : Nat)
  | vEdgesum (t : Nat) (u : UnitId) (img : Nat)
  | vDynimg (t : Nat) (u : UnitId) (img : Nat)
  | quantEncode (t : Nat) (u : UnitId) (img : Nat)
  | quantDecode (t : Nat) (u : UnitId) (img : Nat)
  | send (t : Nat) (u : UnitId) (img : Nat)
  | recv (t : Nat) (u : UnitId) (img : Nat)
  | xfer (t : Nat) (u : UnitId) (img : Nat)
  | fieldFill (t : Nat) (u : UnitId) (img : Nat)
  | fieldScalar (t : Nat) (u : UnitId) (img : Nat)
  | fieldOutput (t : Nat) (u : UnitId) (img : Nat)
  -- tokens, credits, steps
  | tokenInvalid (t : Nat) (u : UnitId) (tok : Dword)
  | creditReturn (t : Nat) (stream : Nat) (u : UnitId)
  | handleFree (t : Nat) (pool : Nat)
  | fenceOrder (t : Nat) (u : UnitId) (img : Nat)
  | groupDrained (t : Nat) (img group : Nat)
  | stall (t : Nat) (stream : Nat)
  | stepAborted (t : Nat) (img : Nat)
  | modelStepStart (t : Nat) (img starts : Nat)
  -- light path
  | coreCreditGrant (t : Nat) (cl pos : Nat)
  | switchGrant (t : Nat) (cl f : Nat)
  | packetStart (t : Nat) (cl f : Nat)
  | reconfigEnd (t : Nat) (cl f : Nat)
  | measureEnd (t : Nat) (cl f : Nat)
  | windowEnd (t : Nat) (cl f : Nat)
  | packetEnd (t : Nat) (cl f : Nat)
  | verdict (t : Nat) (cl f : Nat)
  | probePacket (t : Nat) (cl f core : Nat) (seen : List (Nat × Nat))
  | loadSettled (t : Nat) (cl core : Nat)
  | refreshDue (t : Nat) (cl core : Nat)
  | chainForward (t : Nat) (cl core : Nat)
  -- memory and stream engines
  | transferIssue (t : Nat) (e : Nat)
  | transferComplete (t : Nat) (e desc idx : Nat)
  | descCompToken (t : Nat) (e desc : Nat)
  | hostBar2Read (t : Nat) (addr len : Nat)
  | hostBar2Write (t : Nat) (addr : Nat) (data : List Byte)
  | channelMigration (t : Nat) (stack ch : Nat)
  | migrationEnd (t : Nat) (stack : Nat)
  -- ring holding and calibration
  | innerUpdate (t : Nat) (cl core : Nat) (samples : List (List Nat))
  | outerUpdate (t : Nat) (cl : Nat)
  | feedforwardUpdate (t : Nat) (cl : Nat) (sensors : List Int)
  | quietWindowOpen (t : Nat) (cls : List Nat) (tens : Nat)
  | quietClose (t : Nat) (cl : Nat)
  | rotationAdvance (t : Nat) (cl : Nat)
  | spareClaim (t : Nat) (cl : Nat) (claims : List (Nat × ClaimRank))
  | spareCopyDone (t : Nat) (cl : Nat)
  | mirrorDone (t : Nat) (cl : Nat)
  | handover (t : Nat) (cl : Nat)
  | calibrationDone (t : Nat) (cl core : Nat) (vals : CalValues)
  | calStarved (t : Nat) (cl : Nat)
  | profileMoveEnd (t : Nat) (cl core ring : Nat)
  | wearSpareReady (t : Nat) (cl : Nat)
  | engineSpared (t : Nat) (cl core row : Nat)
  | lineRemapped (t : Nat) (cl line : Nat)
  | combWorn (t : Nat) (cl ratio : Nat)
  | clusterReturn (t : Nat) (cl : Nat)
  | clusterRestartEnd (t : Nat) (cl : Nat)
  -- field loops and profiles
  | loopUpdate (t : Nat) (n : Nat)
  | loopTimer (t : Nat) (n : Nat)
  | svStale (t : Nat) (n : Nat)
  | loopEnable (t : Nat) (fn n : Nat) (v : Word)
  | loopDisable (t : Nat) (fn n : Nat) (v : Word)
  | loopHold (t : Nat) (fn n : Nat) (v : Word)
  | loopOscRelease (t : Nat) (fn n : Nat) (v : Word)
  | injectionStart (t : Nat) (fn n : Nat) (v : Word)
  | injectionStop (t : Nat) (fn n : Nat) (v : Word)
  | captureArm (t : Nat) (fn : Nat) (v : Word)
  | prfTargetWrite (t : Nat) (fn n : Nat) (v : Word)
  | prfLimitWrite (t : Nat) (fn n which : Nat) (v : Word)
  | prfStop (t : Nat) (fn n : Nat) (v : Word)
  -- field inputs and angle
  | softwareTrigger (t : Nat) (fn k : Nat) (v : Word)
  | converterTimer (t : Nat) (k : Nat)
  | triggerPinEdge (t : Nat) (pin : Nat) (falling : Bool)
  | conversionResult (t : Nat) (k : Nat) (level inl : Int)
  | runEnd (t : Nat) (k : Nat)
  | threePhaseSample (t : Nat) (a b c : Int)
  | finFifoRead (t : Nat) (fn k : Nat)
  | finIncfgWrite (t : Nat) (fn n : Nat) (v : Word)
  | angleUpdate (t : Nat)
  | threePhaseLoss (t : Nat)
  | encoderLoss (t : Nat)
  | ppcLoss (t : Nat)
  | sourceReacquired (r : Seen GoodCycles)
  | encoderEdge (t : Nat) (a b z : Bool)
  | ppcEdge (t : Nat) (falling : Bool)
  | ppsEdge (t : Nat)
  | angTodSecWrite (t : Nat) (fn : Nat) (v : Word)
  | angOffsetWrite (t : Nat) (fn : Nat) (v : Word)
  | angSourceWrite (t : Nat) (fn : Nat) (v : Word)
  | angCycLoRead (t : Nat) (fn : Nat)
  -- field outputs
  | foutDataWrite (t : Nat) (fn n : Nat) (v : Word)
  | outputTick (t : Nat) (n : Nat)
  | channelTimer (t : Nat) (n : Nat)
  | precisionCodeTake (t : Nat) (n : Nat)
  | foutRangeWrite (t : Nat) (fn n : Nat) (v : Word)
  | rangeEnd (t : Nat) (n : Nat)
  | foutEnableWrite (t : Nat) (fn n : Nat) (v : Word)
  | forceSafeWrite (t : Nat) (fn n : Nat) (v : Word)
  | readbackFaultRelease (t : Nat) (fn n : Nat) (v : Word)
  | short (t : Nat) (n : Nat)
  | safeRecordLoad (t : Nat) (n : Nat)
  -- mailboxes, locks, registers
  | doorbell (t : Nat) (ch : Nat) (v : Word)
  | mbxOutHeadWrite (t : Nat) (ch : Nat) (v : Word)
  | mctpMessage (t : Nat) (m : MctpMessage)
  | lockRead (t : Nat) (who n : Nat)
  | lockWrite (t : Nat) (who n : Nat) (v : Word)
  | rcRead (t : Nat) (who off : Nat)
  | registerWrite (t : Nat) (who off : Nat) (v : Word)
  | functionLevelReset (t : Nat) (fn : Nat)
  | eventDelivery (t : Nat) (ch : Nat)
  -- firmware commands: the channel whose next slot firmware takes
  | badOpcode (t : Nat) (ch : Nat)
  | identify (t : Nat) (ch : Nat)
  | health (t : Nat) (ch : Nat)
  | clusterHealth (t : Nat) (ch : Nat)
  | coreCounts (t : Nat) (ch : Nat)
  | caskRead (t : Nat) (ch : Nat)
  | wearRead (t : Nat) (ch : Nat)
  | memoryHealth (t : Nat) (ch : Nat)
  | imageLoad (t : Nat) (ch : Nat) (img : Fetched Image)
  | imageUnload (t : Nat) (ch : Nat)
  | jobPlace (t : Nat) (ch : Nat)
  | jobRemove (t : Nat) (ch : Nat)
  | stepStart (t : Nat) (ch : Nat)
  | stepAbort (t : Nat) (ch : Nat)
  | stepStatus (t : Nat) (ch : Nat)
  | memWrite (t : Nat) (ch : Nat) (data : Option (List Byte))
  | memRead (t : Nat) (ch : Nat) (reachable : Bool)
  | descWrite (t : Nat) (ch : Nat)
  | descArm (t : Nat) (ch : Nat)
  | descReset (t : Nat) (ch : Nat)
  | descStatus (t : Nat) (ch : Nat)
  | streamLimit (t : Nat) (ch : Nat)
  | qntPolicy (t : Nat) (ch : Nat)
  | qntCarryReset (t : Nat) (ch : Nat)
  | counterClear (t : Nat) (ch : Nat)
  | calSettings (t : Nat) (ch : Nat)
  | quietOpen (t : Nat) (ch : Nat)
  | rotAdvance (t : Nat) (ch : Nat)
  | combSwitch (t : Nat) (ch : Nat)
  | clusterRestart (t : Nat) (ch : Nat)
  | schedWrite (t : Nat) (ch : Nat)
  | schedRead (t : Nat) (ch : Nat)
  | clusterGroup (t : Nat) (ch : Nat)
  | fieldOwner (t : Nat) (ch : Nat)
  | safeWrite (t : Nat) (ch : Nat)
  | eventRoute (t : Nat) (ch : Nat)
  | permSet (t : Nat) (ch : Nat)
  | permRead (t : Nat) (ch : Nat)
  | lockRelease (t : Nat) (ch : Nat)
  | linkStatus (t : Nat) (ch : Nat)
  | routeWrite (t : Nat) (ch : Nat)
  | addressSet (t : Nat) (ch : Nat)
  | linkMode (t : Nat) (ch : Nat)
  | peerReady (t : Nat) (ch : Nat)
  | upgradeBegin (t : Nat) (ch : Nat) (data : Fetched (List Byte))
  | upgradeData (t : Nat) (ch : Nat)
  | upgradeCommit (t : Nat) (ch : Nat) (sigOk : Bool)
  | powerProfile (t : Nat) (ch : Nat)
  | moduleReset (t : Nat) (ch : Nat)
  | commandDone (t : Nat) (ch : Nat)
  | permitWithdrawn (t : Nat) (cl : Nat)
  -- links
  | headerFrame (t : Nat) (link : Nat) (h : HeaderFrame)
  | packetLanded (t : Nat) (link : Nat) (payload : List Byte) (bad : Bool)
  | ackFrame (t : Nat) (link : Nat) (crc : Half) (src lseq lander : Half)
  | creditFrame (t : Nat) (link : Nat) (crc : Half) (credits : Nat)
  | controlFrame (t : Nat) (link : Nat) (crc : Half) (part : List Byte)
  | packetSend (t : Nat) (link : Nat)
  | packetReplay (t : Nat) (link : Nat) (lseq : Half)
  | linkTimer (t : Nat) (link : Nat)
  | linkDown (t : Nat) (link : Nat) (reason : BitVec 3)
  | laneLockLoss (t : Nat) (link : Nat) (lanes : List Nat)
  | laneErrorRate (t : Nat) (link lane : Nat)
  | spareLaneSwitch (t : Nat) (link : Nat)
  | linkUp (t : Nat) (link : Nat) (peer : Half) (tlevel clevel : BitVec 8)
  -- power, bring-up, watchdog, reset
  | powerGood (t : Nat) (mv : Nat)
  | powerLoss (t : Nat) (mv : Nat)
  | supplyHold (t : Nat) (r : SupplyReading)
  | supplyHoldRelease (r : Seen SupplyReading)
  | perstAssert (t : Nat)
  | perstDeassert (t : Nat)
  | steepEnd (t : Nat)
  | hbmTrainingEnd (t : Nat)
  | kilnEnd (t : Nat)
  | mashEnd (t : Nat)
  | stageTimer (t : Nat)
  | stageFailure (t : Nat) (code : Half)
  | backoffEnd (t : Nat)
  | clusterBringupFail (t : Nat) (cl : Nat)
  | heartbeat (t : Nat) (beat : Half)
  | watchdogExpiry (t : Nat)
  | thermalTrip (t : Nat) (die : Nat) (temp : Int)
  | domainReset (t : Nat) (d1 : Bool) (d2 d3 : BitVec 4) (d4 : Half)
  | evtPulseEnd (t : Nat)
  | resetRelease (t : Nat)
  | thermalTripRelease (t : Nat) (temps : List Int)
  | tripDiodeCrossing (t : Nat) (die : Nat) (temp : Int)
  | evtFirstEvaluation (t : Nat)
  | shortEnd (t : Nat) (n : Nat)
  | wornCombSwitch (t : Nat) (cl : Nat)
deriving DecidableEq, Repr

end Sys2Proof
end

