-- ==== Sys2Proof/WellFormed.lean ====
section
/-! DEFINITION. Well-formed commands: every operand names a unit, register, identity or address that the module has
(R16, R22, R210, R351, R354, R369, R379). -/

namespace Sys2Proof

/-- The units the module has (R16, R379). -/
def UnitId.wf : UnitId → Bool
  | .feeder cl f => cl < 832 && f < 4
  | .core cl pos => cl < 832 && pos < 32
  | .tree cl => cl < 832
  | .vu cl pos => cl < 832 && pos < 32
  | .quant cl inst => cl < 832 && inst < 16
  | .port link => link < 64
  | .engine e => e < 16
  | .field => true

/-- Senders of a register write: PCIe functions and the test port (R354, R356). -/
def wfWriter (who : Nat) : Bool := who ≤ 63 || who = 65

/-- Senders that reach registers: PCIe functions, the test port, internal units, firmware's private path among them (R351,
R354, R369, R433). -/
def wfRegUser (who : Nat) : Bool := who ≤ 63 || who = 65 || (130 ≤ who && who < 160)

/-- A well-formed command. -/
def Instr.wf : Instr → Bool
  | .nop _ u _ => u.wf
  | .endOp _ u _ => u.wf
  | .loop _ u _ => u.wf
  | .fence _ u _ => u.wf
  | .waitang _ u _ => u.wf
  | .event _ u _ => u.wf
  | .listFault _ u _ => u.wf
  | .feed _ u _ => u.wf
  | .wfill _ u _ => u.wf
  | .wload _ u _ => u.wf
  | .swap _ u _ => u.wf
  | .rscale _ u _ => u.wf
  | .tile _ u _ => u.wf
  | .reduce _ u _ => u.wf
  | .vAdd _ u _ => u.wf
  | .vSub _ u _ => u.wf
  | .vMul _ u _ => u.wf
  | .vMax _ u _ => u.wf
  | .vMin _ u _ => u.wf
  | .vScale _ u _ => u.wf
  | .vAxpy _ u _ => u.wf
  | .vClamp _ u _ => u.wf
  | .vCopy _ u _ => u.wf
  | .vTable _ u _ => u.wf
  | .vExp _ u _ => u.wf
  | .vRecip _ u _ => u.wf
  | .vRsqrt _ u _ => u.wf
  | .vRmaxabs _ u _ => u.wf
  | .vRmax _ u _ => u.wf
  | .vRsum _ u _ => u.wf
  | .vBmaxabs _ u _ => u.wf
  | .vNstats _ u _ => u.wf
  | .vNapply _ u _ => u.wf
  | .vSmstats _ u _ => u.wf
  | .vSmapply _ u _ => u.wf
  | .vGather _ u _ => u.wf
  | .vEdgesum _ u _ => u.wf
  | .vDynimg _ u _ => u.wf
  | .quantEncode _ u _ => u.wf
  | .quantDecode _ u _ => u.wf
  | .send _ u _ => u.wf
  | .recv _ u _ => u.wf
  | .xfer _ u _ => u.wf
  | .fieldFill _ u _ => u.wf
  | .fieldScalar _ u _ => u.wf
  | .fieldOutput _ u _ => u.wf
  | .tokenInvalid _ u _ => u.wf
  | .creditReturn _ stream u => stream < 4096 && u.wf
  | .handleFree _ pool => pool < 4096
  | .fenceOrder _ u _ => u.wf
  | .groupDrained _ img group => img < 256 && group < 4096
  | .stall _ stream => stream < 4096
  | .stepAborted _ img => img < 256
  | .modelStepStart _ img _ => img < 256
  | .coreCreditGrant _ cl pos => cl < 832 && pos < 32
  | .switchGrant _ cl f => cl < 832 && f < 4
  | .packetStart _ cl f => cl < 832 && f < 4
  | .reconfigEnd _ cl f => cl < 832 && f < 4
  | .measureEnd _ cl f => cl < 832 && f < 4
  | .windowEnd _ cl f => cl < 832 && f < 4
  | .packetEnd _ cl f => cl < 832 && f < 4
  | .verdict _ cl f => cl < 832 && f < 4
  | .probePacket _ cl f core seen => cl < 832 && f < 4 && core < 34 && seen.all fun x => x.1 < 576 && x.2 ≤ 64
  | .loadSettled _ cl core => cl < 832 && core < 34
  | .refreshDue _ cl core => cl < 832 && core < 34
  | .chainForward _ cl core => cl < 832 && core < 34
  | .transferIssue _ e => e < 16
  | .transferComplete _ e desc _ => e < 16 && desc < 8192
  | .descCompToken _ e desc => e < 16 && desc < 8192
  | .hostBar2Read _ addr len => addr + len ≤ 2 ^ 40
  | .hostBar2Write _ addr data => addr + data.length ≤ 2 ^ 40
  | .channelMigration _ stack ch => stack < 16 && ch < 31
  | .migrationEnd _ stack => stack < 16
  | .innerUpdate _ cl core _ => cl < 832 && core < 34
  | .outerUpdate _ cl => cl < 832
  | .feedforwardUpdate _ cl _ => cl < 832
  | .quietWindowOpen _ cls _ => cls.all fun c => c < 832
  | .quietClose _ cl => cl < 832
  | .rotationAdvance _ cl => cl < 832
  | .spareClaim _ cl claims => cl < 832 && claims.all fun x => x.1 < 34
  | .spareCopyDone _ cl => cl < 832
  | .mirrorDone _ cl => cl < 832
  | .handover _ cl => cl < 832
  | .calibrationDone _ cl core _ => cl < 832 && core < 34
  | .calStarved _ cl => cl < 832
  | .profileMoveEnd _ cl core ring => cl < 832 && core < 34 && ring < 576
  | .wearSpareReady _ cl => cl < 832
  | .engineSpared _ cl core row => cl < 832 && core < 34 && row < 8
  | .lineRemapped _ cl line => cl < 832 && line < 68
  | .combWorn _ cl ratio => cl < 832 && ratio < 65536
  | .clusterReturn _ cl => cl < 832
  | .clusterRestartEnd _ cl => cl < 832
  | .loopUpdate _ n => n < 16
  | .loopTimer _ n => n < 16
  | .svStale _ n => n < 16
  | .loopEnable _ fn n _ => wfWriter fn && n < 16
  | .loopDisable _ fn n _ => wfWriter fn && n < 16
  | .loopHold _ fn n _ => wfWriter fn && n < 16
  | .loopOscRelease _ fn n _ => wfWriter fn && n < 16
  | .injectionStart _ fn n _ => wfWriter fn && n < 16
  | .injectionStop _ fn n _ => wfWriter fn && n < 16
  | .captureArm _ fn _ => wfWriter fn
  | .prfTargetWrite _ fn n _ => wfWriter fn && n < 16
  | .prfLimitWrite _ fn n which _ => wfWriter fn && n < 16 && which < 3
  | .prfStop _ fn n _ => wfWriter fn && n < 16
  | .softwareTrigger _ fn k _ => wfWriter fn && k < 4
  | .converterTimer _ k => k < 4
  | .triggerPinEdge _ pin _ => pin < 4
  | .conversionResult _ k _ _ => k < 4
  | .runEnd _ k => k < 4
  | .threePhaseSample _ _ _ _ => true
  | .finFifoRead _ fn k => wfWriter fn && k < 4
  | .finIncfgWrite _ fn n _ => wfWriter fn && n < 16
  | .angleUpdate _ => true
  | .threePhaseLoss _ => true
  | .encoderLoss _ => true
  | .ppcLoss _ => true
  | .sourceReacquired _ => true
  | .encoderEdge _ _ _ _ => true
  | .ppcEdge _ _ => true
  | .ppsEdge _ => true
  | .angTodSecWrite _ fn _ => wfWriter fn
  | .angOffsetWrite _ fn _ => wfWriter fn
  | .angSourceWrite _ fn _ => wfWriter fn
  | .angCycLoRead _ fn => wfWriter fn
  | .foutDataWrite _ fn n _ => wfWriter fn && n < 16
  | .outputTick _ n => n < 16
  | .channelTimer _ n => n < 16
  | .precisionCodeTake _ n => n < 16
  | .foutRangeWrite _ fn n _ => wfWriter fn && n < 16
  | .rangeEnd _ n => n < 16
  | .foutEnableWrite _ fn n _ => wfWriter fn && n < 16
  | .forceSafeWrite _ fn n _ => wfWriter fn && n < 16
  | .readbackFaultRelease _ fn n _ => wfWriter fn && n < 16
  | .short _ n => n < 16
  | .safeRecordLoad _ n => n < 16
  | .doorbell _ ch _ => ch < 160
  | .mbxOutHeadWrite _ ch _ => ch < 160
  | .mctpMessage _ _ => true
  | .lockRead _ who n => wfWriter who && n < 64
  | .lockWrite _ who n _ => wfWriter who && n < 64
  | .rcRead _ who off => wfRegUser who && off < 0x4000000
  | .registerWrite _ who off _ => wfRegUser who && off < 0x4000000
  | .functionLevelReset _ fn => fn ≤ 63
  | .eventDelivery _ ch => ch < 160
  | .badOpcode _ ch => ch < 160
  | .identify _ ch => ch < 160
  | .health _ ch => ch < 160
  | .clusterHealth _ ch => ch < 160
  | .coreCounts _ ch => ch < 160
  | .caskRead _ ch => ch < 160
  | .wearRead _ ch => ch < 160
  | .memoryHealth _ ch => ch < 160
  | .imageLoad _ ch _ => ch < 160
  | .imageUnload _ ch => ch < 160
  | .jobPlace _ ch => ch < 160
  | .jobRemove _ ch => ch < 160
  | .stepStart _ ch => ch < 160
  | .stepAbort _ ch => ch < 160
  | .stepStatus _ ch => ch < 160
  | .memWrite _ ch _ => ch < 160
  | .memRead _ ch _ => ch < 160
  | .descWrite _ ch => ch < 160
  | .descArm _ ch => ch < 160
  | .descReset _ ch => ch < 160
  | .descStatus _ ch => ch < 160
  | .streamLimit _ ch => ch < 160
  | .qntPolicy _ ch => ch < 160
  | .qntCarryReset _ ch => ch < 160
  | .counterClear _ ch => ch < 160
  | .calSettings _ ch => ch < 160
  | .quietOpen _ ch => ch < 160
  | .rotAdvance _ ch => ch < 160
  | .combSwitch _ ch => ch < 160
  | .clusterRestart _ ch => ch < 160
  | .schedWrite _ ch => ch < 160
  | .schedRead _ ch => ch < 160
  | .clusterGroup _ ch => ch < 160
  | .fieldOwner _ ch => ch < 160
  | .safeWrite _ ch => ch < 160
  | .eventRoute _ ch => ch < 160
  | .permSet _ ch => ch < 160
  | .permRead _ ch => ch < 160
  | .lockRelease _ ch => ch < 160
  | .linkStatus _ ch => ch < 160
  | .routeWrite _ ch => ch < 160
  | .addressSet _ ch => ch < 160
  | .linkMode _ ch => ch < 160
  | .peerReady _ ch => ch < 160
  | .upgradeBegin _ ch _ => ch < 160
  | .upgradeData _ ch => ch < 160
  | .upgradeCommit _ ch _ => ch < 160
  | .powerProfile _ ch => ch < 160
  | .moduleReset _ ch => ch < 160
  | .commandDone _ ch => ch < 160
  | .permitWithdrawn _ cl => cl < 832
  | .headerFrame _ link _ => link < 64
  | .packetLanded _ link _ _ => link < 64
  | .ackFrame _ link _ _ _ _ => link < 64
  | .creditFrame _ link _ credits => link < 64 && 1 ≤ credits && credits ≤ 64
  | .controlFrame _ link _ _ => link < 64
  | .packetSend _ link => link < 64
  | .packetReplay _ link _ => link < 64
  | .linkTimer _ link => link < 64
  | .linkDown _ link _ => link < 64
  | .laneLockLoss _ link lanes => link < 64 && lanes.all (· < 10)
  | .laneErrorRate _ link lane => link < 64 && lane < 10
  | .spareLaneSwitch _ link => link < 64
  | .linkUp _ link _ _ _ => link < 64
  | .powerGood _ _ => true
  | .powerLoss _ _ => true
  | .supplyHold _ _ => true
  | .supplyHoldRelease _ => true
  | .perstAssert _ => true
  | .perstDeassert _ => true
  | .steepEnd _ => true
  | .hbmTrainingEnd _ => true
  | .kilnEnd _ => true
  | .mashEnd _ => true
  | .stageTimer _ => true
  | .stageFailure _ _ => true
  | .backoffEnd _ => true
  | .clusterBringupFail _ cl => cl < 832
  | .heartbeat _ _ => true
  | .watchdogExpiry _ => true
  | .thermalTrip _ die _ => die < 4
  | .domainReset _ _ _ _ _ => true
  | .evtPulseEnd _ => true
  | .resetRelease _ => true
  | .thermalTripRelease _ temps => temps.length = 4
  | .tripDiodeCrossing _ die _ => die < 4
  | .evtFirstEvaluation _ => true
  | .shortEnd _ n => n < 16
  | .wornCombSwitch _ cl => cl < 832

/-- The moment at which a command arrives, in tu (log entry 1). -/
def Instr.time : Instr → Nat
  | .nop t _ _ => t
  | .endOp t _ _ => t
  | .loop t _ _ => t
  | .fence t _ _ => t
  | .waitang t _ _ => t
  | .event t _ _ => t
  | .listFault t _ _ => t
  | .feed t _ _ => t
  | .wfill t _ _ => t
  | .wload t _ _ => t
  | .swap t _ _ => t
  | .rscale t _ _ => t
  | .tile t _ _ => t
  | .reduce t _ _ => t
  | .vAdd t _ _ => t
  | .vSub t _ _ => t
  | .vMul t _ _ => t
  | .vMax t _ _ => t
  | .vMin t _ _ => t
  | .vScale t _ _ => t
  | .vAxpy t _ _ => t
  | .vClamp t _ _ => t
  | .vCopy t _ _ => t
  | .vTable t _ _ => t
  | .vExp t _ _ => t
  | .vRecip t _ _ => t
  | .vRsqrt t _ _ => t
  | .vRmaxabs t _ _ => t
  | .vRmax t _ _ => t
  | .vRsum t _ _ => t
  | .vBmaxabs t _ _ => t
  | .vNstats t _ _ => t
  | .vNapply t _ _ => t
  | .vSmstats t _ _ => t
  | .vSmapply t _ _ => t
  | .vGather t _ _ => t
  | .vEdgesum t _ _ => t
  | .vDynimg t _ _ => t
  | .quantEncode t _ _ => t
  | .quantDecode t _ _ => t
  | .send t _ _ => t
  | .recv t _ _ => t
  | .xfer t _ _ => t
  | .fieldFill t _ _ => t
  | .fieldScalar t _ _ => t
  | .fieldOutput t _ _ => t
  | .tokenInvalid t _ _ => t
  | .creditReturn t _ _ => t
  | .handleFree t _ => t
  | .fenceOrder t _ _ => t
  | .groupDrained t _ _ => t
  | .stall t _ => t
  | .stepAborted t _ => t
  | .modelStepStart t _ _ => t
  | .coreCreditGrant t _ _ => t
  | .switchGrant t _ _ => t
  | .packetStart t _ _ => t
  | .reconfigEnd t _ _ => t
  | .measureEnd t _ _ => t
  | .windowEnd t _ _ => t
  | .packetEnd t _ _ => t
  | .verdict t _ _ => t
  | .probePacket t _ _ _ _ => t
  | .loadSettled t _ _ => t
  | .refreshDue t _ _ => t
  | .chainForward t _ _ => t
  | .transferIssue t _ => t
  | .transferComplete t _ _ _ => t
  | .descCompToken t _ _ => t
  | .hostBar2Read t _ _ => t
  | .hostBar2Write t _ _ => t
  | .channelMigration t _ _ => t
  | .migrationEnd t _ => t
  | .innerUpdate t _ _ _ => t
  | .outerUpdate t _ => t
  | .feedforwardUpdate t _ _ => t
  | .quietWindowOpen t _ _ => t
  | .quietClose t _ => t
  | .rotationAdvance t _ => t
  | .spareClaim t _ _ => t
  | .spareCopyDone t _ => t
  | .mirrorDone t _ => t
  | .handover t _ => t
  | .calibrationDone t _ _ _ => t
  | .calStarved t _ => t
  | .profileMoveEnd t _ _ _ => t
  | .wearSpareReady t _ => t
  | .engineSpared t _ _ _ => t
  | .lineRemapped t _ _ => t
  | .combWorn t _ _ => t
  | .clusterReturn t _ => t
  | .clusterRestartEnd t _ => t
  | .loopUpdate t _ => t
  | .loopTimer t _ => t
  | .svStale t _ => t
  | .loopEnable t _ _ _ => t
  | .loopDisable t _ _ _ => t
  | .loopHold t _ _ _ => t
  | .loopOscRelease t _ _ _ => t
  | .injectionStart t _ _ _ => t
  | .injectionStop t _ _ _ => t
  | .captureArm t _ _ => t
  | .prfTargetWrite t _ _ _ => t
  | .prfLimitWrite t _ _ _ _ => t
  | .prfStop t _ _ _ => t
  | .softwareTrigger t _ _ _ => t
  | .converterTimer t _ => t
  | .triggerPinEdge t _ _ => t
  | .conversionResult t _ _ _ => t
  | .runEnd t _ => t
  | .threePhaseSample t _ _ _ => t
  | .finFifoRead t _ _ => t
  | .finIncfgWrite t _ _ _ => t
  | .angleUpdate t => t
  | .threePhaseLoss t => t
  | .encoderLoss t => t
  | .ppcLoss t => t
  | .sourceReacquired r => r.t
  | .encoderEdge t _ _ _ => t
  | .ppcEdge t _ => t
  | .ppsEdge t => t
  | .angTodSecWrite t _ _ => t
  | .angOffsetWrite t _ _ => t
  | .angSourceWrite t _ _ => t
  | .angCycLoRead t _ => t
  | .foutDataWrite t _ _ _ => t
  | .outputTick t _ => t
  | .channelTimer t _ => t
  | .precisionCodeTake t _ => t
  | .foutRangeWrite t _ _ _ => t
  | .rangeEnd t _ => t
  | .foutEnableWrite t _ _ _ => t
  | .forceSafeWrite t _ _ _ => t
  | .readbackFaultRelease t _ _ _ => t
  | .short t _ => t
  | .safeRecordLoad t _ => t
  | .doorbell t _ _ => t
  | .mbxOutHeadWrite t _ _ => t
  | .mctpMessage t _ => t
  | .lockRead t _ _ => t
  | .lockWrite t _ _ _ => t
  | .rcRead t _ _ => t
  | .registerWrite t _ _ _ => t
  | .functionLevelReset t _ => t
  | .eventDelivery t _ => t
  | .badOpcode t _ => t
  | .identify t _ => t
  | .health t _ => t
  | .clusterHealth t _ => t
  | .coreCounts t _ => t
  | .caskRead t _ => t
  | .wearRead t _ => t
  | .memoryHealth t _ => t
  | .imageLoad t _ _ => t
  | .imageUnload t _ => t
  | .jobPlace t _ => t
  | .jobRemove t _ => t
  | .stepStart t _ => t
  | .stepAbort t _ => t
  | .stepStatus t _ => t
  | .memWrite t _ _ => t
  | .memRead t _ _ => t
  | .descWrite t _ => t
  | .descArm t _ => t
  | .descReset t _ => t
  | .descStatus t _ => t
  | .streamLimit t _ => t
  | .qntPolicy t _ => t
  | .qntCarryReset t _ => t
  | .counterClear t _ => t
  | .calSettings t _ => t
  | .quietOpen t _ => t
  | .rotAdvance t _ => t
  | .combSwitch t _ => t
  | .clusterRestart t _ => t
  | .schedWrite t _ => t
  | .schedRead t _ => t
  | .clusterGroup t _ => t
  | .fieldOwner t _ => t
  | .safeWrite t _ => t
  | .eventRoute t _ => t
  | .permSet t _ => t
  | .permRead t _ => t
  | .lockRelease t _ => t
  | .linkStatus t _ => t
  | .routeWrite t _ => t
  | .addressSet t _ => t
  | .linkMode t _ => t
  | .peerReady t _ => t
  | .upgradeBegin t _ _ => t
  | .upgradeData t _ => t
  | .upgradeCommit t _ _ => t
  | .powerProfile t _ => t
  | .moduleReset t _ => t
  | .commandDone t _ => t
  | .permitWithdrawn t _ => t
  | .headerFrame t _ _ => t
  | .packetLanded t _ _ _ => t
  | .ackFrame t _ _ _ _ _ => t
  | .creditFrame t _ _ _ => t
  | .controlFrame t _ _ _ => t
  | .packetSend t _ => t
  | .packetReplay t _ _ => t
  | .linkTimer t _ => t
  | .linkDown t _ _ => t
  | .laneLockLoss t _ _ => t
  | .laneErrorRate t _ _ => t
  | .spareLaneSwitch t _ => t
  | .linkUp t _ _ _ _ => t
  | .powerGood t _ => t
  | .powerLoss t _ => t
  | .supplyHold t _ => t
  | .supplyHoldRelease r => r.t
  | .perstAssert t => t
  | .perstDeassert t => t
  | .steepEnd t => t
  | .hbmTrainingEnd t => t
  | .kilnEnd t => t
  | .mashEnd t => t
  | .stageTimer t => t
  | .stageFailure t _ => t
  | .backoffEnd t => t
  | .clusterBringupFail t _ => t
  | .heartbeat t _ => t
  | .watchdogExpiry t => t
  | .thermalTrip t _ _ => t
  | .domainReset t _ _ _ _ => t
  | .evtPulseEnd t => t
  | .resetRelease t => t
  | .thermalTripRelease t _ => t
  | .tripDiodeCrossing t _ _ => t
  | .evtFirstEvaluation t => t
  | .shortEnd t _ => t
  | .wornCombSwitch t _ => t

end Sys2Proof
end

