-- ==== Sys2Proof/Decode.lean ====
section
/-! DEFINITION. Commands by the table's bits. The block takes commands, not instruction words: no row of
spec/opcode_table.json has bits, so no word spells a command (log entry 5). -/

namespace Sys2Proof

/-- The command that a word spells by the table's bits: none. -/
def decodeTableWord (_nbits _w : Nat) : Option Instr := none

end Sys2Proof
end

