-- ==== Sys2Proof/Config.lean ====
section
/-! DEFINITION. What the manual leaves open: every constant here is OPAQUE (no body), so no proof can use a
value of it. Each is applied to the operands it depends on, or to the plain counter State.free. Time units too. -/

namespace Sys2Proof.Config

/-- DESIGN CHOICE 9: the deviation of a row ADC code from the noiseless code of R52 (noise, gain, offset; R5). -/
opaque adcDeviation : Nat → Int
/-- DESIGN CHOICE 10: which of the FP32 values within 2 ULP of e^a EXP returns (R203). -/
opaque expPick : Word → Nat
/-- DESIGN CHOICE 10: which of the FP32 values within 1 ULP of 1/a RECIP returns (R203). -/
opaque recipPick : Word → Nat
/-- DESIGN CHOICE 10: which of the FP32 values within 1 ULP of 1/√a RSQRT returns (R203). -/
opaque rsqrtPick : Word → Nat
/-- DESIGN CHOICE 11: whether a timebase increment that is no whole number of units is rounded up (R316). -/
opaque phaseRoundsUp : Nat → Bool
/-- DESIGN CHOICE 12: the frequency the tracking loop holds after an update, Q16.16 Hz, by update and bandwidth in Hz (R317). -/
opaque trackedFreq : Nat → Nat → Nat
/-- DESIGN CHOICE 12: the phase error, in units, to a reference that the rows do not give: the zero crossings of the
three-phase source, an encoder whose Z index has not come (R317, R319). -/
opaque phaseError : Nat → Int
/-- DESIGN CHOICE 32: a loop signal whose exact value lies outside Q4.28 (R278, R281). -/
opaque loopWrap : Nat → Word
/-- DESIGN CHOICE 33: the loop value of an internal channel for which the manual gives none, by code (R307). -/
opaque railValue : BitVec 12 → Word
/-- DESIGN CHOICE 14: the phase a sweep with LEN 0 or with F1 not above 0 gains in one update, 2^-64 cycles: by F0, F1, LEN,
update (R295). -/
opaque sweepOpen : Word → Word → Word → Nat → Nat
/-- DESIGN CHOICE 14: the first contents of the PRBS register of an order (R295). -/
opaque prbsSeed : Nat → Nat
/-- DESIGN CHOICE 24: the inner set-point an outer update gives a ring, Q4.28: by update, cluster, core, ring (R242). -/
opaque outerSetPoint : Nat → Nat → Nat → Nat → Int
/-- DESIGN CHOICE 34: the highest heater code at which a ring of a cluster locked: by lock, cluster (R237, R247). -/
opaque lockTop : Nat → Nat → Nat
/-- DESIGN CHOICE 34: the heater code at which a ring locked, by lock, cluster, core, ring (R237, R247). -/
opaque lockCode : Nat → Nat → Nat → Nat → Nat
/-- DESIGN CHOICE 76: the phase of a dither tone at moment 0, in 1/2000 cycle: by cluster, core, cell (R239). -/
opaque ditherPhase : Nat → Nat → Nat → Nat
/-- DESIGN CHOICE 76: whether a dither sample that is no whole code is the code further from 0: by cluster, core, ring,
sample (R239). -/
opaque ditherUp : Nat → Nat → Nat → Nat → Bool
/-- DESIGN CHOICE 77: LOCK_ERR, Q4.28, of a ring whose lock slope is 0 (R241). -/
opaque lockErr : Nat → Int
/-- DESIGN CHOICE 35: a knot that Mash or a cluster restart calibrates: by calibration, cluster, core, cell, knot (R255). -/
opaque calKnot : Nat → Nat → Nat → Nat → Nat → BitVec 8
/-- DESIGN CHOICE 35: g_cal that Mash or a restart calibrates: by calibration, cluster, core, engine (R37, R255). -/
opaque calGain : Nat → Nat → Nat → Nat → Nat
/-- DESIGN CHOICE 35: o_cal that Mash or a restart calibrates: by calibration, cluster, core, engine (R37, R255). -/
opaque calOffset : Nat → Nat → Nat → Nat → Nat
/-- DESIGN CHOICE 35: LINE_CODES that Mash or a restart calibrates: by calibration, cluster, core, ring (R237, R255). -/
opaque calLine : Nat → Nat → Nat → Nat → Nat
/-- DESIGN CHOICE 35: a lock slope that Mash, a restart or the factory calibrated, in 2^-16 converter codes per heater code:
by calibration, cluster, core, ring (R241, R255). -/
opaque calSlope : Nat → Nat → Nat → Nat → Int
/-- DESIGN CHOICE 35: K_FF that Mash or a restart calibrates: by calibration, cluster, core (R243, R255). -/
opaque calKff : Nat → Nat → Nat → Nat
/-- DESIGN CHOICE 35: a dark offset that Mash or a restart calibrates: by calibration, cluster, core, engine (R255). -/
opaque calDark : Nat → Nat → Nat → Nat → Int
/-- DESIGN CHOICE 35: the LO phase that Mash or a restart calibrates: by calibration, cluster, core (R255). -/
opaque calLo : Nat → Nat → Nat → Nat
/-- DESIGN CHOICE 35: whether Mash or a restart finds a value of an engine outside its range: by calibration, cluster,
core, engine (R37, R237). -/
opaque calFails : Nat → Nat → Nat → Nat → Bool
/-- DESIGN CHOICE 89: whether a firmware bank (false A, true B) verifies as shipped (R420). -/
opaque bankVerifies : Bool → Bool
/-- DESIGN CHOICE 37: whether the standby control processor boots in place of the primary (R420). -/
opaque standbyBoots : Nat → Bool
/-- DESIGN CHOICE 27: the pull on the time-of-day counter's rate, ns per 1 PPS period (R326). -/
opaque todRate : Nat → Int
/-- DESIGN CHOICE 29: the boot bank's version bytes, service hours, repair counts and other figures that
IDENTIFY, WEAR_READ, MEMORY_HEALTH and HEALTH report from sources the manual does not describe. -/
opaque reported : Nat → Nat

/-- DESIGN CHOICE 70: whether a read of HBM meets an uncorrectable error in a line: by read, stack, logical channel, line
of the stack (R210, R214). -/
opaque hbmStruck : Nat → Nat → Nat → Nat → Bool
/-- DESIGN CHOICE 70: corrected errors that a read of HBM meets: by read and stack (R235). -/
opaque hbmCorrected : Nat → Nat → Nat
/-- DESIGN CHOICE 78: whether an uncorrectable error is a row failure that post-package repair replaces: by read, line (R22). -/
opaque rowFails : Nat → Nat → Bool
/-- DESIGN CHOICE 78: repair rows of a stack left at manufacture (R22). -/
opaque repairRows : Nat → Nat
/-- DESIGN CHOICE 65: mesh links that a chain hop from one cluster to a cluster of another die crosses (R231). -/
opaque edgeLinks : Nat → Nat → Nat
/-- DESIGN CHOICE 23: the first contents of the CRC-16 register of a header frame (R393). -/
opaque crcStart : BitVec 16
/-- DESIGN CHOICE 23: what a header frame's CRC-16 is XORed with at the end (R393). -/
opaque crcEnd : BitVec 16
/-- DESIGN CHOICE 23: the order of a header frame's CRC-16: 0 the last byte goes first, 1 the highest bit of a byte goes first,
2 the result's bits stand the other way round (R393). -/
opaque crcOrder : Nat → Bool
/-- DESIGN CHOICE 23: bits [111:4] of an ack, credit or control frame, by TYPE and what the frame carries (R394). -/
opaque frameBody : Nat → List Nat → BitVec 108
/-- DESIGN CHOICE 38: codewords corrected on a link that is up, between two moments (R390, R414). -/
opaque cwCorrected : Nat → Nat → Nat → Nat
/-- DESIGN CHOICE 38: figures that hardware measures by itself, by figure, unit and moment: 2 the received power of a
link's weakest lane, Q8.8 dBm, 3 that lane. -/
opaque measured : Nat → Nat → Nat → Nat

/-! Time units: 1 tu = 1/6 ns, so a fabric cycle is 4 tu and a symbol 3 tu (R18). -/

/-- One ns in tu. -/
abbrev ns : Nat := 6
/-- One fabric cycle in tu (R18). -/
abbrev cycle : Nat := 4
/-- One symbol in tu (R18). -/
abbrev symbol : Nat := 3
/-- One µs in tu. -/
abbrev us : Nat := 6000
/-- One ms in tu. -/
abbrev ms : Nat := 6000000
/-- One s in tu. -/
abbrev sec : Nat := 6000000000

end Sys2Proof.Config
end

