-- ==== Sys2Proof/Machine/Bits.lean ====
section
/-! DEFINITION. Bit fields, byte order (R9), saturating and wrapping counters, rounding of exact quotients. -/

namespace Sys2Proof.Machine

/-- One bit as a word of width 1. -/
def bit (b : Bool) : BitVec 1 := BitVec.ofBool b

/-- Field [lo+n-1:lo] of a word, as a number (R9). -/
def field {w : Nat} (x : BitVec w) (lo n : Nat) : Nat := (x.toNat >>> lo) % 2 ^ n

/-- Bit k of a word. -/
def flag {w : Nat} (x : BitVec w) (k : Nat) : Bool := x.getLsbD k

/-- A word with field [lo+n-1:lo] replaced. -/
def putField {w : Nat} (x : BitVec w) (lo n v : Nat) : BitVec w :=
  BitVec.ofNat w (x.toNat - (field x lo n) * 2 ^ lo + (v % 2 ^ n) * 2 ^ lo)

/-- A counter that stops at its maximum (R133, R140, R174). -/
def satInc {w : Nat} (x : BitVec w) : BitVec w := if x = BitVec.allOnes w then x else x + 1

/-- A counter raised by n that stops at its maximum. -/
def satAdd {w : Nat} (x : BitVec w) (n : Nat) : BitVec w :=
  BitVec.ofNat w (min (x.toNat + n) (2 ^ w - 1))

/-- A count as a field of w bits that stops at its maximum reads it. -/
def stopsAt (w n : Nat) : Nat := min n (2 ^ w - 1)

/-- The n newest entries of a list that grows at its end. -/
def newest {α : Type} (n : Nat) (xs : List α) : List α := xs.drop (xs.length - n)

/-- Bytes read as a little-endian number (R9). -/
def le : List Byte → Nat
  | [] => 0
  | b :: bs => b.toNat + 256 * le bs

/-- The n little-endian bytes of a number (R9). -/
def toLe : Nat → Nat → List Byte
  | 0, _ => []
  | n + 1, v => BitVec.ofNat 8 v :: toLe n (v / 256)

/-- The little-endian field of n bytes at an offset; bytes that are absent read 0. -/
def leAt (bs : List Byte) (off n : Nat) : Nat := le ((bs.drop off).take n)

/-- A number of n bits read as two's complement. -/
def signedOf (n v : Nat) : Int := if v % 2 ^ n < 2 ^ (n - 1) then ((v % 2 ^ n : Nat) : Int) else ((v % 2 ^ n : Nat) : Int) - 2 ^ n

/-- The signed little-endian field of n bytes at an offset. -/
def sleAt (bs : List Byte) (off n : Nat) : Int := signedOf (8 * n) (leAt bs off n)

/-- An Int as the two's-complement number of n bits. -/
def wrapTo (n : Nat) (v : Int) : Nat := (v % (2 ^ n : Int)).toNat

/-- v limited to the range from lo to hi. -/
def clampInt (v lo hi : Int) : Int := max lo (min v hi)

/-- num ÷ den rounded to nearest, ties to even; den must not be 0. -/
def roundEvenNat (num den : Nat) : Nat :=
  let q := num / den
  let r := num % den
  if 2 * r < den then q else if den < 2 * r then q + 1 else if q % 2 = 0 then q else q + 1

/-- num ÷ den rounded to nearest, ties to even, for a signed numerator. -/
def roundEven (num : Int) (den : Nat) : Int :=
  if num < 0 then - (roundEvenNat num.natAbs den : Int) else (roundEvenNat num.natAbs den : Int)

/-- Bytes of a payload field list laid out from an offset: each (offset, bytes) replaces what stands there. -/
def layBytes (len : Nat) (parts : List (Nat × List Byte)) : List Byte :=
  (List.range len).map fun i =>
    parts.foldl (fun b p => if p.1 ≤ i ∧ i < p.1 + p.2.length then p.2.getD (i - p.1) 0 else b) 0

/-- The number of bits set. -/
def popCount {w : Nat} (x : BitVec w) : Nat := ((List.range w).filter fun k => x.getLsbD k).length

/-- The indices of the bits set, ascending. -/
def bitsOf {w : Nat} (x : BitVec w) : List Nat := (List.range w).filter fun k => x.getLsbD k

/-- A byte field padded with zeros, or cut, to n bytes. -/
def padTo (n : Nat) (bs : List Byte) : List Byte := (bs.take n) ++ List.replicate (n - bs.length) 0

/-- The 32-bit little-endian words of a byte list; a short last word is cut off. -/
def wordsOf : List Byte → List Word
  | a :: b :: c :: d :: r => BitVec.ofNat 32 (le [a, b, c, d]) :: wordsOf r
  | _ => []

/-- The 16-bit little-endian words of a byte list. -/
def halvesOf : List Byte → List Half
  | a :: b :: r => BitVec.ofNat 16 (le [a, b]) :: halvesOf r
  | _ => []

/-- 32-bit words as little-endian bytes. -/
def bytesOfWords (ws : List Word) : List Byte := ws.flatMap fun w => toLe 4 w.toNat

/-- 16-bit words as little-endian bytes. -/
def bytesOfHalves (hs : List Half) : List Byte := hs.flatMap fun h => toLe 2 h.toNat

end Sys2Proof.Machine
end

