-- ==== Sys2Proof/Machine/State.lean ====
section
/-! DEFINITION. The state of the HG-1 as plain data, and State.reset: the module at D0 power-good with PERST#
asserted. Beside each field: its manual name and width, the spec file and rule, its reset value.
A Tab is a sparse table: an absent key holds the record's default. -/

namespace Sys2Proof.Machine

/-- Why the machine stops with a fault. -/
inductive Fault where
  /-- A command names a unit, register index or channel that the module does not have (R16, R351, R354): any
  meaning raises it. Safe: the manual gives no such unit, and nothing about the module is claimed. -/
  | noSuchUnit
deriving DecidableEq, Repr

/-- Why a command has no meaning. -/
inductive Refusal where
  /-- A row that has no meaning yet (none in this model). Safe. -/
  | notModelled (mnemonic : String)
deriving DecidableEq, Repr

/-- A sparse table by key, keys strictly rising; an absent key holds the default of its record. -/
abbrev Tab (α : Type) := List (Nat × α)

/-- Addressed bytes in canonical form: addresses strictly rising, no byte 0x00 listed (log entry 6). -/
abbrev Memory := List Host.Cell

/-! ### Streams, queues, pools, firing lists (06, 07) -/

/-- One hamper queue entry. -/
structure QEntry where
  tok : Dword := 0              -- token word, 64 bits; 06 R141 R149; queue empty
  got : List UnitId := []       -- writers whose token is in; 06 R155; none
  need : Nat := 1               -- writers the list names; 06 R155; 1
  due : Nat := 0                -- moment from which it is present, tu; 06 R146; 0
  tile : Half := 0              -- SEQ of the tile that its writers share; 06 R155; 0
deriving DecidableEq, Repr

/-- One stream edge: a consuming input with its hamper queue of 64 entries. -/
structure Consumer where
  unit : UnitId                 -- consuming unit; 06 R150; set at placement
  c : Nat := 1                  -- initial credits C, 1 to 64; 06 R151; set at placement
  credits : Nat := 0            -- credits the producer holds, 7 bits; 06 R151 R153; 0
  queue : List QEntry := []     -- hamper queue, 64 entries; 06 R149; empty
  owed : Nat := 0               -- credits owed to the producer; 06 R152; 0
  owedSeq : Half := 0           -- SEQ of the last handle taken; 06 R142; 0
  owedSince : Nat := 0          -- moment of the first credit owed, tu; 06 R152; 0
  creditAt : Nat := 0           -- last arrival of credits at the producer, tu; 06 R172; 0
deriving DecidableEq, Repr

/-- A running credit wait. -/
structure CreditWait where
  owing : List (Nat × UnitId × Nat) := [] -- edges that lacked credits: stream, consumer, credits needed; 06 R169; none
  met : Option Nat := none      -- what a guarded wait lacks came back at, tu; 06 R172; none
  since : Nat := 0              -- start of the wait, tu; 06 R167; no wait
  pools : List Nat := []        -- pools of which the step needs a handle; 06 R169; none
  limit : Nat := 1000           -- N in force, µs, 20 bits; 06 R168; 1000
deriving DecidableEq, Repr

/-- The QNT record of a stream. -/
structure Qnt where
  satCodes : Word := 0          -- QNT_SAT, 32; 05 R140; 0
  underBlocks : Word := 0       -- QNT_UNDER, 32; 05 R140; 0
  zeroBlocks : Word := 0        -- QNT_ZERO, 32; 05 R140; 0
  replays : Half := 0           -- QNT_REPLAY.REPLAYS, 16; 05 R140; 0
  secondExc : Half := 0         -- QNT_REPLAY.SECOND_EXC, 16; 05 R140; 0
  format : BitVec 3 := 0        -- QNT_STAT.FORMAT, 3; 05 R140; 0
  carried : Bool := false       -- QNT_STAT.MODE, 1; 05 R140; MEASURED
  headroom : BitVec 2 := 0      -- QNT_STAT.HEADROOM, 2; 05 R140; 0
  policy : BitVec 2 := 0        -- QNT_STAT.POLICY, 2; 05 R140; EVENT
  zeroRange : Bool := false     -- QNT_STAT.ZERO_RANGE, 1; 05 R140; 0
  carry : Option (Int × Nat) := none -- carried state: E_prev and the feeding cluster (CARRY_VALID, CARRY_EXP); 05 R130; empty
  lastExp : BitVec 8 := 0       -- QNT_STAT.LAST_EXP, 8; 05 R140; 0
  satThresh : Half := 0xFFFF    -- QNT_THRESH.SAT_THRESH, 16; 05 R140; 0xFFFF
  underThresh : Half := 0xFFFF  -- QNT_THRESH.UNDER_THRESH, 16; 05 R140; 0xFFFF
  nan : Half := 0               -- QNT_ERR.NAN, 16; 05 R140; 0
  rxReserved : BitVec 8 := 0    -- QNT_ERR.RX_RESERVED, 8; 05 R140; 0
  pairMismatch : BitVec 8 := 0  -- QNT_ERR.PAIR_MISMATCH, 8; 05 R140; 0
  carryFallback : Half := 0     -- QNT_MISC.CARRY_FALLBACK, 16; 05 R140; 0
  expClamp : Half := 0          -- QNT_MISC.EXP_CLAMP, 16; 05 R140; 0
deriving DecidableEq, Repr

/-- A packet pair of a narrow tensor between a quantiser and a link port. -/
structure Pair where
  pseq : Half := 0              -- packet sequence number, 16; 05 R118; none
  src : Half := 0               -- module it came from, 16; 15 R394; none
  data : Option (List Byte) := none  -- data packet; 05 R118; none
  scales : Option (List Byte) := none -- scale packet; 05 R118; none
deriving DecidableEq, Repr

/-- A numbered stream, its HQ, QNT and row-scaler records. -/
structure Stream where
  img : Option Nat := none      -- image index that placed it; 06 R141; none
  pool : BitVec 12 := 0         -- HQ_STATE.POOL, 12; 06 R174; 0
  producers : List UnitId := [] -- producing units; 06 R142 R155; none
  consumers : List Consumer := [] -- edges; 06 R150 R154; none
  seq : List (UnitId × Half) := [] -- next SEQ of each producer, 16; 06 R142; 0
  tiles : List (Half × Nat) := [] -- multi-writer tiles begun: SEQ, handle; 06 R155; none
  hq : BitVec 3 := 0            -- HQ_STATE.STATE, 3; 06 R174; 0x0
  stalled : Bool := false       -- HQ_STATE.STALLED, 1; 06 R174; 0
  lastSent : Half := 0          -- HQ_SEQ.LAST_SENT, 16; 06 R174; 0
  lastCredited : Half := 0      -- HQ_SEQ.LAST_CREDITED, 16; 06 R174; 0
  limit : BitVec 20 := 0x3E8    -- HQ_TIMER.CW_LIMIT, 20; 06 R174; 0x003E8
  stalls : Half := 0            -- HQ_STALL.STALLS, 16; 06 R174; 0
  maxWait : Half := 0           -- HQ_STALL.MAX_WAIT, 16; 06 R174; 0
  wait : Option CreditWait := none -- credit-wait timer; 06 R167; stopped
  guard : Option CreditWait := none -- the timer's wait without credit tokens behind it; 06 R167; stopped
  guardStalled : Bool := false  -- that wait's part of HQ_STATE.STALLED; 06 R169 R174; 0
  chain : Bool := false         -- a WFILL with FORWARD passes images along it; 08 R230; false
  sink : Dword := 0             -- MODEL: the STEP_ABORTED token its sinks took in the last abort, 64 bits; 06 R171; none
  qnt : Qnt := {}               -- QNT record; 05 R140; see Qnt
  rowClip : Word := 0           -- STR_ROW_CLIP, 32; 08 R236; 0
  rowOvf : Word := 0            -- STR_ROW_OVF, 32; 08 R236; 0
  winDemote : Word := 0         -- STR_WIN_DEMOTE, 32; 08 R236; 0
  rowLen : Nat := 32            -- innermost row length of a narrow tensor; 05 R113; 32
  elems : Nat := 0              -- element count of a narrow tensor; 05 R119; 0
  rx : List Pair := []          -- packets landed for the stream and not yet taken; 05 R120, 15 R405; none
  pseq : Half := 0              -- next PSEQ to send, or to take, 16; 15 R394; DESIGN CHOICE 0 (log entry 7)
  taken : List (Half × Bool) := [] -- PSEQ (and scale flag) of the last 64 packets taken; 15 R406; none (log entry 51)
  peerLost : Bool := false      -- its RECV route is down in this step; 15 R408; false
deriving DecidableEq, Repr

/-- A handle in use. -/
structure InUse where
  handle : Nat := 0             -- the handle; 06 R146; none
  left : Nat := 1               -- releases still to come; 06 R154; the number of consumers
  ends : Nat := 0               -- latest end of the steps that have released it, tu; 06 R154 R160; 0
  stream : Nat := 0             -- stream whose producer took it; 06 R163; none
deriving DecidableEq, Repr

/-- A pool of equal buffers. -/
structure Pool where
  img : Option Nat := none      -- image index that placed it; 06 R158; none
  inHbm : Bool := false         -- HQ_POOL_SIZE.LOCATION, 1; 06 R174; 0
  cluster : Nat := 0            -- cluster whose SRAM holds it; 06 R158; 0
  base : Nat := 0               -- address of handle 0; 06 R158; 0
  bufSize : Nat := 4096         -- buffer size in bytes; 06 R158 R159; 4 KiB
  size : Half := 0              -- HQ_POOL_SIZE.SIZE, 16; 06 R174; 0
  freeList : List Nat := []     -- free handles in offer order (FREE is their number); 06 R160 R174; none
  back : List (Nat × Nat) := [] -- released handles and the moment each is offered again, in that order; 06 R160; none
  counts : List InUse := []     -- handles in use; 06 R154 R163; none
  offeredAt : Nat := 0          -- last moment at which handles were offered again, tu; 06 R172; 0
  minFree : Half := 0xFFFF      -- HQ_POOL_FREE.MIN_FREE, 16; 06 R174; 0xFFFF
  pairs : List (Nat × List Pair) := [] -- narrow packets held by a handle; 05 R110 R118; none
deriving DecidableEq, Repr

/-- Where a unit's list stands. -/
inductive Phase where
  | idle      -- outside a model step
  | running   -- in its list
  | ended     -- at END
  | faulted   -- fires nothing further (R179)
deriving DecidableEq, Repr

/-- A placed firing list with its tables and position. -/
structure Prog where
  unit : UnitId := .field       -- the unit; 07 R175; none placed
  list : List Dword := []       -- firing list, 64-bit entries; 07 R175 R176; empty (every entry an unlisted opcode)
  routes : List Word := []      -- route table, 64 x 32; 07 R175; empty
  plans : List Dword := []      -- plan table, 64 x 64; 07 R175 R195; empty
  shapes : List Word := []      -- shape table, 64 x 32; 07 R175; empty
  consts : List Word := []      -- constant table, 64 FP32; 07 R175; empty
  tables : List FnTable := []   -- function tables, 8; 07 R175 R204; empty
  pos : Nat := 0                -- list position; 07 R177; 0
  ctr : List (Option Nat) := [none, none, none, none] -- LOOP counters LEVEL 0 to 3, 16 bits or idle; 07 R182; idle
  phase : Phase := .idle        -- step phase; 07 R178 R184; idle
  busyUntil : Nat := 0          -- end of the operation in flight, tu; 07 R177; 0
  ang : Option (Word × Nat) := none -- WAITANG angle and crossings still to let pass; 07 R185; none
  angAt : Nat := 0              -- moment at which the unit reached WAITANG, tu; 07 R185; 0
  drained : Option Nat := none  -- group it has reported drained; 06 R162; none
  armed : List Nat := []        -- descriptors armed by XFER in this layer; 06 R161; none
  orderSent : Option (List Nat) := none -- FENCE_ORDER raised, and the outputs that have had its token; 06 R165; none
  rowMask : BitVec 8 := 0xFF    -- RSCALE ROW_MASK; 07 R192; 0xFF
  raw : Bool := false           -- RSCALE RAW; 07 R192; 0
  left : List Word := []        -- codes FIELD 0x2 has still to queue; 12 R333; none
  held : Option (Nat × Nat) := none -- stream and handle held by the operation in flight; 06 R146; none
  fired : Nat := 0              -- MODEL: at a shared unit, the number of its latest firing among the unit's; 07 R459; 0
deriving DecidableEq, Repr

/-- Causes of an abort, as STEP_ABORTED byte 21 numbers them (R386). -/
abbrev Cause := Nat

/-- A loaded image and its job. -/
structure ImgRec where
  loaded : Bool := false        -- an image is loaded at this index; 14 R380; false
  img : Image := {}             -- the image, while it is placed with the numbers that firmware assigned; 14 R380, 06 R141; none loaded
  asLoaded : Option Image := none -- the image as loaded, while it is placed under other numbers; 06 R141; none
  owner : Nat := 0              -- identity that loaded it; 13 R368; 0
  placed : Option (List Nat) := none -- clusters it is placed on; 14 R380; not placed
  running : Bool := false       -- a model step runs; 07 R178; false
  starts : Word := 0            -- start count, 32; 07 R178; 0
  overrun : Word := 0           -- STEP_OVERRUN, 32; 07 R178; 0
  completed : Word := 0         -- steps completed, 32; 14 R380; 0
  startedAt : Nat := 0          -- start of the running step, tu; 14 R380; 0
  lastUs : Word := 0            -- last step duration, µs; 14 R380; 0
  waiting : Bool := false       -- its placement waits for a shared unit's step or a permit's fence; 03 R82, 07 R175; false
  promised : List Nat := []     -- clusters whose permit its placement still waits for; 03 R81 R82 R84; none
  abort : Option (Cause × Nat) := none -- abort under way: cause and first stream named; 06 R171; none
  cmdStart : Option (Nat × Nat × Nat) := none -- last start by STEP_START: fabric cycle, channel, place of its response; 14 R382; none
deriving DecidableEq, Repr

/-! ### Light path (02, 04, 05) -/

/-- Where a tile packet stands. -/
inductive PacketPhase where
  | waiting                     -- its FEED stands, light not begun
  | granted                     -- the switch has granted its cores
  | reconfig (until_ : Nat)     -- 2 ns reconfiguration
  | measuring (until_ : Nat)    -- 40 ns measuring pass
  | running                     -- windows run
  | ended (at_ : Nat)           -- final window over, verdict awaited
deriving DecidableEq, Repr

/-- A tile packet of a feeder. -/
structure Packet where
  hdr : Dword := 0              -- header word, 64; 04 R95; none
  img : Nat := 0                -- image whose FEED built it; 07 R188; 0
  stream : Nat := 0             -- FEED's STREAM_IN; 07 R181; 0
  handle : Option Nat := none   -- handle held; 04 R97; none
  tok : Dword := 0              -- the data token taken; 06 R156; 0
  readySince : Option Nat := none -- moment handle and credits were all present, tu; 04 R103; none
  unrouted : Bool := false      -- the route it took was cleared while it held its cores; 04 R100; false
  phys : List Nat := []         -- physical cores lit; 04 R106; none
  phase : PacketPhase := .waiting -- packet phase; 04 R97 to R101; waiting
  replay : Bool := false        -- this pass is a replay; 05 R138; false
  measured : Bool := true       -- MEASURED mode; 05 R128; true
  exp : Int := 0                -- the carried e_x; 05 R129; 0
  policy : BitVec 2 := 0        -- the stream's policy for this tile; 05 R135; EVENT
  satThresh : Half := 0xFFFF    -- SAT_THRESH for this tile; 05 R134; 0xFFFF
  underThresh : Half := 0xFFFF  -- UNDER_THRESH for this tile; 05 R134; 0xFFFF
  sat : Nat := 0                -- saturated codes of this pass; 05 R134; 0
  under : Nat := 0              -- under-range vectors of this pass; 05 R134; 0
  maxMag : Half := 0            -- running maximum, BF16 magnitude; 05 R129; 0
  win : Nat := 0                -- windows completed; 04 R95; 0
  winEnd : Nat := 0             -- end of the running window, tu; 04 R87; 0
  nanIn : Bool := false         -- a NaN was converted; 05 R123; false
deriving DecidableEq, Repr

/-- A feeder and its route. -/
structure Feeder where
  route : Option (List Nat) := none -- physical cores of the route the switch keeps; 04 R100; none
  listener : Option Nat := none -- listener entry: core 0 to 33 and valid; 04 R109; not valid
  packet : Option Packet := none -- the packet; 04 R97; none
  notBefore : Nat := 0          -- earliest start of the next packet, tu; 05 R137; 0
  probe : Option (Nat × Nat) := none -- core that its latest probe packet lights, and until when, tu; 04 R109, 09 R256; none
deriving DecidableEq, Repr

/-- A weight image: 512-byte code block and 64-byte trailer; [] stands for zeros. -/
structure WImage where
  code : List Byte := []        -- code block, 512 bytes; 02 R38 R458; zero
  trailer : List Byte := []     -- row trailer, 64 bytes; 02 R39 R458; zero
  filling : Bool := false       -- a WFILL still forwards from the slot; 08 R232; false
deriving DecidableEq, Repr

/-- An image in the cells' holds: the weight codes and the drive codes of R36. -/
structure Held where
  slot : Nat := 0               -- slot it came from, 5 bits; 07 R190; 0
  image : WImage := {}          -- the image; 02 R33; zero
  drive : List Int := []        -- drive code of each cell, 8 bits; 02 R36; none
  start : Nat := 0              -- start of its load, tu; 02 R46; 0
  usable : Bool := false        -- settled under R43; 02 R43; false
  byList : Bool := false        -- loaded by a WLOAD since the last swap; 07 R191; false
  refresh : Bool := false       -- the copy of a refresh; 02 R46; false
deriving DecidableEq, Repr

/-- An image that a core has still to forward along a chain (R232). -/
structure Forward where
  stream : Nat := 0             -- STREAM_FWD; 07 R181; none
  slot : Nat := 0               -- slot that holds the image; 08 R232; none
  tok : Dword := 0              -- the token taken with the image; 06 R156; none
  last : Bool := false          -- LAST of the chain token; 06 R141; 0
deriving DecidableEq, Repr

/-- A TILE prepared or running on a core. -/
structure TileRun where
  img : Nat := 0                -- image; 07 R193; 0
  pos : Nat := 0                -- position whose list holds it; 07 R193; 0
  slot : Nat := 0               -- SLOT; 07 R181; 0
  win : BitVec 3 := 0           -- WINDOW; 07 R181; 0
  width : BitVec 3 := 0         -- WIDTH; 07 R181; 0
  range : BitVec 2 := 0         -- RANGE; 07 R181; 0
  feeder : Nat := 0             -- FEEDER; 07 R181; 0
  out : Nat := 0                -- STREAM_OUT; 07 R181; 0
  handle : Nat := 0             -- handle written; 07 R194; 0
  seq : Half := 0               -- SEQ of the tile; 06 R142; 0
  count : Nat := 0              -- windows, COUNT + 1; 07 R194; 0
  slice : Nat := 0              -- SLICE; 07 R194; 0
  rowMask : BitVec 8 := 0xFF    -- ROW_MASK; 07 R192; 0xFF
  raw : Bool := false           -- RAW; 07 R192; 0
  res : List Word := []         -- results so far, FP32; 07 R194; none
  codes : List Nat := []        -- error codes met; 06 R144; none
  suspect : Bool := false       -- SUSPECT; 06 R141; 0
  unsettled : Bool := false     -- UNSETTLED; 06 R141; 0
  tokFlags : Dword := 0         -- flags inherited from the packet's token; 06 R156; 0
  gains : List Word := []       -- G of each row, FP32; 02 R56; none
  eb : Option Nat := none       -- effective bits of the latest window, 1/10 bit: the optical product's; 03 R64 R68 R69; none
  ebIn : Option Nat := none     -- the same against the activations before rounding; 03 R70; none
  noLight : Option (Nat × Option Half) := none -- it ends without light: code, and the SEQ of the error token that goes out; 04 R96, 06 R157; none
deriving DecidableEq, Repr

/-! ### Ring holding (09) -/

/-- The running window of an oscillation detector (R293). -/
structure OscWin where
  n : Nat := 0                  -- updates in the window; 10 R293; 0
  crossings : Nat := 0          -- crossings counted; 10 R293; 0
  peak : Nat := 0               -- peak |e|; 10 R293; 0
  side : Int := 0               -- last band side: 1, -1 or 0; 10 R293; 0
deriving DecidableEq, Repr

/-- Position, velocity and acceleration: of a profile generator in units of 2^-96 of full scale, per s and per s²; of a
ring's move in units of 2^-96 heater codes, per ms and per ms². -/
structure Motion where
  pos : Int := 0                -- position; 10 R297; 0
  vel : Int := 0                -- velocity; 10 R297; 0
  acc : Int := 0                -- acceleration; 10 R297; 0
deriving DecidableEq, Repr

/-- One ring's lock loop. Q4.28 values are Ints in units of 2^-28; 1.0 is 4,096 heater codes (R278). -/
structure Ring where
  lockErr : Int := 0            -- LOCK_ERR, Q4.28; 09 R241; 0
  integ : Int := 0              -- inner-loop integrator, Q4.28; 09 R245; 0
  out : Int := 0                -- inner-loop output, Q4.28; 09 R238; 0
  sec : List (List Int) := []   -- section states x1 x2 y1 y2 of 2 sections; 10 R280; 0
  set : Nat := 0                -- coefficient set in use, 2 bits; 09 R244; 0
  schedOff : Bool := false      -- gain scheduling off until the next slot ends; 09 R246; false
  frozen : Nat := 0             -- inner updates left of an oscillation freeze; 10 R294; 0
  osc : OscWin := {}            -- oscillation detector; 10 R293; see OscWin
  prof : Int := 0               -- profile-generator offset, heater codes; 09 R238; 0
  hCal : Int := 0               -- calibrated heater code at T_CAL; 09 R260; 0
  hMash : Int := 0              -- the same at Mash; 09 R276; 0
  lineCodes : Option Nat := none -- LINE_CODES a slot has calibrated; 09 R237; none: the factory's, DESIGN CHOICE nominal 341 (log entry 7)
  slope : Option Int := none    -- lock slope a slot has calibrated, 2^-16 converter codes per heater code; 09 R241 R255; none: the factory's, free (log entry 35)
  badSince : Option (Nat × Nat × Nat) := none -- its last good check, where later checks of its core were not good for it; 09 R260; none
  clamped : Nat := 0            -- consecutive inner updates at a clamp; 09 R268; 0
  moving : Option (Int × Nat) := none -- profile move: offset at its end, end time tu; 09 R247; none
  moveAt : Nat := 0             -- moment at which that move was planned, tu; 09 R247; 0
  moveFrom : Motion := {}       -- motion in which it was planned, 2^-96 codes, ms; 09 R247; 0
  moveLim : Nat × Nat × Nat := (50, 10, 5) -- limits it was planned under: codes per ms, ms², ms³; 09 R247 R275, 14 R380; the defaults
  resumeAt : Nat := 0           -- inner updates resume from, tu; 09 R247; 0
  good : Bool := true           -- settled threshold met at the latest update; 09 R248; true
  mislock : Int := 0            -- lines off that it has still to be moved, n; 09 R260 R262; 0
  found : Bool := false         -- found mislocked, and neither moved nor verified since; 09 R260 R277; false
deriving DecidableEq, Repr

/-- The states of a physical core, in R251 table order. -/
inductive CoreState where
  | inService | unsettled | leaving | spareReady | calibrating | recovering | heldOut | cold | retired
deriving DecidableEq, Repr

/-- Why a core is LEAVING. -/
inductive LeaveCause where
  | mislock | engineFault | retire | thermal | slot
deriving DecidableEq, Repr

/-- A physical core: weight store, holds, calibration, rings. -/
structure Core where
  st : CoreState := .inService  -- core state; 09 R251; DESIGN CHOICE cores 0..31 IN_SERVICE, 32 SPARE_READY, 33 COLD (log entry 7)
  cause : Option LeaveCause := none -- why it leaves or recovers; 09 R251; none
  engines : List Nat := [0, 1, 2, 3, 4, 5, 6, 7] -- engine map, position to physical engine; 02 R31; DESIGN CHOICE identity (log entry 7)
  engFailed : List Nat := []    -- physical engines failed; 01 R22; none
  slots : Tab WImage := []      -- weight SRAM and trailer store, 32 slots; 02 R37 R458; zero
  shadow : Option Held := none  -- shadow holds; 02 R33; nothing loaded
  active : Option Held := none  -- active holds; 02 R33; nothing loaded
  prefetch : Option (Nat × Bool) := none -- slot whose load restarts after a refresh, and whether the list's WLOAD loaded it; 02 R48, 07 R191; none
  knots : Tab (List (BitVec 8)) := [] -- K[0..8] of cell (engine*64+j), 9 x 8; 02 R35; DESIGN CHOICE identity map (log entry 7)
  noise : Tab (Nat × Nat) := [] -- each engine's present run of 2^20 windows: windows, deviation spent; 03 R63; none
  rows : Tab (Word × Word) := [] -- g_cal and o_cal of each engine, FP32; 02 R37; DESIGN CHOICE 1.0 and 0.0 (log entry 7)
  kff : Nat := 68               -- K_FF, codes per °C; 09 R243; DESIGN CHOICE nominal 68 (log entry 7)
  calDraw : Option Nat := none  -- MODEL: index of the free values of its own calibration, where it was warmed by itself (log entry 35)
  dark : Tab Int := []          -- dark offset of each engine a slot has calibrated; 09 R255; none: the factory's, DESIGN CHOICE 0 (log entry 7)
  lo : Option Nat := none       -- LO phase a slot has calibrated; 09 R255; none: the factory's, DESIGN CHOICE 0 (log entry 7)
  tCal : Int := 260000          -- T_CAL, sum of 4 sensors in 1/1000 °C; 09 R243; DESIGN CHOICE 65 °C (log entry 7)
  ff : Int := 0                 -- feedforward term, 1/4000 code; 09 R243; 0
  hOff : Int := 0               -- what H_EXP adds for a term that still moves to a new T_CAL, 1/4000 code; 09 R243 R260; 0
  hOffGoal : Int := 0           -- where that ends, 1/4000 code; 09 R243 R260; 0
  hMash : Int := 0              -- where it ended at Mash, codes; 09 R276; 0
  hLock : Nat := 0              -- MODEL: index of the free codes at which its rings had locked at Mash, 0 = no Mash; 09 R276; 0 (log entry 34)
  entered : Bool := false       -- entered through a ramp and not yet settled; 09 R249; false
  mon : List (List Nat) := []   -- samples of the 9 monitor photodiodes, one list a round of 9 µs, at most 222, oldest first; 09 R240 R241; none
  monAt : Nat := 0              -- end of the last round, tu; 09 R240; 0
  calNew : Option CalValues := none -- calibration measured in the running slot; 09 R255; none
  calibrated : Bool := false    -- has completed a calibration since the cluster came up; 16 R423; false
  rings : Tab Ring := []        -- 576 ring loops by engine*64+j; 09 R242; see Ring
  goodRun : Nat := 0            -- consecutive updates with every ring settled; 09 R249; 0
  lastInner : Nat := 0          -- last inner update, tu; 09 R242; 0
  ready : Nat := 0              -- it can grant credits, or be checked after a swap of engines, from, tu; 01 R22; 0
  grant : Option Nat := none    -- feeder it has granted its credit; 04 R98; none
  tile : Option TileRun := none -- TILE prepared; 07 R193; none
  run : Option TileRun := none  -- TILE running; 07 R193; none
  forward : List Forward := []  -- images still to be forwarded, oldest first; 08 R232; none
  swapUntil : Nat := 0          -- a swap of a refresh lasts until, tu; 02 R44; 0
  cut : Option (Held × Word × Nat) := none -- prefetch that a refresh has just discarded, PREFETCH_DISCARD before it, moment it fell due; 02 R48; none
  lastGood : Nat × Nat × Nat := (0, 0, 0) -- last good check: TOD s, ns, cycle; 09 R260 R263; 0
  written : List (Nat × Half × Half) := [] -- streams written since: first and last SEQ; 09 R263; none
  home : Option Nat := none     -- position it takes back after its slot or recovery; 09 R254 R262; none
  probeFails : Nat := 0         -- failed probe checks of this recovery; 09 R264; 0
  prefetchDiscard : Word := 0   -- PREFETCH_DISCARD, 32; 02 R48; 0
  gatherRange : Word := 0       -- GATHER_RANGE, 32; 07 R205; 0
  dynimgSpecial : Word := 0     -- DYNIMG_SPECIAL, 32; 02 R60; 0
deriving DecidableEq, Repr

/-- Steps of a calibration slot (R254). -/
inductive SlotStep where
  | mirror | handover | calibrate | mirrorBack | handBack
deriving DecidableEq, Repr

/-- A running calibration slot. -/
structure CalSlot where
  core : Nat := 0               -- physical core under calibration; 09 R254; none
  step : SlotStep := .mirror    -- step of R254; 09 R254; none
  selfCal : Bool := false       -- the rotation spare calibrates itself; 09 R258; false
  startedAt : Nat := 0          -- Step 1, tu; 09 R257; none
  stepEnd : Nat := 0            -- end of a mirror, tu; 09 R254; none
  light : Nat := 0              -- windows of light gathered; 09 R257; 0
  ready : Nat := 0              -- a spare engine is calibrated from, tu; 01 R22; 0
  checked : Bool := false       -- its probe line check has passed; 09 R255 R260; false
  recFrom : Option Nat := none  -- its core's mislocked rings are moved and verified from, tu; 09 R262; none
  pausedAt : Option Nat := none -- pause by a quiet window, tu; 03 R79; none
deriving DecidableEq, Repr

/-- An open quiet window. -/
structure Quiet where
  openedAt : Nat := 0           -- opening, tu; 03 R73; none
  len : Nat := 0                -- length, tu; 03 R73; none
  base : List Int := []         -- sensors at opening, 1/1000 °C; 03 R78; none
deriving DecidableEq, Repr

/-- A cluster. -/
structure Cluster where
  posMap : Tab Nat := []        -- switch map, position to physical core; 04 R94; DESIGN CHOICE identity (log entry 7)
  feeders : Tab Feeder := []    -- 4 feeders; 04; see Feeder
  cores : Tab Core := []        -- 34 cores; 01 R16; see Core
  locked : Bool := false        -- every ring of service locked (Kiln passed); 16 R415; false
  calibrated : Bool := false    -- Mash passed; 16 R415; false
  taster : Bool := false        -- runs on factory calibration; 09 R269, 16 R423; false
  permit : Bool := false        -- fast-window permit; 03 R81; 0
  permitGoing : Bool := false   -- its permit awaits the next fence; 17 R439; false
  fencePassed : Bool := false   -- its permit has gone at the fence just passed; 17 R439; false
  parked : Bool := false        -- parked; 09 R269, 17 R438; 0
  parkedHeat : Bool := false    -- in Taster service or parked under R269; 09 R269; 0
  retired : Bool := false       -- retired; 01 R26; 0
  failures : Nat := 0           -- lock or calibration failures of this bring-up; 16 R417; 0
  restart : Option Nat := none  -- running restart ends at, tu; 16 R431; none
  relockDraw : Nat := 0         -- MODEL: index of the free codes at which the running restart's rings lock; 09 R247; 0 (log entry 34)
  rampLim : Nat × Nat × Nat := (50, 10, 5) -- profile limits that its heaters' ramps of Kiln or a restart began under; 09 R247, 14 R380; the defaults
  wearLim : Nat × Nat × Nat := (50, 10, 5) -- the same of the wear spare's ramp; 09 R247, 14 R380; the defaults
  bufKib : Nat := 4             -- SRAM buffer size, KiB; 06 R159; 4
  comb : Nat := 0               -- active comb source, 0 or 1; 14 R380; 0
  combWorn : Bool := false      -- worn mark; 09 R273; 0
  combRatio : Half := 1000      -- drive current ÷ initial, 1/1000; 14 R380; DESIGN CHOICE 1000 (log entry 7)
  combCheck : Nat := 0          -- last drive-current check, tu; 09 R273; 0
  spareLines : Nat := 4         -- spare comb lines left; 01 R22; 4
  lineShift : List Nat := []    -- failed lines mapped out; 09 R271; none
  remap : Bool := false         -- the running restart moves rings by a line; 09 R271; false
  idleSince : Nat := 0          -- since when no model step uses it, tu; 09 R273; 0
  quiet : Option Quiet := none  -- open quiet window; 03 R73; none
  quietClosed : Option Nat := none -- last close, tu; 03 R77; none
  quietLast : Option (Nat × Nat) := none -- opening and close of the last quiet window, tu; 03 R75 R76 R78; none
  quietClip : BitVec 16 := 0    -- QUIET_CLIP, 16; 03 R73; 0
  quietRefused : BitVec 16 := 0 -- QUIET_REFUSED, 16; 03 R77; 0
  slot : Option CalSlot := none -- calibration slot; 09 R254; none
  advHeld : Bool := false       -- an advance held one deep; 09 R253; false
  rotates : Bool := false       -- Mash ended without it: the rotation calibrates it in service; 16 R423; false
  rotNext : Nat := 0            -- next core the rotation visits; 09 R252; DESIGN CHOICE 0 (log entry 7)
  rotFrom : Nat := 0            -- last timer advance, tu; 09 R253; 0
  spareFor : Option (Nat × ClaimRank) := none -- claim the rotation spare serves: core, rank; 01 R23; none
  spareCore : Nat := 32         -- physical rotation spare; 01 R22; DESIGN CHOICE 32 (log entry 7)
  copyEnd : Option Nat := none  -- the spare's 192 ns copy ends, tu; 09 R261; none
  wear : Option Nat := some 33  -- physical wear spare still cold; 01 R22; DESIGN CHOICE 33 (log entry 7)
  wearWarm : Option Nat := none -- the wear spare is warm at, tu; 01 R25; none
  waiting : List (Nat × ClaimRank) := [] -- claims waiting for the wear spare: core, rank; 01 R25; none
  repeatTurn : List Nat := []   -- cores whose rotation turn is repeated; 01 R23; none
  sensors : List Int := [65000, 65000, 65000, 65000] -- 4 thermal sensors, 1/1000 °C; 09 R242; DESIGN CHOICE 65 °C (log entry 7)
  slew : Nat := 0               -- largest sensor slew at the last feedforward update, 1/1000 °C per ms; 03 R64; 0
  lastFf : Nat := 0             -- last feedforward update, tu; 09 R243; 0
  lockDraw : Nat := 0           -- MODEL: index of the free heater codes at which its rings locked; 0 = not locked (log entry 34)
  calDraw : Nat := 0            -- MODEL: index of the free calibration values of Mash or a restart; 0 = factory (log entry 35)
  outerDraw : Nat := 0          -- MODEL: index of the free inner set-points of the last outer update; 0 = 0 (log entry 24)
  innerOff : Nat := 0           -- inner updates resume from, tu; 03 R76; 0
  recov : Option CalSlot := none -- mirror back of a recovered core; 09 R262; none
  spareNext : Option (Nat × ClaimRank) := none -- a higher claim that waits for the spare's tile boundary; 01 R23; none
  lastOuter : Nat := 0          -- last outer update, tu; 09 R242; 0
  bandSince : Option Nat := none -- sensors in band since, tu; 09 R270; none
  settleThresh : BitVec 8 := 3  -- SETTLE_THRESH; 09 R275; 3
  mislockFrac : BitVec 8 := 50  -- MISLOCK_FRAC, 1/100 line; 09 R275; 50
  settleNext : BitVec 8 := 3    -- SETTLE_THRESH from the next outer update; 14 R380; 3
  fracNext : BitVec 8 := 50     -- MISLOCK_FRAC from the next outer update; 14 R380; 50
  rotMs : Half := 100           -- rotation timer, ms; 09 R275; 100
  vel : Half := 50              -- profile velocity, codes/ms; 09 R275; 50
  acc : Half := 10              -- profile acceleration, codes/ms²; 09 R275; 10
  jerk : Half := 5              -- profile jerk, codes/ms³; 09 R275; 5
  probesForbidden : Bool := false -- probes forbidden; 09 R275; 0
  ringCoef : Tab Word := []     -- coefficients of the ring loops, 4 sets as LOOP_COEF; 10 "Ring loops"; DESIGN CHOICE as R302 (log entry 25)
  mislocks : Word := 0          -- MISLOCKS, 32; 09 R276; 0
  rotOverrun : Word := 0        -- ROT_OVERRUN, 32; 09 R276; 0
  calStarved : Word := 0        -- CAL_STARVED, 32; 09 R276; 0
  lockOsc : Word := 0           -- LOCK_OSC, 32; 09 R276; 0
  thermalRange : Word := 0      -- THERMAL_RANGE, 32; 09 R276; 0
  unsettledTiles : Word := 0    -- UNSETTLED_TILES, 32; 09 R276; 0
  heaterDrift : Word := 0       -- HEATER_DRIFT, 32; 09 R276; 0
  switchWait : Word := 0        -- STR_SWITCH_WAIT, 32; 08 R236; 0
  waitCounted : Nat := 0        -- waiting symbols counted up to, tu; 04 R104; 0
deriving DecidableEq, Repr

/-! ### Memory and stream engines (08) -/

/-- States of a descriptor, in R223 order. -/
inductive DescState where
  | idle | armed | active | draining | done | error
deriving DecidableEq, Repr

/-- A transfer in flight. -/
structure Flight where
  idx : Nat := 0                -- its index among all passes; 08 R219; none
  handle : Nat := 0xFFFF        -- handle it fills or empties; 08 R222; none
  at_ : Nat := 0                -- its issue, tu; 08 R235; none
  size : Nat := 0               -- bytes; 08 R217; none
  fills : Option Nat := none    -- stream whose handle it fills; 08 R222; none
  empties : Option Nat := none  -- stream whose handle it empties; 08 R222; none
  dead : Bool := false          -- its data is discarded; 08 R228 R229; false
deriving DecidableEq, Repr

/-- A re-arm counted as ignored, as it stood, or one whose check fails (R226, R227). -/
structure LateArm where
  at_ : Nat := 0                -- its fabric cycle; 08 R227; none
  img : Option Nat := none      -- image whose XFER it is; 06 R161; none
  data : List Byte := []        -- contents it would latch; 08 R224; none
  failing : Bool := false       -- its check fails: judged after the completions of its cycle; 08 R227; false
  full : Bool := false          -- REARM_OVERRUN stood at its maximum; 08 R226; false
  prev : BitVec 13 := 0         -- STR_LAST_OVERRUN.DESC before it; 08 R226; 0
deriving DecidableEq, Repr

/-- A descriptor: store entry, working copy, shadow. Bytes 0 to 41 of R221; [] stands for zeros. -/
structure Desc where
  store : List Byte := []       -- store entry, 64 bytes; 08 R220; empty
  st : DescState := .idle       -- state; 08 R223; IDLE
  work : List Byte := []        -- working copy; 08 R224; empty
  shadow : Option (List Byte) := none -- one-deep shadow; 08 R225; empty
  issued : Nat := 0             -- transfers issued of all passes; 08 R219; 0
  outstanding : List Flight := [] -- transfers in flight; 08 R217; none
  aborted : Bool := false       -- an abort waits for its transfers in flight, then IDLE; 08 R229; false
  kept : List Byte := []        -- firmware's copy of a placed job's entry, from a reset of D2 to the end of Mash; 08 R220; none
  shadowAt : Nat := 0           -- fabric cycle + 1 in which the shadow was filled; 08 R227; 0
  fwArm : Option (Nat × Bool) := none -- last firmware arm: fabric cycle, whether it latched the working copy; 08 R227; none
  late : Option LateArm := none -- last re-arm counted as ignored; 08 R227; none
  finished : List (Nat × Nat × Bool) := [] -- completed out of order: index, handle, good; 08 R219; none
  sent : Nat := 0               -- transfers completed in order; 08 R219; 0
  byImg : Option Nat := none    -- image whose XFER armed the working copy; 06 R161; none
  shadowImg : Option Nat := none -- image whose XFER armed the shadow; 06 R161; none
  lastErr : BitVec 4 := 0       -- last error code; 14 R380; 0
deriving DecidableEq, Repr

/-- A stack and its stream engine's STR record. -/
structure Stack where
  turn : Nat := 0               -- next descriptor in turn; 08 R219; 0
  busyUntil : Nat := 0          -- engine occupied until, 1/774,000 tu; 08 R218; 0
  units : BitVec 48 := 0        -- STR_BYTES, 64-byte units, 48; 08 R235; 0
  short : Word := 0             -- STR_SHORT, 32; 08 R235; 0
  rearmOverrun : Half := 0      -- STR_EVENTS.REARM_OVERRUN, 16; 08 R235; 0
  armRefused : Half := 0        -- STR_EVENTS.ARM_REFUSED, 16; 08 R235; 0
  errDesc : BitVec 13 := 0      -- STR_LAST_ERR.DESC, 13; 08 R235; 0
  errCode : BitVec 4 := 0       -- STR_LAST_ERR.CODE, 4; 08 R235; 0
  overrunDesc : BitVec 13 := 0  -- STR_LAST_OVERRUN.DESC, 13; 08 R235; 0
  maxLat : Half := 0            -- STR_LAT.MAX_LAT, 16; 08 R235; 0
  hostOor : Half := 0           -- STR_LAT.HOST_OOR, 16; 08 R235; 0
  corrected : Word := 0         -- STR_CE.CORRECTED, 32; 08 R235; 0
  reserveFor : BitVec 5 := 0    -- STR_ENG_STAT.RESERVE_FOR, 5; 08 R235; 0
  reserveUsed : Bool := false   -- STR_ENG_STAT.RESERVE_USED, 1; 08 R235; 0
  migrating : Option (Nat × Nat) := none -- migration: logical channel, start tu (MIGRATING); 08 R215; none
  degraded : Bool := false      -- STR_ENG_STAT.DEGRADED, 1; 08 R235; 0
  rowFails : Nat := 0           -- row failures logged since the last training; 01 R22; 0
deriving DecidableEq, Repr

/-! ### Field loops (10) -/

/-- A field loop's record. Q4.28 words are signed. -/
structure FieldLoop where
  ctrl : Word := 0              -- LOOP_CTRL, 24 bits used; 10 R302; 0
  src : Word := 0x1C00          -- LOOP_SRC, 19 bits used; 10 R302; OUT 0x10, SV_SRC 0x3
  period : Word := 0x2710       -- LOOP_PERIOD, 20; 10 R302; 0x02710
  imin : Word := 0x80000000     -- LOOP_IMIN, 32; 10 R302; 0x80000000
  imax : Word := 0x7FFFFFFF     -- LOOP_IMAX, 32; 10 R302; 0x7FFFFFFF
  omin : Word := 0x80000000     -- LOOP_OMIN, 32; 10 R302; 0x80000000
  omax : Word := 0x7FFFFFFF     -- LOOP_OMAX, 32; 10 R302; 0x7FFFFFFF
  b1 : Word := 0x04000000       -- LOOP_B1, 32; 10 R302; 0x04000000
  b2 : Word := 0x08000000       -- LOOP_B2, 32; 10 R302; 0x08000000
  b3 : Word := 0x0C000000       -- LOOP_B3, 32; 10 R302; 0x0C000000
  hyst : Word := 0x00800000     -- LOOP_HYST, 32; 10 R302; 0x00800000
  oscBand : Word := 0x00800000  -- LOOP_OSC_BAND, 32; 10 R302; 0x00800000
  oscAmp : Word := 0x01000000   -- LOOP_OSC_AMP, 32; 10 R302; 0x01000000
  injAmp : Word := 0            -- LOOP_INJ_AMP, 32; 10 R302; 0
  injF0 : Word := 0             -- LOOP_INJ_F0, FP32; 10 R302; 0
  injF1 : Word := 0             -- LOOP_INJ_F1, FP32; 10 R302; 0
  injLen : Word := 0            -- LOOP_INJ_LEN, 32; 10 R302; 0
  oscCfg : Word := 0x001003FF   -- LOOP_OSC_CFG, 24 bits used; 10 R302; WIN 0x03FF, CROSS_MAX 0x10
  injCtrl : Word := 0           -- LOOP_INJ_CTRL, 15 bits used; 10 R302; 0
  svTmo : Word := 0             -- LOOP_SV_TMO, 16; 10 R302; 0
  coef : Tab Word := []         -- LOOP_COEF and KI, set*31 + section*5 + c, KI at 30; 10 R302; b0 0x40000000, others 0
  set : BitVec 2 := 0           -- LOOP_STAT.SET, 2; 10 R302; 0
  setNext : BitVec 2 := 0       -- set that applies from the next update; 10 R289; 0
  osc : Bool := false           -- LOOP_STAT.OSC, 1; 10 R302; 0
  svStale : Bool := false       -- LOOP_STAT.SV_STALE, 1; 10 R302; 0
  cfgErr : Bool := false        -- LOOP_STAT.CFG_ERR, 1; 10 R302; 0
  limOut : Bool := false        -- LOOP_STAT.LIM_OUT, 1; 10 R302; 0
  limInt : Bool := false        -- LOOP_STAT.LIM_INT, 1; 10 R302; 0
  sp : Word := 0                -- LOOP_SP, 32; 10 R302; 0
  meas : Word := 0              -- LOOP_MEAS, 32; 10 R302; 0
  err : Word := 0               -- LOOP_ERR, 32; 10 R302; 0
  int : Word := 0               -- integrator, Q4.28; 10 R281 R287; 0
  intReg : Word := 0            -- LOOP_INT, the integrator at the last update, 32; 10 R302; 0
  out : Word := 0               -- LOOP_OUT, 32; 10 R302; 0
  sv : Word := 0                -- LOOP_SV, 32; 10 R302; 0
  satCnt : Half := 0            -- LOOP_CNT.SAT, 16; 10 R302; 0
  skipCnt : BitVec 8 := 0       -- LOOP_CNT.SKIP, 8; 10 R302; 0
  nanCnt : BitVec 8 := 0        -- LOOP_CNT.SV_NAN, 8; 10 R302; 0
  sec : List (List Int) := []   -- section states x1 x2 y1 y2 of 6 sections, Q4.28; 10 R280; 0
  due : Bool := false           -- an update is triggered; 10 R284; false
  last : Option Nat := none     -- previous update, tu; 10 R284; none
  gap : Nat := 0                -- time between the last two updates, tu, 0 = none; 10 R295; 0
  startAt : Nat := 0            -- start of the last update, tu; 10 R286 R290; 0
  timerFrom : Nat := 0          -- loop timer runs from, tu; 10 R284; 0
  scalar : Word := 0            -- inference scalar, Q4.28; 10 R290; 0
  scalarAt : Nat := 0           -- last scalar, or the write of LOOP_SV_TMO after it, tu; 10 R291; 0
  injErr : Bool := false        -- a frequency out of range stopped RUN from starting (part of CFG_ERR); 10 R295; false
  outerCnt : Nat := 0           -- inner updates since the last outer one; 10 R285; 0
  schedHold : Bool := false     -- scheduling resumes one update later; 10 R294; false
  schedSkip : Bool := false     -- the last update took no scheduling variable for that reason; 10 R290 R294; false
  oscWin : OscWin := {}         -- oscillation detector; 10 R293; see OscWin
  fresh : Nat × Nat := (0, 0)   -- MODEL: fabric cycle + 1 and the W1C bits that an event set in it; 00 R11; none
  injIdx : Nat := 0             -- injection update index; 10 R295; 0
  injAt : Nat := 0              -- moment of the injection's first update, tu; 10 R295; 0
  injTurn : Nat := 0            -- phase of a sweep at its next update, 2^-64 cycles; 10 R295; 0
  lfsr : Nat := 0               -- PRBS register, 31; 10 R295; 0
  injNow : Int := 0             -- injected signal at the last update, Q4.28; 10 R296; 0
deriving DecidableEq, Repr

/-- A leg of a planned move: constant jerk from a motion on. -/
structure Leg where
  start : Motion := {}          -- motion at the leg's start; 10 R297; 0
  jerk : Int := 0               -- jerk, 2^-96 per s³; 10 R297; 0
  dur : Nat := 0                -- length, 2^-96 s; 10 R297; 0
deriving DecidableEq, Repr

/-- A profile generator's record. -/
structure Profile where
  bypass : Bool := false        -- PRF_CTRL.BYPASS, 1; 10 R302; 0
  target : Word := 0            -- PRF_TARGET, Q4.28; 10 R302; 0
  vmax : Word := 0x3F800000     -- PRF_VMAX, FP32; 10 R302; 1.0
  amax : Word := 0x3F800000     -- PRF_AMAX, FP32; 10 R302; 1.0
  jmax : Word := 0x3F800000     -- PRF_JMAX, FP32; 10 R302; 1.0
  vNew : Option Word := none    -- VMAX pending; 10 R299; none
  aNew : Option Word := none    -- AMAX pending; 10 R299; none
  jNew : Option Word := none    -- JMAX pending (LIMITS_PENDING); 10 R299; none
  pmin : Word := 0x80000000     -- PRF_PMIN, Q4.28; 10 R302; 0x80000000
  pmax : Word := 0x7FFFFFFF     -- PRF_PMAX, Q4.28; 10 R302; 0x7FFFFFFF
  pos : Word := 0               -- PRF_POS, Q4.28; 10 R302; 0
  vel : Word := 0               -- PRF_VEL, FP32; 10 R302; 0
  acc : Word := 0               -- PRF_ACC, FP32; 10 R302; 0
  moving : Bool := false        -- PRF_STAT.MOVING, 1; 10 R302; 0
  plan : List Leg := []         -- legs of the move planned last; 10 R297; none
  start : Motion := {}          -- motion in which that move was planned; 10 R298; 0
  planAt : Nat := 0             -- moment at which it was planned, tu; 10 R297; 0
  returnAt : Nat := 0           -- time of the plan at which its return begins, 2^-96 s, 0 for none; 10 R298; 0
  heldAt : Option Nat := none   -- moment at which the loop's HOLD froze the plan, tu; 10 R287; none
  targetAt : Option Nat := none -- fabric cycle of the last target write; 10 R299; none
  clamps : Half := 0            -- PRF_STAT.CLAMPS, 16; 10 R302; 0
deriving DecidableEq, Repr

/-- The capture buffer and LOOP_ENG_STAT. -/
structure LoopEng where
  capCtrl : Word := 0           -- LOOP_CAP_CTRL fields START to DECIM; 10 R302; 0
  armed : Bool := false         -- LOOP_CAP_CTRL.ARM, 1: armed or running; 10 R302; 0
  capRunning : Bool := false    -- capture runs; 10 R296; false
  done : Bool := false          -- LOOP_CAP_CTRL.DONE, 1; 10 R302; 0
  fresh : Nat × Nat := (0, 0)   -- MODEL: fabric cycle + 1 and the W1C bits that an event set in it; 00 R11; none
  capCount : Nat := 0           -- entries written; 10 R296; 0
  capSkip : Nat := 0            -- updates until the next entry; 10 R296; 0
  capture : Tab (Word × Word) := [] -- 4,096 entries A and B; 10 R296 R302; DESIGN CHOICE 0 (log entry 7)
  busyUntil : Nat := 0          -- the engine's updates run until, tu; 10 R286; 0
  wrDenied : Half := 0          -- LOOP_ENG_STAT.WR_DENIED, 16; 10 R302; 0
  capRefused : BitVec 8 := 0    -- LOOP_ENG_STAT.CAP_REFUSED, 8; 10 R302; 0
deriving DecidableEq, Repr

/-! ### Field inputs and angle (11) -/

/-- A conversion result in FIFO entry format with its sample instant. -/
structure Sample where
  word : Word := 0              -- FIFO entry word, 32; 11 R329; 0
  todSec : Word := 0            -- time-of-day seconds at the sample instant; 11 R315; 0
  todNs : Word := 0             -- time-of-day nanoseconds; 11 R315; 0
  cyc : Word := 0               -- cycle count low 32 bits; 11 R315; 0
  phase : Word := 0             -- phase; 11 R315; 0
deriving DecidableEq, Repr

/-- A field converter's record. -/
structure Conv where
  ctrl : Word := 0              -- FIN_CTRL, 19 bits used; 11 R329; 0
  timer : Word := 0x3E8         -- FIN_TIMER.PERIOD, 20; 11 R329; 0x003E8
  timerFrom : Nat := 0          -- converter timer runs from, tu; 11 R310; 0
  run : Option Nat := none      -- start t0 of the run in progress, tu (BUSY); 11 R309; none
  slot : Nat := 0               -- slots done in the run; 11 R309; 0
  held : Bool := false          -- FIN_STAT.PENDING, 1; 11 R329; 0
  lastTrig : Option Nat := none -- fabric cycle of the last trigger; 11 R311; none
  ended : Option Nat := none    -- end of the last run, tu; 11 R311; none
  runs : BitVec 11 := 0         -- run count, 11; 11 R329; DESIGN CHOICE 0 (log entry 7)
  fifo : List Word := []        -- FIFO, 64 entries; 11 R314; empty
  overrun : Nat := 0            -- FIN_CNT.OVERRUN, reads as 16 bits; 11 R329, 00 R12; 0 (log entry 73)
  fifoOvf : Nat := 0            -- FIN_CNT.FIFO_OVF, reads as 8 bits; 11 R329, 00 R12; 0 (log entry 73)
  streamOvf : Nat := 0          -- FIN_CNT.STREAM_OVF, reads as 8 bits; 11 R329, 00 R12; 0 (log entry 73)
  slots : Tab Word := []        -- FIN_SLOT 0 to 15, 7 bits used; 11 R329; 0
  last : Tab Word := []         -- FIN_LAST 0 to 15, 32; 11 R329; 0
  staging : List Sample := []   -- staging store, 4,096 results; 11 R315; empty
  reads : List Nat := []        -- read-back requests pending (converter 3), channel order; 11 R312; none
  readNow : Option (Nat × Nat) := none -- read-back in conversion: its channel and start, tu; 11 R312; none
  three : Option (Nat × Nat) := none -- three-phase conversions: the first sample instant, tu, and results ready; 11 R313; none
  threeIn : List Int := []      -- levels that the set of three sampled at inputs 0 to 2, LSB; 11 R313; empty (before the first set)
deriving DecidableEq, Repr

/-- The angle timebase, sample clocks and time of day. -/
structure Angle where
  ctrl : Word := 0x28           -- ANG_CTRL, 9 bits used; 11 R329; BW 0x0A
  freqSet : Word := 0x00320000  -- ANG_FREQ_SET, Q16.16 Hz; 11 R329; 0x00320000
  freq : Word := 0x00320000     -- ANG_FREQ, Q16.16 Hz; 11 R329; 0x00320000
  phase : Word := 0             -- ANG_PHASE, 32; 11 R329; 0
  cycles : BitVec 48 := 0       -- cycle counter, 48 (ANG_CYC_LO); 11 R316; 0
  prev : Word × Word := (0, 0)  -- phase and cycle count before the last update; 11 R315; 0
  cycHi : Half := 0             -- ANG_CYC_HI latch, 16; 11 R329; 0
  offset : Word := 0            -- ANG_OFFSET, 32; 11 R329; 0
  enc : Word := 0x1000          -- ANG_ENC.COUNTS, 20; 11 R329; 0x01000
  encTmo : Word := 0x64         -- ANG_ENC_TMO.LOSS_TMO, 16; 11 R329; 0x0064
  locked : Bool := false        -- ANG_STAT.LOCKED, 1; 11 R329; 0
  loss : Bool := false          -- ANG_STAT.LOSS, 1; 11 R329; 0
  holdover : Bool := false      -- ANG_STAT.HOLDOVER, 1; 11 R329; 0
  reverse : Bool := false       -- ANG_STAT.REVERSE, 1; 11 R329; 0
  fresh : Nat × Nat := (0, 0)   -- MODEL: fabric cycle + 1 and the W1C bits of ANG_STAT that an event set in it; 00 R11; none
  ppsFresh : Nat × Nat := (0, 0) -- MODEL: the same for ANG_TOD_STAT; 00 R11; none
  cfgErr : Bool := false        -- ANG_STAT.CFG_ERR, 1; 11 R329; 0
  encErr : BitVec 7 := 0        -- ANG_STAT.ENC_ERR, 7; 11 R329; 0
  sclkLost : BitVec 8 := 0      -- ANG_STAT.SCLK_LOST, 8; 11 R329; 0
  wrDenied : BitVec 12 := 0     -- ANG_STAT.WR_DENIED, 12; 11 R329; 0
  sclk : List Word := [0, 0]    -- ANG_SCLK 0 and 1, 13 bits used; 11 R329; 0
  lastUpdate : Nat := 0         -- last update, tu; 11 R316; 0
  pull : Option Int := none     -- phase still to pull in, 1/50 unit; 11 R319; none
  lost : Bool := false          -- the selected source is lost; 11 R318; false
  lostAt : Nat := 0             -- moment of the loss, tu; 11 R318 R319; 0
  goodCycles : Nat := 0         -- good cycles or edges since a loss; 11 R319; 0
  encPos : Int := 0             -- encoder position, edges; 11 R320; DESIGN CHOICE 0 (log entry 7)
  encTop : Int := 0             -- highest encoder position; 11 R320; DESIGN CHOICE 0 (log entry 7)
  encAB : Bool × Bool := (false, false) -- A and B at the last sample; 11 R320; DESIGN CHOICE low (log entry 7)
  encZ : Option Int := none     -- encoder position at the last Z index: angle 0; 11 R317; none
  encAt : Nat := 0              -- last encoder edge, tu; 11 R317; 0
  encTurn : Nat × Nat := (0, 0) -- edges of the present encoder cycle and its start, tu; 11 R317; 0
  ppcAt : Nat := 0              -- last pulse-per-cycle edge, tu; 11 R317; 0
  ppcSeen : Bool := false       -- a pulse has come since SOURCE was selected; 11 R317; false
  lastThree : Nat := 0          -- last three-phase sample, tu; 11 R313; 0
  todSec : Word := 0            -- ANG_TOD_SEC counter, 32; 11 R326; 0
  todPending : Option Word := none -- seconds held for the next edge; 11 R326; none
  todBase : Nat := 0            -- moment of the last edge, load or reset, tu; 11 R326; 0
  todRem : Nat := 0             -- what the counter was past todSec then, tu; 11 R326; 0
  todPull : Int := 0            -- rate steering, ns per second; 11 R326; 0
  todOld : Word × Nat × Nat × Int := (0, 0, 0, 0) -- todSec, todBase, todRem and todPull before the last edge; 11 R315; 0
  ppsGood : Nat := 0            -- consecutive edges in time; 11 R326; 0
  ppsLock : Bool := false       -- ANG_TOD_STAT.PPS_LOCK, 1; 11 R329; 0
  ppsLoss : Bool := false       -- ANG_TOD_STAT.PPS_LOSS, 1; 11 R329; 0
deriving DecidableEq, Repr

/-- A scheduler entry. -/
structure SchedEntry where
  angle : Word := 0             -- Entry ANGLE, 32; 11 R329; 0
  cyc : Word := 0               -- Entry CYC: DIVISOR and PHASE; 11 R329; 0
  act : Word := 0               -- Entry ACT: ACTION, ENABLE, ARG; 11 R329; 0
  since : Option Nat := none    -- fabric cycle of its last write; 11 R324; none
  was : Word × Word × Word := (0, 0, 0) -- ANGLE, CYC and ACT before the writes of that cycle; 11 R324; 0
deriving DecidableEq, Repr

/-! ### Field outputs (12) -/

/-- Channel states, as FOUT_STAT.STATE numbers them. -/
inductive OutState where
  | hiz | safe | running | range | fault
deriving DecidableEq, Repr

/-- A channel's safe record in the non-volatile memory. -/
structure SafeRec where
  mv : Half := 0                -- safe voltage, mV, signed 16; 12 R341; DESIGN CHOICE 0 (log entry 26)
  ua : Half := 0                -- safe current, µA, 16; 12 R341; DESIGN CHOICE 0 (log entry 26)
  range : BitVec 3 := 0         -- power-up range, 3; 12 R341; DESIGN CHOICE 0 (log entry 26)
  valid : Bool := true          -- its check passes; 12 R341; DESIGN CHOICE valid (log entry 26)
deriving DecidableEq, Repr

/-- A channel before a tick acted: what a tick changes. -/
structure TickUndo where
  at_ : Nat := 0                -- moment of the tick, tu; 12 R347; 0
  queue : List (BitVec 24) := [] -- queue before it; 12 R347; empty
  out : BitVec 24 := 0          -- code before it; 12 R347; 0
  past : List (Nat × BitVec 24) := [] -- codes on record before it; 12 R347; none
  st : OutState := .hiz         -- state before it; 12 R347; HIZ
  underflow : Bool := false     -- UNDERFLOW before it; 12 R347; 0
  underflows : Nat := 0         -- UNDERFLOWS before it; 12 R347; 0
deriving DecidableEq, Repr

/-- An output channel's record. -/
structure Fout where
  range : BitVec 3 := 0         -- FOUT_CFG.RANGE, 3; 12 R349; from the record
  source : BitVec 2 := 0        -- FOUT_CFG.SOURCE, 2; 12 R349; 0
  clkSel : BitVec 2 := 0        -- FOUT_CFG.CLK_SEL, 2; 12 R349; 0
  enable : Bool := false        -- FOUT_CFG.ENABLE, 1; 12 R349; 0
  forceSafe : Bool := false     -- FOUT_CFG.FORCE_SAFE, 1; 12 R349; 0
  period : Word := 0x64         -- FOUT_PERIOD.PERIOD, 20; 12 R349; 0x00064
  timerFrom : Nat := 0          -- channel timer runs from, tu; 12 R334; 0
  st : OutState := .hiz         -- FOUT_STAT.STATE, 3; 12 R349; HIZ
  queue : List (BitVec 24) := [] -- code queue, 32 codes (QUEUE_FILL); 12 R333; empty
  out : BitVec 24 := 0          -- FOUT_OUT.CODE, 24; 12 R349; 0
  rangeEnd : Option Nat := none -- end of the 60 µs of high impedance, tu; 12 R345; none
  tickWait : Bool := false      -- a tick of its sample clock waits to be taken; 12 R334; false
  lastTick : Option Nat := none -- last tick taken, tu; 12 R335; none
  ticked : Option TickUndo := none -- what the last tick that acted changed; 12 R347; none
  safeAt : Option Nat := none   -- fabric cycle of the last entry to FAULT or SAFE; 12 R347; none
  freed : Option (Nat × OutState) := none -- fabric cycle of the last entry to SAFE from FAULT or HIZ, and which; 12 R347; none
  entered : Nat × Nat := (0, 0) -- fabric cycle + 1 of the last queue write, and codes written in it; 12 R347; none
  fresh : Nat × Nat := (0, 0)   -- MODEL: fabric cycle + 1 and the W1C bits that an event set in it; 00 R11; none
  driveFrom : Nat := 0          -- moment from which it drives, tu; 12 R340; 0
  past : List (Nat × BitVec 24) := [] -- codes presented with their moments, newest first; 12 R340; none
  mismatches : Nat := 0         -- consecutive read-back mismatches; 12 R340; 0
  loopCode : List (Nat × BitVec 24) := [] -- the latest loop codes with the ends of their updates, newest first; 12 R337; none
  lastTake : Nat := 0           -- last 20 µs code take, tu; 12 R337; 0
  short : Bool := false         -- FOUT_STAT.SHORT, 1; 12 R349; 0
  open_ : Bool := false         -- FOUT_STAT.OPEN, 1; 12 R349; 0
  underflow : Bool := false     -- FOUT_STAT.UNDERFLOW, 1; 12 R349; 0
  shortSeen : Bool := false     -- FOUT_STAT.SHORT_SEEN, 1; 12 R349; 0
  openSeen : Bool := false      -- FOUT_STAT.OPEN_SEEN, 1; 12 R349; 0
  rbFault : Bool := false       -- FOUT_STAT.READBACK_FAULT, 1; 12 R349; 0
  safeInvalid : Bool := false   -- FOUT_STAT.SAFE_INVALID, 1; 12 R349; 0
  loopIdle : Bool := false      -- FOUT_STAT.LOOP_IDLE, 1; 12 R349; 0
  tol : BitVec 12 := 0x10       -- FOUT_SUPV.TOL, 12; 12 R349; 0x010
  count : BitVec 8 := 3         -- FOUT_SUPV.COUNT, 8; 12 R349; 0x03
  underflows : Nat := 0         -- FOUT_CNT.UNDERFLOWS, reads as 16 bits; 12 R349, 00 R12; 0 (log entry 73)
  queueDrop : Nat := 0          -- FOUT_CNT.QUEUE_DROP, reads as 8 bits; 12 R349, 00 R12; 0 (log entry 73)
  clkSkip : Nat := 0            -- FOUT_CNT.CLK_SKIP, reads as 8 bits; 12 R349, 00 R12; 0 (log entry 73)
  nvm : SafeRec := {}           -- safe record (FOUT_SAFE, FOUT_SAFE_CFG); 12 R341; see SafeRec
deriving DecidableEq, Repr

/-! ### Mailboxes and firmware (13, 14) -/

/-- A message waiting for room in an outbound ring. -/
structure OutMsg where
  slot : List Byte := []        -- the 64 bytes; 13 R358; none
  vector : Nat := 0             -- MSI-X vector; 13 R366; 0
  event : Bool := false         -- an event that may be dropped; 13 R365; false
deriving DecidableEq, Repr

/-- A mailbox channel: MBX record, page, held messages. -/
structure Channel where
  inTail : Half := 0            -- MBX_IN_TAIL.TAIL, 16; 13 R373; 0
  inHead : Half := 0            -- MBX_IN_HEAD.HEAD, 16; 13 R373; 0
  outTail : Half := 0           -- MBX_OUT_TAIL.TAIL, 16; 13 R373; 0
  outHead : Half := 0           -- MBX_OUT_HEAD.HEAD, 16; 13 R373; 0
  badDb : Nat := 0              -- MBX_STAT.BAD_DB, reads as 8 bits; 13 R373, 00 R12; 0 (log entry 73)
  lockedWr : Nat := 0           -- MBX_STAT.LOCKED_WR, reads as 8 bits; 13 R373, 00 R12; 0 (log entry 73)
  foreign : Nat := 0            -- MBX_STAT.FOREIGN, reads as 8 bits; 13 R373, 00 R12; 0 (log entry 73)
  inSpace : Bool := false       -- DBL_PENDING.IN_SPACE, 1; 13 R373; 0
  evtLost : Bool := false       -- DBL_PENDING.EVT_LOST, 1; 13 R373; 0
  fresh : Nat × Nat := (0, 0)   -- MODEL: fabric cycle + 1 and the W1C bits that an event set in it; 00 R11; none
  lostMark : Bool := false      -- FLAGS bit 3 due in the next slot; 13 R365; false
  page : Memory := []           -- mailbox page, 4 KiB: inbound and outbound slots; 13 R357; DESIGN CHOICE 0 (log entry 7)
  held : List OutMsg := []      -- held events and responses; 13 R365; none
  part : List Byte := []        -- bytes of a slot arriving in control frames; 15 R394; none
  msix : Tab Word := []         -- MSI-X table words, 64 x 4; 13 R351; masked (log entry 21)
  pba : Dword := 0              -- MSI-X pending bit array, 64; 13 R351; 0
  raised : Tab Nat := []        -- vectors sent so far, a count per vector; 13 R366; 0
deriving DecidableEq, Repr

/-- What COMMAND_DONE waits for. -/
inductive DoneWhen where
  | now
  | restart (cls : List Nat)    -- the clusters' restarts
  | permits                     -- the last permit withdrawn
  | placed (img : Nat)          -- a placement's last store written and permit granted
deriving DecidableEq, Repr

/-- A command answered ACCEPTED that still runs (R376). -/
structure Accepted where
  ch : Nat := 0                 -- issuing channel; 14 R376; none
  op : Half := 0                -- opcode; 14 R376; none
  seq : Half := 0               -- SEQ; 14 R376; none
  status : Half := 0            -- STATUS at its end; 14 R386; none
  detail : Half := 0            -- DETAIL at its end; 14 R386; none
  result : List Byte := []      -- RESULT bytes 12..47; 14 R386; none
  when_ : DoneWhen := .now      -- what its end waits for; 14 R376; none
deriving DecidableEq, Repr

/-- A subscription of a channel (R365, R380). -/
structure Sub where
  code : Half := 0              -- event code; 14 R380; none
  on : Bool := true             -- subscribed; 14 R380; channel 0 to every event
  vector : Nat := 0             -- vector; 14 R380; 0
deriving DecidableEq, Repr

/-- Firmware's own state (D1). -/
structure Fw where
  serving : Bool := false       -- serves mailboxes (FW_DOWN is its inverse); 13 R373; FW_DOWN 1
  images : Tab ImgRec := []     -- loaded images by index, at most 64; 14 R380; none
  classes : Tab Nat := []       -- permission class of VFs 1 to 63; 13 R368; TENANT
  subAll : Tab (Bool × Nat) := [] -- channel's subscription to all events, vector; 13 R365; channel 0 subscribed
  subs : Tab (List Sub) := []   -- per-event subscriptions of a channel; 14 R380; none
  accepted : List Accepted := [] -- commands answered ACCEPTED; 14 R376; none
  groups : Tab (List (Nat × Nat)) := [] -- cluster groups 0 to 254 as ranges; 14 R380; empty
  groupsNext : List (Nat × List (Nat × Nat)) := [] -- memberships that hold from the next scheduler update; 14 R380; none
  turn : Nat := 0               -- next channel in turn; 13 R363; 0
  ioOwner : Option Nat := some 0 -- owner of FIN, ANG, FOUT; 14 R380; PF0
  loopOwner : Option Nat := some 0 -- owner of LOOP, PRF; 14 R380; PF0
  upgrade : Option Nat := none  -- UPGRADE_BEGIN has ended: image bytes; 14 R384; none
  dmaOut : List Byte := []      -- bytes last copied to host memory; 14 R380; none
deriving DecidableEq, Repr

/-- Lock registers (LCK): owner by lock, and LCK_DENIED. -/
structure Locks where
  owner : Tab Nat := []         -- LCK n: owner + 1, 0 = free, 64 locks; 13 R373; free
  denied : Nat := 0             -- LCK_DENIED.COUNT, reads as 16 bits; 13 R373, 00 R12; 0 (log entry 73)
  deniedId : BitVec 8 := 0      -- LCK_DENIED.ID, 8; 13 R373; 0
  deniedLock : BitVec 6 := 0    -- LCK_DENIED.LOCK, 6; 13 R373; 0
  ahead : Nat × List (Nat × Nat) := (0, []) -- MODEL: fabric cycle + 1, and the releases of it, lock and owner, that a read has taken ahead; 13 R371; none
deriving DecidableEq, Repr

/-! ### Links (15) -/

/-- A packet on a link. -/
structure LinkPacket where
  hdr : HeaderFrame := {}       -- its header; 15 R394; none
  payload : List Byte := []     -- payload; 15 R391; none
  sentAt : Nat := 0             -- moment it was sent, tu; 15 R406; none
deriving DecidableEq, Repr

/-- A link before an own packet was sent: what PACKET_SEND and PACKET_REPLAY change. -/
structure SendUndo where
  at_ : Nat := 0                -- moment of the header, tu; 15 R399; 0
  packet : LinkPacket := {}     -- the packet, as it was queued or kept; 15 R399; see LinkPacket
  replays : Option Half := none -- REPLAYS before it, where it was a replay; 15 R399 R406; none
  busy : List (Nat × Nat) := [] -- payload times before it; 15 R399; none
  outHdr : Option HeaderFrame := none -- header sent before it; 15 R399; none
  bypassRun : Nat := 0          -- bypassRun before it; 15 R399; 0
  timer : Option Nat := none    -- link timer before it; 15 R399; stopped
deriving DecidableEq, Repr

/-- A link: LNK record, port, landing buffer. -/
structure Link where
  st : BitVec 2 := 3            -- LNK_STAT.STATE, 2; 15 R402 R414; pass-through, D4 being in reset (R402; R414's table: down)
  spareUsed : Bool := false     -- LNK_STAT.SPARE_USED, 1; 15 R414; 0
  spareFor : BitVec 3 := 0      -- LNK_STAT.SPARE_FOR, 3; 15 R414; 0
  downReason : BitVec 3 := 0    -- LNK_STAT.DOWN_REASON, 3; 15 R414; 0
  peer : Half := 0              -- LNK_PEER.ADDR, 16; 15 R414; 0
  tlevel : BitVec 8 := 0        -- LNK_PEER.TLEVEL, 8; 15 R414; 0
  clevel : BitVec 8 := 0        -- LNK_PEER.CLEVEL, 8; 15 R414; 0
  cwCorr : Word := 0            -- LNK_CW_CORR, 32; 15 R414; 0
  cwAt : Nat := 0               -- MODEL: moment up to which corrected codewords are counted in, tu; 15 R414; 0 (log entry 38)
  cwUncorr : Word := 0          -- LNK_CW_UNCORR, 32; 15 R414; 0
  replays : Half := 0           -- LNK_FLOW.REPLAYS, 16; 15 R414; 0
  drops : Half := 0             -- LNK_FLOW.DROPS, 16; 15 R414; 0
  bypassed : Half := 0          -- LNK_BYPASS.BYPASSED, 16; 15 R414; 0
  fallback : Half := 0          -- LNK_BYPASS.FALLBACK, 16; 15 R414; 0
  limit : BitVec 14 := 0xC8     -- LNK_TIMER.LIMIT, 14; 15 R414; 0x00C8
  credits : Nat := 0            -- LNK_CREDIT.CREDITS, 7; 15 R414; 0
  unacked : List LinkPacket := [] -- packets held for replay (UNACKED); 15 R406 R414; none
  queue : List LinkPacket := [] -- packets waiting to be sent; 15 R395; none
  landing : List LinkPacket := [] -- landing buffer, 64 packets of 4 KiB; 15 R405; empty
  expect : List (HeaderFrame × Option Nat) := [] -- headers landed whose payload is awaited, and the link to send it on by; 15 R397 R404; none
  lseq : Half := 0              -- next LSEQ, 16; 15 R394; DESIGN CHOICE 0 (log entry 7)
  mode : BitVec 2 := 0          -- LINK_MODE: 0 normal, 1 disabled, 2 forced pass-through; 14 R380; 0
  failedLane : Option Nat := none -- data lane failed, switch not yet agreed; 15 R410; none
  bypassRun : Nat := 0          -- packets bypassed in a row while an own packet waited; 15 R397; 0
  busy : List (Nat × Nat) := [] -- start and end of the payloads that the link sends or has announced, 1/25 tu; 15 R391 R397; none
  passed : List HeaderFrame := [] -- headers of the last 64 packets of each SRC taken to be sent on by another link; 15 R406; none
  sent : Option SendUndo := none -- what the last own packet sent changed; 15 R399; none
  timer : Option Nat := none    -- link timer runs from, tu; 15 R407; stopped
  outHdr : Option HeaderFrame := none -- last data or scale header sent; 15 R394 R398; none
  outAck : Option (Half × Half × Half) := none -- last ack frame sent: SRC, LSEQ, lander; 15 R394 R406; none
  outCredit : Nat := 0          -- credits returned to the neighbour; 15 R398 R405; 0
deriving DecidableEq, Repr

/-- The module's own link settings (D1), LNK_MODULE and the routing table. -/
structure LinkMod where
  addr : Half := 0              -- LNK_MODULE.ADDRESS, 16; 15 R414; 0
  portAddr : Half := 0          -- the same as the link ports hold it, which a reset of D1 leaves; 15 R402 R413; 0 (DESIGN CHOICE, log entry 52)
  tlevel : BitVec 8 := 1        -- LNK_MODULE.TLEVEL, 8; 15 R414; 1
  clevel : BitVec 8 := 1        -- LNK_MODULE.CLEVEL, 8; 15 R414; 1
  routes : Tab Half := []       -- routing table, 4,096 x 16; 15 R403 R404; not valid (DESIGN CHOICE, log entry 7)
deriving DecidableEq, Repr

/-! ### Always-on domain (16, 17) -/

/-- D0: AON, WDG and CASK registers, supply, trip diodes, event outputs. -/
structure Aon where
  power : Bool := true          -- D0 power-good; 17 R436; asserted
  stage : BitVec 3 := 5         -- AON_STAGE.STAGE, 3; 16 R433; 0x5
  taster : Bool := false        -- AON_STAGE.TASTER, 1; 16 R433; 0
  standbyCp : Bool := false     -- AON_STAGE.STANDBY_CP, 1; 16 R433; 0
  bank : Bool := false          -- AON_STAGE.BANK, 1; 16 R433; A
  bootBank : Bool := false      -- bank the last UPGRADE_COMMIT marked; 16 R420; A
  bankOk : Option Bool × Option Bool := (some true, none) -- whether bank A, bank B verifies, none = as shipped; 16 R420, 14 R384; A verifies, B free (DESIGN CHOICE, log entry 89)
  flash : Memory := []          -- bytes of the inactive bank; 14 R384; DESIGN CHOICE 0 (log entry 7)
  wdgLimit : BitVec 11 := 0x20  -- WDG_CTRL.LIMIT, 11; 16 R433; 0x020
  wdgNow : Nat := 32            -- limit in force, ms; 16 R425; 32
  beat : Half := 0              -- WDG_BEAT.BEAT, 16; 16 R433; 0
  beatAt : Nat := 0             -- last change of WDG_BEAT, tu; 16 R425; 0
  actDomain : BitVec 4 := 1     -- WDG_ACT.DOMAIN, 4; 16 R433; 0x1
  actUnit : BitVec 8 := 0       -- WDG_ACT.UNIT, 8; 16 R433; 0
  actReason : BitVec 12 := 1    -- WDG_ACT.REASON, 12; 16 R433; 0x001
  armed : Bool := false         -- WDG_STAT.ARMED, 1; 16 R433; 0
  expiries : Half := 0          -- WDG_STAT.EXPIRIES, 16; 16 R433; 0
  cask : List Word := [0, 0, 0, 0, 0, 0, 0, 0] -- CASK_CODE 0 to 7, 32; 16 R433; 0
  count : Half := 0             -- CASK_ATTEMPT.COUNT, 16; 16 R433; 0
  total : Half := 0             -- CASK_ATTEMPT.TOTAL, 16; 16 R433; 0
  failCode : Half := 0          -- CASK_STAGE.FAIL_CODE, 16; 16 R433; 0
  failStage : BitVec 3 := 0     -- CASK_STAGE.FAIL_STAGE, 3; 16 R433; 0
  resets : Word := 0            -- CASK_RESETS.RESETS, 32; 16 R433; 0
  perst : Bool := true          -- PERST# asserted; 16 R419; DESIGN CHOICE asserted (log entry 7)
  supplyHold : Bool := false    -- supply hold; 17 R436; none
  supplyFrom : Nat := 0         -- start of the supply hold, tu; 17 R436; 0
  thermalHold : Bool := false   -- thermal trip hold; 17 R443; none
  backoff : Option Nat := none  -- back-off wait ends at, tu; 16 R418; none
  resetHold : Option Nat := none -- 10 ms reset hold ends at, tu; 16 R431; none
  inReset : Bool := true        -- D1 to D4 held in reset; 16 R419; true
  askD1 : Bool := false         -- MODULE_RESET has asked for a reset of D1; 14 R380, 16 R430; false
  askD2 : BitVec 4 := 0         -- … of D2 of these quarters; 14 R380, 16 R430; none
  askD3 : BitVec 4 := 0         -- … of D3 of these quarters; 14 R380, 16 R430; none
  askD4 : Half := 0             -- … of these link engines; 14 R380, 16 R430; none
  d1Reset : Bool := false       -- D1 alone in reset; 16 R431; false
  d2Reset : BitVec 4 := 0       -- quarters whose D2 is in reset; 16 R431; none
  d3Reset : BitVec 4 := 0       -- quarters whose D3 is in reset; 16 R431; none
  d4Reset : Half := 0           -- link engines in reset; 16 R429; none
  recover2 : BitVec 4 := 0      -- quarters whose D2 is out of reset and recovers until Mash ends; 16 R431; none
  stageFrom : Nat := 0          -- start of the stage, tu; 16 R416; 0
  stageSent : List (Nat × List Byte) := [] -- slots of the STAGE event of the last failure, by channel; 16 R417; none
  kilnDraw : Nat := 0           -- MODEL: index of the free codes at which rings lock in this Kiln; 09 R247; 0 (log entry 34)
  hbmTrained : Bool := false    -- HBM training of this Kiln has ended; 16 R415; false
  tapped : Bool := false        -- Tap has been reached since D0 power-up; 16 R421; false
  linksHeld : Bool := false     -- links held in pass-through until Tap; 16 R421; false
  retryAt : Option Nat := none  -- moment of the last retry (merging, R428, R443), tu; 16 R428; none
  expiryAt : Option Nat := none -- moment of the last watchdog expiry, tu; 16 R428; none
  expiryStage : BitVec 3 × Nat := (5, 0) -- stage that it ended and that stage's start, tu; 16 R428; held in reset
  retryArmed : Bool := false    -- the watchdog was armed when the last retry began; 16 R425 R428; false
  diodes : List Int := [65, 65, 65, 65] -- trip diodes, °C; 17 R443; DESIGN CHOICE 65 °C (log entry 7)
  profile : BitVec 2 := 0       -- power profile; 17 R440; 0x0
  evtOn : Bool := false         -- event outputs have been evaluated; 17 R448; off
  evt2Until : Option Nat := none -- end of the EVT2 pulse, tu; 17 R448; none
  goodAt : Nat := 0             -- D0 power-good asserted at, tu; 17 R448; 0
deriving DecidableEq, Repr

/-- A completion of a host read, or of a lock read. -/
structure ReadOut where
  who : Nat := 0                -- reading identity; 13 R354; none
  data : List Byte := []        -- bytes returned; 00 R10; none
  poisoned : Bool := false      -- completion poisoned; 08 R214; false
deriving DecidableEq, Repr

/-- The records that hold RC fields and counts, as they stood when the present fabric cycle began (R12, R133). -/
structure Snap where
  chans : Tab Channel := []     -- MBX_STAT; 13 R373; see Channel
  locks : Locks := {}           -- LCK_DENIED; 13 R373; see Locks
  convs : Tab Conv := []        -- FIN_CNT; 11 R329; see Conv
  fouts : Tab Fout := []        -- FOUT_CNT; 12 R349; see Fout
  streams : Tab Stream := []    -- counts of the QNT, HQ and row-scaler records; 05 R133; see Stream
  hbmStacks : Tab Stack := []   -- counts of the STR records; 05 R133, 08 R235; see Stack
  clusters : Tab Cluster := []  -- counts of R276; 05 R133, 09 R276; see Cluster
  loops : Tab FieldLoop := []   -- LOOP_CNT; 05 R133, 10 R301; see FieldLoop
  prfs : Tab Profile := []      -- PRF_STAT.CLAMPS; 05 R133, 10 R301; see Profile
  links : Tab Link := []        -- counts of the LNK records; 05 R133, 15 R414; see Link
  capRefused : BitVec 8 := 0    -- LOOP_ENG_STAT.CAP_REFUSED; 05 R133, 10 R301; 0
  loopDenied : Half := 0        -- LOOP_ENG_STAT.WR_DENIED; 05 R133, 10 R301; 0
  ang : Angle := {}             -- counts of ANG_STAT; 05 R133, 11 R329; see Angle
  foutDenied : Half := 0        -- FOUT_ENG_STAT.WR_DENIED; 05 R133, 12 R349; 0
  images : Tab ImgRec := []     -- STEP_OVERRUN of every image; 05 R133, 14 R380; none
deriving DecidableEq, Repr

end Sys2Proof.Machine

namespace Sys2Proof.Machine

/-- Firmware's wear counters: they never fall (R22, R380). -/
structure Wear where
  used : Tab Nat := []          -- spares brought into service by kind, 0 to 7 in HEALTH order; 01 R22, 14 R380; 0
  rows : Tab Nat := []          -- rows of each stack replaced by post-package repair; 01 R22, 14 R380; 0
deriving DecidableEq, Repr

/-- The HG-1 module. -/
structure State where
  now : Nat := 0                -- MODEL: the clock, tu; 01 R18; 0 (log entry 1)
  pending : List Instr := []    -- MODEL: commands waiting, first in first out; empty
  free : Nat := 0               -- MODEL: counter the free values are applied to; 0 (log entry 8)
  readOut : ReadOut := {}       -- MODEL: completion of the last host read; 00 R10; none
  snap : Snap := {}             -- MODEL: RC fields at the start of the present fabric cycle; 00 R12; see Snap
  aon : Aon := {}               -- domain D0; 16 R433; see Aon
  fw : Fw := {}                 -- firmware (D1); 14; see Fw
  chans : Tab Channel := []     -- 160 mailbox channels (D1); 13 R354; see Channel
  locks : Locks := {}           -- lock registers (D1); 13 R369; see Locks
  hbm : Memory := []            -- HBM bytes by device address (D3); 08 R211; DESIGN CHOICE 0 (log entry 6)
  bad : List Nat := []          -- HBM lines marked bad, rising; 08 R214; none
  wear : Wear := {}             -- firmware's wear counters; 01 R22; see Wear
  hbmStacks : Tab Stack := []      -- 16 stream engines and stacks; 08 R235; see Stack
  descs : Tab Desc := []        -- descriptors by engine*8192 + index (D2); 08 R220; see Desc
  sram : Memory := []           -- cluster SRAM bytes by cluster*0x300000 + offset (D2); 08 R222; DESIGN CHOICE 0 (log entry 6)
  clusters : Tab Cluster := []  -- 832 clusters (D2); 01 R16; see Cluster
  streams : Tab Stream := []    -- 4,096 streams; 06 R141; see Stream
  pools : Tab Pool := []        -- 4,096 pools; 06 R158; see Pool
  progs : Tab Prog := []        -- firing lists by unit word and image; 07 R175 R459; see Prog
  loops : Tab FieldLoop := []   -- 16 field loops (D1); 10 R302; see FieldLoop
  prfs : Tab Profile := []      -- 16 profile generators (D1); 10 R302; see Profile
  loopEng : LoopEng := {}       -- capture and LOOP_ENG_STAT (D1); 10 R302; see LoopEng
  convs : Tab Conv := []        -- 4 field converters (D1); 11 R329; see Conv
  incfg : Tab (BitVec 2) := []  -- FIN_INCFG.RANGE of 16 inputs, 2; 11 R329; 0
  incfgAt : Tab (List Nat) := [] -- FIN_INCFG writes of each input in the last 30 µs, tu; 11 R306; none
  ang : Angle := {}             -- angle timebase (D1); 11 R329; see Angle
  sched : Tab SchedEntry := []  -- 512 scheduler entries (D1); 11 R323; see SchedEntry
  fouts : Tab Fout := []        -- 16 output channels (D0); 12 R349; see Fout
  foutDenied : Half := 0        -- FOUT_ENG_STAT.WR_DENIED, 16 (D0); 12 R349; 0
  links : Tab Link := []        -- 64 links (D4, LNK records D1); 15 R414; see Link
  linkMod : LinkMod := {}       -- LNK_MODULE and routing table; 15 R403; see LinkMod
deriving DecidableEq, Repr

/-- The module at D0 power-good: D1 to D4 held in reset by PERST#, every output in HIZ, nothing placed,
no command waiting (R15, R343, R415, R419, R433; log entry 7 names every value the manual does not give). -/
def State.reset : State := {}

end Sys2Proof.Machine
end

