-- ==== Sys2Proof/Machine/Ops.lean ====
section
/-! DEFINITION. The named operations over State: sparse tables, memory, getters and setters of every record,
the clock, and the shape of a meaning (operands name existing units, then one effect). -/

namespace Sys2Proof.Machine

open Sys2Proof.Config

/-! ### Sparse tables -/

/-- The entry of key i, or the default d. -/
def Tab.get {α : Type} (d : α) : Tab α → Nat → α
  | [], _ => d
  | (k, v) :: m, i => if k = i then v else Tab.get d m i

/-- Entry (i, v) put before the first greater key. -/
def Tab.ins {α : Type} (i : Nat) (v : α) : Tab α → Tab α
  | [] => [(i, v)]
  | (k, w) :: m => if i < k then (i, v) :: (k, w) :: m else (k, w) :: Tab.ins i v m

/-- The table with key i holding v; a default value is not listed. -/
def Tab.put {α : Type} [DecidableEq α] (d : α) (m : Tab α) (i : Nat) (v : α) : Tab α :=
  let rest := m.filter fun p => p.1 ≠ i
  if v = d then rest else Tab.ins i v rest

/-! ### Memory -/

/-- One byte; an unlisted address reads 0x00 (log entry 6). -/
def Memory.read : Memory → Nat → Byte
  | [], _ => 0
  | (k, b) :: m, a => if k = a then b else Memory.read m a

/-- The bytes from a on. -/
def Memory.readN (m : Memory) (a n : Nat) : List Byte := (List.range n).map fun i => m.read (a + i)

/-- The cells that bytes written from a on list. -/
def Memory.cells (a : Nat) : List Byte → Memory
  | [] => []
  | b :: bs => if b = 0 then Memory.cells (a + 1) bs else (a, b) :: Memory.cells (a + 1) bs

/-- Memory with the bytes stored from a on. -/
def Memory.write (m : Memory) (a : Nat) (bs : List Byte) : Memory :=
  (m.filter fun c => c.1 < a) ++ Memory.cells a bs ++ m.filter fun c => a + bs.length ≤ c.1

/-- The canonical form: addresses strictly rising, no 0x00 listed. -/
def Memory.wf : Memory → Bool
  | [] => true
  | [c] => c.2 ≠ 0
  | c :: c' :: m => c.2 ≠ 0 && c.1 < c'.1 && Memory.wf (c' :: m)

/-! ### The clock and the shape of a meaning -/

/-- What a meaning answers. -/
abbrev Out := Host.Outcome State Fault Refusal

/-- The clock moves on to the moment of a command; it never goes back (log entry 1). What the counts hold when a
fabric cycle begins is kept for its reads and clears (R12, R133). -/
def State.tick (s : State) (t : Nat) : State :=
  { s with now := max s.now t
           snap := if s.now / cycle < max s.now t / cycle then
               { chans := s.chans, locks := s.locks, convs := s.convs, fouts := s.fouts, streams := s.streams
                 hbmStacks := s.hbmStacks, clusters := s.clusters, loops := s.loops, prfs := s.prfs, links := s.links
                 capRefused := s.loopEng.capRefused, loopDenied := s.loopEng.wrDenied, ang := s.ang
                 foutDenied := s.foutDenied, images := s.fw.images }
             else s.snap }

/-- An event sets W1C bits at a moment: the bits set in its fabric cycle stay on record (R11). -/
def freshen (now mask : Nat) (f : Nat × Nat) : Nat × Nat :=
  if f.1 = now / cycle + 1 then (f.1, f.2 ||| mask) else (now / cycle + 1, mask)

/-- A W1C bit after a write of v: 1 clears it, unless an event set it in the same fabric cycle (R10, R11). -/
def w1c (now : Nat) (f : Nat × Nat) (v : Word) (k : Nat) (b : Bool) : Bool :=
  b && (!flag v k || (f.1 = now / cycle + 1 && f.2.testBit k))

/-- What an RC field keeps after a read: the events recorded since its fabric cycle began (R10, R12). -/
def rcLeft (cur before : Nat) : Nat := cur - before

/-- What a count keeps after a clear: what its fabric cycle has added (R133; log entry 28). -/
def countLeft {n : Nat} (cur before : BitVec n) : BitVec n := if before ≤ cur then cur - before else cur

/-- What a longest value keeps after a clear: a longer one that its fabric cycle has brought (R133; log entry 28). -/
def longestLeft {n : Nat} (cur before : BitVec n) : BitVec n := if before < cur then cur else 0

/-- A meaning: where the operands name units the module has, the clock moves on and the effect takes place. -/
def act (ok : Bool) (t : Nat) (s : State) (f : State → State) : Out :=
  if ok then .next (f (s.tick t)) else .fault .noSuchUnit

/-- The next free value's index; the counter moves on (log entry 8). -/
def State.draw (s : State) : State := { s with free := s.free + 1 }

/-! ### Records of a cluster -/

/-- A core's record at reset: 0 to 31 carry the positions, 32 is the rotation spare, 33 the wear spare. -/
def Core.reset (k : Nat) : Core :=
  { st := if k < 32 then .inService else if k = 32 then .spareReady else .cold }

/-- The physical core that carries a position (R94). -/
def Cluster.phys (c : Cluster) (p : Nat) : Nat := Tab.get p c.posMap p

/-- The switch map with position p carried by core k. -/
def Cluster.setPhys (c : Cluster) (p k : Nat) : Cluster := { c with posMap := Tab.put p c.posMap p k }

/-- The position a physical core carries. -/
def Cluster.posOf (c : Cluster) (k : Nat) : Option Nat := (List.range 32).find? fun p => c.phys p = k

/-- The cluster takes work: it is neither retired nor parked (R26, R269). -/
def Cluster.works (c : Cluster) : Bool := !c.retired && !c.parked

/-- Feeder f. -/
def Cluster.feeder (c : Cluster) (f : Nat) : Feeder := Tab.get {} c.feeders f

/-- Feeder f replaced. -/
def Cluster.setFeeder (c : Cluster) (f : Nat) (v : Feeder) : Cluster := { c with feeders := Tab.put {} c.feeders f v }

/-- Physical core k. -/
def Cluster.core (c : Cluster) (k : Nat) : Core := Tab.get (Core.reset k) c.cores k

/-- Physical core k replaced. -/
def Cluster.setCore (c : Cluster) (k : Nat) (v : Core) : Cluster := { c with cores := Tab.put (Core.reset k) c.cores k v }

/-- Physical core k changed. -/
def Cluster.modCore (c : Cluster) (k : Nat) (f : Core → Core) : Cluster := c.setCore k (f (c.core k))

/-- Ring r (engine*64 + cell) of a core. -/
def Core.ring (c : Core) (r : Nat) : Ring := Tab.get {} c.rings r

/-- Ring r replaced. -/
def Core.setRing (c : Core) (r : Nat) (v : Ring) : Core := { c with rings := Tab.put {} c.rings r v }

/-- Weight SRAM slot k with its trailer. -/
def Core.slotAt (c : Core) (k : Nat) : WImage := Tab.get {} c.slots k

/-- Weight SRAM slot k written. -/
def Core.setSlot (c : Core) (k : Nat) (v : WImage) : Core := { c with slots := Tab.put {} c.slots k v }

/-- The cluster of a unit of a cluster. -/
def unitCluster : UnitId → Option Nat
  | .feeder c _ | .core c _ | .tree c | .vu c _ | .quant c _ => some c
  | _ => none

/-- Quarter of a unit of domain D2 (R379). -/
def unitQuarter : UnitId → Option Nat
  | .feeder c _ | .core c _ | .tree c | .vu c _ | .quant c _ => some (c / 208)
  | .engine e => some (e / 4)
  | _ => none

/-! ### Records of the module -/

/-- Cluster c, 0 to 831. -/
def State.cluster (s : State) (c : Nat) : Cluster := Tab.get {} s.clusters c
/-- Cluster c replaced. -/
def State.setCluster (s : State) (c : Nat) (v : Cluster) : State := { s with clusters := Tab.put {} s.clusters c v }
/-- Cluster c changed. -/
def State.modCluster (s : State) (c : Nat) (f : Cluster → Cluster) : State := s.setCluster c (f (s.cluster c))
/-- A spare of a kind, in HEALTH order, is brought into service: its wear counter rises (R22). -/
def State.wears (s : State) (kind : Nat) : State :=
  { s with wear := { s.wear with used := Tab.put 0 s.wear.used kind (Tab.get 0 s.wear.used kind + 1) } }
/-- The same where a spare has in fact been brought into service. -/
def State.wearsWhen (s : State) (inService : Bool) (kind : Nat) : State :=
  { s with wear := if inService then (s.wears kind).wear else s.wear }
/-- Physical core k of cluster c. -/
def State.core (s : State) (c k : Nat) : Core := (s.cluster c).core k
/-- Physical core k of cluster c changed. -/
def State.modCore (s : State) (c k : Nat) (f : Core → Core) : State := s.modCluster c fun cl => cl.modCore k f
/-- Feeder f of cluster c. -/
def State.feeder (s : State) (c f : Nat) : Feeder := (s.cluster c).feeder f
/-- Feeder f of cluster c changed. -/
def State.modFeeder (s : State) (c f : Nat) (g : Feeder → Feeder) : State :=
  s.modCluster c fun cl => cl.setFeeder f (g (cl.feeder f))

/-- Stream i. -/
def State.stream (s : State) (i : Nat) : Stream := Tab.get {} s.streams i
/-- Stream i replaced. -/
def State.setStream (s : State) (i : Nat) (v : Stream) : State := { s with streams := Tab.put {} s.streams i v }
/-- Stream i changed. -/
def State.modStream (s : State) (i : Nat) (f : Stream → Stream) : State := s.setStream i (f (s.stream i))

/-- Pool i. -/
def State.pool (s : State) (i : Nat) : Pool := Tab.get {} s.pools i
/-- Pool i replaced. -/
def State.setPool (s : State) (i : Nat) (v : Pool) : State := { s with pools := Tab.put {} s.pools i v }
/-- Pool i changed. -/
def State.modPool (s : State) (i : Nat) (f : Pool → Pool) : State := s.setPool i (f (s.pool i))

/-- Stack and stream engine e. -/
def State.stack (s : State) (e : Nat) : Stack := Tab.get {} s.hbmStacks e
/-- Stack e replaced. -/
def State.setStack (s : State) (e : Nat) (v : Stack) : State := { s with hbmStacks := Tab.put {} s.hbmStacks e v }
/-- Stack e changed. -/
def State.modStack (s : State) (e : Nat) (f : Stack → Stack) : State := s.setStack e (f (s.stack e))

/-- Descriptor d of engine e. -/
def State.desc (s : State) (e d : Nat) : Desc := Tab.get {} s.descs (e * 8192 + d)
/-- Descriptor d of engine e replaced. -/
def State.setDesc (s : State) (e d : Nat) (v : Desc) : State := { s with descs := Tab.put {} s.descs (e * 8192 + d) v }
/-- Descriptor d of engine e changed. -/
def State.modDesc (s : State) (e d : Nat) (f : Desc → Desc) : State := s.setDesc e d (f (s.desc e d))

/-- Field loop n. -/
def State.fieldLoop (s : State) (n : Nat) : FieldLoop := Tab.get {} s.loops n
/-- Field loop n replaced. -/
def State.setLoop (s : State) (n : Nat) (v : FieldLoop) : State := { s with loops := Tab.put {} s.loops n v }
/-- Field loop n changed. -/
def State.modLoop (s : State) (n : Nat) (f : FieldLoop → FieldLoop) : State := s.setLoop n (f (s.fieldLoop n))

/-- Profile generator n. -/
def State.prf (s : State) (n : Nat) : Profile := Tab.get {} s.prfs n
/-- Profile generator n replaced. -/
def State.setPrf (s : State) (n : Nat) (v : Profile) : State := { s with prfs := Tab.put {} s.prfs n v }
/-- Profile generator n changed. -/
def State.modPrf (s : State) (n : Nat) (f : Profile → Profile) : State := s.setPrf n (f (s.prf n))

/-- Field converter k. -/
def State.conv (s : State) (k : Nat) : Conv := Tab.get {} s.convs k
/-- Field converter k replaced. -/
def State.setConv (s : State) (k : Nat) (v : Conv) : State := { s with convs := Tab.put {} s.convs k v }
/-- Field converter k changed. -/
def State.modConv (s : State) (k : Nat) (f : Conv → Conv) : State := s.setConv k (f (s.conv k))

/-- A scheduler entry about to be written: what it held before the writes of this fabric cycle stays on record (R324). -/
def SchedEntry.touch (now : Nat) (e : SchedEntry) : SchedEntry :=
  if e.since = some (now / cycle) then e
  else { e with since := some (now / cycle), was := (e.angle, e.cyc, e.act) }

/-- Scheduler entry e. -/
def State.schedEntry (s : State) (e : Nat) : SchedEntry := Tab.get {} s.sched e
/-- Scheduler entry e replaced. -/
def State.setSched (s : State) (e : Nat) (v : SchedEntry) : State := { s with sched := Tab.put {} s.sched e v }

/-- Output channel n. -/
def State.fout (s : State) (n : Nat) : Fout := Tab.get {} s.fouts n
/-- Output channel n replaced. -/
def State.setFout (s : State) (n : Nat) (v : Fout) : State := { s with fouts := Tab.put {} s.fouts n v }
/-- Output channel n changed. -/
def State.modFout (s : State) (n : Nat) (f : Fout → Fout) : State := s.setFout n (f (s.fout n))

/-- Mailbox channel c. -/
def State.chan (s : State) (c : Nat) : Channel := Tab.get {} s.chans c
/-- Mailbox channel c replaced. -/
def State.setChan (s : State) (c : Nat) (v : Channel) : State := { s with chans := Tab.put {} s.chans c v }
/-- Mailbox channel c changed. -/
def State.modChan (s : State) (c : Nat) (f : Channel → Channel) : State := s.setChan c (f (s.chan c))

/-- Link n. -/
def State.link (s : State) (n : Nat) : Link := Tab.get {} s.links n
/-- Link n replaced. -/
def State.setLink (s : State) (n : Nat) (v : Link) : State := { s with links := Tab.put {} s.links n v }
/-- Link n changed. -/
def State.modLink (s : State) (n : Nat) (f : Link → Link) : State := s.setLink n (f (s.link n))

/-- Image index i. -/
def State.image (s : State) (i : Nat) : ImgRec := Tab.get {} s.fw.images i
/-- Image index i replaced. -/
def State.setImage (s : State) (i : Nat) (v : ImgRec) : State :=
  { s with fw := { s.fw with images := Tab.put {} s.fw.images i v } }
/-- Image index i changed. -/
def State.modImage (s : State) (i : Nat) (f : ImgRec → ImgRec) : State := s.setImage i (f (s.image i))

/-- The unit word of R379, the core field holding the position for cores and vector units. -/
def unitWord : UnitId → Nat
  | .feeder cl f => cl / 208 + cl % 208 * 4 + 0x3F * 1024 + 0 * 65536 + f * 1048576
  | .core cl p => cl / 208 + cl % 208 * 4 + p * 1024 + 1 * 65536
  | .tree cl => cl / 208 + cl % 208 * 4 + 0x3F * 1024 + 2 * 65536
  | .vu cl p => cl / 208 + cl % 208 * 4 + p * 1024 + 3 * 65536
  | .quant cl i => cl / 208 + cl % 208 * 4 + 0x3F * 1024 + 4 * 65536 + i * 1048576
  | .port l => l / 16 + 0x3F * 1024 + 5 * 65536 + l % 16 * 1048576
  | .engine e => e / 4 + 0x3F * 1024 + 6 * 65536 + e % 4 * 1048576
  | .field => 0x3F * 1024 + 7 * 65536

/-- The units the module has (R16, R379). -/
def unitOk : UnitId → Bool
  | .feeder cl f => cl < 832 && f < 4
  | .core cl p => cl < 832 && p < 32
  | .tree cl => cl < 832
  | .vu cl p => cl < 832 && p < 32
  | .quant cl i => cl < 832 && i < 16
  | .port l => l < 64
  | .engine e => e < 16
  | .field => true

/-- The key of a unit's list for an image. -/
def progKey (u : UnitId) (img : Nat) : Nat := img * 2 ^ 24 + unitWord u

/-- The list of unit u for image img. -/
def State.prog (s : State) (u : UnitId) (img : Nat) : Prog := Tab.get {} s.progs (progKey u img)
/-- The list of unit u for image img replaced. -/
def State.setProg (s : State) (u : UnitId) (img : Nat) (v : Prog) : State :=
  { s with progs := Tab.put {} s.progs (progKey u img) v }
/-- The list of unit u for image img changed. -/
def State.modProg (s : State) (u : UnitId) (img : Nat) (f : Prog → Prog) : State :=
  s.setProg u img (f (s.prog u img))

/-- The always-on record changed. -/
def State.modAon (s : State) (f : Aon → Aon) : State := { s with aon := f s.aon }
/-- The angle timebase changed. -/
def State.modAng (s : State) (f : Angle → Angle) : State := { s with ang := f s.ang }
/-- Firmware's state changed. -/
def State.modFw (s : State) (f : Fw → Fw) : State := { s with fw := f s.fw }

/-- The state changed once for every element of a list. -/
def State.each {α : Type} (s : State) (xs : List α) (f : State → α → State) : State := xs.foldl f s

/-! ### Buffers -/

/-- Bytes n of handle h of pool p from offset off on (R158). -/
def State.readBuf (s : State) (p h off n : Nat) : List Byte :=
  let q := s.pool p
  if q.inHbm then s.hbm.readN (q.base + h * q.bufSize + off) n
  else s.sram.readN (q.cluster * 0x300000 + q.base + h * q.bufSize + off) n

/-- Usable bytes of a stack (R210). -/
abbrev stackBytes : Nat := 46500000000
/-- A device address with memory behind it (R210, R211). -/
def hbmUsable (a : Nat) : Bool := a < 2 ^ 40 && a % 2 ^ 36 < stackBytes

/-- Bytes written to HBM from device address a on: those with no memory behind them are dropped (R212), and a
line's bad mark goes when one write covers its 64 bytes (R214). -/
def State.writeHbm (s : State) (a : Nat) (bs : List Byte) : State :=
  { s with hbm := (s.hbm.write a bs).filter fun c => hbmUsable c.1
           bad := s.bad.filter fun l => !(a ≤ 64 * l && 64 * l + 64 ≤ a + bs.length) }

/-- Whether a read of n bytes from device address a meets a line marked bad (R214). -/
def State.badIn (s : State) (a n : Nat) : Bool := s.bad.any fun l => a < 64 * l + 64 && 64 * l < a + n

/-- Bytes written into handle h of pool p from offset off on (R158). -/
def State.writeBuf (s : State) (p h off : Nat) (bs : List Byte) : State :=
  let q := s.pool p
  let cut := bs.take (q.bufSize - off)
  if q.inHbm then s.writeHbm (q.base + h * q.bufSize + off) cut
  else { s with sram := s.sram.write (q.cluster * 0x300000 + q.base + h * q.bufSize + off) cut }

end Sys2Proof.Machine
end

