-- ==== Sys2Proof/Machine/Precision.lean ====
section
/-! DEFINITION. Effective bits (R63 to R70, R75, R76, R78, R85): the figure that applies to a window, and the bound it
sets on the deviation of row ADC codes. Figures are in tenths of a bit. -/

namespace Sys2Proof.Machine

open Sys2Proof.Config

/-! ### The tables (R68 to R70, R85) -/

/-- Fan-out tier of R69. -/
def fanTier (n : Nat) : Nat := if n ≤ 8 then 0 else if n ≤ 16 then 1 else 2

/-- Effective bits with dither running, by WINDOW code, at fan-out up to 8; neither the full-scale fraction nor the engine map
changes them (R66, R68). -/
def ebRunning (w : Nat) : Nat := [46, 53, 59, 65, 70, 75, 78].getD w 0

/-- Effective bits with dither paused in a quiet window; at windows below 8 ns it brings no gain (R68). -/
def ebPaused (w : Nat) : Nat := if w = 4 then 72 else if w = 5 then 77 else if w = 6 then 80 else ebRunning w

/-- The figure of a window code at a fan-out, after R68 and R69. -/
def ebFigure (paused : Bool) (w fan : Nat) : Nat := (if paused then ebPaused w else ebRunning w) - 5 * fanTier fan

/-- The figure of a row on factory calibration: half a bit lower, at windows of 8 ns and above and fan-out up to 8 only
(R85). -/
def ebFactory (paused : Bool) (w fan : Nat) : Option Nat :=
  if 4 ≤ w && fan ≤ 8 then some (ebFigure paused w fan - 5) else none

/-- The figure against the activations before the feeder rounds them: min(EB, w), an asymmetric width 8 counting as 7
(R70). -/
def ebWidth (eb width : Nat) (asym : Bool) : Nat := min eb (10 * if asym && width = 8 then 7 else width)

/-! ### Dither paused (R75, R76, R78) -/

/-- A window from moment a to moment e gets the paused figure of a quiet window from o to c: it starts at least 50 µs after
the opening and ends no later than the close. -/
def quietCovers (a e : Nat) (q : Nat × Nat) : Bool := q.1 + 50 * us ≤ a && e ≤ q.2

/-- The window from moment a to moment e of a cluster gets the paused figure: the open quiet window, or the one that
closed last, at its end or early, covers it (R75, R76, R78). -/
def Cluster.pausedFor (c : Cluster) (a e : Nat) : Bool :=
  (match c.quiet with | some q => quietCovers a e (q.openedAt, q.openedAt + q.len) | none => false)
    || (match c.quietLast with | some q => quietCovers a e q | none => false)

/-! ### Rows in service (R64, R65) -/

/-- Die temperature and its slew lie in the range of R64: 45 to 85 °C, at most 5 °C per ms. -/
def Cluster.tempInBand (c : Cluster) : Bool := c.sensors.all (fun x => 45000 ≤ x && x ≤ 85000) && c.slew ≤ 5000

/-- The figure of a core's rows for a window of code w from a to e at a fan-out; none outside the conditions of R64 (R65).
taster: the cluster runs on factory calibration, as a core that has not completed calibration does (R85). -/
def Cluster.rowFigure (c : Cluster) (k : Core) (taster flagged : Bool) (w fan a e : Nat) : Option Nat :=
  if flagged || !c.tempInBand then none
  else if taster || !k.calibrated then ebFactory (c.pausedFor a e) w fan
  else some (ebFigure (c.pausedFor a e) w fan)

/-! ### The bound on the deviation (R63) -/

/-- 12 × 4^EB in units of 2^-16, rounded down, for a figure in tenths of a bit. -/
def ebWeight (t : Nat) : Nat :=
  [786432, 903373, 1037703, 1192008, 1369257, 1572864, 1806746, 2075406, 2384016, 2738515].getD (t % 10) 0 * 4 ^ (t / 10)

/-- Windows over which σ is taken: 2^20 (R63). -/
abbrev sigmaWindows : Nat := 1048576

/-- The sum of d² × 12 × 4^EB over 2^20 windows may not exceed 1,022² × 2^20: σ ≤ 1,022 ÷ (√12 × 2^EB) (R63). -/
abbrev sigmaBudget : Nat := 1022 * 1022 * 65536 * sigmaWindows

/-- The weight of an error, a fraction of codes, under a figure: its square × 12 × 4^EB, rounded up (R63). -/
def errWeight (e : Nat × Nat) (t : Nat) : Nat := (e.1 * e.1 * ebWeight t + e.2 * e.2 - 1) / (e.2 * e.2)

/-- The most that the ADC's rounding weighs in a window: half a code at the gain 2.0, at the highest figure, 8.0 bits (R37,
R52, R68). -/
abbrev roundWeight : Nat := ebWeight 80

/-- A row's run of windows, counted and weight spent, leaves for each window still to come what rounding may weigh. -/
def runOk (run : Nat × Nat) : Bool := run.2 + (sigmaWindows - run.1) * roundWeight ≤ sigmaBudget

/-- A code of weight w may be sampled: every window of the run after it still has what rounding may weigh (R63, R64; log
entry 9). -/
def mayDeviate (run : Nat × Nat) (w : Nat) : Bool := runOk (run.1 + 1, run.2 + w)

/-- A row's run after a sample of weight w: a clipped sample is excluded, and after 2^20 windows the next run begins (R63). -/
def spendWeight (run : Nat × Nat) (clipped : Bool) (w : Nat) : Nat × Nat :=
  if clipped then run else if run.1 + 1 < sigmaWindows then (run.1 + 1, run.2 + w) else (0, 0)

end Sys2Proof.Machine
end

