-- ==== Sys2Proof/Machine/Float.lean ====
section
/-! DEFINITION. FP32 and BF16 arithmetic: exact values, one rounding to nearest with ties to even, the vector
unit's flushing (R200), the row scaler's saturation (R58), EXP, RECIP and RSQRT within their ULPs (R203). -/

namespace Sys2Proof.Machine

/-! ### Encodings -/

/-- The NaN that every operation produces (R200). -/
abbrev fpNaN : Word := 0x7FC00000
/-- The largest finite FP32 (R58). -/
abbrev fpMax : Word := 0x7F7FFFFF
/-- +infinity. -/
abbrev fpInf : Word := 0x7F800000

/-- Sign bit. -/
def fpNeg (w : Word) : Bool := w.getLsbD 31
/-- Magnitude bits [30:0]. -/
def fpMag (w : Word) : Nat := w.toNat % 2 ^ 31
/-- A NaN. -/
def fpIsNaN (w : Word) : Bool := fpMag w > 0x7F800000
/-- ±infinity. -/
def fpIsInf (w : Word) : Bool := fpMag w = 0x7F800000
/-- ±0.0. -/
def fpIsZero (w : Word) : Bool := fpMag w = 0
/-- A subnormal. -/
def fpIsSub (w : Word) : Bool := 0 < fpMag w && fpMag w < 0x00800000
/-- A word from sign and magnitude bits. -/
def fpMake (neg : Bool) (mag : Nat) : Word := BitVec.ofNat 32 (mag + if neg then 2 ^ 31 else 0)

/-- A number m × 2^e. -/
structure Dyadic where
  m : Int
  e : Int
deriving DecidableEq, Repr

/-- The exact value of a finite FP32. -/
def fpVal (w : Word) : Dyadic :=
  let x : Nat := fpMag w / 2 ^ 23
  let f : Nat := fpMag w % 2 ^ 23
  let m : Int := if x = 0 then (f : Int) else ((f + 2 ^ 23 : Nat) : Int)
  { m := if fpNeg w then -m else m, e := if x = 0 then -149 else (x : Int) - 150 }

/-- A dyadic as numerator magnitude and denominator. -/
def Dyadic.rat (d : Dyadic) : Nat × Nat :=
  if 0 ≤ d.e then (d.m.natAbs * 2 ^ d.e.toNat, 1) else (d.m.natAbs, 2 ^ (-d.e).toNat)

/-- Floor of log2 (num ÷ den), num and den not 0. -/
def log2Rat (num den : Nat) : Int :=
  let e : Int := (Nat.log2 num : Int) - Nat.log2 den
  let lt := if 0 ≤ e then num < den * 2 ^ e.toNat else num * 2 ^ (-e).toNat < den
  if lt then e - 1 else e

/-- Magnitude bits of num ÷ den with the quotient's significand rounded by rnd; overflow gives infinity's bits. -/
def fpEncode (rnd : Nat → Nat → Nat) (num den : Nat) : Nat :=
  if num = 0 then 0
  else
    let e := max (log2Rat num den) (-126)
    let q := e - 23
    let n := if 0 ≤ q then rnd num (den * 2 ^ q.toNat) else rnd (num * 2 ^ (-q).toNat) den
    min ((e + 126).toNat * 2 ^ 23 + n) 0x7F800000

/-- The FP32 nearest to ±num ÷ den, ties to even, with subnormals and infinity. -/
def fpOfRat (neg : Bool) (num den : Nat) : Word := fpMake neg (fpEncode roundEvenNat num den)

/-- The FP32 nearest to a dyadic; an exact zero takes the given sign. -/
def fpOfDyadic (zeroNeg : Bool) (d : Dyadic) : Word :=
  if d.m = 0 then fpMake zeroNeg 0
  else
    let r := d.rat
    fpOfRat (d.m < 0) r.1 r.2

/-- The FP32 nearest to an integer. -/
def fpOfInt (n : Int) : Word := fpOfDyadic false { m := n, e := 0 }

/-- Sum of two dyadics. -/
def Dyadic.add (a b : Dyadic) : Dyadic :=
  let e := min a.e b.e
  { m := a.m * 2 ^ (a.e - e).toNat + b.m * 2 ^ (b.e - e).toNat, e := e }

/-- Product of two dyadics. -/
def Dyadic.mul (a b : Dyadic) : Dyadic := { m := a.m * b.m, e := a.e + b.e }

/-- a < b for dyadics. -/
def Dyadic.lt (a b : Dyadic) : Bool := (Dyadic.add a { b with m := -b.m }).m < 0

/-! ### IEEE 754 operations, round to nearest even -/

/-- a + b. -/
def fpAdd (a b : Word) : Word :=
  if fpIsNaN a || fpIsNaN b then fpNaN
  else if fpIsInf a then (if fpIsInf b && fpNeg a != fpNeg b then fpNaN else a)
  else if fpIsInf b then b
  else fpOfDyadic (fpNeg a && fpNeg b) ((fpVal a).add (fpVal b))

/-- -a. -/
def fpMinus (a : Word) : Word := if fpIsNaN a then fpNaN else fpMake (!fpNeg a) (fpMag a)

/-- a - b. -/
def fpSub (a b : Word) : Word := fpAdd a (fpMinus b)

/-- a × b. -/
def fpMul (a b : Word) : Word :=
  let n := fpNeg a != fpNeg b
  if fpIsNaN a || fpIsNaN b then fpNaN
  else if fpIsInf a || fpIsInf b then (if fpIsZero a || fpIsZero b then fpNaN else fpMake n 0x7F800000)
  else fpOfDyadic n ((fpVal a).mul (fpVal b))

/-- a × b + c with one rounding. -/
def fpFma (a b c : Word) : Word :=
  let n := fpNeg a != fpNeg b
  if fpIsNaN a || fpIsNaN b || fpIsNaN c then fpNaN
  else if fpIsInf a || fpIsInf b then fpAdd (fpMul a b) c
  else if fpIsInf c then c
  else fpOfDyadic (n && fpNeg c) (((fpVal a).mul (fpVal b)).add (fpVal c))

/-- a ÷ b. -/
def fpDiv (a b : Word) : Word :=
  let n := fpNeg a != fpNeg b
  if fpIsNaN a || fpIsNaN b then fpNaN
  else if fpIsInf a then (if fpIsInf b then fpNaN else fpMake n 0x7F800000)
  else if fpIsInf b then fpMake n 0
  else if fpIsZero b then (if fpIsZero a then fpNaN else fpMake n 0x7F800000)
  else
    let x := (fpVal a).rat
    let y := (fpVal b).rat
    fpOfRat n (x.1 * y.2) (x.2 * y.1)

/-- |a|. -/
def fpAbs (a : Word) : Word := if fpIsNaN a then fpNaN else fpMake false (fpMag a)

/-- a < b, both not NaN; -0.0 and +0.0 are equal. -/
def fpLt (a b : Word) : Bool :=
  if fpIsNaN a || fpIsNaN b then false
  else if fpIsZero a && fpIsZero b then false
  else if fpNeg a != fpNeg b then fpNeg a
  else if fpNeg a then fpMag b < fpMag a else fpMag a < fpMag b

/-- IEEE 754-2019 maximum: a NaN operand gives NaN, +0.0 exceeds -0.0 (log entry 30). -/
def fpMaximum (a b : Word) : Word :=
  if fpIsNaN a || fpIsNaN b then fpNaN
  else if fpIsZero a && fpIsZero b then (if fpNeg a then b else a)
  else if fpLt a b then b else a

/-- IEEE 754-2019 minimum (log entry 30). -/
def fpMinimum (a b : Word) : Word :=
  if fpIsNaN a || fpIsNaN b then fpNaN
  else if fpIsZero a && fpIsZero b then (if fpNeg a then a else b)
  else if fpLt b a then b else a

/-! ### BF16 -/

/-- A BF16 widened to FP32 exactly (R200). -/
def bfWiden (h : Half) : Word := BitVec.ofNat 32 (h.toNat * 65536)

/-- An FP32 rounded to BF16, ties to even; a NaN becomes 0x7FC0 (R200). -/
def bfRound (w : Word) : Half :=
  if fpIsNaN w then 0x7FC0
  else BitVec.ofNat 16 (roundEvenNat (fpMag w) 65536 + if fpNeg w then 0x8000 else 0)

/-! ### The vector unit's rules (R200) -/

/-- A subnormal becomes zero with its sign kept. -/
def vuFlush (w : Word) : Word := if fpIsSub w then fpMake (fpNeg w) 0 else if fpIsNaN w then fpNaN else w
/-- a + b on the vector unit. -/
def vuAdd (a b : Word) : Word := vuFlush (fpAdd (vuFlush a) (vuFlush b))
/-- a - b on the vector unit. -/
def vuSub (a b : Word) : Word := vuFlush (fpSub (vuFlush a) (vuFlush b))
/-- a × b on the vector unit. -/
def vuMul (a b : Word) : Word := vuFlush (fpMul (vuFlush a) (vuFlush b))
/-- a ÷ b on the vector unit. -/
def vuDiv (a b : Word) : Word := vuFlush (fpDiv (vuFlush a) (vuFlush b))
/-- a × b + c on the vector unit, one rounding. -/
def vuFma (a b c : Word) : Word := vuFlush (fpFma (vuFlush a) (vuFlush b) (vuFlush c))

/-! ### EXP, RECIP, RSQRT within their ULPs (R203, log entry 10) -/

/-- floor (ln 2 × 2^240). -/
abbrev ln2Fixed : Int := 1224685061431752149387114016819916847747660333428801675508466606222838698

/-- e^r × 2^160 for r × 2^160 in the range of one ln 2, by the series to n terms (Horner's scheme). -/
def expSeries (r : Int) : Nat → Int → Int
  | 0, acc => acc
  | n + 1, acc => expSeries r n (2 ^ 160 + r * acc / (2 ^ 160 * (n + 1 : Nat)))

/-- e^a as (y, k): e^a is y × 2^(k - 160) with y from 2^160 to 2^161, for a dyadic a below 2^8. -/
def expParts (a : Dyadic) : Int × Int :=
  let x240 : Int := if 0 ≤ a.e + 240 then a.m * 2 ^ (a.e + 240).toNat else a.m / 2 ^ (-(a.e + 240)).toNat
  let k := x240 / ln2Fixed
  let r := (x240 - k * ln2Fixed) / 2 ^ 80
  (expSeries r 48 (2 ^ 160), k)

/-- e^a: within 2 ULP where the result lies from 2^-126 to the FP32 maximum; +0.0 below, +infinity above (R203). -/
def vuExp (w : Word) : Word :=
  let a := vuFlush w
  if fpIsNaN a then fpNaN
  else if fpIsInf a then (if fpNeg a then 0 else fpInf)
  else if fpIsZero a then fpMake false (0x3F7FFFFE + Config.expPick w % 5)
  else
    let d := fpVal a
    if Dyadic.lt { m := 128, e := 0 } d then fpInf
    else if Dyadic.lt d { m := -128, e := 0 } then 0
    else
      let p := expParts d
      let num := p.1.toNat * 2 ^ (p.2 + 512).toNat
      let den := 2 ^ 672
      if log2Rat num den < -126 then 0
      else
        let lo := fpEncode (fun a b => a / b) num den
        if 0x7F800000 ≤ lo then fpInf
        else fpMake false (min (max (lo + Config.expPick w % 4 - 1) 0x00800000) 0x7F7FFFFF)

/-- 1 ÷ a within 1 ULP; RECIP of ±0.0 gives ±infinity (R203). -/
def vuRecip (w : Word) : Word :=
  let a := vuFlush w
  if fpIsNaN a then fpNaN
  else if fpIsZero a then fpMake (fpNeg a) 0x7F800000
  else if fpIsInf a then fpMake (fpNeg a) 0
  else
    let r := (fpVal a).rat
    let lo := fpEncode (fun a b => a / b) r.2 r.1
    let v := if fpMag a % 2 ^ 23 = 0 then lo + Config.recipPick w % 3 - 1 else lo + Config.recipPick w % 2
    vuFlush (fpMake (fpNeg a) v)

/-- Integer square root, one bit a turn from bit n down. -/
def isqrtFrom (x : Nat) : Nat → Nat → Nat
  | 0, r => if (r + 1) * (r + 1) ≤ x then r + 1 else r
  | n + 1, r =>
    let c := r + 2 ^ (n + 1)
    isqrtFrom x n (if c * c ≤ x then c else r)

/-- The magnitude bits of the largest FP32 not above 1 ÷ √(num ÷ den), and whether that is exact. -/
def rsqrtFloor (num den : Nat) : Nat × Bool :=
  let e2 := log2Rat den num
  let e := e2 / 2
  let sh := 2 * (23 - e)
  let q := if 0 ≤ sh then den * 2 ^ sh.toNat else den
  let p := if 0 ≤ sh then num else num * 2 ^ (-sh).toNat
  let n := isqrtFrom (q / p) 26 0
  ((e + 126).toNat * 2 ^ 23 + n, n * n * p = q)

/-- 1 ÷ √a within 1 ULP; a negative input gives NaN (R203). -/
def vuRsqrt (w : Word) : Word :=
  let a := vuFlush w
  if fpIsNaN a then fpNaN
  else if fpIsZero a then fpMake (fpNeg a) 0x7F800000
  else if fpNeg a then fpNaN
  else if fpIsInf a then 0
  else
    let r := (fpVal a).rat
    let lo := rsqrtFloor r.1 r.2
    fpMake false (if lo.2 then lo.1 + Config.rsqrtPick w % 3 - 1 else lo.1 + Config.rsqrtPick w % 2)

end Sys2Proof.Machine
end

