-- ==== Sys2Proof/Machine/Flags.lean ====
section
/-! DEFINITION. The token word of R141, its flags, how flags join downstream (R156), the error codes of R144. -/

namespace Sys2Proof.Machine

/-! ### Token fields (R141) -/

/-- TYPE. -/
def tokType (k : Dword) : Nat := field k 0 4
/-- STREAM. -/
def tokStream (k : Dword) : Nat := field k 4 12
/-- HANDLE; 0xFFFF = none. -/
def tokHandle (k : Dword) : Nat := field k 16 16
/-- SEQ. -/
def tokSeq (k : Dword) : Half := BitVec.ofNat 16 (field k 32 16)
/-- LAST. -/
def tokLast (k : Dword) : Bool := flag k 48
/-- FENCE. -/
def tokFence (k : Dword) : Bool := flag k 49
/-- SUSPECT. -/
def tokSuspect (k : Dword) : Bool := flag k 50
/-- UNSETTLED. -/
def tokUnsettled (k : Dword) : Bool := flag k 51
/-- REPLAYED. -/
def tokReplayed (k : Dword) : Bool := flag k 52
/-- ERR. -/
def tokErr (k : Dword) : Bool := flag k 53
/-- ERR_CODE. -/
def tokCode (k : Dword) : Nat := field k 56 8

/-- TYPE codes. -/
abbrev tyData : Nat := 0
abbrev tyCredit : Nat := 1
abbrev tyCompletion : Nat := 2
abbrev tyError : Nat := 3
abbrev tyFence : Nat := 4

/-- The flags of a token as they are built: LAST, FENCE, SUSPECT, UNSETTLED, REPLAYED, the lowest error code. -/
structure TokFlags where
  last : Bool := false
  fence : Bool := false
  suspect : Bool := false
  unsettled : Bool := false
  replayed : Bool := false
  err : Option Nat := none
deriving DecidableEq, Repr

/-- A token word (R141). -/
def mkTok (ty stream handle : Nat) (seq : Half) (f : TokFlags) : Dword :=
  let b (x : Bool) (k : Nat) : Nat := if x then 2 ^ k else 0
  BitVec.ofNat 64 (ty % 16 + stream % 4096 * 2 ^ 4 + handle % 65536 * 2 ^ 16 + seq.toNat * 2 ^ 32
    + b f.last 48 + b f.fence 49 + b f.suspect 50 + b f.unsettled 51 + b f.replayed 52
    + b f.err.isSome 53 + f.err.getD 0 % 256 * 2 ^ 56)

/-! ### Error codes (R144) -/

abbrev ecRowOverflow : Nat := 1
abbrev ecRowSum : Nat := 2
abbrev ecDemoted : Nat := 3
abbrev ecMismatch : Nat := 4
abbrev ecZeroPoint : Nat := 5
abbrev ecInvalid : Nat := 6
abbrev ecRxReserved : Nat := 7
abbrev ecNan : Nat := 8
abbrev ecPair : Nat := 9
abbrev ecPeerLost : Nat := 10
abbrev ecAborted : Nat := 11
abbrev ecFenceOrder : Nat := 12

/-- The lowest of a list of codes (R144). -/
def lowestCode : List Nat → Option Nat
  | [] => none
  | c :: cs => some (match lowestCode cs with | none => c | some d => min c d)

/-- The flags that a unit's outputs carry for the input tokens of a step (R156); REPLAYED does not pass. -/
def joinFlags (toks : List Dword) : TokFlags :=
  { suspect := toks.any tokSuspect
    unsettled := toks.any tokUnsettled
    err := lowestCode ((toks.filter tokErr).map tokCode) }

/-- Flags with one more error code met. -/
def TokFlags.withCode (f : TokFlags) (c : Option Nat) : TokFlags :=
  { f with err := lowestCode (f.err.toList ++ c.toList) }

/-- Tokens of one handle from several cores, seen as one (R155): flags joined, REPLAYED if any carries it; an error
token stands for the tile, with its SEQ (R157). -/
def mergeTok (a b : Dword) : Dword :=
  let f := joinFlags [a, b]
  let x := if tokType a ≠ tyError && tokType b = tyError then b else a
  mkTok (tokType x) (tokStream a) (tokHandle a) (tokSeq x)
    { f with last := tokLast a || tokLast b, fence := tokFence a || tokFence b, replayed := tokReplayed a || tokReplayed b }

end Sys2Proof.Machine
end

