-- ==== Sys2Proof/Machine/Operands.lean ====
section
/-! DEFINITION. Operand fields: operations (R181), packet headers (R95), plan entries (R195), row trailers
(R39), descriptors and address words (R221, R222), mailbox slots (R358). -/

namespace Sys2Proof.Machine

/-! ### Operations (R176, R181) -/

/-- The operation at a list entry; past the list's end an opcode that is not listed (R177). -/
def Prog.opAt (p : Prog) (i : Nat) : Dword := p.list.getD i 0xFF
/-- The operation the unit stands at. -/
def Prog.op (p : Prog) : Dword := p.opAt p.pos
/-- OPCODE. -/
def opcode (o : Dword) : Nat := field o 0 8

abbrev opNop : Nat := 0x00
abbrev opEnd : Nat := 0x01
abbrev opLoop : Nat := 0x02
abbrev opFence : Nat := 0x03
abbrev opWaitang : Nat := 0x04
abbrev opEvent : Nat := 0x05
abbrev opFeed : Nat := 0x10
abbrev opWfill : Nat := 0x20
abbrev opWload : Nat := 0x21
abbrev opSwap : Nat := 0x22
abbrev opRscale : Nat := 0x23
abbrev opTile : Nat := 0x24
abbrev opReduce : Nat := 0x30
abbrev opVop : Nat := 0x40
abbrev opQuant : Nat := 0x50
abbrev opSend : Nat := 0x60
abbrev opRecv : Nat := 0x61
abbrev opXfer : Nat := 0x70
abbrev opField : Nat := 0x78

/-- The kind of unit an opcode belongs to: the kind number of R379; 8 for any unit; none when not listed. -/
def opKind (c : Nat) : Option Nat :=
  if c ≤ 0x05 then some 8
  else if c = opFeed then some 0
  else if 0x20 ≤ c ∧ c ≤ 0x24 then some 1
  else if c = opReduce then some 2
  else if c = opVop then some 3
  else if c = opQuant then some 4
  else if c = opSend ∨ c = opRecv then some 5
  else if c = opXfer then some 6
  else if c = opField then some 7
  else none

/-- The kind number of a unit (R379). -/
def unitKind : UnitId → Nat
  | .feeder .. => 0
  | .core .. => 1
  | .tree .. => 2
  | .vu .. => 3
  | .quant .. => 4
  | .port .. => 5
  | .engine .. => 6
  | .field => 7

/-- FIELD operations handled as unlisted (R209). -/
def fieldBad (o : Dword) : Bool :=
  let a := field o 20 2
  let tg := field o 22 8
  a = 3 || (a = 0 && tg > 3) || (a = 1 && tg > 15) || (a = 2 && tg > 15)

/-- FUNC numbers of R201. -/
def vopFuncs : List Nat :=
  [0x00, 0x01, 0x02, 0x03, 0x04, 0x05, 0x06, 0x07, 0x08, 0x09, 0x0A, 0x0B, 0x0C, 0x10, 0x11, 0x12, 0x13,
   0x18, 0x19, 0x1A, 0x1B, 0x20, 0x21, 0x30]

/-- VOP FUNC. -/
def vopFunc (o : Dword) : Nat := field o 8 6

/-- An operation the unit may run (R179, R181, R209). A FUNC that R201 does not list counts as not listed
(log entry 31). -/
def opListed (u : UnitId) (o : Dword) : Bool :=
  match opKind (opcode o) with
  | none => false
  | some k => (k = 8 || k = unitKind u) && !(opcode o = opField && fieldBad o)
      && !(opcode o = opVop && !vopFuncs.contains (vopFunc o))

/-- Streams an operation reads: its input hamper queues; one stream named twice gives one token for both operands (DESIGN CHOICE,
log entry 87; R145, R181). -/
def opInputs (o : Dword) : List Nat :=
  let c := opcode o
  if c = opFeed then [field o 8 12]
  else if c = opWfill then [field o 8 12]
  else if c = opReduce then [field o 14 12] ++ (if field o 38 12 = 0xFFF ∨ field o 38 12 = field o 14 12 then [] else [field o 38 12])
  else if c = opVop then
    [field o 16 12] ++ (if field o 28 12 = 0xFFF ∨ field o 28 12 = field o 16 12 then [] else [field o 28 12])
  else if c = opQuant then [field o 8 12]
  else if c = opSend then [field o 8 12]
  else if c = opField then (if field o 20 2 = 1 ∨ field o 20 2 = 2 then [field o 8 12] else [])
  else []

/-- Streams an operation writes a new handle of (R145, R181). -/
def opOutputs (o : Dword) : List Nat :=
  let c := opcode o
  if c = opTile then [field o 23 12]
  else if c = opReduce then [field o 26 12]
  else if c = opVop then [field o 40 12]
  else if c = opQuant then [field o 20 12]
  else if c = opRecv then [field o 8 12]
  else if c = opField then (if field o 20 2 = 0 then [field o 8 12] else [])
  else []

/-- Streams on which an operation sends tokens: those it writes a handle of, and the stream along which a WFILL with
FORWARD passes its image on (R181, R189). -/
def opSends (o : Dword) : List Nat :=
  opOutputs o ++ if opcode o = opWfill ∧ flag o 25 then [field o 26 12] else []

/-! ### Narrow formats (R112, R118) -/

/-- Code width of FORMAT: N8, N6, N4; the reserved FORMAT 0x0 counts as N4 (DESIGN CHOICE, log entry 59). -/
def fmtWidth (f : Nat) : Nat := if f = 1 then 8 else if f = 2 then 6 else 4
/-- Code-max C. -/
def fmtMax (f : Nat) : Int := 2 ^ (fmtWidth f - 1) - 1
/-- Data bytes of a block. -/
def fmtBytes (f : Nat) : Nat := 4 * fmtWidth f
/-- Largest number of blocks in a data packet. -/
def fmtMost (f : Nat) : Nat := 4096 / fmtBytes f
/-- Smallest number of blocks in a data packet. -/
def fmtLeast (f : Nat) : Nat := (256 + fmtBytes f - 1) / fmtBytes f

/-! ### Packet header (R95) -/

/-- POS_MASK. -/
def hdrMask (h : Dword) : Word := BitVec.ofNat 32 (field h 0 32)
/-- WINDOW. -/
def hdrWindow (h : Dword) : Nat := field h 32 3
/-- WIDTH code. -/
def hdrWidth (h : Dword) : Nat := field h 35 3
/-- ASYM. -/
def hdrAsym (h : Dword) : Bool := flag h 38
/-- DEMOTED. -/
def hdrDemoted (h : Dword) : Bool := flag h 39
/-- ZP, signed. -/
def hdrZp (h : Dword) : Int := signedOf 8 (field h 40 8)
/-- Windows in the packet. -/
def hdrCount (h : Dword) : Nat := field h 48 16 + 1

/-- A header word. -/
def mkHdr (mask : Word) (window width : Nat) (asym demoted : Bool) (zp : Int) (count : Nat) : Dword :=
  BitVec.ofNat 64 (mask.toNat + window % 8 * 2 ^ 32 + width % 8 * 2 ^ 35 + (if asym then 2 ^ 38 else 0)
    + (if demoted then 2 ^ 39 else 0) + wrapTo 8 zp * 2 ^ 40 + (count - 1) % 65536 * 2 ^ 48)

/-- Length of a window in tu: 2^WINDOW symbols (R87). -/
def windowTu (w : Nat) : Nat := 3 * 2 ^ w

/-- X_max of a width code (R86). -/
def xMax (widthCode : Nat) : Nat := 2 ^ (widthCode + 3) - 1

/-! ### Row trailer (R39) -/

/-- ROW_EXP of row k. -/
def rowExp (tr : List Byte) (k : Nat) : Int := sleAt tr k 1
/-- ROW_SUM of row k. -/
def rowSum (tr : List Byte) (k : Nat) : Int := sleAt tr (8 + 2 * k) 2
/-- BIAS of row k, FP32. -/
def rowBias (tr : List Byte) (k : Nat) : Word := BitVec.ofNat 32 (leAt tr (24 + 4 * k) 4)
/-- IMAGE_FLAGS bit 1: row sums valid. -/
def rowSumsValid (tr : List Byte) : Bool := (leAt tr 58 1) / 2 % 2 = 1
/-- Weight code of cell j of row k, the byte 0x80 loading as -127 (R34, R38). -/
def weightCode (code : List Byte) (k j : Nat) : Int := max (sleAt code (64 * k + j) 1) (-127)

/-! ### Descriptors (R221, R222) -/

/-- SRC address word. -/
def dSrc (d : List Byte) : Nat := leAt d 0 8
/-- DST address word. -/
def dDst (d : List Byte) : Nat := leAt d 8 8
/-- SIZE. -/
def dSize (d : List Byte) : Nat := leAt d 16 4
/-- COUNT. -/
def dCount (d : List Byte) : Nat := leAt d 20 4
/-- SRC_STRIDE. -/
def dSrcStride (d : List Byte) : Int := sleAt d 24 4
/-- DST_STRIDE. -/
def dDstStride (d : List Byte) : Int := sleAt d 28 4
/-- Passes: REPEAT + 1. -/
def dPasses (d : List Byte) : Nat := leAt d 32 2 + 1
/-- CONTROL bit k. -/
def dControl (d : List Byte) (k : Nat) : Bool := (leAt d 34 2) / 2 ^ k % 2 = 1
/-- NEXT. -/
def dNext (d : List Byte) : Nat := leAt d 36 2 % 8192
/-- COMP_STREAM; 0xFFF = none. -/
def dComp (d : List Byte) : Nat := leAt d 38 2 % 4096
/-- ID. -/
def dId (d : List Byte) : Nat := leAt d 40 2
/-- Transfers of all passes. -/
def dTotal (d : List Byte) : Nat := dCount d * dPasses d

/-- SPACE of an address word. -/
def awSpace (a : Nat) : Nat := a / 2 ^ 60 % 16
/-- Stack number of an HBM address word. -/
def awStack (a : Nat) : Nat := a / 2 ^ 36 % 16
/-- Device address of an HBM address word. -/
def awAddr (a : Nat) : Nat := a % 2 ^ 40
/-- Byte offset of an SRAM address word. -/
def awOff (a : Nat) : Nat := a % 2 ^ 22
/-- Module-wide cluster of an SRAM address word. -/
def awCluster (a : Nat) : Nat := a / 2 ^ 30 % 4 * 208 + a / 2 ^ 22 % 256
/-- Die cluster index of an SRAM address word. -/
def awIndex (a : Nat) : Nat := a / 2 ^ 22 % 256
/-- Stream of a handle address word. -/
def awStream (a : Nat) : Nat := a % 4096

/-! ### Mailbox slots (R358) -/

/-- OPCODE. -/
def slotOp (b : List Byte) : Nat := leAt b 0 2
/-- SEQ. -/
def slotSeq (b : List Byte) : Nat := leAt b 2 2
/-- LENGTH. -/
def slotLen (b : List Byte) : Nat := leAt b 4 1
/-- FLAGS bit 2: descriptor payload. -/
def slotDesc (b : List Byte) : Bool := leAt b 5 1 / 4 % 2 = 1

end Sys2Proof.Machine
end

