-- ==== Sys2Proof/Machine/Scaler.lean ====
section
/-! DEFINITION. Arithmetic of the light path: exponents and codes of a vector (R121, R126 to R131), drive codes
(R36), the sum and the row ADC (R28, R52), the row scaler (R55 to R59). -/

namespace Sys2Proof.Machine

/-! ### Scaling by powers of two -/

/-- v × 2^-e rounded to an integer, ties to even. -/
def scaleRound (v : Dyadic) (e : Int) : Int :=
  let k := v.e - e
  if 0 ≤ k then v.m * 2 ^ k.toNat else roundEven v.m (2 ^ (-k).toNat)

/-- v × 2^-e ≤ n. -/
def scaleLe (v : Dyadic) (e n : Int) : Bool :=
  let k := v.e - e
  if 0 ≤ k then v.m * 2 ^ k.toNat ≤ n else v.m ≤ n * 2 ^ (-k).toNat

/-- -v. -/
def Dyadic.neg (v : Dyadic) : Dyadic := { v with m := -v.m }

/-- The smallest e from -64 to +63 that passes a test, and whether it was clamped (R121, R127). -/
def smallestExp (fits : Int → Bool) : Int × Bool :=
  if fits (-65) then (-64, true)
  else match (List.range 128).find? fun i : Nat => fits ((i : Int) - 64) with
    | some i => ((i : Int) - 64, false)
    | none => (63, true)

/-- The elements that are finite. -/
def finites (ws : List Word) : List Word := ws.filter fun w => !fpIsNaN w && !fpIsInf w

/-! ### A feeder's vector (R126 to R131) -/

/-- What a feeder makes of one vector. -/
structure VecOut where
  codes : List Int := []
  exp : Int := 0
  sent : Int := 0
  z : Int := 0
  sat : Nat := 0
  under : Bool := false
  zero : Bool := false
  nans : Nat := 0
  clamp : Bool := false
  mag : Half := 0
deriving DecidableEq, Repr

/-- R127's test of one value with zero point z and X_max. -/
def fitsOne (x z : Int) (e : Int) (w : Word) : Bool :=
  scaleLe (fpVal w) e (x - z) && scaleLe (fpVal w).neg e (x + z)

/-- A row gain from 0.5 to 2.0 and offset from -16.0 to +16.0 (R37). -/
def calInRange (cal : Word × Word) : Bool :=
  !fpLt cal.1 0x3F000000 && !fpLt 0x40000000 cal.1 && !fpIsNaN cal.1 && fpMag cal.2 ≤ 0x41800000

/-- The fitting exponent of a vector, and whether it was clamped (R127). A vector of NaNs, or of NaNs and zeros, gets -64 and
counts as clamped, as its exponent would lie below -64; one with an infinity gets +63 and counts as clamped (DESIGN CHOICE,
log entry 87). -/
def fittingExp (x z : Int) (ws : List Word) : Int × Bool :=
  smallestExp fun e => !(ws.any fpIsInf) && (finites ws).all (fitsOne x z e)

/-- E_prev for a running maximum: both signs must pass R127's test (R129). Its own clamp to -64 or +63 is not counted in
EXP_CLAMP (DESIGN CHOICE, log entry 87). -/
def prevExp (x z : Int) (mag : Half) : Int :=
  let w := bfWiden mag
  (smallestExp fun e => !fpIsInf w && fitsOne x z e w && fitsOne x z e (fpMinus w)).1

/-- The zero point in force: 0 without ASYM, else clamped to ±X_max (R90 to R92, R126). -/
def zeroPoint (h : Dword) : Int :=
  let x : Int := xMax (hdrWidth h)
  if hdrAsym h then clampInt (hdrZp h) (-x) x else 0

/-- One element's code and whether it saturated (R126). -/
def elemCode (x z e : Int) (w : Word) : Int × Bool :=
  if fpIsNaN w then (z, false)
  else if fpIsInf w then (if fpNeg w then -x else x, true)
  else
    let c := scaleRound (fpVal w) e + z
    if x < c then (x, true) else if c < -x then (-x, true) else (c, false)

/-- The largest magnitude among a vector's elements, as BF16 bits; NaNs take no part. -/
def maxMagOf (vs : List Half) : Half :=
  vs.foldl (fun m v => if fpIsNaN (bfWiden v) then m else BitVec.ofNat 16 (max m.toNat (v.toNat % 0x8000))) 0

/-- A vector converted with its own fitting exponent, or with the carried exponent of the tile (R126 to R131).
At width 8 with ASYM the zero point is subtracted and the code halved, and e_x + 1 goes out (R91). -/
def convert (h : Dword) (carried : Option Int) (vs : List Half) : VecOut :=
  let ws := vs.map bfWiden
  let x : Int := xMax (hdrWidth h)
  let z := zeroPoint h
  let zero := ws.all fpIsZero
  let fit := fittingExp x z ws
  let e := match carried with
    | some e => e
    | none => if zero then -64 else fit.1
  let e := if zero then -64 else e
  let cs := ws.map (elemCode x z e)
  let halve := hdrAsym h && hdrWidth h = 4
  let top : Nat := cs.foldl (fun m c => max m (c.1 - z).natAbs) 0
  { codes := cs.map fun c => if halve then roundEven (c.1 - z) 2 else c.1
    exp := e
    sent := if halve then e + 1 else e
    z := if halve then 0 else z
    sat := (cs.filter (·.2)).length
    under := !zero && top < 2 ^ (hdrWidth h + 1)
    zero := zero
    nans := (ws.filter fpIsNaN).length
    clamp := carried.isNone && !zero && fit.2
    mag := maxMagOf vs }

/-! ### Drive codes (R34 to R36) -/

/-- The drive code of an ideal code through nine knots. -/
def driveCode (knots : List (BitVec 8)) (c : Int) : Int :=
  let u := (c + 128).toNat
  let k := u / 32
  let t := u % 32
  let a := (knots.getD k 0).toInt
  let b := (knots.getD (k + 1) 0).toInt
  clampInt (a + roundEven ((b - a) * t) 32) (-128) 127

/-- Factory knots of a cell: the identity map, 128 held as 127 (log entry 7). -/
def factoryKnots : List (BitVec 8) := [-128, -96, -64, -32, 0, 32, 64, 96, 127]

/-- Where a core's calibration stands: the free values of Mash or a restart by their index, cluster and core; index 0
is the factory's. -/
structure CalBase where
  draw : Nat
  cl : Nat
  k : Nat
deriving DecidableEq, Repr

/-- Knots of a cell (engine*64 + cell) that no calibration slot has set (R35, R37). -/
def CalBase.knots (b : CalBase) (cell : Nat) : List (BitVec 8) :=
  if b.draw = 0 then factoryKnots else (List.range 9).map (Config.calKnot b.draw b.cl b.k cell)

/-- g_cal, from 0.5 to 2.0, and o_cal, from -16.0 to +16.0, of an engine that no slot has set (R37). -/
def CalBase.row (b : CalBase) (e : Nat) : Word × Word :=
  if b.draw = 0 then (0x3F800000, 0)
  else (BitVec.ofNat 32 (0x3F000000 + Config.calGain b.draw b.cl b.k e % 0x01000001),
    fpMake (Config.calOffset b.draw b.cl b.k e % 2 = 1) (Config.calOffset b.draw b.cl b.k e / 2 % 0x41800001))

/-- LINE_CODES, from 300 to 380, of a ring that no slot has set: the nominal value is the factory's (R237). -/
def CalBase.line (b : CalBase) (r : Nat) : Nat := if b.draw = 0 then 341 else 300 + Config.calLine b.draw b.cl b.k r % 81

/-- The lock slope of a ring that no slot has set (R241, R255). -/
def CalBase.slope (b : CalBase) (r : Nat) : Int := Config.calSlope b.draw b.cl b.k r

/-- K_FF of a core that no slot has set: the nominal value is the factory's (R243). -/
def CalBase.kff (b : CalBase) : Nat := if b.draw = 0 then 68 else Config.calKff b.draw b.cl b.k

/-- The dark offset of an engine that no slot has set (R255). -/
def CalBase.dark (b : CalBase) (e : Nat) : Int := if b.draw = 0 then 0 else Config.calDark b.draw b.cl b.k e

/-- The LO phase of a core that no slot has set (R255). -/
def CalBase.lo (b : CalBase) : Nat := if b.draw = 0 then 0 else Config.calLo b.draw b.cl b.k

/-! ### The sum and the row ADC (R28, R50 to R53) -/

/-- Σ x_j × c_j of one row position. -/
def rowProduct (codes : List Int) (block : List Byte) (k : Nat) : Int :=
  ((List.range 64).map fun j => codes.getD j 0 * weightCode block k j).foldl (· + ·) 0

/-- The full scale of a sum Σ x_j × c_j at a width and a range (R50, R55). -/
def fullScale (widthCode range : Nat) : Nat := xMax widthCode * 127 * 8 * 2 ^ range

/-- The gain of a row as a fraction; 1 where it is out of range (R37). -/
def gainRat (cal : Word × Word) : Nat × Nat := if calInRange cal then (fpVal cal.1).rat else (1, 1)

/-- The offset of a row as a fraction; 0 where its gain or offset is out of range (R37). -/
def offsetRat (cal : Word × Word) : Int × Nat :=
  if calInRange cal then
    let x := (fpVal cal.2).rat
    (if fpNeg cal.2 then -(x.1 : Int) else x.1, x.2)
  else (0, 1)

/-- What the row makes of a sum before its ADC rounds it, as a fraction of codes: 511 × S ÷ S_fs ÷ g_cal + o_cal (R52; 02
"Worked product": the noiseless code is 249.2 ÷ 1.02 + 0.5). -/
def rowCode (sum : Int) (widthCode range : Nat) (cal : Word × Word) : Int × Nat :=
  let full := fullScale widthCode range
  let g := gainRat cal
  let o := offsetRat cal
  (511 * sum * (g.2 : Int) * o.2 + o.1 * full * g.1, full * g.1 * o.2)

/-- The ADC code of a sum with noiseless code x: x rounded, moved by the row's deviation, droop of the hold included, and
held to ±511; a sum beyond full scale gives ±511; the window scales out of it (R49, R51, R52). -/
def adcCode (sum : Int) (full : Nat) (x : Int × Nat) (dev : Int) : Int :=
  if (full : Int) < sum then 511
  else if sum < -(full : Int) then -511
  else clampInt (roundEven x.1 x.2 + dev) (-511) 511

/-- The error of code q about the ideal code 511 × S ÷ S_fs once gain and offset are taken out again, as a fraction of codes:
(q - x) × g_cal (R63, R67). -/
def codeError (q : Int) (x : Int × Nat) (g : Nat × Nat) : Nat × Nat := ((q * x.2 - x.1).natAbs * g.1, x.2 * g.2)

/-! ### The row scaler (R55 to R59) -/

/-- G: the exact L of R55 times g_cal, rounded once (R56). -/
def rowGain (widthCode range : Nat) (gCal : Word) : Word :=
  let g := fpVal gCal
  let r := g.rat
  fpOfRat (g.m < 0) (8 * 2 ^ range * xMax widthCode * 127 * r.1) (511 * r.2)

/-- R58 at one step: overflow becomes the largest finite FP32, an underflow a zero; whether it overflowed. The value is
tested as it stands after rounding on FP32's grid, subnormals included (DESIGN CHOICE, log entry 83). -/
def rsFix (w : Word) : Word × Bool :=
  if fpIsInf w || fpIsNaN w then (fpMake (fpNeg w) 0x7F7FFFFF, true)
  else if fpIsSub w then (fpMake (fpNeg w) 0, false)
  else (w, false)

/-- w × 2^e, rounded. -/
def fpLdexp (w : Word) (e : Int) : Word :=
  let d := fpVal w
  fpOfDyadic (fpNeg w) { d with e := d.e + e }

/-- R57 for one code: the result and whether any step overflowed. -/
def rowScale (q : Int) (oCal g : Word) (e z rowSum : Int) (bias : Word) : Word × Bool :=
  let a := rsFix (fpSub (fpOfInt q) oCal)
  let m := rsFix (fpMul a.1 g)
  let s := rsFix (fpLdexp m.1 e)
  let zc := if z = 0 then (0, false) else rsFix (fpLdexp (fpOfInt (z * rowSum)) e)
  let d := rsFix (fpSub s.1 zc.1)
  let o := a.2 || m.2 || s.2 || zc.2 || d.2
  if fpIsNaN bias then (0x7F7FFFFF, true)
  else
    let b := rsFix bias
    let y := rsFix (fpAdd d.1 b.1)
    (y.1, o || b.2 || y.2)

end Sys2Proof.Machine
end

