-- ==== Sys2Proof/Machine/Events.lean ====
section
/-! DEFINITION. Host events and outbound slots: time of day (R326), event slots (R385, R386), subscriptions
and held events (R365), outbound rings and MSI-X vectors (R357, R366). -/

namespace Sys2Proof.Machine

open Sys2Proof.Config

/-! ### Time of day (R326) -/

/-- The time-of-day counter as it stood for moments before its last edge. -/
def Angle.todBefore (a : Angle) : Angle :=
  { a with todSec := a.todOld.1, todBase := a.todOld.2.1, todRem := a.todOld.2.2.1, todPull := a.todOld.2.2.2 }

/-- The time-of-day counter's time past todSec, tu: its rate is pulled from its last edge on. -/
def Angle.todTu (a : Angle) (now : Nat) : Nat :=
  let d := now - a.todBase
  ((a.todRem : Int) + d + (d : Int) * a.todPull / 1000000000).toNat

/-- Nanoseconds of the time-of-day counter past todSec. -/
def Angle.todElapsed (a : Angle) (now : Nat) : Nat := a.todTu now / ns

/-- Time-of-day seconds. -/
def Angle.todSeconds (a : Angle) (now : Nat) : Word := a.todSec + BitVec.ofNat 32 (a.todElapsed now / 1000000000)

/-- Time-of-day nanoseconds. -/
def Angle.todNanos (a : Angle) (now : Nat) : Nat := a.todElapsed now % 1000000000

/-- Low 32 bits of the cycle count. -/
def Angle.cycLo (a : Angle) : Word := BitVec.ofNat 32 a.cycles.toNat

/-! ### MSI-X (R366; masking PRESUMED, log entry 21) -/

/-- Word i of a channel's MSI-X table: vector control resets masked. -/
def Channel.msixWord (c : Channel) (i : Nat) : Word := Tab.get (if i % 4 = 3 then 1 else 0) c.msix i

/-- Vector v raised: sent, or left pending where its entry is masked. -/
def Channel.raiseVector (c : Channel) (v : Nat) : Channel :=
  if flag (c.msixWord (4 * v + 3)) 0 then { c with pba := c.pba ||| BitVec.ofNat 64 (2 ^ v) }
  else { c with raised := Tab.put 0 c.raised v (Tab.get 0 c.raised v + 1) }

/-! ### Outbound rings (R357, R366) -/

/-- Slots in the outbound ring. -/
def Channel.outFill (c : Channel) : Nat := (c.outTail - c.outHead).toNat
/-- Slots in the inbound ring. -/
def Channel.inFill (c : Channel) : Nat := (c.inTail - c.inHead).toNat

/-- The commands that still arrive in the present fabric cycle (log entry 28). -/
def State.inCycle (s : State) : List Instr := s.pending.takeWhile fun i => i.time / cycle ≤ s.now / cycle

/-- The heads that the host still writes to a channel's outbound ring in the present fabric cycle (R367). -/
def State.headsDue (s : State) (ch : Nat) : List Half := s.inCycle.filterMap fun i =>
  match i with
  | .mbxOutHeadWrite _ ch' v => if ch' = ch then some (BitVec.ofNat 16 v.toNat) else none
  | .registerWrite _ who off v =>
      if who = ch ∧ off / 4 * 4 = 0x20000C + 0x20 * ch then some (BitVec.ofNat 16 v.toNat) else none
  | _ => none

/-- MBX_OUT_HEAD written: a head that moves back or past TAIL is rejected and counted (R365, R373). -/
def Channel.moveHead (c : Channel) (head : Half) : Channel :=
  if c.outFill < (head - c.outHead).toNat then { c with badDb := c.badDb + 1 } else { c with outHead := head }

/-- A slot written into an outbound ring with room: events lost are marked (R365), the tail advances, and the
vector is raised where the ring was empty; with head writes of the same cycle, where the ring is then not empty (R366,
R367). Channels without a BAR send the slot at once (R356; log entry 20). -/
def Channel.writeOut (heads : List Half) (ch : Nat) (c : Channel) (m : OutMsg) : Channel :=
  let fl := (m.slot.getD 5 0) ||| (if c.lostMark then 8 else 0)
  let bytes := (m.slot.take 5) ++ [fl] ++ (m.slot.drop 6)
  let c1 := { c with
    page := c.page.write (0x800 + 0x40 * (c.outTail.toNat % 32)) bytes
    outTail := c.outTail + 1
    lostMark := false }
  if ch ≤ 63 then
    (if if heads = [] then c.outFill = 0 else 0 < (heads.foldl Channel.moveHead c1).outFill
      then c1.raiseVector m.vector else c1)
  else { c1 with outHead := c1.outTail }

/-- A response or COMMAND_DONE: into the ring, or kept until it has room; never dropped (R365, R376). -/
def State.postKept (s : State) (ch : Nat) (m : OutMsg) : State :=
  s.modChan ch fun c =>
    if c.outFill < 32 && c.held.all (·.event) then c.writeOut (s.headsDue ch) ch m else { c with held := c.held ++ [m] }

/-- Firmware writes the oldest held message of a channel once its ring has room (R365, R385, R387). -/
def Channel.deliverHeld (heads : List Half) (ch : Nat) (c : Channel) : Channel :=
  match c.held with
  | [] => c
  | m :: r => if c.outFill < 32 then ({ c with held := r }).writeOut heads ch m else c

/-- Firmware writes up to n held messages of a channel, as many as its ring has room for. -/
def Channel.drain (heads : List Half) (ch : Nat) : Nat → Channel → Channel
  | 0, c => c
  | n + 1, c => (c.deliverHeld heads ch).drain heads ch n

/-- As many events as firmware holds for a channel (R365). -/
def Channel.heldFull (c : Channel) : Bool := 256 ≤ (c.held.filter (·.event)).length

/-- An event for a channel: held until firmware writes it. With 256 held the ring first takes what it has room for; with
the ring full the event is dropped and marked (R365). -/
def Channel.holdEvent (now : Nat) (heads : List Half) (ch : Nat) (c : Channel) (m : OutMsg) : Channel :=
  let c := if c.heldFull then c.drain heads ch 32 else c
  if c.heldFull then { c with lostMark := true, evtLost := true, fresh := freshen now 4 c.fresh }
  else { c with held := c.held ++ [m] }

/-! ### Events (R365, R385, R386) -/

/-- The subscription of a channel to an event: whether it receives it, and the vector (R365, R380). -/
def Fw.route (f : Fw) (ch : Nat) (code : Half) : Bool × Nat :=
  match (Tab.get [] f.subs ch).find? fun x => x.code = code with
  | some x => (x.on, x.vector)
  | none => Tab.get (ch = 0, 0) f.subAll ch

/-- The 64 bytes of an event slot (R358, R385). -/
def eventSlot (s : State) (code : Nat) (body : List Byte) : List Byte :=
  toLe 2 code ++ [0, 0] ++ toLe 1 (12 + body.length) ++ [2, 0, 0xFF]
    ++ toLe 4 (s.ang.todSeconds s.now).toNat ++ toLe 4 (s.ang.todNanos s.now) ++ toLe 4 s.ang.cycLo.toNat
    ++ padTo 44 body

/-- A host event raised: held for every channel that receives it. While firmware serves no mailbox nobody
holds it (log entry 20). -/
def State.raise (s : State) (code : Nat) (body : List Byte) : State :=
  if s.fw.serving then
    let slot := eventSlot s code body
    s.each (List.range 64) fun s ch =>
      let r := s.fw.route ch (BitVec.ofNat 16 code)
      if r.1 then s.modChan ch fun c => c.holdEvent s.now (s.headsDue ch) ch { slot := slot, vector := r.2, event := true } else s
  else s

/-- A unit word in an event names the physical core that carries the position (R379). -/
def State.unitOf (s : State) (u : UnitId) : Nat :=
  match u with
  | .core cl p => unitWord (.core cl ((s.cluster cl).phys p))
  | .vu cl p => unitWord (.vu cl ((s.cluster cl).phys p))
  | v => unitWord v

end Sys2Proof.Machine
end

