-- ==== Sys2Proof/Machine/Fire.lean ====
section
/-! DEFINITION. Firing (R145 to R157): heads of hamper queues, credits, handles, waits, tokens sent,
handles released, and one operation of a firing list fired as a whole. -/

namespace Sys2Proof.Machine

open Sys2Proof.Config

/-! ### Queue heads -/

/-- The edge of stream i into unit u. -/
def Stream.edge (m : Stream) (u : UnitId) : Option Consumer := m.consumers.find? fun c => c.unit = u

/-- The entry at a queue's head when it is present: arrived, and complete among its writers (R155). -/
def Consumer.head (c : Consumer) (now : Nat) : Option QEntry :=
  match c.queue with
  | [] => none
  | e :: _ => if e.due ≤ now && e.need ≤ e.got.length then some e else none

/-- The entry present at the head of unit u's queue of stream i. -/
def State.head (s : State) (i : Nat) (u : UnitId) : Option QEntry :=
  ((s.stream i).edge u).bind fun c => c.head s.now

/-- A fence stands at the head of unit u's queue of stream i (R161, R165). -/
def State.fenceAt (s : State) (i : Nat) (u : UnitId) : Bool :=
  match s.head i u with
  | some e => tokType e.tok = tyFence
  | none => false

/-- The token that unit u would take from stream i (R145): present, and no fence. -/
def State.dataAt (s : State) (i : Nat) (u : UnitId) : Option Dword :=
  match s.head i u with
  | some e => if tokType e.tok = tyFence then none else some e.tok
  | none => none

/-- A consumer's queue with its head taken: a credit is owed (R152); a token with FENCE set leaves its fence
at the head, what stands behind a fence stays behind it, and both together owe one credit (R141, R142, R151, R166). An image's token on
a chain edge owes none: the edge's one credit is what the receiving WFILL grants (R230). -/
def Consumer.take (now : Nat) (chain : Bool) (c : Consumer) : Consumer :=
  match c.queue with
  | [] => c
  | e :: q =>
    if tokFence e.tok && tokType e.tok ≠ tyFence then
      { c with queue := { e with tok := mkTok tyFence (tokStream e.tok) 0xFFFF (tokSeq e.tok + 1) {} } :: q
               owedSeq := tokSeq e.tok }
    else if chain && tokType e.tok ≠ tyFence then { c with queue := q, owedSeq := tokSeq e.tok }
    else
      { c with
        queue := q
        owed := c.owed + 1
        owedSeq := if tokType e.tok = tyFence then c.owedSeq else tokSeq e.tok
        owedSince := if c.owed = 0 then now else c.owedSince }

/-- The head of unit u's queue of stream i taken. -/
def State.takeHead (s : State) (u : UnitId) (i : Nat) : State :=
  s.modStream i fun m =>
    { m with consumers := m.consumers.map fun c => if c.unit = u then c.take s.now m.chain else c }

/-! ### Credits and handles -/

/-- Whether the producer holds a credit on every edge of stream o that the filter names (R145). -/
def Stream.hasCredit (m : Stream) (keep : Consumer → Bool := fun _ => true) : Bool :=
  m.consumers.all fun c => !(keep c) || 1 ≤ c.credits

/-- One credit spent on every edge of a stream that the filter names (R146, R151). -/
def Stream.spend (m : Stream) (keep : Consumer → Bool := fun _ => true) : Stream :=
  { m with consumers := m.consumers.map fun c => if keep c then { c with credits := c.credits - 1 } else c }

/-- One credit spent on every edge of an ordinary stream; a token on a chain edge uses the credit that its receiver
grants (R230). -/
def Stream.pay (m : Stream) : Stream := if m.chain then m else m.spend

/-- The free handle offered next by the pool of stream o (R160). -/
def State.nextHandle (s : State) (o : Nat) : Option Nat := (s.pool (s.stream o).pool.toNat).freeList.head?

/-- The next free handle taken for a stream; its release count is the number of consumers (R154). -/
def Pool.take (users stream : Nat) (p : Pool) : Pool :=
  match p.freeList with
  | [] => p
  | h :: r =>
    { p with
      freeList := r
      counts := p.counts ++ [{ handle := h, left := max users 1, stream := stream }]
      minFree := BitVec.ofNat 16 (min p.minFree.toNat r.length) }

/-- A released handle among those on their way back, in the order in which they are offered again (R160). -/
def backIn (h at_ : Nat) : List (Nat × Nat) → List (Nat × Nat)
  | [] => [(h, at_)]
  | b :: bs => if at_ < b.2 then (h, at_) :: b :: bs else b :: backIn h at_ bs

/-- One release of handle h by a step that ends at moment e: with the last one it goes back to the pool when the
last of those steps ends, and is offered again 2 fabric cycles after (R154, R160). -/
def Pool.release (h e : Nat) (p : Pool) : Pool :=
  match p.counts.find? fun c => c.handle = h with
  | none => p
  | some x =>
    let e := max e x.ends
    if x.left ≤ 1 then
      { p with counts := p.counts.filter fun c => c.handle ≠ h
               back := backIn h (e + 2 * cycle) p.back
               pairs := p.pairs.filter fun x => x.1 ≠ h }
    else { p with counts := p.counts.map fun c => if c.handle = h then { c with left := c.left - 1, ends := e } else c }

/-- The handle that a token of stream i names is released at moment e; 0xFFFF names none. -/
def State.releaseTok (s : State) (i : Nat) (tok : Dword) (e : Nat) : State :=
  if tokHandle tok = 0xFFFF then s else s.modPool (s.stream i).pool.toNat (Pool.release (tokHandle tok) e)

/-- The pool of stream o gives its next handle. -/
def State.takeHandle (s : State) (o : Nat) : State :=
  s.modPool (s.stream o).pool.toNat (Pool.take (s.stream o).consumers.length o)

/-! ### Waits (R147, R167) and HQ_STATE (R174) -/

/-- What stands in the way of a step. -/
inductive Ready where
  | fence (stream : Nat)
  | input
  | credit
  | handle
  | ready
deriving DecidableEq, Repr

/-- HQ_STATE.STATE for a waiting or firing producer. -/
def Ready.hq : Ready → BitVec 3
  | .fence _ => 5
  | .input => 2
  | .credit => 3
  | .handle => 4
  | .ready => 1

/-- MAX_WAIT after a wait of a stream that ends now (R174). -/
def Stream.longest (now : Nat) (m : Stream) (w : CreditWait) : Half :=
  BitVec.ofNat 16 (max m.maxWait.toNat (min ((now - w.since) / us) 0xFFFF))

/-- The wait of a stream's producer ends: MAX_WAIT takes the longest, STALLED reads 0 again. -/
def Stream.endWait (now : Nat) (m : Stream) : Stream :=
  match m.wait with
  | none => { m with stalled := false }
  | some w => { m with wait := none, stalled := false, maxWait := m.longest now w }

/-- A wait without credit tokens behind it that a stream's timer guards goes on, or begins with the limit in force
(R167, R168); nothing has come back for it yet. -/
def Stream.startGuard (now : Nat) (m : Stream) : Stream :=
  { m with guard := some { m.guard.getD { since := now, limit := m.limit.toNat } with met := none } }

/-- A guarded wait ends. -/
def Stream.endGuard (now : Nat) (m : Stream) : Stream :=
  match m.guard with
  | none => { m with guardStalled := false }
  | some w => { m with guard := none, guardStalled := false, maxWait := m.longest now w }

/-- What a guarded wait lacks has come back: its first such moment stands (R172). -/
def Stream.meetGuard (now : Nat) (m : Stream) : Stream :=
  { m with guard := m.guard.map fun w => { w with met := some (w.met.getD now) } }

/-- A stream's producer waits for, or has, what r says; the credit-wait timer runs only while a credit or a
handle lacks, with the limit in force when the wait began (R167, R168); owing names the edges that lack credits, pools the
pools of which the step needs a handle. -/
def Stream.mark (now : Nat) (r : Ready) (owing : List (Nat × UnitId × Nat)) (pools : List Nat) (m : Stream) : Stream :=
  match r with
  | .credit | .handle =>
    let w := m.wait.getD { since := now, limit := m.limit.toNat }
    { m with hq := r.hq, wait := some { w with owing := owing, pools := pools } }
  | _ => { m.endWait now with hq := r.hq }

/-- The edges of streams os, among those that keep names, on which their producer holds no credit (R169). -/
def State.owing (s : State) (os : List Nat) (keep : Nat → Consumer → Bool := fun _ _ => true) :
    List (Nat × UnitId × Nat) :=
  os.flatMap fun o => ((s.stream o).consumers.filter fun c => keep o c && c.credits = 0).map fun c => (o, c.unit, 1)

/-- The pools from which streams os draw their handles. -/
def State.poolsFor (s : State) (os : List Nat) : List Nat := (os.map fun o => (s.stream o).pool.toNat).eraseDups

/-- Every stream of a list marked; pools names those of which the step needs a handle, which a token without a buffer does
not (R145, R157). -/
def State.markAll (s : State) (os : List Nat) (r : Ready) (owing : List (Nat × UnitId × Nat) := s.owing os)
    (pools : List Nat := []) : State :=
  s.each os fun s o => s.modStream o (Stream.mark s.now r owing pools)

/-- An error token is among those that a step of unit u takes. -/
def State.takesError (s : State) (u : UnitId) (ins : List Nat) : Bool :=
  ins.any fun i => match s.dataAt i u with | some k => tokType k = tyError | none => false

/-- What a step of unit u that reads ins and writes outs lacks (R145, R165). A step that takes an error token
writes no buffer, so it needs no handle (R157). -/
def State.readiness (s : State) (u : UnitId) (ins outs : List Nat) : Ready :=
  match ins.find? fun i => s.fenceAt i u with
  | some i => .fence i
  | none =>
    if !(ins.all fun i => (s.dataAt i u).isSome) then .input
    else if !(outs.all fun o => (s.stream o).hasCredit) then .credit
    else if s.takesError u ins then .ready
    else if !(outs.all fun o => (s.nextHandle o).isSome) then .handle
    else .ready

/-! ### Tokens sent -/

/-- Units of a firing list that write each handle of a stream: 1 unless several cores do (R155). -/
def Stream.writers (m : Stream) : Nat := max m.producers.length 1

/-- A token entered at a queue's tail. Tokens of one tile from several cores, and their fences, share one
entry (R155). -/
def Consumer.enter (u : UnitId) (need : Nat) (tok : Dword) (due : Nat) (tile : Half) (c : Consumer) : Consumer :=
  let joins (e : QEntry) : Bool :=
    e.got.length < e.need && !e.got.contains u && e.tile = tile
      && (tokType e.tok = tyFence) == (tokType tok = tyFence)
  if c.queue.any joins then
    { c with queue := c.queue.map fun e =>
        if joins e then { e with tok := mergeTok e.tok tok, got := e.got ++ [u], due := max e.due due } else e }
  else { c with queue := c.queue ++ [{ tok := tok, got := [u], need := need, due := due, tile := tile }] }

/-- A token sent by unit u on stream o, present from moment due, to every edge the filter names; tile is the SEQ of
the tile it stands for. -/
def State.sendOn (s : State) (u : UnitId) (o : Nat) (tok : Dword) (due : Nat)
    (keep : Consumer → Bool := fun _ => true) (tile : Half := tokSeq tok) : State :=
  s.modStream o fun m =>
    { m with
      consumers := m.consumers.map fun c => if keep c then c.enter u m.writers tok due tile else c
      lastSent := if tokType tok = tyData || tokType tok = tyCompletion then tokSeq tok else m.lastSent }

/-- The SEQ of producer u's next data token on a stream (R142). -/
def Stream.seqOf (m : Stream) (u : UnitId) : Half :=
  match m.seq.find? fun x => x.1 = u with
  | some x => x.2
  | none => 0

/-- The next SEQ of producer u set. -/
def Stream.setSeq (m : Stream) (u : UnitId) (q : Half) : Stream :=
  { m with seq := (m.seq.filter fun x => x.1 ≠ u) ++ [(u, q)] }

/-- Whether the operation at list position p.pos is the last of this model step that writes stream o: no later
entry writes it and no LOOP behind it branches back over it again (R141 LAST, R182). -/
def Prog.lastFor (p : Prog) (o : Nat) : Bool :=
  (List.range p.list.length).all fun i =>
    i ≤ p.pos ||
      (let x := p.opAt i
       !((opSends x).contains o)
        && !(opcode x = opLoop && field x 8 8 ≤ p.pos
              && (match p.ctr.getD (field x 32 2) none with
                  | some n => 0 < n
                  | none => 0 < field x 16 16)))

/-! ### Packet pairs at a link port (R118 to R120, R403, R404) -/

/-- The link of a DEST's route entry where the entry is valid (R403, R404). -/
def State.routeLink (s : State) (dest : Nat) : Option Nat :=
  let e := Tab.get (0 : Half) s.linkMod.routes (dest / 16)
  if flag e 7 then some (field e 0 6) else none

/-- The complete pairs of consecutive PSEQ that a tile of a narrow stream needs, from the next one on; need blocks
of it, each of so many data bytes, are still wanted; a pair whose counts differ counts with its data packet's blocks (DESIGN
CHOICE, log entry 87; R118 to R120). -/
def takePairs (rx : List Pair) (src : Half) (size : Nat) : Nat → Half → Nat → List Pair
  | 0, _, _ => []
  | n + 1, q, need =>
    match rx.find? fun p => p.pseq = q && p.src = src && p.data.isSome && p.scales.isSome with
    | none => []
    | some p =>
      let k := (p.data.getD []).length / size
      p :: (if need ≤ k then [] else takePairs rx src size n (q + 1) (need - k))

/-- Blocks of a tile of a narrow stream: one pair where the stream states no element count. -/
def Stream.tileBlocks (m : Stream) : Nat :=
  if m.elems = 0 then 1
  else
    let r := max m.rowLen 1
    m.elems / r * ((r + 31) / 32) + (m.elems % r + 31) / 32

/-- The narrow format in which an image decodes stream o: FORMAT of the QUANT that takes it; N8 where none does (DESIGN CHOICE,
log entry 87; R111, R207, R208). -/
def State.rxFormat (s : State) (img o : Nat) : Nat :=
  match ((s.image img).img.units.flatMap (·.list)).find? fun x =>
    opcode x = opQuant && flag x 34 && field x 8 12 = o with
  | some x => field x 32 2
  | none => 1

/-- The pairs of RECV's next tile once every one of them has landed, under REMOTE from SOURCE (R208). -/
def State.recvPairs (s : State) (img : Nat) (o : Dword) : Option (List Pair) :=
  let out := field o 8 12
  let m := s.stream out
  let size := fmtBytes (s.rxFormat img out)
  let rx := (s.stream (field o 36 12)).rx
  let ps := takePairs rx (BitVec.ofNat 16 (field o 20 16)) size rx.length m.pseq m.tileBlocks
  let got := (ps.map fun p => (p.data.getD []).length / size).foldl (· + ·) 0
  if ps.isEmpty || got < m.tileBlocks then none else some ps

/-! ### Units, streams and groups of an image -/

/-- A unit of an image on the clusters the job is placed on. -/
def UnitId.place (cls : List Nat) : UnitId → UnitId
  | .feeder c f => .feeder (cls.getD c c) f
  | .core c p => .core (cls.getD c c) p
  | .tree c => .tree (cls.getD c c)
  | .vu c p => .vu (cls.getD c c) p
  | .quant c i => .quant (cls.getD c c) i
  | u => u

/-- The clusters of a placed job. -/
def State.clustersOf (s : State) (img : Nat) : List Nat := (s.image img).placed.getD []

/-- The units of a placed job. -/
def State.unitsOf (s : State) (img : Nat) : List UnitId :=
  (s.image img).img.units.map fun d => UnitId.place (s.clustersOf img) d.unit

/-- The units of layer group g of a placed job (06, "Fences and drain"). -/
def State.groupOf (s : State) (img g : Nat) : List UnitId :=
  (((s.image img).img.groups.find? fun x => x.1 = g).map (·.2)).getD [] |>.map (UnitId.place (s.clustersOf img))

/-- The streams of a placed job, ascending. -/
def State.streamsOf (s : State) (img : Nat) : List Nat :=
  (s.streams.filter fun p => p.2.img = some img).map (·.1)

/-- The group inputs of unit u: streams it takes from a unit of the group (R161). -/
def State.groupInputs (s : State) (img : Nat) (grp : List UnitId) (u : UnitId) : List Nat :=
  (s.streamsOf img).filter fun i =>
    ((s.stream i).edge u).isSome && (s.stream i).producers.any grp.contains

/-- The group outputs of unit u: streams it writes with a consumer queue of the group (R161). -/
def State.groupOutputs (s : State) (img : Nat) (grp : List UnitId) (u : UnitId) : List Nat :=
  (s.streamsOf img).filter fun i =>
    (s.stream i).producers.contains u && (s.stream i).consumers.any fun c => grp.contains c.unit

/-! ### What a FENCE waits for (R155, R161, R162) -/

/-- The edge holds a fence of SEQ q that other cores of the stream have begun and unit u has still to join (R155). -/
def Consumer.fenceBegun (u : UnitId) (q : Half) (c : Consumer) : Bool :=
  c.queue.any fun e => tokType e.tok = tyFence && tokSeq e.tok = q && e.got.length < e.need && !e.got.contains u

/-- The edges on which a fence of unit u spends a credit: those of the group where it joins no begun fence; the cores
of one stream spend one credit among them (R155, R161). -/
def Stream.fencePays (u : UnitId) (grp : List UnitId) (m : Stream) (c : Consumer) : Bool :=
  grp.contains c.unit && !c.fenceBegun u (m.seqOf u)

/-- The unit has steps in flight for the image: a core's TILE has not written its results yet, or an image of its WFILL has
still to be forwarded (R162, R232). -/
def State.inFlight (s : State) (u : UnitId) (img : Nat) : Bool :=
  match u with
  | .core c p =>
    let k := s.core c ((s.cluster c).phys p)
    !k.forward.isEmpty || (match k.tile with | some r => r.img = img && r.pos = p | none => false)
      || (match k.run with | some r => r.img = img && r.pos = p | none => false)
  | _ => false

/-- Unit u has no work of the layer left: a stream engine's descriptors armed by XFER have reached DONE; another
unit has no step in flight (R161, R162). -/
def State.layerDone (s : State) (u : UnitId) (img : Nat) : Bool :=
  match u with
  | .engine _ => (s.prog u img).armed.isEmpty
  | _ => !s.inFlight u img

/-- The group outputs on which unit u sends a fence at its FENCE: a stream engine sends none there (R161). -/
def State.fenceOutputs (s : State) (img : Nat) (grp : List UnitId) (u : UnitId) : List Nat :=
  match u with
  | .engine _ => []
  | _ => s.groupOutputs img grp u

/-- Unit u's part in the fence of group g lacks nothing: its work of the layer is done, every group input shows a fence, and
it holds a credit for each fence it sends (R161, R162). -/
def State.fenceReady (s : State) (u : UnitId) (img g : Nat) : Bool :=
  let grp := s.groupOf img g
  (s.prog u img).drained ≠ some g && s.layerDone u img && ((s.groupInputs img grp u).all fun i => s.fenceAt i u)
    && (s.fenceOutputs img grp u).all fun o => (s.stream o).hasCredit ((s.stream o).fencePays u grp)

/-- FIELD 0x2 has room for a code in channel n's queue; a channel with another SOURCE drops the codes at once (R332, R333). -/
def State.codeRoom (s : State) (n : Nat) : Bool := (s.fout n).source ≠ 1 || (s.fout n).queue.length < 32

/-! ### Lists of several jobs in one unit (R459) -/

/-- A unit that holds the list of one placed job at a time (R459). -/
def unitAlone : UnitId → Bool
  | .feeder .. | .core .. | .tree .. | .vu .. => true
  | _ => false

/-- Inside a model step with nothing in flight. -/
def Prog.free (now : Nat) (p : Prog) : Bool := p.phase = .running && p.busyUntil ≤ now && p.ang.isNone

/-- The list of image img can fire at a shared unit: its operation has what it needs (R145, R177). -/
def State.couldFire (s : State) (u : UnitId) (img : Nat) (p : Prog) : Bool :=
  let o := p.op
  p.free s.now && opListed u o &&
    (if opcode o = opFence then s.fenceReady u img (field o 8 12)
     else if opcode o = opQuant then s.readiness u (opInputs o) (opOutputs o) = .ready
     else if opcode o = opSend then
       match s.dataAt (field o 8 12) u with
       | none => false
       | some tok => tokType tok = tyError ||
           (match s.routeLink (field o 20 16) with
            | none => false
            | some n => (s.link n).st ≠ 2 || (s.link n).credits ≠ 0)
     else if opcode o = opRecv then
       if (s.stream (field o 8 12)).peerLost then (s.stream (field o 8 12)).hasCredit
       else (s.recvPairs img o).isSome && s.readiness u [] (opOutputs o) = .ready
     else if opcode o = opField then
       if field o 20 2 = 0 then
         !(s.conv (field o 22 8)).staging.isEmpty && s.readiness u [] (opOutputs o) = .ready
       else if p.held.isSome then s.codeRoom (field o 22 8)
       else
         match s.dataAt (field o 8 12) u with
         | some tok => tokType tok = tyError || s.codeRoom (field o 22 8)
         | none => false
     else true)

/-- The lists that a shared unit holds, with their image indices. -/
def State.listsOf (s : State) (u : UnitId) : List (Nat × Prog) :=
  (s.progs.filter fun p => p.2.unit = u && p.1 % 2 ^ 24 = unitWord u).map fun p => (p.1 / 2 ^ 24, p.2)

/-- The index after the list that a shared unit fired last; 0 before the first. -/
def State.turnFrom (s : State) (u : UnitId) : Nat :=
  ((s.listsOf u).foldl (fun (a : Nat × Nat) x => if a.1 < x.2.fired then (x.2.fired, x.1 + 1) else a) (0, 0)).2

/-- It is the turn of image img's list at unit u: no list that can fire stands before it in ascending image index,
from the list fired last on (R459). -/
def State.inTurn (s : State) (u : UnitId) (img : Nat) : Bool :=
  unitAlone u ||
    let a := s.turnFrom u
    (s.listsOf u).all fun x =>
      x.1 = img || (img + 256 - a) % 256 < (x.1 + 256 - a) % 256 || !s.couldFire u x.1 x.2

/-- The place in a shared unit's order of turns that a step of image img's list gets as it fires: the latest. -/
def State.nextTurn (s : State) (u : UnitId) (img : Nat) : Nat :=
  if unitAlone u then (s.prog u img).fired else ((s.listsOf u).map (·.2.fired)).foldl max 0 + 1

/-! ### The list position -/

/-- A unit lies in a quarter whose D2 is in reset (R431, R457). -/
def State.unitInReset (s : State) (u : UnitId) : Bool :=
  match unitQuarter u with
  | some q => s.aon.d2Reset.getLsbD q
  | none => false

/-- A unit takes work: its quarter is not in reset, and its cluster, if it lies in one, neither retired nor parked (R26,
R269, R457). -/
def State.unitWorks (s : State) (u : UnitId) : Bool :=
  !s.unitInReset u &&
    match unitCluster u with
    | some cl => (s.cluster cl).works
    | none => true

/-- Unit u may begin its next operation for image img: inside a model step with nothing in flight, at a shared unit in
its turn, in a cluster that takes work (R26, R177, R185, R269, R459). -/
def State.mayRun (s : State) (u : UnitId) (img : Nat) : Bool := (s.prog u img).free s.now && s.inTurn u img && s.unitWorks u

/-- The unit completes its operation at moment e and stands at the next entry (R177). -/
def State.finish (s : State) (u : UnitId) (img e : Nat) : State :=
  let n := s.nextTurn u img
  s.modProg u img fun p => { p with pos := p.pos + 1, busyUntil := e, fired := n }

/-- An effect that takes place only where unit u stands at a listed operation with this opcode; the row leaves
everything else as it is (R177, R181; log entry 2). -/
def State.onOp (s : State) (u : UnitId) (img code : Nat) (f : State → Dword → State) : State :=
  let o := (s.prog u img).op
  if s.mayRun u img && opcode o = code && opListed u o then f s o else s

/-! ### Chain edges (R189, R230) -/

/-- The slot holds the active image, the image in the shadow or being loaded into it, or an image still being
forwarded (R189, R232). During a refresh the slot of a prefetch that the refresh discarded is not held (DESIGN
CHOICE, log entry 60). -/
def Core.slotHeld (c : Core) (k : Nat) : Bool :=
  (match c.active with | some h => h.slot = k | none => false)
    || (match c.shadow with | some h => h.slot = k | none => false)
    || (c.slotAt k).filling

/-- The receiving end of a chain edge: the consumer's current operation is a WFILL on the stream whose slot is
writable; its cluster, physical core and slot (R230). -/
def State.chainEnd (s : State) (img o : Nat) (c : Consumer) : Option (Nat × Nat × Nat) :=
  match c.unit with
  | .core cl p =>
    let x := (s.prog c.unit img).op
    let k := (s.cluster cl).phys p
    if s.mayRun c.unit img && opcode x = opWfill && field x 8 12 = o && !(s.core cl k).slotHeld (field x 20 5)
        && c.queue.isEmpty then some (cl, k, field x 20 5) else none
  | _ => none

/-- Every edge of a chain stream has granted its one credit. -/
def State.chainCredit (s : State) (img o : Nat) : Bool :=
  (s.stream o).consumers.all fun c => (s.chainEnd img o c).isSome

/-- The producer holds a credit on every edge of stream o, which may be a chain (R145, R230). -/
def State.creditOn (s : State) (img o : Nat) : Bool :=
  if (s.stream o).chain then s.chainCredit img o else (s.stream o).hasCredit

/-- The edges of a chain stream that have granted no credit. -/
def State.chainOwing (s : State) (img o : Nat) : List (Nat × UnitId × Nat) :=
  ((s.stream o).consumers.filter fun c => (s.chainEnd img o c).isNone).map fun c => (o, c.unit, 1)

/-! ### A whole step -/

/-- What the work of a step leaves: the state with its buffers written, its length in tu, an error code met,
and whether an error token goes out in place of the data token. -/
structure Work where
  st : State
  dur : Nat := 0
  code : Option Nat := none
  asError : Bool := false
deriving DecidableEq, Repr

/-- An error token with flags and SEQ sent on each output, one credit each (R151, R156, R157). -/
def State.sendError (s : State) (u : UnitId) (outs : List Nat) (f : TokFlags) (seq : Half) : State :=
  s.each outs fun s o =>
    (s.modStream o fun m => (m.pay).setSeq u (m.seqOf u + 1)).sendOn u o (mkTok tyError o 0xFFFF seq f) s.now
      (tile := (s.stream o).seqOf u)

/-- The handle taken for stream o is given back unused at moment e. -/
def State.dropHandle (s : State) (o h e : Nat) : State :=
  s.modPool (s.stream o).pool.toNat fun p =>
    { p with counts := p.counts.filter fun c => c.handle ≠ h, back := backIn h (e + 2 * cycle) p.back }

/-- The output tokens of a step that took toks and wrote the handles outs, sent at moment e (R146, R156). -/
def State.sendOutputs (s : State) (u : UnitId) (img : Nat) (toks : List Dword) (outs : List (Nat × Nat))
    (code : Option Nat) (asError : Bool) (e : Nat) : State :=
  let p := s.prog u img
  s.each outs fun s oh =>
    let m := s.stream oh.1
    let q := m.seqOf u
    let f := { joinFlags toks with last := p.lastFor oh.1 }.withCode code
    let s := s.modStream oh.1 fun m => m.setSeq u (q + 1)
    if asError then
      (s.dropHandle oh.1 oh.2 e).sendOn u oh.1 (mkTok tyError oh.1 0xFFFF q f) e
    else s.sendOn u oh.1 (mkTok tyData oh.1 oh.2 q f) e

/-- A step fires as a whole (R145 to R147, R154, R156, R157): what it lacks marks its outputs as waiting;
otherwise it takes every head token, a credit on every edge and a handle per output, does its work, releases
its input handles, sends its output tokens when the work is complete and goes on to the next entry then. -/
def State.fire (s : State) (u : UnitId) (img : Nat) (ins outs : List Nat)
    (work : State → List Dword → List (Nat × Nat) → Work) : State :=
  let r := s.readiness u ins outs
  if r ≠ .ready then s.markAll outs r (pools := if s.takesError u ins then [] else s.poolsFor outs)
  else
    let toks := ins.filterMap fun i => s.dataAt i u
    let named := ins.filterMap fun i => (s.dataAt i u).map fun k => (i, k)
    let s := s.markAll outs .ready
    let s := s.each ins fun s i => s.takeHead u i
    match toks.find? fun k => tokType k = tyError with
    | some k =>
      let s := s.sendError u outs { joinFlags toks with err := some (((joinFlags toks).err).getD (tokCode k)) } (tokSeq k)
      let s := s.each named fun s x => s.releaseTok x.1 x.2 s.now
      s.finish u img s.now
    | none =>
      let hs := outs.filterMap fun o => (s.nextHandle o).map fun h => (o, h)
      let s := s.each outs fun s o => (s.takeHandle o).modStream o fun m => m.spend
      let w := work s toks hs
      let e := s.now + w.dur
      let s := w.st.each named fun s x => s.releaseTok x.1 x.2 e
      let s := s.sendOutputs u img toks hs w.code w.asError e
      s.finish u img e

end Sys2Proof.Machine
end

