-- ==== Sys2Proof/Machine/Control.lean ====
section
/-! DEFINITION. The operations of any unit: NOP, END, LOOP, FENCE, WAITANG, EVENT and LIST_FAULT (R161, R162,
R177 to R187), and the model step's start (R178). -/

namespace Sys2Proof.Machine

open Sys2Proof.Config

/-! ### Jobs -/

/-- The images placed, with their indices. -/
def State.jobs (s : State) : List Nat := (s.fw.images.filter fun x => x.2.placed.isSome).map (·.1)

/-- The jobs placed on a cluster. -/
def State.jobsOn (s : State) (cl : Nat) : List Nat := s.jobs.filter fun i => (s.clustersOf i).contains cl

/-- A unit of job i still works on a cluster: its list runs and has not drained at a fence. -/
def State.worksOn (s : State) (cl i : Nat) : Bool :=
  (s.unitsOf i).any fun u => unitCluster u = some cl && (s.prog u i).phase = .running && (s.prog u i).drained.isNone

/-- A running step works on a cluster: no permit is granted there now (R82; DESIGN CHOICE for a job that runs no step, log
entry 75). -/
def State.working (s : State) (cl : Nat) : Bool := (s.jobsOn cl).any fun i => (s.image i).running && s.worksOn cl i

/-- A cluster holds a placed job and is not drained at a fence: a job of it runs no step, or a unit of one still works
there; its permit is withdrawn at its next fence (R82, R439). -/
def State.undrained (s : State) (cl : Nat) : Bool := (s.jobsOn cl).any fun i => !(s.image i).running || s.worksOn cl i

/-! ### Power profiles (R438, R439) -/

/-- Clusters that a profile leaves not parked (R438). -/
def profileClusters (p : BitVec 2) : Nat := [832, 624, 416, 208].getD p.toNat 832

/-- The clusters that placed jobs use. -/
def State.usedClusters (s : State) : List Nat := (s.jobs.flatMap s.clustersOf).eraseDups

/-- Clusters that are neither parked nor retired. -/
def State.unparked (s : State) : List Nat := (List.range 832).filter fun c => !(s.cluster c).parked && !(s.cluster c).retired

/-- Once no permit awaits a fence, unused clusters are parked from the highest number down, or parked ones return from
the lowest up, until the profile's count is reached (R438, R439). -/
def State.settleProfile (s : State) : State :=
  if s.clusters.any fun x => x.2.permitGoing then s
  else
    let limit := profileClusters s.aon.profile
    let up := s.unparked
    if limit < up.length then
      let idle := up.reverse.filter fun c => !s.usedClusters.contains c
      s.each (idle.take (up.length - limit)) fun s c => s.modCluster c fun k => { k with parked := true }
    else
      let back := (List.range 832).filter fun c =>
        (s.cluster c).parked && !(s.cluster c).parkedHeat && !(s.cluster c).retired
      s.each (back.take (limit - up.length)) fun s c => s.modCluster c fun k => { k with parked := false }

/-- The stream numbers under which packets land for the RECV operations of a placed job (R208, R394). -/
def State.remotesOf (s : State) (img : Nat) : List Nat :=
  ((s.unitsOf img).flatMap fun u =>
    match u with
    | .port _ => ((s.prog u img).list.filter fun o => opcode o = opRecv).map fun o => field o 36 12
    | _ => []).eraseDups

/-- The pools of a placed job, ascending. -/
def State.poolsOf (s : State) (img : Nat) : List Nat :=
  (s.pools.filter fun p => p.2.img = some img).map (·.1)

/-! ### The model step (R178) -/

/-- An edge at the start of a model step: C credits, less the tokens that stayed in its queue (R151, R184); the images
that stayed on a chain edge took none (R230). -/
def Consumer.start (chain : Bool) (c : Consumer) : Consumer :=
  { c with credits := c.c - (c.queue.filter fun e => !chain || tokType e.tok = tyFence).length, owed := 0, owedSince := 0 }

/-- A stream at the start of a model step (R142, R151). -/
def Stream.start (m : Stream) : Stream :=
  { m with consumers := m.consumers.map (Consumer.start m.chain), seq := [], tiles := [], hq := 2, stalled := false
           wait := none, guard := none, guardStalled := false, peerLost := false }

/-- A list at the start of a model step (R177, R182, R192). -/
def Prog.start (p : Prog) : Prog :=
  { p with pos := 0, ctr := [none, none, none, none], phase := .running, busyUntil := 0, ang := none
           angAt := 0, drained := none, armed := [], orderSent := none, rowMask := 0xFF, raw := false, left := [], held := none }

/-- A start that finds the model step running is dropped, counted and reported (R178). -/
def State.dropStart (s : State) (img : Nat) : State :=
  let s := s.modImage img fun r => { r with overrun := r.overrun + 1 }
  s.raise 0x8005 (layBytes 8 [(0, toLe 1 img), (4, toLe 4 (s.image img).overrun.toNat)])

/-- A unit of a placed job lies in a quarter in reset. -/
def State.jobInReset (s : State) (img : Nat) : Bool := (s.unitsOf img).any s.unitInReset

/-- One start of an image: the model step starts when the job is placed and none runs; otherwise the start is
dropped (R178). A start of an image that is not placed, whose placement still waits or which has units in reset does
nothing (R431, R457). -/
def State.startStep (s : State) (img : Nat) : State :=
  let r := s.image img
  if r.placed.isNone || r.waiting || s.jobInReset img then s
  else if r.running then s.dropStart img
  else
    let s := s.modImage img fun r =>
      { r with running := true, starts := r.starts + 1, startedAt := s.now, abort := none }
    let s := s.each (s.streamsOf img) fun s i => s.modStream i Stream.start
    s.each (s.unitsOf img) fun s u => s.modProg u img Prog.start

/-- Every unit of the image has reached END. -/
def State.allEnded (s : State) (img : Nat) : Bool :=
  (s.unitsOf img).all fun u => (s.prog u img).phase = .ended

/-- The model step ends once every unit has reached END (R178, R184): the counts of STEP_STATUS move on, and an abort
that was due has no step left to end (R171). -/
def State.closeStep (s : State) (img : Nat) : State :=
  if (s.image img).running && s.allEnded img then
    let s := s.modImage img fun r =>
      { r with running := false, completed := r.completed + 1, abort := none
               lastUs := BitVec.ofNat 32 ((s.now - r.startedAt) / us) }
    let s := s.each (s.streamsOf img) fun s i => s.modStream i fun m => { (m.endWait s.now).endGuard s.now with hq := 0 }
    s.each (s.clustersOf img) fun s c => s.modCluster c fun k => { k with idleSince := s.now }
  else s

/-! ### NOP, END, LOOP, WAITANG, EVENT -/

/-- NOP completes at once. -/
def effectNop (u : UnitId) (img : Nat) (s : State) : State :=
  s.onOp u img opNop fun s _ => s.finish u img s.now
/-- NOP (R181). -/
def execNop (t : Nat) (u : UnitId) (img : Nat) (s : State) : Out := act (unitOk u) t s (effectNop u img)

/-- END: the unit idles until the next model step (R184). -/
def effectEnd (u : UnitId) (img : Nat) (s : State) : State :=
  s.onOp u img opEnd fun s _ =>
    let n := s.nextTurn u img
    (s.modProg u img fun p => { p with phase := .ended, fired := n }).closeStep img
/-- END (R181, R184). -/
def execEnd (t : Nat) (u : UnitId) (img : Nat) (s : State) : Out := act (unitOk u) t s (effectEnd u img)

/-- The list after LOOP with TARGET, REPEATS, LEVEL: an idle counter loads REPEATS; above 0 it counts down and
branches; at 0 it becomes idle and the list goes on (R182). -/
def Prog.loop (target repeats level : Nat) (p : Prog) : Prog :=
  match (p.ctr.getD level none).getD repeats with
  | 0 => { p with pos := p.pos + 1, ctr := p.ctr.set level none }
  | n + 1 => { p with pos := target, ctr := p.ctr.set level (some n) }

/-- LOOP at the unit's entry. -/
def effectLoop (u : UnitId) (img : Nat) (s : State) : State :=
  s.onOp u img opLoop fun s o =>
    let n := s.nextTurn u img
    s.modProg u img fun p => { p.loop (field o 8 8) (field o 16 16) (field o 32 2) with fired := n }
/-- LOOP (R182). -/
def execLoop (t : Nat) (u : UnitId) (img : Nat) (s : State) : Out := act (unitOk u) t s (effectLoop u img)

/-- WAITANG waits for crossings of ANGLE, SKIP of them let pass; only updates of a later fabric cycle count (R185). -/
def effectWaitang (u : UnitId) (img : Nat) (s : State) : State :=
  s.onOp u img opWaitang fun s o =>
    let n := s.nextTurn u img
    s.modProg u img fun p =>
      { p with ang := some (BitVec.ofNat 32 (field o 8 32), field o 40 8), angAt := s.now, fired := n }
/-- WAITANG (R185, R186). -/
def execWaitang (t : Nat) (u : UnitId) (img : Nat) (s : State) : Out := act (unitOk u) t s (effectWaitang u img)

/-- EVENT raises USER_EVENT with CODE, STREAM, the unit and the start count, and waits for nothing (R187). -/
def effectEvent (u : UnitId) (img : Nat) (s : State) : State :=
  s.onOp u img opEvent fun s o =>
    (s.raise 0x8100 (layBytes 12 [(0, toLe 2 (field o 8 16)), (2, toLe 2 (field o 24 12)), (4, toLe 4 (s.unitOf u)),
      (8, toLe 4 (s.image img).starts.toNat)])).finish u img s.now
/-- EVENT (R187). -/
def execEvent (t : Nat) (u : UnitId) (img : Nat) (s : State) : Out := act (unitOk u) t s (effectEvent u img)

/-! ### LIST_FAULT -/

/-- Entries of a unit's store (R175). -/
def storeSize : UnitId → Nat
  | .feeder .. => 128
  | .core .. => 128
  | .vu .. => 256
  | _ => 64

/-- Entries of the space that holds a list: a store of its own, or its part of a shared store, where the lists stand in
ascending image index with the free entries behind the last (R177, R459; DESIGN CHOICE, log entry 61). -/
def State.listSpace (s : State) (u : UnitId) (img : Nat) : Nat :=
  if unitAlone u then storeSize u
  else if (s.listsOf u).any fun x => img < x.1 then (s.prog u img).list.length
  else storeSize u - (((s.listsOf u).filter fun x => x.1 ≠ img).map (·.2.list.length)).foldl (· + ·) 0

/-- An abort of the model step becomes due: the first cause stands (R171, R387). -/
def State.markAbort (s : State) (img cause stream : Nat) : State :=
  s.modImage img fun r => { r with abort := some (r.abort.getD (cause, stream)) }

/-- A unit at an operation that is not listed or belongs to another kind of unit, or past its list's space, fires
nothing further, raises LIST_FAULT and has the step aborted (R177, R179, R209). -/
def effectListFault (u : UnitId) (img : Nat) (s : State) : State :=
  let p := s.prog u img
  if s.mayRun u img && !opListed u p.op then
    let n := s.listSpace u img
    let s := s.modProg u img fun p => { p with phase := .faulted }
    let s := s.raise 0x8004 (layBytes 5 [(0, toLe 4 (s.unitOf u)), (4, toLe 1 (min p.pos (n - 1)))])
    s.markAbort img 2 0xFFFF
  else s
/-- LIST_FAULT (R177, R179). -/
def execListFault (t : Nat) (u : UnitId) (img : Nat) (s : State) : Out := act (unitOk u) t s (effectListFault u img)

/-! ### FENCE (R161, R162, R165) -/

/-- A fence sent by unit u on the group's edges of stream o (R155, R161). -/
def State.sendFence (s : State) (u : UnitId) (grp : List UnitId) (o : Nat) : State :=
  let m := s.stream o
  let s := s.modStream o fun _ => m.spend (m.fencePays u grp)
  s.sendOn u o (mkTok tyFence o 0xFFFF (m.seqOf u) {}) s.now fun c => grp.contains c.unit

/-- Unit u takes its part in the fence of group g: it waits until its work of the layer is done, every group
input shows a fence and it holds a credit for each fence it sends; then it takes those fences, forwards one on
each group output and reports itself drained (R161, R162, R183). -/
def effectFence (u : UnitId) (img : Nat) (s : State) : State :=
  s.onOp u img opFence fun s o =>
    let g := field o 8 12
    if (s.prog u img).drained = some g then s
    else
      let grp := s.groupOf img g
      let ins := s.groupInputs img grp u
      let outs := s.fenceOutputs img grp u
      if !s.layerDone u img then s
      else if !(ins.all fun i => s.fenceAt i u) then s.markAll outs .input
      else if !(outs.all fun o => (s.stream o).hasCredit ((s.stream o).fencePays u grp)) then
        s.markAll outs .credit (s.owing outs fun o => (s.stream o).fencePays u grp)
      else
        let s := s.each ins fun s i => s.takeHead u i
        let s := s.each outs fun s o => s.sendFence u grp o
        let s := s.each outs fun s o => s.modStream o fun m => { m.endWait s.now with hq := 6 }
        let n := s.nextTurn u img
        s.modProg u img fun p => { p with drained := some g, fired := n }
/-- FENCE (R161, R162, R183). -/
def execFence (t : Nat) (u : UnitId) (img : Nat) (s : State) : Out := act (unitOk u) t s (effectFence u img)

end Sys2Proof.Machine
end

