-- ==== Sys2Proof/Machine/Engines.lean ====
section
/-! DEFINITION. HBM over BAR2, stream descriptors, transfers, migration (R210 to R229, R460) and XFER (R208). -/

namespace Sys2Proof.Machine

open Sys2Proof.Config

/-! ### Host accesses over BAR2 (R212, R214) -/

/-- The host reaches the module's BARs: D1 runs (R419, R431; log entry 2). -/
def State.hostUp (s : State) : Bool := s.aon.power && !s.aon.inReset && !s.aon.d1Reset

/-- Whether every byte of an access has memory behind it (R210, R211). -/
def hbmAll (a n : Nat) : Bool := (List.range n).all fun i => hbmUsable (a + i)

/-- An access outside memory counted in STR_LAT.HOST_OOR of the address's stack (R212). -/
def State.countOor (s : State) (a n : Nat) : State :=
  if hbmAll a n then s else s.modStack (awStack a) fun k => { k with hostOor := satInc k.hostOor }

/-- The logical channel of a stack's byte offset (R210). -/
def hbmChannel (off : Nat) : Nat := off / 256 % 31

/-- A number put into a rising list. -/
def insertRising (x : Nat) : List Nat → List Nat
  | [] => [x]
  | y :: ys => if x < y then x :: y :: ys else if x = y then y :: ys else y :: insertRising x ys

/-- The 64-byte lines of a device address range that a read strikes: which of them meet an uncorrectable error is free
(R214; log entry 70). -/
def struckLines (draw a n : Nat) : List Nat :=
  ((List.range ((a + n + 63) / 64 - a / 64)).map (a / 64 + ·)).filter fun l =>
    hbmUsable (64 * l) && Config.hbmStruck draw (awStack (64 * l)) (hbmChannel (64 * l % 2 ^ 36)) (64 * l % 2 ^ 36 / 64)

/-- HBM is read: lines that meet an uncorrectable error are marked bad, row failures among them logged, corrected errors
count (R22, R214, R235; log entries 70 and 78). -/
def State.readHbm (s : State) (a n : Nat) : State :=
  let d := s.free
  let struck := struckLines d a n
  let rows := (struck.filter fun l => !s.bad.contains l && Config.rowFails d l).length
  let s' := s.draw.modStack (awStack a) fun m =>
    { m with corrected := satAdd m.corrected (Config.hbmCorrected d (awStack a)), rowFails := m.rowFails + rows }
  { s' with bad := struck.foldl (fun b l => insertRising l b) s.bad }

/-- A host read: bytes without memory behind them read 0xFF, a line marked bad poisons the completion. -/
def effectHostBar2Read (addr len : Nat) (s : State) : State :=
  if s.hostUp then
    let s := s.readHbm addr len
    let d := (List.range len).map fun i => if hbmUsable (addr + i) then s.hbm.read (addr + i) else 0xFF
    { s with readOut := { who := 0, data := d, poisoned := s.badIn addr len } }.countOor addr len
  else s
/-- HOST_BAR2_READ (R212, R214). -/
def execHostBar2Read (t addr len : Nat) (s : State) : Out :=
  act (addr + len ≤ 2 ^ 40) t s (effectHostBar2Read addr len)

/-- A host write: bytes without memory behind them are dropped. -/
def effectHostBar2Write (addr : Nat) (data : List Byte) (s : State) : State :=
  if s.hostUp then (s.writeHbm addr data).countOor addr data.length else s
/-- HOST_BAR2_WRITE (R212 to R214). -/
def execHostBar2Write (t addr : Nat) (data : List Byte) (s : State) : Out :=
  act (addr + data.length ≤ 2 ^ 40) t s (effectHostBar2Write addr data)

/-! ### Migration (R215) -/

/-- A logical channel meets the trigger of R22: it migrates to the reserve; a later one stays in service. -/
def effectChannelMigration (k ch : Nat) (s : State) : State :=
  s.modStack k fun m =>
    if m.reserveUsed || m.migrating.isSome then { m with degraded := true }
    else { m with migrating := some (ch, s.now) }
/-- CHANNEL_MIGRATION (R22, R215). -/
def execChannelMigration (t stack ch : Nat) (s : State) : Out :=
  act (stack < 16 && ch < 31) t s (effectChannelMigration stack ch)

/-- The migration ends: the reserve carries the channel. -/
def effectMigrationEnd (k : Nat) (s : State) : State :=
  match (s.stack k).migrating with
  | some (ch, _) =>
    (s.wears 6).modStack k fun m => { m with migrating := none, reserveFor := BitVec.ofNat 5 ch, reserveUsed := true }
  | none => s
/-- MIGRATION_END (R22, R215). -/
def execMigrationEnd (t stack : Nat) (s : State) : Out := act (stack < 16) t s (effectMigrationEnd stack)

/-! ### Descriptors: the checks of R224 -/

/-- The addresses of an arithmetic run of transfers stay from lo to below hi. -/
def runWithin (base : Int) (stride : Int) (count size : Nat) (lo hi : Int) : Bool :=
  let z := base + stride * ((count : Int) - 1)
  lo ≤ min base z && max base z + size ≤ hi

/-- The pool of a handle side. -/
def State.sidePool (s : State) (a : Nat) : Pool := s.pool (s.stream (awStream a)).pool.toNat

/-- One side's space, stack and stream are valid for engine e; src tells the source side (R222). An engine reaches no
stack but its own, so a handle in HBM must lie there (R216). -/
def State.sideValid (s : State) (e a : Nat) (src : Bool) : Bool :=
  match awSpace a with
  | 0 => awStack a = e
  | 1 => true
  | 2 =>
    let m := s.stream (awStream a)
    (if src then (m.edge (.engine e)).isSome else m.producers.contains (.engine e))
      && (!(s.sidePool a).inHbm || awStack (s.sidePool a).base = e)
  | _ => false

/-- One side fits its pool's buffers. -/
def State.sideFits (s : State) (a size : Nat) : Bool := awSpace a ≠ 2 || size ≤ (s.sidePool a).bufSize

/-- One side is aligned to 64 bytes in every transfer. -/
def sideAligned (a : Nat) (stride : Int) (count : Nat) : Bool :=
  awSpace a = 2 || (a % 64 = 0 && (count = 1 || stride % 64 = 0))

/-- Every address of one side lies in memory. -/
def sideInside (a : Nat) (stride : Int) (count size : Nat) : Bool :=
  match awSpace a with
  | 0 => runWithin (awAddr a % 2 ^ 36 : Nat) stride count size 0 stackBytes
  | 1 => awIndex a ≤ 207 && runWithin (awOff a) stride count size 0 0x300000
  | _ => true

/-- The code of the first check that fails in the order of R224; 0 when all hold. -/
def State.descCheck (s : State) (e : Nat) (d : List Byte) : Nat :=
  let a := dSrc d
  let b := dDst d
  if !(s.sideValid e a true && s.sideValid e b false) || (awSpace a = 0) == (awSpace b = 0) then 5
  else if !(64 ≤ dSize d && dSize d ≤ 1048576 && dSize d % 64 = 0 && 1 ≤ dCount d && dCount d ≤ 16777216
      && s.sideFits a (dSize d) && s.sideFits b (dSize d)) then 3
  else if !(sideAligned a (dSrcStride d) (dCount d) && sideAligned b (dDstStride d) (dCount d)) then 2
  else if !(sideInside a (dSrcStride d) (dCount d) (dSize d) && sideInside b (dDstStride d) (dCount d) (dSize d)) then 1
  else 0

/-! ### ERROR, arming, DONE -/

/-- The image whose model step a descriptor belongs to by its handle side (R229). -/
def State.descImg (s : State) (w : List Byte) : Option Nat :=
  if awSpace (dSrc w) = 2 then (s.stream (awStream (dSrc w))).img
  else if awSpace (dDst w) = 2 then (s.stream (awStream (dDst w))).img
  else none

/-- A descriptor enters ERROR: shadow discarded, the data of its transfers in flight to be discarded, STR_LAST_ERR
written, STR_ERROR raised with the ID of the contents at fault, the step's abort due (R228). -/
def State.descError (s : State) (e d code : Nat) (w : List Byte) : State :=
  let k := s.desc e d
  let s := s.setDesc e d { k with st := .error, shadow := none, shadowImg := none, lastErr := BitVec.ofNat 4 code
                                  aborted := false, outstanding := k.outstanding.map fun x => { x with dead := true } }
  let s := s.modStack e fun m => { m with errDesc := BitVec.ofNat 13 d, errCode := BitVec.ofNat 4 code }
  let s := s.raise 0x8007 (layBytes 7 [(0, toLe 1 e), (2, toLe 2 d), (4, toLe 2 (dId w)), (6, toLe 1 code)])
  match (s.descImg k.work).orElse fun _ => k.byImg with
  | some img => if (s.image img).running then s.markAbort img 4 0xFFFF else s
  | none => s

/-- A working copy latched: ARMED; discarded transfers of an earlier copy may still be in flight (R223, R228). -/
def Desc.latch (w : List Byte) (byImg : Option Nat) (k : Desc) : Desc :=
  { k with st := .armed, work := w, issued := 0, finished := [], sent := 0, byImg := byImg }

/-- A completion of descriptor d still arrives in the present fabric cycle (R227, log entry 28). -/
def State.completes (s : State) (e d : Nat) : Bool := s.inCycle.any fun i =>
  match i with
  | .transferComplete _ e' d' _ => e' = e && d' = d
  | .descCompToken _ e' d' => e' = e && d' = d
  | _ => false

/-- The contents of an arm reach a descriptor: the checks come first, and one that fails sends it to ERROR, after the
completions of its fabric cycle (R227); IDLE and DONE latch them; ARMED, ACTIVE and DRAINING take them into the empty shadow,
or count a re-arm overrun; ERROR counts a refused arm (R224 to R226). -/
def State.armWith (s : State) (e d : Nat) (w : List Byte) (byImg : Option Nat) : State :=
  let k := s.desc e d
  let bad := s.descCheck e w
  match k.st with
  | .idle | .done =>
    let s := s.setDesc e d (k.latch w byImg)
    if bad = 0 then s else s.descError e d bad w
  | .armed | .active | .draining =>
    if k.shadow.isSome then
      let m := s.stack e
      (s.setDesc e d { k with late := some { at_ := s.now / cycle, img := byImg, data := w
                                             full := m.rearmOverrun = 0xFFFF, prev := m.overrunDesc } }).modStack e
        fun m => { m with rearmOverrun := satInc m.rearmOverrun, overrunDesc := BitVec.ofNat 13 d }
    else if bad = 0 then
      s.setDesc e d { k with shadow := some w, shadowImg := byImg, shadowAt := s.now / cycle + 1 }
    else if s.completes e d then
      s.setDesc e d { k with late := some { at_ := s.now / cycle, img := byImg, data := w, failing := true } }
    else s.descError e d bad w
  | .error => s.modStack e fun m => { m with armRefused := satInc m.armRefused }

/-- An arm latches the store's contents (R224). -/
def State.arm (s : State) (e d : Nat) (byImg : Option Nat) : State :=
  s.armWith e d (padTo 64 (s.desc e d).store) byImg

/-- Firmware's arm; an XFER of the same fabric cycle is taken before it (R227). -/
def State.fwArm (s : State) (e d : Nat) : State :=
  let k := s.desc e d
  let first := k.st = .idle || k.st = .done
  (s.arm e d none).modDesc e d fun x =>
    if k.st = .error || (!first && k.shadow.isSome) then x else { x with fwArm := some (s.now / cycle, first) }

/-- Where firmware's arm of this fabric cycle has put its contents: the working copy, or the shadow (R227). -/
def Desc.fwFirst (now : Nat) (k : Desc) : Option Bool :=
  match k.fwArm with | some (c, b) => if c = now / cycle then some b else none | none => none

/-- XFER's arm: taken before firmware's arm of the same fabric cycle, so that what firmware's arm latched is XFER's, and
firmware's is the re-arm (R227). -/
def State.xferArm (s : State) (e d img : Nat) : State :=
  let k := s.desc e d
  let s := s.arm e d (some img)
  match k.fwFirst s.now with
  | some true => s.modDesc e d fun x =>
    if k.shadow.isNone then { x with byImg := some img, shadowImg := none } else { x with byImg := some img }
  | some false => s.modDesc e d fun x => { x with shadowImg := some img }
  | none => s

/-- XFER's arm is taken: it is neither refused nor ignored (R225 to R227). -/
def Desc.xferTaken (now : Nat) (k : Desc) : Bool :=
  k.st ≠ .error && (k.st = .idle || k.st = .done || k.shadow.isNone || (k.fwFirst now).isSome)

/-- XFER's image no longer waits for the descriptor (R161). -/
def State.xferDone (s : State) (e d : Nat) (byImg : Option Nat) : State :=
  match byImg with
  | some img => s.modProg (.engine e) img fun p => { p with armed := p.armed.erase d }
  | none => s

/-- A re-arm of this fabric cycle that was counted as ignored, or fails its check, is taken after the promotion after all
(R227). -/
def State.takeLate (s : State) (e d : Nat) (late : Option LateArm) : State :=
  match late with
  | some x =>
    if x.at_ = s.now / cycle then
      let s := if x.failing then s else s.modStack e fun m =>
        { m with rearmOverrun := if x.full then m.rearmOverrun else m.rearmOverrun - 1
                 overrunDesc := if m.overrunDesc = BitVec.ofNat 13 d then x.prev else m.overrunDesc }
      (s.modDesc e d fun k => { k with late := none }).armWith e d x.data x.img
    else s
  | none => s

/-- The last completion of a fabric cycle is over: a failing re-arm that waited for it is judged (R227, R228). -/
def State.settleLate (s : State) (e d : Nat) : State :=
  match (s.desc e d).late with
  | some x =>
    if x.failing && x.at_ = s.now / cycle && !s.completes e d then
      (s.modDesc e d fun k => { k with late := none }).armWith e d x.data x.img
    else s
  | none => s

/-- A descriptor reaches DONE: its event, the shadow's promotion, then the arm of NEXT; a re-arm of the same fabric cycle
is taken after the completion and the promotion (R221, R225, R227). -/
def State.descDone (s : State) (e d : Nat) : State :=
  let k := s.desc e d
  let w := k.work
  let s := if dControl w 0 then s.raise 0x8008 (layBytes 6 [(0, toLe 1 e), (2, toLe 2 d), (4, toLe 2 (dId w))]) else s
  let s := s.xferDone e d k.byImg
  let fresh := k.shadow.isSome && k.shadowAt = s.now / cycle + 1
  let s := match k.shadow with
    | some sh =>
      if fresh then s.modDesc e d fun k => { k with st := .done, shadow := none, shadowImg := none }
      else s.modDesc e d fun k => { k.latch sh k.shadowImg with shadow := none, shadowImg := none }
    | none => s.modDesc e d fun k => { k with st := .done }
  let s := if dControl w 3 then s.arm e (dNext w) none else s
  let s := if fresh then s.armWith e d (k.shadow.getD []) k.shadowImg else s
  s.takeLate e d k.late

/-! ### Transfers (R216 to R219) -/

/-- The address of transfer i of a side: each pass restarts at the first address (R221). -/
def sideAddr (a : Nat) (stride : Int) (count i : Nat) : Nat :=
  ((match awSpace a with | 0 => (awAddr a : Int) | _ => (awOff a : Int)) + stride * ((i % count : Nat) : Int)).toNat

/-- Bytes of a memory side. -/
def State.sideRead (s : State) (a addr n : Nat) : List Byte :=
  if awSpace a = 0 then s.hbm.readN addr n else s.sram.readN (awCluster a * 0x300000 + addr) n

/-- Bytes written to a memory side. -/
def State.sideWrite (s : State) (a addr : Nat) (bs : List Byte) : State :=
  if awSpace a = 0 then s.writeHbm addr bs
  else { s with sram := s.sram.write (awCluster a * 0x300000 + addr) bs }

/-- The descriptors of engine e in turn order: from its turn on, ascending, then from 0 (R219). -/
def State.turnOrder (s : State) (e : Nat) : List Nat :=
  let ds := (s.descs.filter fun p => p.1 / 8192 = e).map fun p => p.1 % 8192
  (ds.filter fun d => (s.stack e).turn ≤ d) ++ ds.filter fun d => d < (s.stack e).turn

/-- What the next transfer of a descriptor lacks: a handle source needs a token, which an engine at END does not take, a
handle destination a credit and a handle (R145, R184, R222). -/
def State.descReady (s : State) (e : Nat) (w : List Byte) : Ready :=
  let src := s.stream (awStream (dSrc w))
  let done (i : Nat) : Bool := (s.prog (.engine e) i).phase = .ended || (s.prog (.engine e) i).phase = .faulted
  if awSpace (dSrc w) = 2 && src.img.any done then .input
  else s.readiness (.engine e) (if awSpace (dSrc w) = 2 then [awStream (dSrc w)] else [])
    (if awSpace (dDst w) = 2 then [awStream (dDst w)] else [])

/-- The engine's list of a descriptor's image has faulted: nothing fires for it any further (R179, R219). -/
def State.listFaulted (s : State) (e : Nat) (k : Desc) : Bool :=
  ((s.descImg k.work).orElse fun _ => k.byImg).any fun i => (s.prog (.engine e) i).phase = .faulted

/-- The descriptor may issue: ARMED or ACTIVE with transfers left (R223). -/
def Desc.issues (k : Desc) : Bool := (k.st = .armed || k.st = .active) && !k.aborted && k.issued < dTotal k.work

/-- Transfers of engine e outstanding. -/
def State.outstanding (s : State) (e : Nat) : Nat :=
  ((s.descs.filter fun p => p.1 / 8192 = e).map fun p => p.2.outstanding.length).foldl (· + ·) 0

/-- Engine time in 1/774,000 tu, in which every transfer's is a whole number: 774,000 = 387 × 2,000 = 400 × 1,935. -/
abbrev engineUnit : Nat := 774000

/-- Engine time of a transfer: (SIZE + 224) ÷ 2,000 B per ns, or ÷ 1,935 in a migration (R218). -/
def occupancy (size : Nat) (migrating : Bool) : Nat := (size + 224) * ns * (engineUnit / if migrating then 1935 else 2000)

/-- The next transfer of descriptor d issues: its resources are taken, and the engine is occupied. -/
def State.issue (s : State) (e d : Nat) : State :=
  let k := s.desc e d
  let w := k.work
  let src := awStream (dSrc w)
  let dst := awStream (dDst w)
  let tok := if awSpace (dSrc w) = 2 then s.dataAt src (.engine e) else none
  let h := match tok with
    | some x => if tokType x = tyError then (s.releaseTok src x s.now, 0xFFFF) else (s, tokHandle x)
    | none => if awSpace (dDst w) = 2 then (s, (s.nextHandle dst).getD 0xFFFF) else (s, 0xFFFF)
  let s := if tok.isSome then h.1.takeHead (.engine e) src else h.1
  let s := if awSpace (dDst w) = 2 then
      (s.markAll [dst] .ready).takeHandle dst |>.modStream dst fun m => m.spend
    else s
  let n := k.issued + 1
  let s := s.modDesc e d fun k =>
    { k with issued := n
             outstanding := k.outstanding ++
               [{ idx := k.issued, handle := h.2, at_ := s.now, size := dSize w
                  fills := if awSpace (dDst w) = 2 then some dst else none
                  empties := if awSpace (dSrc w) = 2 && h.2 ≠ 0xFFFF then some src else none }]
             st := if n = dTotal w then .draining else .active }
  s.modStack e fun m =>
    { m with turn := (d + 1) % 8192
             busyUntil := max m.busyUntil (s.now * engineUnit) + occupancy (dSize w) m.migrating.isSome
             short := if dSize w < 2048 then satInc m.short else m.short }

/-- The engine issues one transfer of the next descriptor in turn that can fire; with 512 outstanding, or while
occupied, none (R217 to R219). Producers that lack a credit or a handle are marked waiting. -/
def effectTransferIssue (e : Nat) (s : State) : State :=
  let k := s.stack e
  if (s.now + 1) * engineUnit ≤ k.busyUntil || 512 ≤ s.outstanding e then s
  else
    let ds := (s.turnOrder e).filter fun d => (s.desc e d).issues && !s.listFaulted e (s.desc e d)
    let s := s.each ds fun s d =>
      let w := (s.desc e d).work
      let r := s.descReady e w
      let os := [awStream (dDst w)]
      if awSpace (dDst w) = 2 && r ≠ .ready then s.markAll os r (pools := s.poolsFor os) else s
    match ds.find? fun d => s.descReady e (s.desc e d).work = .ready with
    | some d => s.issue e d
    | none => s
/-- TRANSFER_ISSUE (R216 to R219, R222, R223). -/
def execTransferIssue (t e : Nat) (s : State) : Out := act (e < 16) t s (effectTransferIssue e)

/-- The token of transfer i, now the next in order (R219, R221, R222). -/
def State.emitTransfer (s : State) (e d i h : Nat) : State :=
  let w := (s.desc e d).work
  let final := i + 1 = dTotal w
  if awSpace (dDst w) = 2 then
    let o := awStream (dDst w)
    let q := (s.stream o).seqOf (.engine e)
    let f : TokFlags := { last := final && dControl w 1, fence := final && dControl w 2 }
    (s.modStream o fun m => m.setSeq (.engine e) (q + 1)).sendOn (.engine e) o (mkTok tyData o h q f) s.now
  else s

/-- Completed transfers that are next in order emit their tokens, as many as stand in a row. -/
def State.emitInOrder (s : State) (e d : Nat) : Nat → State
  | 0 => s
  | n + 1 =>
    let k := s.desc e d
    match k.finished.find? fun x => x.1 = k.sent with
    | some (i, h, _) =>
      let s := s.emitTransfer e d i h
      (s.modDesc e d fun k => { k with finished := k.finished.filter fun x => x.1 ≠ i, sent := k.sent + 1 }).emitInOrder e d n
    | none => s

/-- The bytes of a good transfer move (R213, R217, R221). -/
def State.moveBytes (s : State) (w : List Byte) (i h : Nat) : State :=
  let src := dSrc w
  let dst := dDst w
  let n := dSize w
  let sa := sideAddr src (dSrcStride w) (dCount w) i
  let da := sideAddr dst (dDstStride w) (dCount w) i
  if awSpace src = 2 then
    if h = 0xFFFF then s else s.sideWrite dst da (s.readBuf (s.stream (awStream src)).pool.toNat h 0 n)
  else
    let bs := s.sideRead src sa n
    if awSpace dst = 2 then s.writeBuf (s.stream (awStream dst)).pool.toNat h 0 bs else s.sideWrite dst da bs

/-- The handle that a transfer emptied is released when its write is acknowledged (R222). -/
def State.emptied (s : State) (x : Flight) : State :=
  match x.empties with
  | some i => s.modPool (s.stream i).pool.toNat (Pool.release x.handle s.now)
  | none => s

/-- The handles of a transfer whose data is discarded go back. -/
def State.discard (s : State) (x : Flight) : State :=
  (match x.fills with | some o => s.dropHandle o x.handle s.now | none => s).emptied x

/-- An aborted descriptor whose transfers in flight are over returns to IDLE; an arm that came meanwhile then takes effect
(R229; DESIGN CHOICE, log entry 71). -/
def State.endAbort (s : State) (e d : Nat) : State :=
  let k := s.desc e d
  if k.aborted && k.outstanding.isEmpty then
    let s := s.setDesc e d { k with st := .idle, aborted := false, shadow := none, shadowImg := none }
    match k.shadow with
    | some w => s.armWith e d w k.shadowImg
    | none => s
  else s

/-- The device address of the HBM bytes that a transfer reads, where its source lies in HBM. -/
def State.hbmSource (s : State) (w : List Byte) (x : Flight) : Option Nat :=
  if awSpace (dSrc w) = 0 then some (sideAddr (dSrc w) (dSrcStride w) (dCount w) x.idx)
  else
    let q := s.sidePool (dSrc w)
    if awSpace (dSrc w) = 2 && q.inHbm && x.handle ≠ 0xFFFF then some (q.base + x.handle * q.bufSize) else none

/-- Transfer idx of a descriptor completes: its data may have been marked for discarding; bad data sends the descriptor to
ERROR; otherwise the data lands, tokens go out in order, and after the last one the descriptor is DONE unless a
completion token of R460 is still due (R214, R217, R219, R222, R223, R228, R229). -/
def State.transferOver (s : State) (e d idx : Nat) : State :=
  let k := s.desc e d
  match k.outstanding.find? fun x => x.idx = idx with
  | none => s
  | some x =>
    let w := k.work
    let s := s.setDesc e d { k with outstanding := k.outstanding.erase x }
    let s := s.modStack e fun m =>
      { m with maxLat := BitVec.ofNat 16 (max m.maxLat.toNat (min ((s.now - x.at_) / ns) 0xFFFF))
               units := m.units + BitVec.ofNat 48 (x.size / 64) }
    let from_ := if x.dead then none else s.hbmSource w x
    let s := match from_ with | some a => s.readHbm a x.size | none => s
    if x.dead then (s.discard x).endAbort e d
    else if (match from_ with | some a => s.badIn a x.size | none => false) then (s.discard x).descError e d 4 w
    else
      let s := (s.moveBytes w x.idx x.handle).emptied x
      let s := s.modDesc e d fun k => { k with finished := k.finished ++ [(x.idx, x.handle, true)] }
      let s := s.emitInOrder e d (k.finished.length + 1)
      if (s.desc e d).sent = dTotal w && dComp w = 0xFFF then s.descDone e d else s

/-- Transfer idx of a descriptor completes; a failing re-arm of its fabric cycle is judged after it (R227). -/
def effectTransferComplete (e d idx : Nat) (s : State) : State := (s.transferOver e d idx).settleLate e d
/-- TRANSFER_COMPLETE (R213, R214, R217, R219, R221 to R223, R225, R227, R228). -/
def execTransferComplete (t e desc idx : Nat) (s : State) : Out :=
  act (e < 16 && desc < 8192) t s (effectTransferComplete e desc idx)

/-- A draining descriptor whose transfers have all completed sends its completion token once it holds a credit
from every consumer queue of COMP_STREAM, and then reaches DONE (R460); a stream that an abort has emptied takes no
token before its next model step (R171; log entry 57). -/
def State.completionToken (s : State) (e d : Nat) : State :=
  let k := s.desc e d
  let o := dComp k.work
  if k.st = .draining && !k.aborted && k.sent = dTotal k.work && o ≠ 0xFFF then
    if (s.stream o).hq = 7 || s.listFaulted e k then s
    else if (s.stream o).hasCredit then
      let q := (s.stream o).seqOf (.engine e)
      let s := s.markAll [o] .ready
      let s := s.modStream o fun m => (m.spend).setSeq (.engine e) (q + 1)
      (s.sendOn (.engine e) o (mkTok tyCompletion o 0xFFFF q {}) s.now).descDone e d
    else s.markAll [o] .credit
  else s

/-- A descriptor's completion token; a failing re-arm of its fabric cycle is judged after it (R227). -/
def effectDescCompToken (e d : Nat) (s : State) : State := (s.completionToken e d).settleLate e d
/-- DESC_COMP_TOKEN (R460). -/
def execDescCompToken (t e desc : Nat) (s : State) : Out :=
  act (e < 16 && desc < 8192) t s (effectDescCompToken e desc)

/-! ### XFER -/

/-- XFER arms descriptor DESC of its engine and completes (R181, R208, R225). -/
def effectXfer (u : UnitId) (img : Nat) (s : State) : State :=
  s.onOp u img opXfer fun s o =>
    match u with
    | .engine e =>
      let d := field o 8 13
      let s := if (s.desc e d).xferTaken s.now then s.modProg u img fun p => { p with armed := p.armed ++ [d] } else s
      (s.xferArm e d img).finish u img s.now
    | _ => s
/-- XFER (R208, R223 to R228). -/
def execXfer (t : Nat) (u : UnitId) (img : Nat) (s : State) : Out := act (unitOk u) t s (effectXfer u img)

end Sys2Proof.Machine
end

