-- ==== Sys2Proof/Machine/Steps.lean ====
section
/-! DEFINITION. Tokens, credits, handles, drain and aborts (R143, R152, R160, R163 to R166, R171) and the start
of a model step (R178). -/

namespace Sys2Proof.Machine

open Sys2Proof.Config

/-! ### TOKEN_INVALID, CREDIT_RETURN, HANDLE_FREE -/

/-- A token of reserved TYPE is discarded and reported with its stream and receiver; nothing else changes (R143). -/
def effectTokenInvalid (u : UnitId) (tok : Dword) (s : State) : State :=
  if 5 ≤ tokType tok then
    s.raise 0x8006 (layBytes 8 [(0, toLe 2 (tokStream tok)), (4, toLe 4 (s.unitOf u))])
  else s
/-- TOKEN_INVALID (R143). -/
def execTokenInvalid (t : Nat) (u : UnitId) (tok : Dword) (s : State) : Out :=
  act (unitOk u) t s (effectTokenInvalid u tok)

/-- Consumer u's credit token reaches the producer of a stream: up to 64 credits, all it owes; the producer never holds
more than C (R142, R152, R153). -/
def Stream.creditReturn (now : Nat) (u : UnitId) (m : Stream) : Stream :=
  match m.edge u with
  | none => m
  | some c =>
    if c.owed = 0 then m
    else
      let n := min c.owed 64
      { m with
        lastCredited := c.owedSeq
        consumers := m.consumers.map fun c =>
          if c.unit = u then
            { c with credits := min (c.credits + n) c.c, owed := c.owed - n
                     creditAt := if c.credits = 0 then now else c.creditAt }
          else c }
/-- The credits that unit u owes on stream i go back. -/
def effectCreditReturn (i : Nat) (u : UnitId) (s : State) : State := s.modStream i (Stream.creditReturn s.now u)
/-- CREDIT_RETURN (R142, R148, R152). -/
def execCreditReturn (t stream : Nat) (u : UnitId) (s : State) : Out :=
  act (stream < 4096 && unitOk u) t s (effectCreditReturn stream u)

/-- Released handles whose 2 fabric cycles are over are offered again, in the order released (R160). -/
def Pool.offer (now : Nat) (p : Pool) : Pool :=
  { p with
    freeList := p.freeList ++ (p.back.filter fun b => b.2 ≤ now).map (·.1)
    offeredAt := if p.freeList.isEmpty && p.back.any (fun b => b.2 ≤ now) then now else p.offeredAt
    back := p.back.filter fun b => now < b.2 }
/-- The handles of a pool whose time has come are free. -/
def effectHandleFree (i : Nat) (s : State) : State := s.modPool i (Pool.offer s.now)
/-- HANDLE_FREE (R154, R160). -/
def execHandleFree (t pool : Nat) (s : State) : Out := act (pool < 4096) t s (effectHandleFree pool)

/-! ### FENCE_ORDER (R165) -/

/-- The operation that unit u stands at has taken its handle already: a packet under way, or an output's words
still on their way into its channel; a fence behind that handle is for the operation after it. -/
def State.hasFired (s : State) (u : UnitId) (img : Nat) : Bool :=
  (s.prog u img).held.isSome ||
    match u with
    | .feeder c f => (match (s.feeder c f).packet with | some p => p.handle.isSome | none => false)
    | _ => false

/-- The fence that unit u's next step finds where it needs a handle: the stream it stands on, and the step's
outputs. For a stream engine, the handle sources of its issuing descriptors count. -/
def State.fenceFound (s : State) (u : UnitId) (img : Nat) : Option (Nat × List Nat) :=
  let o := (s.prog u img).op
  if s.mayRun u img && opListed u o && !s.hasFired u img then
    match (opInputs o).find? fun i => s.fenceAt i u with
    | some i => some (i, opSends o)
    | none =>
      match u with
      | .engine e =>
        ((s.turnOrder e).filter fun d =>
          (s.desc e d).issues && awSpace (dSrc (s.desc e d).work) = 2
            && (s.stream (awStream (dSrc (s.desc e d).work))).img = some img
            && s.fenceAt (awStream (dSrc (s.desc e d).work)) u).head?.map
          fun d => (awStream (dSrc (s.desc e d).work), [])
      | _ => none
  else none

/-- A step that finds a fence does not fire: at first FENCE_ORDER is raised and the abort becomes due; each output
with a credit gets one error token, the others wait for theirs (R165). -/
def effectFenceOrder (u : UnitId) (img : Nat) (s : State) : State :=
  match s.fenceFound u img with
  | none => s
  | some (i, outs) =>
    let sent := (s.prog u img).orderSent
    let s := if sent.isNone then (s.raise 0x8003 (toLe 2 i)).markAbort img 3 i else s
    let done := sent.getD []
    let now := outs.filter fun o => !done.contains o && s.creditOn img o
    let s := s.each now fun s o => s.sendError u [o] { err := some ecFenceOrder } ((s.stream o).seqOf u)
    let s := s.markAll outs (.fence i)
    s.modProg u img fun p => { p with orderSent := some (done ++ now) }
/-- FENCE_ORDER (R165). -/
def execFenceOrder (t : Nat) (u : UnitId) (img : Nat) (s : State) : Out :=
  act (unitOk u) t s (effectFenceOrder u img)

/-! ### GROUP_DRAINED (R163) -/

/-- Every queue of the group is empty and every producer of the group holds its full C on edges into it. -/
def State.edgesQuiet (s : State) (img : Nat) (grp : List UnitId) : Bool :=
  (s.streamsOf img).all fun i =>
    let m := s.stream i
    m.consumers.all fun c =>
      !grp.contains c.unit || (c.queue.isEmpty && (!(m.producers.any grp.contains) || c.credits = c.c))

/-- The handles that the group's steps took are back, apart from those of streams that leave the group (R163). -/
def State.handlesBack (s : State) (img : Nat) (grp : List UnitId) : Bool :=
  (s.poolsOf img).all fun p =>
    (s.pool p).counts.all fun h =>
      let m := s.stream h.stream
      !(m.producers.any grp.contains) || m.consumers.any fun c => !grp.contains c.unit

/-- Group g of the image is drained (R163). -/
def State.groupIsDrained (s : State) (img g : Nat) : Bool :=
  let grp := s.groupOf img g
  (grp.all fun u => (s.prog u img).drained = some g) && s.edgesQuiet img grp && s.handlesBack img grp

/-- Unit u's cluster is about to pass a fence: where it is drained, a permit that awaits a fence goes (R82, R439). -/
def State.passFence (s : State) (u : UnitId) : State :=
  match unitCluster u with
  | some c =>
    if (s.cluster c).permitGoing && !s.undrained c then
      s.modCluster c fun k => { k with permit := false, permitGoing := false, fencePassed := true }
    else s
  | none => s

/-- The units of a drained group go on past their FENCE (R163, R164, R183). -/
def effectGroupDrained (img g : Nat) (s : State) : State :=
  if (s.image img).running && s.groupIsDrained img g then
    let s := s.each (s.groupOf img g) State.passFence
    s.each (s.groupOf img g) fun s u =>
      s.modProg u img fun p =>
        if p.drained = some g then { p with drained := none, pos := p.pos + 1 } else p
  else s
/-- GROUP_DRAINED (R163, R164). -/
def execGroupDrained (t img group : Nat) (s : State) : Out :=
  act (img < 256 && group < 4096) t s (effectGroupDrained img group)

/-! ### Aborts (R171) -/

/-- An edge after an abort: its queue is empty, its credits are all back. -/
def Consumer.clear (c : Consumer) : Consumer := { c with credits := c.c, queue := [], owed := 0, owedSince := 0 }

/-- A stream after an abort: its sinks have taken a STEP_ABORTED error token with the SEQ of its next tile, its queues
are empty and STATE reads aborted (R171). -/
def Stream.abort (now i : Nat) (m : Stream) : Stream :=
  { (m.endWait now).endGuard now with
    consumers := m.consumers.map Consumer.clear, tiles := [], hq := 7, rx := []
    sink := mkTok tyError i 0xFFFF (m.seqOf (m.producers.headD .field)) { err := some ecAborted } }

/-- A pool after an abort: every handle is back (R171). -/
def Pool.abort (p : Pool) : Pool :=
  { p with freeList := p.freeList ++ p.back.map (·.1) ++ p.counts.map (·.handle), back := [], counts := [], pairs := [] }

/-- A list after an abort (R171, R182, R192). -/
def Prog.abort (p : Prog) : Prog := { p.start with phase := .idle }

/-- A descriptor of an aborted step: it issues nothing more, its transfers in flight complete and are discarded, and it
returns to IDLE, its shadow empty; their handles are back with the step's others; ERROR stays (R171, R229). -/
def Desc.abort (k : Desc) : Desc :=
  let xs := k.outstanding.map fun x => { x with dead := true, fills := none, empties := none }
  match k.st with
  | .armed | .active | .draining =>
    { k with st := if xs.isEmpty then .idle else k.st, aborted := !xs.isEmpty, shadow := none, shadowImg := none
             outstanding := xs, finished := [], byImg := none }
  | _ => { k with outstanding := xs }

/-- The core at a position after its step's abort: tiles, grants and forwarding of the image end. -/
def Core.abort (img pos : Nat) (k : Core) : Core :=
  { k with
    tile := match k.tile with | some r => if r.img = img && r.pos = pos then none else some r | none => none
    run := match k.run with | some r => if r.img = img && r.pos = pos then none else some r | none => none
    grant := none
    forward := []
    slots := k.slots.map fun x => (x.1, { x.2 with filling := false }) }

/-- Symbols in which a packet waited with handle and credits, counted up to now (R104). -/
def Cluster.countWait (now : Nat) (c : Cluster) : Cluster :=
  let rs := (List.range 4).filterMap fun f =>
    match (c.feeder f).packet with
    | some p => if p.phase = .waiting then p.readySince else none
    | none => none
  match rs.min? with
  | some r =>
    let a := max r c.waitCounted
    { c with switchWait := satAdd c.switchWait (now / symbol - a / symbol), waitCounted := now }
  | none => c

/-- A unit's steps in flight end with its step (R171); the symbols that a waiting packet has waited stay counted (R104). -/
def State.abortUnit (s : State) (img : Nat) (u : UnitId) : State :=
  let s := s.modProg u img Prog.abort
  match u with
  | .feeder c f => (s.modCluster c (Cluster.countWait s.now)).modFeeder c f fun k => { k with packet := none }
  | .core c p => s.modCore c ((s.cluster c).phys p) (Core.abort img p)
  | _ => s

/-- Firmware aborts the running model step of an image (R171, R229): units stop, queues empty, handles return,
descriptors of the step return to IDLE, STEP_ABORTED is reported last (R387). Carried feeder state stays. -/
def State.abortStep (s : State) (img cause stream : Nat) : State :=
  if (s.image img).running then
    let starts := (s.image img).starts
    let s := s.each (s.unitsOf img) fun s u => s.abortUnit img u
    let s := s.each (s.streamsOf img) fun s i => s.modStream i (Stream.abort s.now i)
    let s := s.each (s.remotesOf img) fun s i => s.modStream i fun m => { m with rx := [] }
    let s := s.each (s.poolsOf img) fun s p => s.modPool p Pool.abort
    let s := s.each ((s.descs.filter fun d => s.descImg d.2.work = some img).map (·.1)) fun s k =>
      s.modDesc (k / 8192) (k % 8192) Desc.abort
    let s := s.each (s.clustersOf img) fun s c => s.modCluster c fun k => { k with idleSince := s.now }
    let s := s.modImage img fun r => { r with running := false, abort := none }
    s.raise 0x8001 (layBytes 8 [(0, toLe 1 img), (1, toLe 1 cause), (2, toLe 2 stream), (4, toLe 4 starts.toNat)])
  else s

/-- Firmware carries out the abort that is due (R171). -/
def effectStepAborted (img : Nat) (s : State) : State :=
  match (s.image img).abort with
  | some (cause, stream) => s.abortStep img cause stream
  | none => s
/-- STEP_ABORTED (R171, R182, R192, R229). -/
def execStepAborted (t img : Nat) (s : State) : Out := act (img < 256) t s (effectStepAborted img)

/-! ### MODEL_STEP_START -/

/-- Starts that arrive in one cycle: one starts the step, the rest are dropped (R178). -/
def State.startSteps (s : State) (img : Nat) : Nat → State
  | 0 => s
  | n + 1 => (s.startStep img).startSteps img n
/-- The starts of one cycle. -/
def effectModelStepStart (img starts : Nat) (s : State) : State := s.startSteps img starts
/-- MODEL_STEP_START (R178). -/
def execModelStepStart (t img starts : Nat) (s : State) : Out := act (img < 256) t s (effectModelStepStart img starts)

end Sys2Proof.Machine
end

