-- ==== Sys2Proof/Machine/Light.lean ====
section
/-! DEFINITION. The light path: FEED, TILE, credits over light, the switch, packets, windows, row scalers,
verdicts (R28, R50 to R59, R72, R83, R86 to R109, R126 to R138, R188, R192 to R194). -/

namespace Sys2Proof.Machine

open Sys2Proof.Config

/-! ### Packets of a cluster -/

/-- Window length of a packet in tu: a demoted 0.5 ns request runs at 1 ns (R83, R105). -/
def packetWindow (h : Dword) : Nat := if hdrDemoted h then windowTu 1 else windowTu (hdrWindow h)

/-- The header FEED needs (R95, R105, R188). -/
def feedHeader (p : Prog) (permit : Bool) (o : Dword) : Dword :=
  let w := field o 26 3
  mkHdr (p.routes.getD (field o 20 6) 0) w (field o 29 3) (flag o 32) (w = 0 && !permit) (signedOf 8 (field o 33 8))
    (field o 41 16 + 1)

/-- A header that a feeder never emits for a FEED (R96). -/
def hdrInvalid (h : Dword) : Bool := hdrMask h = 0 || hdrWindow h = 7 || 5 ≤ hdrWidth h

/-- The physical cores that a header's positions name (R94). -/
def Cluster.named (c : Cluster) (h : Dword) : List Nat := (bitsOf (hdrMask h)).map c.phys

/-- The packet holds its cores: from its grant to its end or verdict (R103, R137). -/
def Packet.holds (p : Packet) : Bool := p.phase ≠ .waiting

/-- Cores that feeders other than f light or hold: by a packet, or by a probe packet that still runs (R93, R103). -/
def Cluster.heldByOthers (c : Cluster) (now f : Nat) : List Nat :=
  (List.range 4).flatMap fun g =>
    if g = f then []
    else (match (c.feeder g).packet with | some p => if p.holds then p.phys else [] | none => [])
      ++ match (c.feeder g).probe with | some (k, e) => if now < e then [k] else [] | none => []

/-- The physical cores a packet lights: its named cores, and the listener of a valid entry where the tier stays the same
and no other feeder lights that core; only a core under calibration listens (R93, R107, R109, R251). -/
def Cluster.lights (c : Cluster) (now f : Nat) (h : Dword) : List Nat :=
  let ps := c.named h
  match (c.feeder f).listener with
  | some k =>
    if (c.core k).st = .calibrating && fanTier ps.length = fanTier (ps.length + 1) && !ps.contains k
        && !(c.heldByOthers now f).contains k then ps ++ [k] else ps
  | none => ps

/-- Every core that feeder f's packet names has granted it its credit (R97, R98). -/
def Cluster.allGrant (c : Cluster) (f : Nat) : Bool :=
  match (c.feeder f).packet with
  | some p => (c.named p.hdr).all fun k => (c.core k).grant = some f
  | none => false

/-- The tile of SEQ q that another core of the stream has begun: its handle (R155). -/
def Stream.begunTile (m : Stream) (q : Half) : Option Nat := (m.tiles.find? fun x => x.1 = q).map (·.2)

/-- Begun tiles that some writer has still to reach. -/
def Stream.pruneTiles (m : Stream) : Stream :=
  { m with tiles := m.tiles.filter fun x => m.producers.any fun u => m.seqOf u = x.1 }

/-- The output tiles, stream and SEQ, that the cores of feeder f's packet would begin (R155). -/
def State.newTiles (s : State) (cl f : Nat) : List (Nat × Half) :=
  let c := s.cluster cl
  match (c.feeder f).packet with
  | some p =>
    ((c.named p.hdr).filterMap fun k =>
      (c.core k).tile.map fun r => (r.out, (s.stream r.out).seqOf (.core cl r.pos))).eraseDups.filter fun x =>
        ((s.stream x.1).begunTile x.2).isNone
  | none => []

/-- What stream o lacks for new tiles: a credit on every edge for each of its own, a handle for each on its pool (R145). -/
def State.tileLack (s : State) (ts : List (Nat × Half)) (o : Nat) : Ready :=
  let m := s.stream o
  if m.consumers.any fun c => c.credits < (ts.filter fun x => x.1 = o).length then .credit
  else if (s.pool m.pool.toNat).freeList.length < (ts.filter fun x => (s.stream x.1).pool = m.pool).length then .handle
  else .ready

/-- No new tile lacks a credit or a handle. -/
def State.tilesReady (s : State) (ts : List (Nat × Half)) : Bool := ts.all fun x => s.tileLack ts x.1 = .ready

/-- The edges of stream o that lack credits for new tiles (R169). -/
def State.tileOwing (s : State) (ts : List (Nat × Half)) (o : Nat) : List (Nat × UnitId × Nat) :=
  let n := (ts.filter fun x => x.1 = o).length
  ((s.stream o).consumers.filter fun c => c.credits < n).map fun c => (o, c.unit, n)

/-- Each output stream of new tiles marked with what it lacks; one that lacks nothing waits for the packet (R167). -/
def State.markTiles (s : State) (ts : List (Nat × Half)) : State :=
  s.each ts fun t x =>
    t.modStream x.1 (Stream.mark t.now (match s.tileLack ts x.1 with | .ready => .input | r => r) (s.tileOwing ts x.1) (s.poolsFor [x.1]))

/-- The token at the head for feeder f's waiting packet. -/
def State.packetTok (s : State) (cl f : Nat) : Option Dword :=
  match (s.feeder cl f).packet with
  | some p => if p.phase = .waiting then s.dataAt p.stream (.feeder cl f) else none
  | none => none

/-- Every core of feeder f's packet has granted its credit and finds a credit and a handle for its output (R97, R145). -/
def State.coresReady (s : State) (cl f : Nat) : Bool :=
  (s.cluster cl).allGrant f && s.tilesReady (s.newTiles cl f)

/-- Feeder f's waiting packet may start once the switch grants it: its data token and its cores are ready (R97). -/
def State.packetReady (s : State) (cl f : Nat) : Bool :=
  (s.packetTok cl f).any (fun k => tokType k ≠ tyError) && s.coresReady cl f

/-- When feeder f's packet became ready, in symbols. -/
def Cluster.readySymbol (c : Cluster) (f : Nat) : Nat :=
  match (c.feeder f).packet with | some p => p.readySince.getD 0 / symbol | none => 0

/-! ### Routes and listener entries (R100, R109) -/

/-- The switch no longer keeps a feeder's route; a packet that holds its cores leaves none either (R100). -/
def Feeder.clearRoute (x : Feeder) : Feeder :=
  { x with route := none, packet := x.packet.map fun p => if p.holds then { p with unrouted := true } else p }

/-- Firmware writes a feeder's listener entry; a changed entry clears the feeder's route (R100, R109). -/
def Feeder.listen (k : Option Nat) (x : Feeder) : Feeder :=
  if x.listener = k then x else { x.clearRoute with listener := k }

/-- A change of every feeder of a cluster. -/
def Cluster.eachFeeder (g : Feeder → Feeder) (c : Cluster) : Cluster :=
  (List.range 4).foldl (fun c f => c.setFeeder f (g (c.feeder f))) c

/-- Routes through cores ks that the switch keeps are cleared, and so is what a packet on them would leave (R100). -/
def Cluster.dropRoutes (ks : List Nat) (c : Cluster) : Cluster :=
  c.eachFeeder fun x =>
    let held := match x.packet with | some p => p.holds && p.phys.any ks.contains | none => false
    if held || (match x.route with | some r => r.any ks.contains | none => false) then x.clearRoute else x

/-- Firmware writes the listener entries of a cluster's feeders: the core under calibration, or none (R107 to R109, R256). -/
def Cluster.listen (k : Option Nat) (c : Cluster) : Cluster := c.eachFeeder (Feeder.listen k)

/-- An entry that names core k becomes not valid: the core takes a position, or is warm no longer (R109). -/
def Cluster.unlisten (k : Nat) (c : Cluster) : Cluster :=
  c.eachFeeder fun x => if x.listener = some k then x.listen none else x

/-- The core that a feeder's entry names for a packet with positions: the one under calibration in a slot; an entry left
by a probe packet goes back to it, or is not valid (R107, R109). -/
def Cluster.slotListener (c : Cluster) : Option Nat :=
  c.slot.bind fun x => if x.step = .calibrate then some x.core else none

/-- Feeder f's entry as firmware sets it for its next packet: one that names no core under calibration goes (R107, R109). -/
def Cluster.entryFor (f : Nat) (c : Cluster) : Cluster :=
  let x := c.feeder f
  match x.listener with
  | some k => if (c.core k).st = .calibrating then c else c.setFeeder f (x.listen c.slotListener)
  | none => c

/-- Feeder f's packet p lacks something: the credit-wait timer of FEED's STREAM_IN runs, with the limit in force when
the wait began (R167, R168); a packet that was ready is so no longer. -/
def State.starve (s : State) (cl f : Nat) (p : Packet) : State :=
  let s := s.modStream p.stream (Stream.startGuard s.now)
  if p.readySince.isSome then
    (s.modCluster cl (Cluster.countWait s.now)).modFeeder cl f fun k => { k with packet := some { p with readySince := none } }
  else s

/-- A waiting packet whose token is present: what its cores' outputs lack is marked, the timer of STREAM_IN runs while
anything lacks, and the moment at which handle and credits are all found present is noted: from it the packet's wait
counts (R103, R167; DESIGN CHOICE, log entry 68). -/
def State.noteReady (s : State) (cl f : Nat) : State :=
  match (s.feeder cl f).packet, s.packetTok cl f with
  | some p, some k =>
    let s := if (s.cluster cl).allGrant f then s.markTiles (s.newTiles cl f) else s
    if s.coresReady cl f then
      let s := s.modStream p.stream (Stream.endGuard s.now)
      if p.readySince.isSome || tokType k = tyError then s
      else s.modFeeder cl f fun k => { k with packet := some { p with readySince := some s.now } }
    else s.starve cl f p
  | _, _ => s

/-! ### FEED (R96, R157, R188) -/

/-- Core k's prepared TILE fires: it shares the handle and the credit of a tile that another core has begun, or takes
them (R146, R155). -/
def State.fireTile (s : State) (cl k : Nat) : State :=
  match (s.core cl k).tile with
  | none => s
  | some r =>
    let u := UnitId.core cl r.pos
    let m := s.stream r.out
    let q := m.seqOf u
    let h := (m.begunTile q).getD ((s.nextHandle r.out).getD 0xFFFF)
    let s := if (m.begunTile q).isSome then s
      else ((s.markAll [r.out] .ready).takeHandle r.out).modStream r.out fun m =>
        { m.spend with tiles := m.tiles ++ [(q, h)] }
    let s := s.modStream r.out fun m => (m.setSeq u (q + 1)).pruneTiles
    s.modCore cl k fun c => { c with tile := some { r with handle := h, seq := q } }

/-- A TILE that ends without light: once its output has a credit and a handle its completion or error token goes out
with that handle, and the list goes on; until then it waits for them (R96, R145, R157). -/
def State.tileNoLight (s : State) (cl k : Nat) : State :=
  match (s.core cl k).tile with
  | some r =>
    match r.noLight with
    | some (code, seq) =>
      let u := UnitId.core cl r.pos
      let m := s.stream r.out
      let q := m.seqOf u
      let lack := if (m.begunTile q).isSome then .ready else s.tileLack [(r.out, q)] r.out
      if lack ≠ .ready then s.modStream r.out (Stream.mark s.now lack (s.tileOwing [(r.out, q)] r.out) (s.poolsFor [r.out]))
      else
        let s := s.fireTile cl k
        let x := (s.core cl k).tile.getD r
        let f := { joinFlags [r.tokFlags] with last := tokLast r.tokFlags }.withCode (some code)
        let s := s.sendOn u r.out (mkTok (if seq.isSome then tyError else tyCompletion) r.out x.handle (seq.getD q) f) s.now
          (tile := q)
        (s.modCore cl k fun c => { c with tile := none }).finish u r.img s.now
    | none => s
  | none => s

/-- A FEED without light: the head token is taken, its handle released, and every named core whose current TILE
names this feeder completes it with the code; an error token's SEQ goes on with it (R96, R157). -/
def State.feedNoLight (s : State) (cl f img : Nat) (h tok : Dword) (stream code : Nat) (asError : Bool) : State :=
  let u := UnitId.feeder cl f
  let s := s.modCluster cl (Cluster.countWait s.now)
  let s := ((s.takeHead u stream).releaseTok stream tok s.now).modStream stream (Stream.endGuard s.now)
  let s := s.each ((s.cluster cl).named h) fun s k =>
    match (s.core cl k).tile with
    | some r =>
      if r.feeder = f && r.img = img && r.noLight.isNone then
        let flags := { joinFlags [r.tokFlags, tok] with last := tokLast r.tokFlags }
        let r := { r with noLight := some (code, if asError then some (tokSeq tok) else none), tokFlags := mkTok 0 0 0 0 flags }
        (s.modCore cl k fun c => { c with tile := some r, grant := none }).tileNoLight cl k
      else s
    | none => s
  (s.modFeeder cl f fun k => { k with packet := none }).finish u img s.now

/-- FEED: its packet is built and waits for handle and credits; an invalid header needs no core credit and ends it
without light; an error token at the head ends it without light once every core could have taken the packet. -/
def effectFeed (u : UnitId) (img : Nat) (s : State) : State :=
  s.onOp u img opFeed fun s o =>
    match u with
    | .feeder cl f =>
      let i := field o 8 12
      let h := feedHeader (s.prog u img) (s.cluster cl).permit o
      let held := match (s.feeder cl f).packet with | some p => p.holds | none => false
      if held then s
      else if hdrInvalid h then
        match s.dataAt i u with
        | some tok =>
          if tokType tok = tyError then s.feedNoLight cl f img h tok i (tokCode tok) true
          else s.feedNoLight cl f img h tok i ecInvalid false
        | none => s
      else
        let s := if (s.feeder cl f).packet.isSome then s
          else s.modFeeder cl f fun k => { k with packet := some { hdr := h, img := img, stream := i } }
        let s := s.noteReady cl f
        match s.packetTok cl f with
        | some tok =>
          if tokType tok = tyError && s.coresReady cl f then s.feedNoLight cl f img h tok i (tokCode tok) true else s
        | none => s
    | _ => s
/-- FEED (R83, R86, R95, R96, R105, R145, R157, R188). -/
def execFeed (t : Nat) (u : UnitId) (img : Nat) (s : State) : Out := act (unitOk u) t s (effectFeed u img)

/-! ### TILE and the core's credit (R98, R145, R155, R193) -/

/-- The image in the active holds came from slot k. -/
def Core.activeFrom (c : Core) (k : Nat) : Bool :=
  match c.active with | some h => h.slot = k | none => false

/-- TILE: the core prepares for a packet of FEEDER and takes nothing while it waits; a TILE that ended without light
goes on once its output has a credit and a handle (R96, R147, R181, R193, R194). -/
def effectTile (u : UnitId) (img : Nat) (s : State) : State :=
  s.onOp u img opTile fun s o =>
    match u with
    | .core cl pos =>
      let k := (s.cluster cl).phys pos
      let c := s.core cl k
      let p := s.prog u img
      let out := field o 23 12
      match c.tile with
      | some _ => s.tileNoLight cl k
      | none =>
        let r : TileRun :=
          { img := img, pos := pos, slot := field o 8 5, win := BitVec.ofNat 3 (field o 13 3)
            width := BitVec.ofNat 3 (field o 16 3), range := BitVec.ofNat 2 (field o 19 2), feeder := field o 21 2
            out := out, handle := 0xFFFF, count := field o 35 16 + 1, slice := field o 51 5
            rowMask := p.rowMask, raw := p.raw, tokFlags := mkTok 0 0 0 0 { last := p.lastFor out } }
        let s := if (s.stream out).wait.isNone && c.run.isNone then s.modStream out fun m => { m with hq := 2 } else s
        s.modCore cl k fun c => { c with tile := some r }
    | _ => s
/-- TILE (R96, R145, R147, R193, R194). -/
def execTile (t : Nat) (u : UnitId) (img : Nat) (s : State) : Out := act (unitOk u) t s (effectTile u img)

/-- The TILE running on core k, if any, has ended its final window (R193): its packet only awaits its end or verdict. -/
def Cluster.tileOver (c : Cluster) (k : Nat) : Bool :=
  (c.core k).run.isNone ||
    (List.range 4).any fun f =>
      match (c.feeder f).packet with
      | some p => p.phys.contains k && (match p.phase with | .ended _ => true | _ => false)
      | none => false

/-- The core at a position grants its TILE's feeder the credit: image active, earlier TILEs ended, rings settled
(R98, R193). -/
def effectCoreCreditGrant (cl pos : Nat) (s : State) : State :=
  let k := (s.cluster cl).phys pos
  let c := s.core cl k
  match c.tile with
  | some r =>
    if c.grant.isNone && (s.cluster cl).tileOver k && r.pos = pos && r.noLight.isNone && c.activeFrom r.slot
        && c.st = .inService && c.ready ≤ s.now && (s.cluster cl).restart.isNone && (s.cluster cl).works then
      (s.modCore cl k fun c => { c with grant := some r.feeder }).noteReady cl r.feeder
    else s
  | none => s
/-- CORE_CREDIT_GRANT (R98, R148, R193, R250). -/
def execCoreCreditGrant (t cl pos : Nat) (s : State) : Out :=
  act (cl < 832 && pos < 32) t s (effectCoreCreditGrant cl pos)

/-! ### The switch (R93, R100, R103, R104, R107) -/

/-- Packet of feeder f may be granted: the cluster is not retired, the packet ready, every core it lights free (R26, R103). -/
def State.grantable (s : State) (cl f : Nat) : Bool :=
  let c := s.cluster cl
  match (c.feeder f).packet with
  | some p => !c.retired && s.packetReady cl f && (c.feeder f).notBefore ≤ s.now
      && (c.lights s.now f p.hdr).all fun k => !(c.heldByOthers s.now f).contains k
  | none => false

/-- The switch grants the packet that has waited longest among those whose cores are free, by feeder index in one
symbol; the TILEs of its cores fire, and other feeders' routes through its cores are cleared (R100, R103, R146). -/
def effectSwitchGrant (cl f : Nat) (s : State) : State :=
  let s := (s.each (List.range 4) fun s g => s.noteReady cl g).modCluster cl (Cluster.entryFor f)
  let c := s.cluster cl
  if s.grantable cl f && (List.range 4).all (fun g =>
      g = f || !s.grantable cl g || c.readySymbol f < c.readySymbol g || (c.readySymbol f = c.readySymbol g && f < g)) then
    let s := s.modCluster cl (Cluster.countWait s.now)
    let h := ((s.feeder cl f).packet.map (·.hdr)).getD 0
    let ps := (s.cluster cl).lights s.now f h
    let s := s.each ((s.cluster cl).named h) fun s k => s.fireTile cl k
    let s := s.modFeeder cl f fun k =>
      { k with packet := k.packet.map fun p => { p with phase := .granted, phys := ps } }
    s.each ((List.range 4).filter (· ≠ f)) fun s g =>
      s.modFeeder cl g fun k =>
        match k.route with
        | some r => if r.any ps.contains then k.clearRoute else k
        | none => k
  else s
/-- SWITCH_GRANT (R93, R100, R103, R104, R137). -/
def execSwitchGrant (t cl f : Nat) (s : State) : Out := act (cl < 832 && f < 4) t s (effectSwitchGrant cl f)

/-! ### Packet start (R97, R99 to R102, R128 to R130) -/

/-- A running tile's codes at its start: header mismatch (R99), zero point clamped (R92), demoted (R83). -/
def startCodes (h : Dword) (r : TileRun) : List Nat :=
  (if hdrWindow h ≠ r.win.toNat || hdrWidth h ≠ r.width.toNat || hdrCount h ≠ r.count then [ecMismatch] else [])
    ++ (if hdrAsym h && hdrZp h ≠ zeroPoint h then [ecZeroPoint] else [])
    ++ (if hdrDemoted h then [ecDemoted] else [])

/-- The packet whose windows run on physical core k. -/
def State.packetOn (s : State) (cl k : Nat) : Option Packet :=
  ((List.range 4).filterMap fun f => (s.feeder cl f).packet).find? fun p => p.phase = .running && p.phys.contains k

/-- The feeder whose probe packet lights physical core k, and that packet's end (R109, R256). -/
def State.probeOn (s : State) (cl k : Nat) : Option (Nat × Nat) :=
  ((List.range 4).filterMap fun f => (s.feeder cl f).probe.bind fun x =>
    if x.1 = k && s.now < x.2 then some (f, x.2) else none).head?

/-- A probe packet's length: 64 windows of 8 ns (R256). -/
abbrev probeTu : Nat := 512 * ns

/-- The calibration base of physical core k of cluster cl: of its cluster's last full calibration, or of its own. -/
def State.calBase (s : State) (cl k : Nat) : CalBase :=
  { draw := (s.core cl k).calDraw.getD (s.cluster cl).calDraw, cl := cl, k := k }

/-- g_cal and o_cal of row position k, through the engine map (R31, R37). -/
def Core.rowCal (c : Core) (b : CalBase) (k : Nat) : Word × Word :=
  let e := c.engines.getD k 0
  Tab.get (b.row e) c.rows e

/-- G of every row position for a header's width and a tile's range (R31, R56). -/
def Core.gains (c : Core) (b : CalBase) (widthCode range : Nat) : List Word :=
  (List.range 8).map fun k => rowGain widthCode range (c.rowCal b k).1

/-- Drive codes of an image through the core's tables and engine map (R31, R36). -/
def Core.driveCodes (c : Core) (b : CalBase) (w : WImage) : List Int :=
  (List.range 512).map fun i =>
    let cell := c.engines.getD (i / 64) 0 * 64 + i % 64
    driveCode (Tab.get (b.knots cell) c.knots cell) (weightCode w.code (i / 64) (i % 64))

/-- An image whose load into the shadow starts at a moment. -/
def Core.startLoad (c : Core) (b : CalBase) (slot start : Nat) (w : WImage) (refresh byList : Bool) : Core :=
  { c with shadow := some { slot := slot, image := w, drive := c.driveCodes b w, start := start
                            byList := byList, refresh := refresh } }

/-- Loading and settling take 64 ns and 8 ns (R42, R43). -/
abbrev loadTu : Nat := 72 * ns

/-- The refresh copy in the shadow swaps in at boundary e, for 1 ns; a prefetch that it discarded starts to load again in
the same nanosecond (R44 to R48). -/
def Core.refreshSwap (b : CalBase) (e : Nat) (c : Core) : Core :=
  match c.shadow with
  | some h =>
    let c := { c with active := some { h with usable := true, byList := false, refresh := false }, shadow := none
                      swapUntil := e + 1 * ns, cut := none }
    match c.prefetch with
    | some (slot, byList) => { c.startLoad b slot e (c.slotAt slot) false byList with prefetch := none }
    | none => c
  | none => c

/-- A refresh copy in the core's shadow has settled by moment e. -/
def Core.refreshDone (e : Nat) (c : Core) : Bool :=
  match c.shadow with | some h => h.refresh && h.start + loadTu ≤ e | none => false

/-- The prepared TILE of core k starts with the packet's first window: its list goes on (R97, R181), and a demoted
tile counts once in WIN_DEMOTE of its stream (R83). -/
def State.startTile (s : State) (cl f : Nat) (p : Packet) (k : Nat) : State :=
  let c := s.core cl k
  match c.tile with
  | some r =>
    if r.feeder = f then
      let flags := joinFlags [r.tokFlags, p.tok]
      let run := { r with codes := startCodes p.hdr r, gains := c.gains (s.calBase cl k) (hdrWidth p.hdr) r.range.toNat
                          tokFlags := mkTok 0 0 0 0 { flags with last := tokLast r.tokFlags } }
      let s := s.modCore cl k fun c => { c with tile := none, run := some run, grant := none }
      let s := if hdrDemoted p.hdr then s.modStream r.out fun m => { m with winDemote := satInc m.winDemote } else s
      s.finish (.core cl r.pos) r.img s.now
    else s
  | none => s

/-- The first window begins at moment e, or when the last swap of a refresh on its cores ends: tiles of the named cores
start, or in a replay start again (R44, R97, R107, R138). -/
def State.beginWindows (s : State) (cl f e : Nat) : State :=
  match (s.feeder cl f).packet with
  | some p =>
    let named := (s.cluster cl).named p.hdr
    let e := (p.phys.map fun k => (s.core cl k).swapUntil).foldl max e
    let s := if p.replay then s else s.each (p.phys.filter named.contains) fun s k => s.startTile cl f p k
    s.modFeeder cl f fun k =>
      { k with route := if p.unrouted then none else some p.phys
               packet := some { p with phase := .running, winEnd := e + packetWindow p.hdr } }
  | none => s

/-- The next symbol edge at or after a moment (R87). -/
def symbolEdge (t : Nat) : Nat := (t + 2) / 3 * 3

/-- Windows begin at moment e, or the 40 ns of a MEASURED packet start then (R128). -/
def State.lightAt (s : State) (cl f e : Nat) : State :=
  match (s.feeder cl f).packet with
  | some p =>
    if p.measured then
      s.modFeeder cl f fun k => { k with packet := some { p with phase := .measuring (e + 40 * ns) } }
    else s.beginWindows cl f e
  | none => s

/-- The tile's scale mode: CARRIED with E_prev + h where carried state of this cluster stands, else MEASURED; a
CARRIED stream that falls back, and a sum above +63, are counted (R128 to R130). -/
def Qnt.mode (q : Qnt) (cl : Nat) : Option Int × Qnt :=
  let q := { q with format := 4 }
  if q.carried then
    match q.carry with
    | some (e, c) =>
      if c = cl then
        let x := e + q.headroom.toNat
        if 63 < x then (some 63, { q with expClamp := satInc q.expClamp }) else (some x, q)
      else (none, { q with carryFallback := satInc q.carryFallback })
    | none => (none, { q with carryFallback := satInc q.carryFallback })
  else (none, q)

/-- A granted packet starts: its handle is taken; the same set of cores as the kept route needs no
reconfiguration, any other set 2 ns of it (R97, R100, R101). -/
def effectPacketStart (cl f : Nat) (s : State) : State :=
  let u := UnitId.feeder cl f
  match (s.feeder cl f).packet with
  | some p =>
    if p.phase = .granted && !(s.cluster cl).retired then
      let tok := (s.dataAt p.stream u).getD 0
      let q := (s.stream p.stream).qnt
      let m := q.mode cl
      let s := (s.takeHead u p.stream).modStream p.stream fun k => { k with qnt := m.2 }
      let same := (s.feeder cl f).route = some p.phys
      let e := symbolEdge s.now
      let p := { p with handle := some (tokHandle tok), tok := tok, measured := m.1.isNone, exp := m.1.getD 0
                        policy := q.policy, satThresh := q.satThresh, underThresh := q.underThresh
                        phase := if same then .granted else .reconfig (e + 2 * ns) }
      let s := s.modFeeder cl f fun k => { k with packet := some p }
      if same then s.lightAt cl f e else s
    else s
  | none => s
/-- PACKET_START (R30, R55, R56, R72, R86, R87, R89, R97, R100 to R102, R108, R109, R126 to R131). -/
def execPacketStart (t cl f : Nat) (s : State) : Out := act (cl < 832 && f < 4) t s (effectPacketStart cl f)

/-- The 2 ns of reconfiguration are over (R101). -/
def effectReconfigEnd (cl f : Nat) (s : State) : State :=
  match (s.feeder cl f).packet with
  | some p =>
    match p.phase with
    | .reconfig e => if e ≤ s.now then s.lightAt cl f e else s
    | _ => s
  | none => s
/-- RECONFIG_END (R101, R102, R108). -/
def execReconfigEnd (t cl f : Nat) (s : State) : Out := act (cl < 832 && f < 4) t s (effectReconfigEnd cl f)

/-- The 40 ns of measuring are over (R128, R138). -/
def effectMeasureEnd (cl f : Nat) (s : State) : State :=
  match (s.feeder cl f).packet with
  | some p =>
    match p.phase with
    | .measuring e => if e ≤ s.now then s.beginWindows cl f e else s
    | _ => s
  | none => s
/-- MEASURE_END (R89, R91, R126 to R128, R131). -/
def execMeasureEnd (t cl f : Nat) (s : State) : Out := act (cl < 832 && f < 4) t s (effectMeasureEnd cl f)

/-! ### A window (R28, R50 to R59, R87, R126 to R132) -/

/-- The code of row position k for a drawn deviation, and its weight where a figure applies: the deviation is taken where no
figure applies, or where the row's present run of 2^20 windows leaves room for it, else rounding alone moves the code (R52,
R63, R64, R67; log entry 9). A row whose gain or offset is out of range has failed and has no figure (R37). -/
def sampleRow (cal : Word × Word) (r : TileRun) (h : Dword) (codes : List Int) (block : List Byte) (k : Nat)
    (run : Nat × Nat) (d : Int) : Int × Option Nat :=
  let sum := rowProduct codes block k
  let x := rowCode sum (hdrWidth h) r.range.toNat cal
  let code (d : Int) : Int := adcCode sum (fullScale (hdrWidth h) r.range.toNat) x d
  match if calInRange cal then r.eb else none with
  | none => (code d, none)
  | some t =>
    let weight (q : Int) : Nat := errWeight (codeError q x (gainRat cal)) t
    let q := if mayDeviate run (weight (code d)) then code d else code 0
    (q, some (weight q))

/-- What the rows of a core have given in a window so far: the core's runs of deviations, results, clips, overflows,
error codes. -/
structure RowsOut where
  st : State
  noise : Tab (Nat × Nat) := []
  res : List Word := []
  clips : Nat := 0
  ovfs : Nat := 0
  codes : List Nat := []
deriving DecidableEq, Repr

/-- A window's result on row position k of a core: the deviation of the row ADC's code is a free value within the figure
that applies (R52, R53, R57 to R59, R63, R64). -/
def RowsOut.row (b : CalBase) (c : Core) (r : TileRun) (h : Dword) (v : VecOut) (a : RowsOut) (k : Nat) : RowsOut :=
  let img := (c.active.map (·.image)).getD {}
  let e := c.engines.getD k 0
  let run := Tab.get (0, 0) a.noise e
  let cal := c.rowCal b k
  let s := sampleRow cal r h v.codes img.code k run (Config.adcDeviation a.st.free)
  let q := s.1
  let clip := q = 511 || q = -511
  let bad := !r.raw && v.z ≠ 0 && !rowSumsValid img.trailer
  let y := if r.raw then (fpOfInt q, false)
    else rowScale q cal.2 (r.gains.getD k 0) (v.sent + rowExp img.trailer k) (if bad then 0 else v.z)
      (rowSum img.trailer k) (rowBias img.trailer k)
  { st := a.st.draw
    noise := Tab.put (0, 0) a.noise e (match s.2 with | some w => spendWeight run clip w | none => run)
    res := a.res ++ [y.1]
    clips := a.clips + if clip then 1 else 0
    ovfs := a.ovfs + if y.2 then 1 else 0
    codes := a.codes ++ (if bad then [ecRowSum] else []) ++ (if y.2 then [ecRowOverflow] else []) }

/-- WINDOW code at which a packet's windows run (R83). -/
def ranWindow (h : Dword) : Nat := if hdrDemoted h then 1 else hdrWindow h

/-- The rings of a core's 8 rows in service (R31, R249). -/
def Core.active8 (c : Core) : List Nat := c.engines.flatMap fun e => (List.range 64).map fun j => e * 64 + j

/-- Every ring in service met the threshold at its latest update (R248). -/
def Core.allGood (c : Core) : Bool := c.active8.all fun r => (c.ring r).good

/-- A core that is leaving has a ring below the settled threshold (R250, R266). -/
def Core.lostLock (c : Core) : Bool := c.st = .leaving && !c.allGood

/-- A tile's flags and figures for a window from moment a to moment e of packet p on its core (R64, R68 to R70, R250,
R261). -/
def State.tileWindow (s : State) (cl : Nat) (c : Core) (p : Packet) (a e : Nat) (r : TileRun) : TileRun :=
  let unsettled := r.unsettled || c.st = .unsettled || c.cause = some .thermal || c.lostLock
  let suspect := r.suspect || (c.st = .leaving && (c.cause = some .mislock || c.cause = some .engineFault))
  let flagged := unsettled || suspect || tokSuspect r.tokFlags || tokUnsettled r.tokFlags
  let k := s.cluster cl
  let eb := k.rowFigure c (s.aon.taster || k.parkedHeat) flagged (ranWindow p.hdr) p.phys.length a e
  { r with unsettled := unsettled, suspect := suspect, eb := eb
           ebIn := eb.map fun x => ebWidth x (hdrWidth p.hdr + 4) (hdrAsym p.hdr) }

/-- A window on one core: one result per set ROW_MASK bit; windows beyond the TILE's COUNT are discarded; clips
and overflows count in the stream's row-scaler record (R53, R58, R99, R192, R194). -/
def State.coreWindow (s : State) (cl : Nat) (p : Packet) (v : VecOut) (kc : Nat) : State :=
  let c := s.core cl kc
  match c.run with
  | none => s
  | some r =>
    let r := s.tileWindow cl c p (p.winEnd - packetWindow p.hdr) p.winEnd r
    let x := (bitsOf r.rowMask).foldl (RowsOut.row (s.calBase cl kc) c r p.hdr v) { st := s, noise := c.noise }
    let run := { r with res := if p.win < r.count then r.res ++ x.res else r.res, codes := r.codes ++ x.codes }
    let s := x.st.modCore cl kc fun c => { c with run := some run, noise := x.noise }
    s.modStream r.out fun m => { m with rowClip := satAdd m.rowClip x.clips, rowOvf := satAdd m.rowOvf x.ovfs }

/-- A converted vector's counts in its stream's QNT record (R126, R127, R131, R132, R140). -/
def Qnt.countVec (q : Qnt) (v : VecOut) : Qnt :=
  { q with
    satCodes := satAdd q.satCodes v.sat
    underBlocks := if v.under then satInc q.underBlocks else q.underBlocks
    zeroBlocks := if v.zero then satInc q.zeroBlocks else q.zeroBlocks
    zeroRange := q.zeroRange || v.zero
    nan := satAdd q.nan v.nans
    expClamp := if v.clamp then satInc q.expClamp else q.expClamp
    lastExp := BitVec.ofNat 8 (wrapTo 8 v.exp) }

/-- Windows of light that the core under calibration has gathered: one more where the packet lit it and no quiet window
pauses its slot (R79, R256, R257). -/
def CalSlot.lit (phys : List Nat) (x : CalSlot) : CalSlot :=
  if x.step = .calibrate && x.pausedAt.isNone && phys.contains x.core then { x with light := x.light + 1 } else x

/-- The running window of feeder f ends: its vector was converted and lit, every core's rows are sampled and
scaled, and the next window follows with no gap until the packet's last, but for the 1 ns in which settled refresh
copies swap in on its cores (R44, R87, R126 to R132). -/
def effectWindowEnd (cl f : Nat) (s : State) : State :=
  match (s.feeder cl f).packet with
  | some p =>
    if p.phase = .running && p.winEnd ≤ s.now && !(s.cluster cl).retired then
      let vs := halvesOf (s.readBuf (s.stream p.stream).pool.toNat (p.handle.getD 0) (128 * p.win) 128)
      let v := convert p.hdr (if p.measured then none else some p.exp) vs
      let s := s.modStream p.stream fun m => { m with qnt := m.qnt.countVec v }
      let s := s.each p.phys fun s k => s.coreWindow cl p v k
      let s := s.modCluster cl fun c => { c with slot := c.slot.map (CalSlot.lit p.phys) }
      let swaps := p.phys.filter fun k => (s.core cl k).refreshDone p.winEnd
      let s := s.each swaps fun s k => s.modCore cl k (Core.refreshSwap (s.calBase cl k) p.winEnd)
      let n := p.win + 1
      let done := n = hdrCount p.hdr
      let p := { p with
        win := n
        sat := p.sat + v.sat
        under := p.under + if v.under then 1 else 0
        maxMag := BitVec.ofNat 16 (max p.maxMag.toNat v.mag.toNat)
        nanIn := p.nanIn || 0 < v.nans
        phase := if done then .ended p.winEnd else .running
        winEnd := if done then p.winEnd
          else p.winEnd + (if swaps.isEmpty then 0 else 1 * ns) + packetWindow p.hdr }
      s.modFeeder cl f fun k => { k with packet := some p }
    else s
  | none => s
/-- WINDOW_END (R5, R28, R29, R50 to R54, R57 to R59, R64 to R70, R75, R85, R87, R90, R236). -/
def execWindowEnd (t cl f : Nat) (s : State) : Out := act (cl < 832 && f < 4) t s (effectWindowEnd cl f)

/-! ### The end of a packet (R54, R99, R129, R134 to R138, R194) -/

/-- A tile pass exceeds a threshold: strictly above it; 0xFFFF disables (R134). -/
def exceeds (count : Nat) (thresh : Half) : Bool := thresh ≠ 0xFFFF && thresh.toNat < count

/-- QNT_SAT and QNT_UNDER of a pass (R135, R386). -/
def State.raiseQnt (s : State) (stream : Nat) (seq : Half) (sat under : Nat) (satT underT : Half) (replayed : Bool) : State :=
  let ev (s : State) (code n : Nat) : State :=
    s.raise code (layBytes 9 [(0, toLe 2 stream), (2, toLe 2 seq.toNat), (4, toLe 4 n), (8, [if replayed then 1 else 0])])
  let s := if exceeds sat satT then ev s 0x8010 sat else s
  if exceeds under underT then ev s 0x8011 under else s

/-- The tile's streams and SEQs written since the core's last good check (R263). -/
def Core.logWrite (c : Core) (stream : Nat) (seq : Half) : Core :=
  if c.written.any fun w => w.1 = stream then
    { c with written := c.written.map fun w => if w.1 = stream then (w.1, w.2.1, seq) else w }
  else { c with written := c.written ++ [(stream, seq, seq)] }

/-- The results and the completion token of one core's tile: +0.0 for windows not run; the token is present when
the last row result is ready, 6 ns after the final window (R54, R99, R155, R156, R194). -/
def State.deliver (s : State) (cl : Nat) (p : Packet) (e k : Nat) : State :=
  match (s.core cl k).run with
  | none => s
  | some r =>
    let rows := popCount r.rowMask
    let n := r.count * rows
    let ws := r.res ++ List.replicate (n - r.res.length) 0
    let s := s.writeBuf (s.stream r.out).pool.toNat r.handle (r.slice * n * 4) (bytesOfWords ws)
    let f := joinFlags [r.tokFlags]
    let f := { f with last := tokLast r.tokFlags, suspect := f.suspect || r.suspect
                      unsettled := f.unsettled || r.unsettled, replayed := p.replay }
    let f := f.withCode (lowestCode (r.codes ++ if p.nanIn then [ecNan] else []))
    let s := s.sendOn (.core cl r.pos) r.out (mkTok tyCompletion r.out r.handle r.seq f) (max s.now (e + 6 * ns))
    let s := if r.unsettled then s.modCluster cl fun c => { c with unsettledTiles := satInc c.unsettledTiles } else s
    s.modCore cl k fun c => { c.logWrite r.out r.seq with run := none }

/-- The packet is over: its events, its carried state, every core's results, its handle released, FEED complete
(R97, R129, R130, R135, R136, R194). -/
def State.closePacket (s : State) (cl f e : Nat) (p : Packet) : State :=
  let u := UnitId.feeder cl f
  let beyond := exceeds p.sat p.satThresh || exceeds p.under p.underThresh
  let s := s.raiseQnt p.stream (tokSeq p.tok) p.sat p.under p.satThresh p.underThresh p.replay
  let s := s.modStream p.stream fun m =>
    { m with qnt := { m.qnt with
        secondExc := if beyond && p.measured then satInc m.qnt.secondExc else m.qnt.secondExc
        carry := if p.maxMag = 0 then none else some (prevExp (xMax (hdrWidth p.hdr)) (zeroPoint p.hdr) p.maxMag, cl) } }
  let s := s.each p.phys fun s k => s.deliver cl p e k
  let s := s.releaseTok p.stream p.tok e
  let s := s.modFeeder cl f fun k => { k with packet := none, notBefore := s.now }
  s.finish u p.img s.now

/-- The final window of a packet has ended: under policy EVENT it is over; under REPLAY and BOTH everything waits
for the verdict (R99, R134 to R137). -/
def effectPacketEnd (cl f : Nat) (s : State) : State :=
  match (s.feeder cl f).packet with
  | some p =>
    match p.phase with
    | .ended e => if e ≤ s.now && (p.policy = 0 || p.policy = 3) then s.closePacket cl f e p else s
    | _ => s
  | none => s
/-- PACKET_END (R40, R58, R83, R88, R92, R99, R100, R129, R130, R132, R134 to R137, R142, R149, R151, R155, R194, R236, R250). -/
def execPacketEnd (t cl f : Nat) (s : State) : Out := act (cl < 832 && f < 4) t s (effectPacketEnd cl f)

/-- A core's running tile before a replay: the first pass's results and codes are discarded, its SUSPECT and UNSETTLED
stay (R138; DESIGN CHOICE, log entry 69). No credit wait pauses or restarts (R139). -/
def TileRun.again (h : Dword) (r : TileRun) : TileRun := { r with res := [], codes := startCodes h r }

/-- A packet that is replayed: counted, reported first under BOTH, and measured again from 40 ns on (R135, R138). -/
def State.replayPacket (s : State) (cl f e : Nat) (p : Packet) : State :=
  let s := if p.policy = 2 then
      s.raiseQnt p.stream (tokSeq p.tok) p.sat p.under p.satThresh p.underThresh false
    else s
  let s := s.modStream p.stream fun m => { m with qnt := { m.qnt with replays := satInc m.qnt.replays } }
  let s := s.each p.phys fun s k => s.modCore cl k fun c => { c with run := c.run.map (TileRun.again p.hdr) }
  let p := { p with replay := true, measured := true, sat := 0, under := 0, maxMag := 0, win := 0, nanIn := false
                    phase := .measuring (symbolEdge (e + 4 * ns) + 40 * ns) }
  s.modFeeder cl f fun k => { k with packet := some p }

/-- 4 ns after a REPLAY or BOTH packet's end the feeder decides: a CARRIED first pass that exceeds a threshold is
replayed; any other packet is over (R135 to R138). -/
def effectVerdict (cl f : Nat) (s : State) : State :=
  match (s.feeder cl f).packet with
  | some p =>
    match p.phase with
    | .ended e =>
      if e + 4 * ns ≤ s.now && (p.policy = 1 || p.policy = 2) then
        if (exceeds p.sat p.satThresh || exceeds p.under p.underThresh) && !p.measured then s.replayPacket cl f e p
        else s.closePacket cl f e p
      else s
    | _ => s
  | none => s
/-- VERDICT (R134 to R138). -/
def execVerdict (t cl f : Nat) (s : State) : Out := act (cl < 832 && f < 4) t s (effectVerdict cl f)

end Sys2Proof.Machine
end

