-- ==== Sys2Proof/Machine/Cores.lean ====
section
/-! DEFINITION. Weight images of a core: WFILL and chains (R189, R230 to R233), WLOAD, load, settle, SWAP, refresh
(R33, R36, R42 to R48, R190, R191), RSCALE (R192). -/

namespace Sys2Proof.Machine

open Sys2Proof.Config

/-! ### Slots -/

/-- An image of 576 bytes as it stands in a handle: code block, then trailer (R38, R39, R189). -/
def imageOf (bs : List Byte) : WImage := { code := bs.take 512, trailer := (bs.drop 512).take 64 }

/-! ### Chains (R230 to R233) -/

/-- Delay of a hop between two clusters: mesh links, and die crossings on the quarter ring (R231). Between dies the
mesh links up to the dies' edges are a free value (log entry 65). -/
def hopTu (a b : Nat) : Nat :=
  let qa := a / 208
  let qb := b / 208
  let gap (x y : Nat) : Nat := (x - y) + (y - x)
  let mesh := if qa = qb then gap (a % 208 / 16) (b % 208 / 16) + gap (a % 208 % 16) (b % 208 % 16)
    else Config.edgeLinks a b
  let dies := popCount (BitVec.ofNat 2 qa ^^^ BitVec.ofNat 2 qb)
  4 * ns + mesh * 2 * ns + dies * 40 * ns

/-- An image forwarded along a chain: its bytes land in the next cores' slots, and the chain token, HANDLE 0xFFFF with
the flags of the token taken, is present when the first of them arrive (R156, R230, R231). -/
def State.forwardImage (s : State) (u : UnitId) (cl img o : Nat) (w : WImage) (tok : Dword) (last : Bool) : State :=
  let q := (s.stream o).seqOf u
  let f := { joinFlags [tok] with last := last }
  let s := s.each (s.stream o).consumers fun s c =>
    match s.chainEnd img o c with
    | some (cl', k', slot) =>
      let s := s.modCore cl' k' fun x => x.setSlot slot { w with filling := false }
      s.sendOn u o (mkTok tyData o 0xFFFF q f) (s.now + hopTu cl cl') fun d => d.unit = c.unit
    | none => s
  s.modStream o fun m => m.setSeq u (q + 1)

/-! ### WFILL -/

/-- The core has an image still to forward along stream o. -/
def Core.forwards (c : Core) (o : Nat) : Bool := c.forward.any fun x => x.stream = o

/-- WFILL writes its handle's image, or keeps the image that lands by chain, in its slot, complete 6 ns after its first
bytes; where the next cores have granted the credit and no earlier image waits, it passes the image on cut-through,
else from the slot later; an error token writes nothing and is forwarded (R157, R189, R230 to R233). -/
def effectWfill (u : UnitId) (img : Nat) (s : State) : State :=
  s.onOp u img opWfill fun s o =>
    match u with
    | .core cl pos =>
      let i := field o 8 12
      let slot := field o 20 5
      let fwd := flag o 25
      let out := field o 26 12
      let k := (s.cluster cl).phys pos
      if (s.core cl k).slotHeld slot then s
      else
        let credit := s.chainCredit img out && !(s.core cl k).forwards out
        match s.dataAt i u with
        | none => s
        | some tok =>
          if tokType tok = tyError then
            if fwd && !credit then s.markAll [out] .credit (s.chainOwing img out)
            else
              let s := s.takeHead u i
              let s := if fwd then
                  ((s.markAll [out] .ready).modStream out fun m => m.setSeq u (m.seqOf u + 1)).sendOn u out
                    (mkTok tyError out 0xFFFF (tokSeq tok) { joinFlags [tok] with err := some (tokCode tok) }) s.now
                else s
              (s.releaseTok i tok s.now).finish u img s.now
          else
            let from_ := if tokHandle tok = 0xFFFF then ((s.head i u).map (·.due)).getD s.now else s.now
            let e := max s.now (from_ + 6 * ns)
            let w := if tokHandle tok = 0xFFFF then { (s.core cl k).slotAt slot with filling := false }
              else imageOf (s.readBuf (s.stream i).pool.toNat (tokHandle tok) 0 576)
            let s := (s.takeHead u i).releaseTok i tok e
            let go := fwd && credit
            let last := (s.prog u img).lastFor out
            let s := s.modCore cl k fun c =>
              { c.setSlot slot { w with filling := fwd && !go } with
                forward := if fwd && !go then c.forward ++ [{ stream := out, slot := slot, tok := tok, last := last }]
                  else c.forward }
            let s := if go then s.forwardImage u cl img out w tok last else s
            s.finish u img e
    | _ => s
/-- WFILL (R145, R157, R189, R230, R231, R233). -/
def execWfill (t : Nat) (u : UnitId) (img : Nat) (s : State) : Out := act (unitOk u) t s (effectWfill u img)

/-- The image that a core with images still to forward passes on next: of those that are the oldest on their stream, the
first whose stream's edges have all granted the credit (R232). -/
def State.nextForward (s : State) (c : Core) : Option Forward :=
  c.forward.find? fun x =>
    c.forward.find? (fun y => y.stream = x.stream) = some x
      && (match (s.stream x.stream).img with | some img => s.chainCredit img x.stream | none => false)

/-- A core that kept an image for want of the chain credit forwards it from its slot once the credit is there (R232). -/
def effectChainForward (cl k : Nat) (s : State) : State :=
  let c := s.core cl k
  match s.nextForward c, (s.cluster cl).posOf k with
  | some x, some pos =>
    let w := c.slotAt x.slot
    let s := s.forwardImage (.core cl pos) cl ((s.stream x.stream).img.getD 0) x.stream w x.tok x.last
    s.modCore cl k fun c => { c.setSlot x.slot { w with filling := false } with forward := c.forward.erase x }
  | _, _ => s
/-- CHAIN_FORWARD (R231, R232). -/
def execChainForward (t cl core : Nat) (s : State) : Out := act (cl < 832 && core < 34) t s (effectChainForward cl core)

/-! ### Loads (R36, R42, R43, R190) -/

/-- A load runs into the shadow: started and not settled; a refresh occupies the shadow from its due point until its
swap (R47, R190; DESIGN CHOICE, log entry 66). -/
def Core.loading (c : Core) : Bool :=
  c.prefetch.isSome || (match c.shadow with | some h => !h.usable || h.refresh | none => false)

/-- A list may begin its WLOAD: nothing is in flight, or the swap of the SWAP before it has begun (R45, R61). -/
def State.mayLoad (s : State) (u : UnitId) (img : Nat) : Bool :=
  let p := s.prog u img
  s.mayRun u img || (p.phase = .running && p.ang.isNone && 0 < p.pos && opcode (p.opAt (p.pos - 1)) = opSwap
    && p.busyUntil ≤ s.now + 1 * ns)

/-- WLOAD starts the load of its slot and completes at once; while a load runs it waits (R42, R47, R190). A load may
begin in the nanosecond of the swap before it (R45). -/
def effectWload (u : UnitId) (img : Nat) (s : State) : State :=
  let o := (s.prog u img).op
  if s.mayLoad u img && opcode o = opWload && opListed u o then
    match u with
    | .core cl pos =>
      let k := (s.cluster cl).phys pos
      if (s.core cl k).loading then s
      else
        let slot := field o 8 5
        (s.modCore cl k fun c => c.startLoad (s.calBase cl k) slot s.now (c.slotAt slot) false true).finish u img
          (max s.now (s.prog u img).busyUntil)
    | _ => s
  else s
/-- WLOAD (R31, R33, R34, R36, R42, R45, R47, R61, R62, R190, R458). -/
def execWload (t : Nat) (u : UnitId) (img : Nat) (s : State) : Out := act (unitOk u) t s (effectWload u img)

/-- The window boundaries of a core: those of the packet running on it, those of the 8 ns windows of a probe packet, and
symbol edges where no window runs (R44, R256): the first one at or after a moment. -/
def State.boundary (s : State) (cl k t : Nat) : Nat :=
  match s.packetOn cl k, s.probeOn cl k with
  | some p, _ =>
    let w := packetWindow p.hdr
    if t ≤ p.winEnd + (hdrCount p.hdr - 1 - p.win) * w then p.winEnd + (t - p.winEnd + w - 1) / w * w else symbolEdge t
  | none, some (_, e) =>
    let a := e - probeTu
    if a ≤ t && t ≤ e then a + (t - a + 8 * ns - 1) / (8 * ns) * (8 * ns) else symbolEdge t
  | none, none => symbolEdge t

/-- The shadow of a core has settled: it is usable; where no packet runs on the core, a refresh swaps in at boundary e (R43,
R44, R46). -/
def Core.settle (b : CalBase) (now e : Nat) (lit : Bool) (c : Core) : Core :=
  match c.shadow with
  | some h =>
    if h.start + loadTu ≤ now then
      if h.refresh && !lit then c.refreshSwap b e else { c with shadow := some { h with usable := true } }
    else c
  | none => c

/-- A swap at boundary e on core k holds the probe packet that lights it for 1 ns (R44). -/
def State.holdProbe (s : State) (cl k e : Nat) : State :=
  match s.probeOn cl k with
  | some (f, x) =>
    if e < x then s.modFeeder cl f fun y => { y with probe := some (k, x + 1 * ns), notBefore := max y.notBefore (x + 1 * ns) }
    else s
  | none => s

/-- The shadow's settle ends. -/
def effectLoadSettled (cl k : Nat) (s : State) : State :=
  let e := s.boundary cl k s.now
  let lit := (s.packetOn cl k).isSome
  let swaps := !lit && (s.core cl k).refreshDone s.now
  let s := s.modCore cl k (Core.settle (s.calBase cl k) s.now e lit)
  if swaps then s.holdProbe cl k e else s
/-- LOAD_SETTLED (R43, R44, R47). -/
def execLoadSettled (t cl core : Nat) (s : State) : Out := act (cl < 832 && core < 34) t s (effectLoadSettled cl core)

/-! ### SWAP and refresh (R44 to R48, R191) -/

/-- A settled prefetch that a refresh falling due in this nanosecond has discarded, and PREFETCH_DISCARD before that. -/
def Core.rescued (now : Nat) (c : Core) : Option (Held × Word) :=
  match c.cut with
  | some (h, n, at_) => if c.prefetch.isSome && h.byList && h.usable && at_ / ns = now / ns then some (h, n) else none
  | none => none

/-- The image in the shadow of a core exchanged with the active one, which stays in no hold the model keeps (R33;
DESIGN CHOICE, log entry 67). -/
def Core.swapIn (h : Held) (c : Core) : Core :=
  { c with active := some { h with byList := false, usable := true, refresh := false }, shadow := none, cut := none }

/-- SWAP waits for earlier TILEs and, where a WLOAD of the list has loaded an image, for its settle; it swaps at
the next symbol edge for 1 ns; with no such image it completes without swapping (R44, R191). A refresh that fell due
in the same nanosecond gives way to the swap of a settled prefetch (R48). -/
def effectSwap (u : UnitId) (img : Nat) (s : State) : State :=
  s.onOp u img opSwap fun s _ =>
    match u with
    | .core cl pos =>
      let k := (s.cluster cl).phys pos
      let c := s.core cl k
      if c.tile.isSome || c.run.isSome then s
      else
        match c.rescued s.now with
        | some (h, n) =>
          (s.modCore cl k fun c => { c.swapIn h with prefetch := none, prefetchDiscard := n }).finish u img
            (symbolEdge s.now + 1 * ns)
        | none =>
          if c.prefetch.isSome then s
          else
            match c.shadow with
            | some h =>
              if h.byList then
                if h.usable then (s.modCore cl k (Core.swapIn h)).finish u img (symbolEdge s.now + 1 * ns) else s
              else s.finish u img s.now
            | none => s.finish u img s.now
    | _ => s
/-- SWAP (R33, R44, R45, R48, R61, R191). -/
def execSwap (t : Nat) (u : UnitId) (img : Nat) (s : State) : Out := act (unitOk u) t s (effectSwap u img)

/-- The list of the core's position stands at a SWAP that can swap in a settled prefetch (R48, R191). -/
def State.swapAsked (s : State) (cl k : Nat) : Bool :=
  let c := s.core cl k
  c.tile.isNone && c.run.isNone
    && (match c.shadow with | some h => h.byList && h.usable | none => false)
    && (match (s.cluster cl).posOf k with
        | some pos => s.progs.any fun p => p.2.unit = .core cl pos && p.2.free s.now && opcode p.2.op = opSwap
        | none => false)

/-- The active image reaches 7,800 ns of age: its reload into the shadow starts so that the settle ends on a window
boundary; a prefetched image is discarded, counted, and loaded again afterwards; the swap of a settled prefetch that
is asked for now is made instead (R46 to R48). -/
def effectRefreshDue (cl k : Nat) (s : State) : State :=
  let c := s.core cl k
  match c.active with
  | some a =>
    let busy := match c.shadow with | some h => h.refresh | none => false
    if a.start + 7800 * ns ≤ s.now && !busy && !s.swapAsked cl k then
      let start := s.boundary cl k (s.now + loadTu) - loadTu
      s.modCore cl k fun c =>
        let c := match c.shadow with
          | some h => { c with prefetch := some (h.slot, h.byList), prefetchDiscard := satInc c.prefetchDiscard
                               cut := some (h, c.prefetchDiscard, s.now) }
          | none => { c with cut := none }
        c.startLoad (s.calBase cl k) a.slot start a.image true false
    else s
  | none => s
/-- REFRESH_DUE (R36, R42, R44, R46 to R48, R62). -/
def execRefreshDue (t cl core : Nat) (s : State) : Out := act (cl < 832 && core < 34) t s (effectRefreshDue cl core)

/-! ### RSCALE -/

/-- RSCALE sets ROW_MASK and RAW for every later TILE of the step (R192). -/
def effectRscale (u : UnitId) (img : Nat) (s : State) : State :=
  s.onOp u img opRscale fun s o =>
    (s.modProg u img fun p => { p with rowMask := BitVec.ofNat 8 (field o 8 8), raw := flag o 16 }).finish u img s.now
/-- RSCALE (R59, R192). -/
def execRscale (t : Nat) (u : UnitId) (img : Nat) (s : State) : Out := act (unitOk u) t s (effectRscale u img)

end Sys2Proof.Machine
end

