-- ==== Sys2Proof/Machine/Outputs.lean ====
section
/-! DEFINITION. Field outputs: ranges, codes, states, queues, ticks, safe values, supervision (R330 to R349), and
FIELD action 0x2 (R209, R333). -/

namespace Sys2Proof.Machine

open Sys2Proof.Config

/-! ### Ranges and codes (R331, R337, R342) -/

/-- Range ends in mV, or in µA from range 0x4 on (R331). -/
def rangeEnds (r : Nat) : Int × Int :=
  match r with
  | 0 => (-10000, 10000)
  | 1 => (0, 10000)
  | 2 => (-5000, 5000)
  | 3 => (0, 5000)
  | 4 => (0, 20000)
  | 5 => (4000, 20000)
  | _ => (0, 24000)

/-- A bipolar range. -/
def rangeBipolar (r : Nat) : Bool := r = 0 || r = 2
/-- A current range. -/
def rangeCurrent (r : Nat) : Bool := 4 ≤ r

/-- The safe code in a range: the safe value clamped to the range ends, at the nearest code (R342). -/
def SafeRec.code (n : SafeRec) (r : Nat) : BitVec 24 :=
  let e := rangeEnds r
  let v : Int := if rangeCurrent r then (n.ua.toNat : Int) else n.mv.toInt
  BitVec.ofNat 24 (clampInt (roundEven ((clampInt v e.1 e.2 - e.1) * 2 ^ 24) (e.2 - e.1).toNat) 0 0xFFFFFF).toNat

/-- The code of a loop output u in Q4.28 (R337). -/
def loopToCode (r : Nat) (u : Int) : BitVec 24 :=
  let c := if rangeBipolar r then roundEven (u + 2 ^ 28) 32 else roundEven u 16
  BitVec.ofNat 24 (clampInt c 0 0xFFFFFF).toNat

/-- A code in a loop's scale, Q4.28 (R278, R337). -/
def codeToLoop (r : Nat) (c : BitVec 24) : Int :=
  if rangeBipolar r then (c.toNat : Int) * 32 - 2 ^ 28 else (c.toNat : Int) * 16

/-- A precision channel (R330). -/
def precision (n : Nat) : Bool := 12 ≤ n && n < 16

/-- The bits of a code that channel n's converter uses: a standard channel ignores bits [7:0] (R330). -/
def usedCode (n : Nat) (c : BitVec 24) : BitVec 24 := if precision n then c else c &&& 0xFFFF00

/-- The value that a code gives at channel n's pin in a range, in units of 2^-24 mV, or of 2^-24 µA (R330, R331). -/
def pinValue (n r : Nat) (c : BitVec 24) : Int :=
  (rangeEnds r).1 * 2 ^ 24 + (usedCode n c).toNat * ((rangeEnds r).2 - (rangeEnds r).1)

/-! ### The pin -/

/-- A code goes to the pin at a moment; the codes of the last 40 µs before it, and one older, stay on record (R340). -/
def Fout.present (e : Nat) (c : BitVec 24) (f : Fout) : Fout :=
  let newer := f.past.filter fun p => e < p.1 + 40 * us
  let older := (f.past.filter fun p => p.1 + 40 * us ≤ e).take 1
  { f with out := c, past := (e, c) :: newer ++ older }

/-- The pin drives: not in HIZ or RANGE, nor in the 60 µs after a RANGE write in FAULT (R343, R345). -/
def Fout.drives (f : Fout) : Bool :=
  match f.st with
  | .hiz | .range => false
  | .fault => f.rangeEnd.isNone
  | _ => true

/-- The safe value at the pin from a moment on, with no limit of its slew (R338); a pin that was in high impedance starts to drive (R340, R342). -/
def Fout.driveSafe (e : Nat) (f : Fout) : Fout :=
  let f := if f.drives then f else { f with driveFrom := e }
  f.present e (f.nvm.code f.range.toNat)

/-- Entry to SAFE; it is left by the next loop code, not by an earlier one (R343, R345). -/
def Fout.enterSafe (e : Nat) (f : Fout) : Fout :=
  { f.driveSafe e with st := .safe, rangeEnd := none, mismatches := 0, safeAt := some (e / cycle), loopCode := [] }

/-- Entry to FAULT: a running 60 µs of high impedance goes on (R343, R345). A channel in HIZ stays there. -/
def Fout.enterFault (e : Nat) (f : Fout) : Fout :=
  match f.st with
  | .hiz | .fault => f
  | .range => { f with st := .fault, safeAt := some (e / cycle) }
  | _ => { f.driveSafe e with st := .fault, rangeEnd := none, safeAt := some (e / cycle) }

/-- A code in RUNNING, or the first one in SAFE with ENABLE 1; elsewhere nothing moves (R336, R343). -/
def Fout.runCode (e : Nat) (c : BitVec 24) (f : Fout) : Fout :=
  match f.st with
  | .running => f.present e c
  | .safe => if f.enable then { f.present e c with st := .running } else f
  | _ => f

/-- The code at the pin at a moment: a loop's code arrives at the end of its update (R286, R337). -/
def Fout.atPin (now : Nat) (f : Fout) : BitVec 24 := ((f.past.find? fun p => p.1 ≤ now).map (·.2)).getD f.out

/-! ### The order within a cycle (R336, R347) -/

/-- A tick acts: the head code moves to the pin; on an empty queue a RUNNING channel repeats its last code and
counts an underflow; in the cycle of an entry to FAULT or SAFE no code moves (R336, R343, R347). -/
def Fout.tick (e : Nat) (f : Fout) : Fout :=
  let f := { f with
    tickWait := false
    ticked := some { at_ := e, queue := f.queue, out := f.out, past := f.past, st := f.st, underflow := f.underflow
                     underflows := f.underflows } }
  if f.safeAt = some (e / cycle) then f
  else
    match f.queue, f.st with
    | c :: q, .running => { f.present e c with queue := q }
    | c :: q, .safe => if f.enable then { f.present e c with queue := q, st := .running } else f
    | [], .running => { f with underflow := true, fresh := freshen e (2 ^ 11) f.fresh, underflows := f.underflows + 1 }
    | _, _ => f

/-- An event that goes before a tick of its cycle: where the tick has acted it acts again, after the event (R336, R347). -/
def Fout.beforeTick (now : Nat) (g : Fout → Fout) (f : Fout) : Fout :=
  match f.ticked with
  | some u =>
    if u.at_ / cycle = now / cycle then
      (g { f with queue := u.queue, out := u.out, past := u.past, st := u.st, underflow := u.underflow
                  underflows := u.underflows }).tick now
    else g f
  | none => g f

/-- Codes enter a channel's queue (R333). -/
def Fout.push (now : Nat) (cs : List (BitVec 24)) (f : Fout) : Fout :=
  { f with queue := f.queue ++ cs
           entered := (now / cycle + 1, (if f.entered.1 = now / cycle + 1 then f.entered.2 else 0) + cs.length) }

/-- The queue is flushed, but for the codes of its own cycle, which enter after it (R347). -/
def Fout.flush (now : Nat) (f : Fout) : Fout :=
  { f with queue := if f.entered.1 = now / cycle + 1 then f.queue.drop (f.queue.length - f.entered.2) else [] }

/-! ### Resets (R346) -/

/-- A reset of D1: queues flushed, ENABLE cleared; RUNNING enters SAFE at once, RANGE ends its 60 µs in SAFE, FAULT and HIZ
stay (R343, R346). -/
def Fout.d1Reset (e : Nat) (f : Fout) : Fout :=
  let f := { f with queue := [], enable := false, loopCode := [], tickWait := false }
  if f.st = .running then f.enterSafe e else f

/-- A reset of D2 or D3: a stream-fed channel that is not in HIZ goes into FAULT, its queue flushed. -/
def Fout.d23Reset (e : Nat) (f : Fout) : Fout :=
  if f.source = 1 && f.st ≠ .hiz then (f.flush e).enterFault e else f

/-! ### Ownership -/

/-- A host write to an FOUT register takes effect for the owner of field I/O; any other sender's is counted (R349). -/
def State.foutWrite (s : State) (fn : Nat) (f : State → State) : State :=
  if !s.hostUp then s
  else if s.fw.ioOwner = some fn then f s
  else { s with foutDenied := satInc s.foutDenied }

/-- Identities that can send a register write: PCIe functions and the test port (R356). -/
def writer (fn : Nat) : Bool := fn ≤ 63 || fn = 65

/-! ### FOUT_DATA (R332, R333) -/

/-- A host code for a channel: dropped and counted where SOURCE is not the host or the queue is full. -/
def Fout.hostCode (now : Nat) (v : Word) (f : Fout) : Fout :=
  if f.source = 0 && f.queue.length < 32 then f.push now [BitVec.ofNat 24 v.toNat]
  else { f with queueDrop := f.queueDrop + 1 }
/-- A write of FOUT_DATA. -/
def effectFoutDataWrite (fn n : Nat) (v : Word) (s : State) : State :=
  s.foutWrite fn fun s => s.modFout n (Fout.beforeTick s.now (Fout.hostCode s.now v))
/-- FOUT_DATA_WRITE (R10, R331 to R333, R349). -/
def execFoutDataWrite (t fn n : Nat) (v : Word) (s : State) : Out :=
  act (writer fn && n < 16) t s (effectFoutDataWrite fn n v)

/-! ### Ticks (R312, R334 to R336) -/

/-- The least time between ticks taken (R335). -/
def tickGap (n : Nat) : Nat := if precision n then 20 * us else 10 * us

/-- A tick of a channel's sample clock: in RANGE it is ignored; too soon after the last one it is counted; otherwise
the channel takes it (R335, R345). -/
def Fout.offerTick (n now : Nat) (f : Fout) : Fout :=
  if f.st = .range then f
  else if f.lastTick.all fun t => t + tickGap n ≤ now then
    { f with tickWait := true, lastTick := some now }
  else { f with clkSkip := f.clkSkip + 1 }

/-- A request for one read-back of channel n at converter 3: it runs at the next conversion boundary, ahead of the
sequence, which it delays by 1 µs; requests pend in channel order (R312). -/
def Conv.askRead (n now : Nat) (k : Conv) : Conv :=
  let pend := { k with reads := (k.reads.filter fun r => r < n) ++ [n] ++ k.reads.filter fun r => n < r }
  if k.readNow.isSome then pend
  else
    match k.run with
    | none => { k with readNow := some (n, now) }
    | some t0 =>
      let e := t0 + k.slot * us
      if now ≤ e then { k with readNow := some (n, e), run := some (t0 + us) } else pend
/-- The sample period of an enabled precision channel asks for a read-back (R312). -/
def State.askReadBack (s : State) (n : Nat) : State :=
  if precision n && (s.fout n).enable then s.modConv 3 (Conv.askRead n s.now) else s

/-- The channel timer is the sample clock of a channel in service (R334). -/
def Fout.timed (f : Fout) : Bool := f.enable && f.clkSel = 0 && f.source ≠ 2

/-- The channel timer ticks (R334). -/
def effectChannelTimer (n : Nat) (s : State) : State :=
  let f := s.fout n
  let p := f.period.toNat * us
  if f.timed && f.timerFrom + p ≤ s.now then
    s.modFout n fun f => { f.offerTick n s.now with timerFrom := f.timerFrom + p }
  else s
/-- CHANNEL_TIMER (R334, R335). -/
def execChannelTimer (t n : Nat) (s : State) : Out := act (n < 16) t s (effectChannelTimer n)

/-- Room in channel n's queue is what a waiting FIELD 0x2 lacked (R172, R333). -/
def State.roomFrees (s : State) (n : Nat) : State :=
  s.each (s.listsOf .field) fun s x =>
    match x.2.held with
    | some (i, _) => if field x.2.op 22 8 = n then s.modStream i (Stream.meetGuard s.now) else s
    | none => s

/-- A tick that the channel took acts. -/
def effectOutputTick (n : Nat) (s : State) : State :=
  let f := s.fout n
  if f.tickWait && f.source ≠ 2 then ((s.modFout n (Fout.tick s.now)).askReadBack n).roomFrees n else s
/-- OUTPUT_TICK (R312, R333, R336, R343). -/
def execOutputTick (t n : Nat) (s : State) : Out := act (n < 16) t s (effectOutputTick n)

/-! ### Loop-driven channels (R337) -/

/-- A loop output handed to its channel, on a channel whose SOURCE is its loop: a standard channel applies it at
moment e, a precision channel keeps the latest; RANGE, FAULT and HIZ ignore it (R283, R337, R345). -/
def State.loopOutput (s : State) (n : Nat) (u : Int) (e : Nat) : State :=
  s.modFout n fun f =>
    if f.source = 2 then
      let c := loopToCode f.range.toNat u
      if precision n then (if f.st = .running || f.st = .safe then { f with loopCode := (e, c) :: f.loopCode.take 1 } else f)
      else f.runCode e c
    else f

/-- Every 20 µs a precision channel takes its loop's latest code (R337). -/
def effectPrecisionCodeTake (n : Nat) (s : State) : State :=
  let f := s.fout n
  if precision n && f.source = 2 && f.lastTake + 20 * us ≤ s.now then
    let s := s.modFout n fun f => { f with lastTake := s.now }
    match (f.loopCode.find? fun x => x.1 ≤ s.now).map (·.2) with
    | some c => (s.modFout n fun f => f.runCode s.now c).askReadBack n
    | none => s.askReadBack n
  else s
/-- PRECISION_CODE_TAKE (R312, R337). -/
def execPrecisionCodeTake (t n : Nat) (s : State) : Out := act (n < 16) t s (effectPrecisionCodeTake n)

/-- Whether a loop drives channel n: it runs, is not held and not frozen (R287, R294). -/
def State.loopDrives (s : State) (n : Nat) : Bool :=
  (List.range 16).any fun k =>
    let l := s.fieldLoop k
    field l.src 6 5 = n && flag l.ctrl 0 && !flag l.ctrl 1 && !l.osc

/-- LOOP_IDLE of every channel: SOURCE is a loop and no loop of the channel runs (R337). -/
def State.refreshIdle (s : State) : State :=
  s.each (List.range 16) fun s n => s.modFout n fun f => { f with loopIdle := f.source = 2 && !s.loopDrives n }

/-! ### FOUT_CFG (R343, R345, R347, R348) -/

/-- The state in which a RANGE write finds a channel: an entry to SAFE from FAULT or HIZ in the write's cycle comes after the
write (R347). -/
def Fout.stateForRange (now : Nat) (f : Fout) : OutState :=
  match f.freed with
  | some (k, st) => if k = now / cycle && f.st = .safe then st else f.st
  | none => f.st

/-- A RANGE write: in SAFE or RUNNING a new range, and in RANGE any, holds the pin in high impedance for 60 µs; in
FAULT the channel stays in FAULT; in HIZ it is ignored. A FAULT released in its cycle leaves the channel in SAFE, driving the
safe value of the new range (R345, R347). -/
def Fout.writeRange (now : Nat) (r : BitVec 3) (f : Fout) : Fout :=
  if r = 7 || r = f.range then f
  else if f.st = .safe && f.stateForRange now = .fault then ({ f with range := r }).driveSafe now
  else
    match f.stateForRange now with
    | .hiz => f
    | .fault => { f with range := r, rangeEnd := some (now + 60 * us) }
    | _ => { f with range := r, rangeEnd := some (now + 60 * us), st := .range, loopCode := [] }

/-- ENABLE written: 0 flushes the queue, RUNNING enters SAFE at once; 1 after 0 starts the channel timer, and no loop code of
before it moves the channel on (R334, R343, R348). -/
def Fout.writeEnable (now : Nat) (v : Bool) (f : Fout) : Fout :=
  if v then
    if f.enable then f
    else { f with enable := true, timerFrom := now, loopCode := f.loopCode.filter fun x => now < x.1 }
  else
    let f := { f.flush now with enable := false, tickWait := false }
    if f.st = .running then f.enterSafe now else f

/-- SOURCE and CLK_SEL written: a channel that comes to be loop-driven, or ceases to, keeps neither queue nor loop code; a timer
that becomes the sample clock runs from then (R334, R337; DESIGN CHOICE, log entry 48). -/
def Fout.writeSource (now : Nat) (src clk : BitVec 2) (f : Fout) : Fout :=
  let g := { f with source := src, clkSel := clk }
  let g := if (f.source = 2) = (src = 2) then g else { g with queue := [], loopCode := [], tickWait := false }
  if g.timed && !f.timed then { g with timerFrom := now } else g

/-- A write of FOUT_CFG: RANGE, then entry to FAULT or SAFE (R347, R349); a field outside its range stays. -/
def Fout.writeCfg (now : Nat) (v : Word) (f : Fout) : Fout :=
  let f := f.writeSource now (if field v 3 2 = 3 then f.source else BitVec.ofNat 2 (field v 3 2)) (BitVec.ofNat 2 (field v 5 2))
  let f := f.writeRange now (BitVec.ofNat 3 (field v 0 3))
  let f := f.writeEnable now (flag v 7)
  let f := { f with forceSafe := flag v 8 }
  if f.forceSafe then f.enterFault now else f

/-- The effect of an owner's write of FOUT_CFG. -/
def State.foutCfg (s : State) (fn n : Nat) (v : Word) : State :=
  s.foutWrite fn fun s => ((s.modFout n (Fout.beforeTick s.now (Fout.writeCfg s.now v))).refreshIdle).roomFrees n

/-- A write that carries another RANGE than the channel's. -/
def effectFoutRangeWrite (fn n : Nat) (v : Word) (s : State) : State :=
  if field v 0 3 ≠ (s.fout n).range.toNat then s.foutCfg fn n v else s
/-- FOUT_RANGE_WRITE (R331, R343, R345, R347, R349). -/
def execFoutRangeWrite (t fn n : Nat) (v : Word) (s : State) : Out :=
  act (writer fn && n < 16) t s (effectFoutRangeWrite fn n v)

/-- The 60 µs are over: the head code in the new range and RUNNING; with nothing queued, without ENABLE or on a
loop-driven channel the safe value and SAFE; in FAULT the safe value (R345, R348). A tick before it has moved nothing, and
acts no second time. -/
def Fout.endRange (f : Fout) : Fout :=
  match f.rangeEnd with
  | none => f
  | some e =>
    let f := { f with ticked := none }
    match f.st, f.queue with
    | .fault, _ => { f.driveSafe e with rangeEnd := none }
    | .range, c :: q =>
      if f.enable && f.source ≠ 2 then
        { f.present e c with st := .running, queue := q, rangeEnd := none, driveFrom := e, mismatches := 0 }
      else f.enterSafe e
    | .range, [] => f.enterSafe e
    | _, _ => { f with rangeEnd := none }
/-- A channel's 60 µs end. -/
def effectRangeEnd (n : Nat) (s : State) : State :=
  match (s.fout n).rangeEnd with
  | some e => if e ≤ s.now then (s.modFout n Fout.endRange).roomFrees n else s
  | none => s
/-- RANGE_END (R343, R345, R348). -/
def execRangeEnd (t n : Nat) (s : State) : Out := act (n < 16) t s (effectRangeEnd n)

/-- A write of FOUT_CFG taken for its ENABLE. -/
def effectFoutEnableWrite (fn n : Nat) (v : Word) (s : State) : State := s.foutCfg fn n v
/-- FOUT_ENABLE_WRITE (R334, R343, R347 to R349). -/
def execFoutEnableWrite (t fn n : Nat) (v : Word) (s : State) : Out :=
  act (writer fn && n < 16) t s (effectFoutEnableWrite fn n v)

/-- A write of FOUT_CFG with FORCE_SAFE 1. -/
def effectForceSafeWrite (fn n : Nat) (v : Word) (s : State) : State := if flag v 8 then s.foutCfg fn n v else s
/-- FORCE_SAFE_WRITE (R343, R347, R349). -/
def execForceSafeWrite (t fn n : Nat) (v : Word) (s : State) : Out :=
  act (writer fn && n < 16) t s (effectForceSafeWrite fn n v)

/-- A write of FOUT_STAT: each W1C bit written 1 clears, unless its event falls in the same cycle or its condition still
holds; READBACK_FAULT written 1 with FORCE_SAFE 0 releases FAULT into SAFE (R11, R339, R343, R349; log entry 72). -/
def Fout.writeStat (now : Nat) (v : Word) (f : Fout) : Fout :=
  let held := w1c now f.fresh v 14 true
  let f := { f with
    underflow := w1c now f.fresh v 11 f.underflow
    shortSeen := w1c now f.fresh v 12 f.shortSeen || f.short
    openSeen := w1c now f.fresh v 13 f.openSeen || f.open_
    rbFault := w1c now f.fresh v 14 f.rbFault }
  if !held && !f.forceSafe && f.st = .fault then
    { f.enterSafe now with mismatches := 0, freed := some (now / cycle, .fault) }
  else f
/-- A write of 1 to READBACK_FAULT. -/
def effectReadbackFaultRelease (fn n : Nat) (v : Word) (s : State) : State :=
  if flag v 14 then s.foutWrite fn fun s => s.modFout n (Fout.beforeTick s.now (Fout.writeStat s.now v)) else s
/-- READBACK_FAULT_RELEASE (R343, R349). -/
def execReadbackFaultRelease (t fn n : Nat) (v : Word) (s : State) : Out :=
  act (writer fn && n < 16) t s (effectReadbackFaultRelease fn n v)

/-! ### Supervision (R339, R340) -/

/-- A standard channel reaches its 25 mA limit (voltage range) or its compliance (current range) and keeps driving. -/
def effectShort (n : Nat) (s : State) : State :=
  let f := s.fout n
  if precision n || !f.drives then s
  else if rangeCurrent f.range.toNat then
    s.modFout n fun f => { f with open_ := true, openSeen := true, fresh := freshen s.now (2 ^ 13) f.fresh }
  else s.modFout n fun f => { f with short := true, shortSeen := true, fresh := freshen s.now (2 ^ 12) f.fresh }
/-- SHORT (R339). -/
def execShort (t n : Nat) (s : State) : Out := act (n < 16) t s (effectShort n)

/-- The condition no longer holds: SHORT and OPEN read 0, their sticky bits stay. -/
def effectShortEnd (n : Nat) (s : State) : State := s.modFout n fun f => { f with short := false, open_ := false }
/-- SHORT_END (R339). -/
def execShortEnd (t n : Nat) (s : State) : Out := act (n < 16) t s (effectShortEnd n)

/-- The code on record at least 40 µs before a moment (R340). -/
def Fout.codeBefore (t : Nat) (f : Fout) : Option (BitVec 24) :=
  (f.past.find? fun p => p.1 + 40 * us ≤ t).map (·.2)

/-- A read-back result against the code of 40 µs before its sample: after COUNT mismatches in a row FAULT (R340). -/
def Fout.compare (now sample code : Nat) (f : Fout) : Fout :=
  if !f.drives || sample < f.driveFrom + 40 * us then f
  else
    match f.codeBefore sample with
    | none => f
    | some c =>
      let x := c.toNat / 4096
      if f.tol.toNat < (x - code) + (code - x) then
        let m := f.mismatches + 1
        if f.count.toNat ≤ m then { (f.enterFault now) with rbFault := true, fresh := freshen now (2 ^ 14) f.fresh, mismatches := 0 }
        else { f with mismatches := m }
      else { f with mismatches := 0 }

/-! ### Safe records (R341, R344) -/

/-- A channel in HIZ with its record: a valid one puts it in SAFE in its power-up range, an invalid one is flagged. -/
def Fout.loadRecord (now : Nat) (f : Fout) : Fout :=
  match f.st with
  | .hiz =>
    if f.nvm.valid then
      let f := { ({ f with range := f.nvm.range, safeInvalid := false }).enterSafe now with freed := some (now / cycle, .hiz) }
      if f.forceSafe then f.enterFault now else f
    else { f with safeInvalid := true }
  | _ => f
/-- A channel's record is loaded after D0 power-good. -/
def effectSafeRecordLoad (n : Nat) (s : State) : State :=
  if s.aon.power then s.modFout n (Fout.loadRecord s.now) else s
/-- SAFE_RECORD_LOAD (R341 to R344). -/
def execSafeRecordLoad (t n : Nat) (s : State) : Out := act (n < 16) t s (effectSafeRecordLoad n)

/-! ### FIELD action 0x2 (R209, R332, R333) -/

/-- The codes of a handle: its count, cut to the words its buffer of b bytes holds, and whether it was cut. -/
def handleCodes (b : Nat) (bs : List Byte) : List Word × Bool :=
  let n := leAt bs 0 4
  let room := (b - 4) / 4
  ((wordsOf (bs.drop 4)).take (min n room), room < n)

/-- Codes enter a stream-fed channel's queue as far as there is room; on a channel with another SOURCE each is
dropped and counted (R332, R333). -/
def State.queueCodes (s : State) (n : Nat) (ws : List Word) : State × List Word :=
  let f := s.fout n
  if f.source = 1 then
    let k := 32 - f.queue.length
    let cs := (ws.take k).map fun w => BitVec.ofNat 24 w.toNat
    (s.modFout n (Fout.beforeTick s.now (Fout.push s.now cs)), ws.drop k)
  else (s.modFout n fun f => { f with queueDrop := f.queueDrop + ws.length }, [])

/-- The words left after a move: none ends the operation and releases its handle, others wait, guarded by the
timer of STREAM_IN, which starts from zero at each wait for room (R167, R333). -/
def State.fieldMoved (s : State) (img i h n : Nat) (ws : List Word) : State :=
  let r := s.queueCodes n ws
  if r.2.isEmpty then
    let s := r.1.modStream i (Stream.endGuard s.now)
    let s := s.releaseTok i (mkTok tyData i h 0 {}) s.now
    (s.modProg .field img fun p => { p with left := [], held := none }).finish .field img s.now
  else
    let moved := r.2.length < ws.length
    let s := r.1.modStream i fun m => (if moved then m.endGuard s.now else m).startGuard s.now
    s.modProg .field img fun p => { p with left := r.2, held := some (i, h) }

/-- FIELD 0x2 takes its handle and moves its words into the channel's queue as room frees. -/
def effectFieldOutput (u : UnitId) (img : Nat) (s : State) : State :=
  s.onOp u img opField fun s o =>
    if field o 20 2 ≠ 2 || u ≠ .field then s
    else
      let i := field o 8 12
      let n := field o 22 8
      match (s.prog u img).held with
      | some (j, h) => s.fieldMoved img j h n (s.prog u img).left
      | none =>
        match s.dataAt i u with
        | none => s
        | some tok =>
          let s := s.takeHead u i
          if tokType tok = tyError then (s.releaseTok i tok s.now).finish u img s.now
          else
            let p := (s.stream i).pool.toNat
            let b := (s.pool p).bufSize
            let c := handleCodes b (s.readBuf p (tokHandle tok) 0 b)
            let s := if c.2 then s.modFout n fun f => { f with queueDrop := f.queueDrop + 1 } else s
            s.fieldMoved img i (tokHandle tok) n c.1
/-- FIELD_OUTPUT (R145, R167, R209, R332, R333). -/
def execFieldOutput (t : Nat) (u : UnitId) (img : Nat) (s : State) : Out := act (unitOk u) t s (effectFieldOutput u img)

end Sys2Proof.Machine
end

