-- ==== Sys2Proof/Machine/Stalls.lean ====
section
/-! DEFINITION. The credit-wait timer: STALL (R167 to R170, R172). -/

namespace Sys2Proof.Machine

open Sys2Proof.Config

/-! ### STALL (R167 to R170) -/

/-- The 1 µs tick on which a wait's timer expires: the (N + 1)th edge after it began (R168). -/
def CreditWait.expiry (w : CreditWait) : Nat := w.since / us + w.limit + 1

/-- An arrival at moment a falls in the wait's expiry tick or before it: at the latest in the fabric cycle of the edge
on which the timer expires (R172). -/
def CreditWait.inTick (w : CreditWait) (a : Nat) : Bool := a / cycle ≤ w.expiry * us / cycle

/-- The edges whose credits a wait lacked at the end of its expiry tick, and the pools that then had no handle for it: what
still lacks, or came back later (R169, R172). -/
def State.stillLacks (s : State) (w : CreditWait) : List (Nat × UnitId × Nat) × List Nat :=
  (w.owing.filter fun x =>
    let k := s.stream x.1
    match k.edge x.2.1 with
    | some c => if k.chain then (s.chainEnd (k.img.getD 0) x.1 c).isNone else c.credits < x.2.2 || !w.inTick c.creditAt
    | none => false,
   w.pools.filter fun p => (s.pool p).freeList.isEmpty || !w.inTick (s.pool p).offeredAt)

/-- What the wait of stream i's producer lacks came back by the end of its expiry tick (R172). -/
def State.waitMet (s : State) (w : CreditWait) : Bool :=
  (s.stillLacks w).1.isEmpty && (s.stillLacks w).2.isEmpty

/-- An arrival that a wait of R167 may await takes effect. -/
def State.arrive (s : State) : Instr → State
  | .creditReturn t i u => effectCreditReturn i u (s.tick t)
  | .handleFree t p => effectHandleFree p (s.tick t)
  | .coreCreditGrant t c p => effectCoreCreditGrant c p (s.tick t)
  | .outputTick t n => effectOutputTick n (s.tick t)
  | .rangeEnd t n => effectRangeEnd n (s.tick t)
  | _ => s

/-- The module with the arrivals that the present fabric cycle still brings: they win over an expiry in it (R172, log
entry 28). -/
def State.withArrivals (s : State) : State := s.inCycle.foldl State.arrive s

/-- The wait of stream i whose timer has expired with nothing back in time and is not yet reported: its expiry tick,
the wait, and whether it is a guarded one (R168, R169, R172). -/
def State.stallDue (s : State) (i : Nat) : Option (Nat × CreditWait × Bool) :=
  let m := s.stream i
  let own := match m.wait with
    | some w => if !m.stalled && w.expiry ≤ s.now / us && !s.waitMet w then some (w.expiry, w, false) else none
    | none => none
  own.orElse fun _ =>
    match m.guard with
    | some w => if !m.guardStalled && w.expiry ≤ s.now / us && !w.met.any w.inTick then some (w.expiry, w, true) else none
    | none => none

/-- STALL bytes 24 to 31: up to four streams whose consumers owe the missing credits, or the empty pool; 0xFFFF where
nothing is named, as in a guarded wait (R169). -/
def stallNames (lack : List (Nat × UnitId × Nat) × List Nat) (guarded : Bool) : List Byte :=
  let xs := if guarded then [] else if lack.1.isEmpty then lack.2.take 1 else ((lack.1.map (·.1)).eraseDups).take 4
  xs.flatMap (toLe 2) ++ List.replicate (8 - 2 * xs.length) 0xFF

/-- The timer of stream i expires: STALL is raised once for the wait, after those of lower streams of the same
tick, and the abort of its step becomes due (R168 to R172). -/
def effectStall (i : Nat) (s : State) : State :=
  let v := s.withArrivals
  match v.stallDue i with
  | some (k, w, guarded) =>
    if s.streams.any fun p => p.1 < i && (v.stallDue p.1).map (·.1) = some k then s
    else
      let lack := v.stillLacks w
      let handle := !guarded && lack.1.isEmpty
      let s := s.raise 0x8002 (layBytes 12 [(0, toLe 2 i), (2, [if handle then 1 else 0]), (4, stallNames lack guarded)])
      let s := s.modStream i fun m =>
        { m with stalled := m.stalled || !guarded, guardStalled := m.guardStalled || guarded, stalls := satInc m.stalls }
      match (s.stream i).img with
      | some img => s.markAbort img 1 i
      | none => s
  | none => s
/-- STALL (R167 to R170). -/
def execStall (t stream : Nat) (s : State) : Out := act (stream < 4096) t s (effectStall stream)

end Sys2Proof.Machine
end

