-- ==== Sys2Proof/Machine/Triggers.lean ====
section
/-! DEFINITION. What triggers field converters (R310, R311) and field loops (R284, R285). -/

namespace Sys2Proof.Machine

open Sys2Proof.Config

/-! ### Converters -/

/-- The timebase owns converter k (R313). -/
def State.convOwned (s : State) (k : Nat) : Bool := k = 0 && field s.ang.ctrl 0 2 = 1

/-- Slots of a converter's sequence (R309). -/
def Conv.size (k : Conv) : Nat := field k.ctrl 1 4 + 1

/-- A trigger at an enabled converter: it starts a run 20 ns later, or once a read-back in conversion ends; during a
run it is held one deep, a further one is dropped and counted; triggers of one cycle count as one. One in the cycle in which
a run ends starts the next run at that end and leaves none held (R309, R311, R312). -/
def Conv.trigger (now : Nat) (k : Conv) : Conv :=
  if !flag k.ctrl 0 || k.lastTrig = some (now / cycle) then k
  else
    let k := { k with lastTrig := some (now / cycle) }
    match k.run with
    | none =>
      let soon := match k.readNow with | some r => max (now + 20 * ns) (r.2 + us) | none => now + 20 * ns
      let t0 := if k.ended.any fun e => e / cycle = now / cycle then k.ended.getD now else soon
      { k with run := some t0, slot := 0, runs := k.runs + 1 }
    | some t0 =>
      if k.ended = some t0 && t0 / cycle = now / cycle then k
      else if k.held && !((t0 + k.size * us) / cycle ≤ now / cycle) then { k with overrun := k.overrun + 1 }
      else { k with held := true }

/-- Every converter that a test accepts is triggered; one the timebase owns drops the trigger uncounted (R310, R313). -/
def State.triggerConvs (s : State) (keep : Nat → Conv → Bool) : State :=
  s.each (List.range 4) fun s k =>
    if keep k (s.conv k) && !s.convOwned k then s.modConv k (Conv.trigger s.now) else s

/-! ### Loops -/

/-- A loop that may update: enabled, not held, not frozen (R287, R294). -/
def FieldLoop.live (l : FieldLoop) : Bool := flag l.ctrl 0 && !flag l.ctrl 1 && !l.osc

/-- The loops with OUTER_EN whose INNER is n (R285). -/
def State.outersOf (s : State) (n : Nat) : List Nat :=
  (List.range 16).filter fun k => flag (s.fieldLoop k).ctrl 9 && field (s.fieldLoop k).ctrl 10 4 = n

/-- The loop that loop n drives. -/
def State.innerOf (s : State) (n : Nat) : Option Nat :=
  let c := (s.fieldLoop n).ctrl
  if flag c 9 then some (field c 10 4) else none

/-- Loops from n on along INNER, at most d. -/
def State.chainDown (s : State) : Nat → Nat → Nat
  | 0, _ => 0
  | d + 1, n => 1 + match s.innerOf n with | some k => s.chainDown d k | none => 0

/-- Loops on the longest chain of outer loops that ends at n, at most d. -/
def State.chainUp (s : State) : Nat → Nat → Nat
  | 0, _ => 0
  | d + 1, n => 1 + ((s.outersOf n).map (s.chainUp d)).foldl max 0

/-- Loop n lies on a chain of more than 4 loops, which a cycle always makes, or is one of several outer loops of one
inner loop (R285). -/
def State.chainBad (s : State) (n : Nat) : Bool :=
  5 < s.chainDown 6 n + s.chainUp 6 n
    || (match s.innerOf n with | some k => 1 < (s.outersOf k).length | none => false)

/-- The loop does not update (R282, R285). -/
def State.loopStopped (s : State) (n : Nat) : Bool :=
  let l := s.fieldLoop n
  l.imax.toInt < l.imin.toInt || l.omax.toInt < l.omin.toInt || s.chainBad n

/-- Loop n falls due; on every D-th of its updates the loop that drives its set-point falls due with it. One that does not
update makes neither fall due (R282, R285). -/
def State.loopDue (s : State) (n : Nat) : Nat → State
  | 0 => s
  | d + 1 =>
    let l := s.fieldLoop n
    if !l.live || s.loopStopped n then s
    else
      let s := s.modLoop n fun l => { l with due := true }
      match s.outersOf n with
      | [k] => if field (s.fieldLoop k).ctrl 14 10 ≤ l.outerCnt then s.loopDue k d else s
      | _ => s

/-- The least time between a loop's updates, 9.9 µs (R284). -/
abbrev loopGap : Nat := 59400

/-- A loop may update again (R284). -/
def FieldLoop.gapOver (now : Nat) (l : FieldLoop) : Bool := l.last.all fun t => t + loopGap ≤ now

/-- A new result of slot j of converter k triggers the loops that take it as input; one too soon after the last
update is skipped and counted (R284). -/
def State.loopResult (s : State) (k j : Nat) : State :=
  s.each (List.range 16) fun s n =>
    let l := s.fieldLoop n
    if l.live && !flag l.ctrl 8 && !flag l.ctrl 9 && field l.src 0 6 = k * 16 + j then
      if l.gapOver s.now then s.loopDue n 4 else s.modLoop n fun l => { l with skipCnt := satInc l.skipCnt }
    else s

end Sys2Proof.Machine
end

