-- ==== Sys2Proof/Machine/Inputs.lean ====
section
/-! DEFINITION. Field converters: triggers, runs, results, FIFO, staging store, input ranges (R303 to R315), FIELD
action 0x0 (R209). -/

namespace Sys2Proof.Machine

open Sys2Proof.Config

/-! ### Ownership -/

/-- A host write to a FIN or ANG register takes effect for the owner of field I/O; any other sender's is counted (R328). -/
def State.angWrite (s : State) (fn : Nat) (f : State → State) : State :=
  if !s.hostUp then s
  else if s.fw.ioOwner = some fn then f s
  else { s with ang := { s.ang with wrDenied := satInc s.ang.wrDenied } }

/-! ### Triggers (R310) -/

/-- A write of 1 to FIN_TRIG.GO. -/
def effectSoftwareTrigger (fn k : Nat) (v : Word) (s : State) : State :=
  s.angWrite fn fun s => if flag v 0 then s.triggerConvs fun i c => i = k && flag c.ctrl 5 else s
/-- SOFTWARE_TRIGGER (R10, R310, R311, R313, R328). -/
def execSoftwareTrigger (t fn k : Nat) (v : Word) (s : State) : Out :=
  act (writer fn && k < 4) t s (effectSoftwareTrigger fn k v)

/-- The converter timer expires, one period after it started or expired before (R310, R327). -/
def effectConverterTimer (k : Nat) (s : State) : State :=
  let c := s.conv k
  let p := c.timer.toNat * us
  if flag c.ctrl 0 && flag c.ctrl 6 && c.timerFrom + p ≤ s.now then
    (s.modConv k fun c => { c with timerFrom := c.timerFrom + p }).triggerConvs fun i _ => i = k
  else s
/-- CONVERTER_TIMER (R310, R311). -/
def execConverterTimer (t k : Nat) (s : State) : Out := act (k < 4) t s (effectConverterTimer k)

/-- An edge at a trigger pin triggers the converters that select it (R310). -/
def effectTriggerPinEdge (pin : Nat) (falling : Bool) (s : State) : State :=
  if s.hostUp then
    s.triggerConvs fun _ c => flag c.ctrl 10 && field c.ctrl 11 2 = pin && flag c.ctrl 13 == falling
  else s
/-- TRIGGER_PIN_EDGE (R310, R311). -/
def execTriggerPinEdge (t pin : Nat) (falling : Bool) (s : State) : Out :=
  act (pin < 4) t s (effectTriggerPinEdge pin falling)

/-! ### Results (R303 to R306, R312 to R315) -/

/-- A result in FIFO entry format (R329). -/
def resultWord (code : BitVec 12) (slot conv : Nat) (ovr settling : Bool) (run : BitVec 11) : Word :=
  BitVec.ofNat 32 (code.toNat + slot * 2 ^ 12 + conv * 2 ^ 16 + (if ovr then 2 ^ 18 else 0)
    + (if settling then 2 ^ 19 else 0) + run.toNat * 2 ^ 20 + 2 ^ 31)

/-- The input was sampled less than 20 µs after a write to its FIN_INCFG (R306). -/
def State.settling (s : State) (chan sample : Nat) : Bool :=
  chan < 16 && (Tab.get [] s.incfgAt chan).any fun w => w ≤ sample && sample < w + 20 * us

/-- A result enters a converter: FIN_LAST of its slot, the FIFO or the staging store where the slot asks for it;
what does not fit is dropped and counted (R314, R315). -/
def Conv.result (slot : Nat) (x : Sample) (fifo stream : Bool) (k : Conv) : Conv :=
  let k := { k with last := Tab.put 0 k.last slot x.word }
  let k := if fifo then
      (if k.fifo.length < 64 then { k with fifo := k.fifo ++ [x.word] } else { k with fifoOvf := k.fifoOvf + 1 })
    else k
  if stream then
    (if k.staging.length < 4096 then { k with staging := k.staging ++ [x] } else { k with streamOvf := k.streamOvf + 1 })
  else k

/-- A result word with the time of day, cycle count and phase of its sample instant (R315). -/
def State.sampleAt (s : State) (sample : Nat) (w : Word) : Sample :=
  let p := if s.ang.lastUpdate ≤ sample then (s.ang.phase, s.ang.cycLo) else s.ang.prev
  let a := if sample < s.ang.todBase then s.ang.todBefore else s.ang
  { word := w, todSec := a.todSeconds sample, todNs := BitVec.ofNat 32 (a.todNanos sample)
    cyc := p.2, phase := p.1 }

/-- A sequence result of converter k: it is stored, and the field loops it feeds fall due. -/
def State.seqResult (s : State) (k slot sample : Nat) (code : BitVec 12) (ovr fifo stream : Bool) (chan : Nat) : State :=
  let w := resultWord code slot k ovr (s.settling chan sample) (s.conv k).runs
  (s.modConv k (Conv.result slot (s.sampleAt sample w) fifo stream)).loopResult k slot

/-- The conversion boundary at moment e: a pending read-back goes next and delays the run by 1 µs (R312). -/
def Conv.boundary (e : Nat) (k : Conv) : Conv :=
  match k.reads with
  | [] => { k with readNow := none }
  | r :: rs => { k with readNow := some (r, e), reads := rs, run := k.run.map (· + us) }

/-- An input level beyond the span, which sets OVR (R304). -/
def beyondSpan (v : Int) : Bool := v < 0 || 4095 < v

/-- The result for an input level v in LSB that the converter reads d LSB off, d within ±2 by its integral non-linearity:
12-bit straight binary, 0x000 or 0xFFF beyond the span (R304). -/
def resultCode (v d : Int) : BitVec 12 :=
  BitVec.ofInt 12 (clampInt (if beyondSpan v then v else v + clampInt d (-2) 2) 0 4095)

/-- Result j of the three-phase conversions is ready 850 ns after its sample, which is 1 µs after the one before: FIN_LAST of
slot j and the FIFO, no stream (R303, R313). -/
def State.threeResult (s : State) (t0 j : Nat) (v d : Int) : State :=
  if t0 + j * us + 850 * ns ≤ s.now then
    let s := s.seqResult 0 j (t0 + j * us) (resultCode v d) (beyondSpan v) true false j
    s.modConv 0 fun c => { c with three := if j < 2 then some (t0, j + 1) else none }
  else s

/-- A conversion of converter k, of an input level v read d LSB off, is ready 1 µs after its start: a read-back goes to output
supervision only, a sequence slot's result to its destinations; of a converter that the timebase owns, the result of the next
level that the set of three has sampled. -/
def effectConversionResult (k : Nat) (v d : Int) (s : State) : State :=
  let c := s.conv k
  let code := resultCode v d
  if s.convOwned k then
    match c.three with
    | some (t0, j) => s.threeResult t0 j (c.threeIn.getD j 0) d
    | none => s
  else match c.readNow, c.run with
  | some (n, from_), _ =>
    if from_ + us ≤ s.now then
      let s := s.modFout n (Fout.beforeTick s.now (Fout.compare s.now (from_ + 150 * ns) code.toNat))
      s.modConv k (Conv.boundary (from_ + us))
    else s
  | none, some t0 =>
    let e := t0 + (c.slot + 1) * us
    if e ≤ s.now && c.slot < c.size then
      let cfg := Tab.get (0 : Word) c.slots c.slot
      let s := s.seqResult k c.slot (t0 + c.slot * us + 150 * ns) code (beyondSpan v) (flag cfg 5) (flag cfg 6) (field cfg 0 5)
      s.modConv k fun c => { c with slot := c.slot + 1 }.boundary e
    else s
  | none, none => s
/-- CONVERSION_RESULT (R303 to R308, R312 to R315, R340). -/
def execConversionResult (t k : Nat) (level inl : Int) (s : State) : Out :=
  act (k < 4) t s (effectConversionResult k level inl)

/-- A run ends after its last slot; a held trigger starts the next one at that moment (R309, R311). -/
def effectRunEnd (k : Nat) (s : State) : State :=
  let c := s.conv k
  match c.run with
  | some t0 =>
    let e := t0 + c.slot * us
    if c.size ≤ c.slot && e ≤ s.now then
      s.modConv k fun c =>
        if c.held then { c with run := some e, slot := 0, held := false, runs := c.runs + 1, ended := some e }
        else { c with run := none, slot := 0, ended := some e }
    else s
  | none => s
/-- RUN_END (R309, R311, R312). -/
def execRunEnd (t k : Nat) (s : State) : Out := act (k < 4) t s (effectRunEnd k)

/-- Every 20 µs the timebase has converter 0 sample inputs 0, 1 and 2, 1 µs apart, the first now; a, b and c are
the levels there, in LSB, at the three sample instants (R313). -/
def effectThreePhaseSample (a b c : Int) (s : State) : State :=
  if s.convOwned 0 && s.hostUp && s.ang.lastThree + 20 * us ≤ s.now then
    ({ s with ang := { s.ang with lastThree := s.now } }).modConv 0 fun k =>
      { k with runs := k.runs + 1, three := some (s.now, 0), threeIn := [a, b, c] }
  else s
/-- THREE_PHASE_SAMPLE (R303, R313). -/
def execThreePhaseSample (t : Nat) (a b c : Int) (s : State) : Out := act true t s (effectThreePhaseSample a b c)

/-! ### FIN_FIFO and FIN_INCFG -/

/-- A read of FIN_FIFO returns and removes the oldest entry that the FIFO held when the present cycle began, or returns 0
(R12, R314, R329). -/
def effectFinFifoRead (fn k : Nat) (s : State) : State :=
  if s.hostUp then
    let b := Tab.get {} s.snap.convs k
    let s : State := if b.fifo.isEmpty then s else s.modConv k fun c => { c with fifo := c.fifo.tail }
    { s with snap := { s.snap with convs := Tab.put {} s.snap.convs k { b with fifo := b.fifo.tail } }
             readOut := { who := fn, data := toLe 4 (b.fifo.headD 0).toNat } }
  else s
/-- FIN_FIFO_READ (R12, R314, R329). -/
def execFinFifoRead (t fn k : Nat) (s : State) : Out := act (writer fn && k < 4) t s (effectFinFifoRead fn k)

/-- A write of FIN_INCFG sets the input's range; the next 20 µs of conversions settle (R305, R306). -/
def effectFinIncfgWrite (fn n : Nat) (v : Word) (s : State) : State :=
  s.angWrite fn fun s =>
    { s with incfg := if field v 0 2 = 3 then s.incfg else Tab.put 0 s.incfg n (BitVec.ofNat 2 (field v 0 2))
             incfgAt := Tab.put [] s.incfgAt n (((Tab.get [] s.incfgAt n).filter fun w => s.now < w + 30 * us) ++ [s.now]) }
/-- FIN_INCFG_WRITE (R10, R305, R306, R328). -/
def execFinIncfgWrite (t fn n : Nat) (v : Word) (s : State) : Out :=
  act (writer fn && n < 16) t s (effectFinIncfgWrite fn n v)

/-! ### FIELD action 0x0 -/

/-- The 16-byte header of a filled handle: time of day, cycle count and phase of the first result (R315). -/
def Sample.header (x : Sample) : List Byte :=
  toLe 4 x.todSec.toNat ++ toLe 4 x.todNs.toNat ++ toLe 4 x.cyc.toNat ++ toLe 4 x.phase.toNat

/-- FIELD 0x0 fires once a result waits: every waiting result that fits goes into a handle (R209, R315). -/
def effectFieldFill (u : UnitId) (img : Nat) (s : State) : State :=
  s.onOp u img opField fun s o =>
    let out := field o 8 12
    let k := field o 22 8
    if field o 20 2 ≠ 0 || u ≠ .field then s
    else if (s.conv k).staging.isEmpty then s.markAll [out] .input
    else s.fire u img [] [out] fun s _ hs =>
      let h := (hs.headD (out, 0)).2
      let p := (s.stream out).pool.toNat
      let n := ((s.pool p).bufSize - 16) / 4
      let xs := (s.conv k).staging.take n
      let bs := (match xs with | x :: _ => x.header | [] => []) ++ bytesOfWords (xs.map (·.word))
      { st := (s.writeBuf p h 0 bs).modConv k fun c => { c with staging := c.staging.drop n } }
/-- FIELD_FILL (R145, R209, R315). -/
def execFieldFill (t : Nat) (u : UnitId) (img : Nat) (s : State) : Out := act (unitOk u) t s (effectFieldFill u img)

end Sys2Proof.Machine
end

