-- ==== Sys2Proof/Machine/Profiles.lean ====
section
/-! DEFINITION. The profile generator's planner: least-time moves under velocity, acceleration and jerk limits (R297,
R298, R300; R247 for rings), and sines. Positions and their rates are in units of 2^-96, times in units of 2^-96 s. -/

namespace Sys2Proof.Machine

/-- One: 2^96 units. -/
abbrev fx : Nat := 2 ^ 96

/-! ### Sines (R239, R241, R295) -/

/-- One: the unit of sines, 2^62. -/
abbrev sinOne : Nat := 2 ^ 62

/-- π ÷ 2 in units of 2^-62. -/
abbrev halfPi : Nat := 7244019458077122842

/-- The sine of an angle from 0 to π ÷ 2, both in units of 2^-62, by its series to the 23rd power. -/
def sinSeries (x : Int) : Int :=
  let y := x * x / sinOne
  x * ([11, 10, 9, 8, 7, 6, 5, 4, 3, 2, 1] : List Int).foldl (fun a k => sinOne - y * a / (sinOne * (2 * k * (2 * k + 1)))) sinOne
    / sinOne

/-- sin(2π × m ÷ d) in units of 2^-62. -/
def sinTurn (m d : Nat) : Int :=
  let q := 4 * (m % d)
  let x (n : Nat) : Int := sinSeries (n * halfPi / d : Nat)
  match q / d with
  | 0 => x q
  | 1 => x (2 * d - q)
  | 2 => -x (q - 2 * d)
  | _ => -x (4 * d - q)

/-! ### Motion along a leg -/

/-- The motion t later under jerk j. -/
def Motion.after (j : Int) (t : Nat) (m : Motion) : Motion :=
  let u : Int := fx
  let t : Int := t
  { pos := m.pos + (6 * m.vel * t * u ^ 2 + 3 * m.acc * t ^ 2 * u + j * t ^ 3) / (6 * u ^ 3)
    vel := m.vel + (2 * m.acc * t * u + j * t ^ 2) / (2 * u ^ 2)
    acc := m.acc + j * t / u }

/-- The motion seen in the other direction. -/
def Motion.mirror (m : Motion) : Motion := { pos := -m.pos, vel := -m.vel, acc := -m.acc }
/-- A leg seen in the other direction. -/
def Leg.mirror (g : Leg) : Leg := { g with start := g.start.mirror, jerk := -g.jerk }

/-- The length of a plan. -/
def planTime (gs : List Leg) : Nat := gs.foldl (fun n g => n + g.dur) 0

/-- The motion t after the start of a plan; at its end the given one. -/
def ride (rest : Motion) : List Leg → Nat → Motion
  | [], _ => rest
  | g :: gs, t => if t < g.dur then g.start.after g.jerk t else ride rest gs (t - g.dur)

/-! ### Reaching a velocity -/

/-- Integer square root. -/
def isqrt (x : Nat) : Nat := isqrtFrom x (Nat.log2 x / 2 + 1) 0

/-- The legs that bring a motion to velocity v at acceleration 0 in the least time under limits A and J, and the motion
there. An acceleration beyond A first comes down to it. -/
def Motion.toVel (A J : Nat) (v : Int) (m : Motion) : List Leg × Motion :=
  let cut := (m.acc.natAbs - A) * fx / J
  let first : Leg := { start := m, jerk := if m.acc < 0 then (J : Int) else -(J : Int), dur := cut }
  let m := if cut = 0 then m else m.after first.jerk cut
  let g : Int := if v < m.vel + m.acc * m.acc.natAbs / (2 * J) then -1 else 1
  let a := g * m.acc
  let dv := g * (v - m.vel)
  let top := isqrt ((J * dv + a ^ 2 / 2).toNat)
  let peak : Int := min top A
  let hold := if top ≤ A then 0 else ((2 * J * dv + a ^ 2 - 2 * A ^ 2) * fx / (2 * J * A)).toNat
  let up : Leg := { start := m, jerk := g * J, dur := ((peak - a) * fx / J).toNat }
  let m1 := { m.after up.jerk up.dur with acc := g * peak }
  let flat : Leg := { start := m1, jerk := 0, dur := hold }
  let m2 := m1.after 0 hold
  let down : Leg := { start := m2, jerk := -(g * J), dur := (peak * fx / J).toNat }
  ([first, up, flat, down].filter (·.dur ≠ 0), { m2.after down.jerk down.dur with vel := v, acc := 0 })

/-! ### Reaching a position -/

/-- The lastOk of lo to hi that passes a test which fails from some value on, or lo: n halvings. -/
def lastOk (ok : Int → Bool) : Nat → Int → Int → Int
  | 0, lo, _ => lo
  | n + 1, lo, hi => let mid := (lo + hi + 1) / 2; if ok mid then lastOk ok n mid hi else lastOk ok n lo (mid - 1)

/-- Halvings that settle any value of a limit. -/
abbrev halvings : Nat := 136

/-- The plan over a velocity v: its legs to v, those to rest, and where it ends. -/
def Motion.via (A J : Nat) (v : Int) (m : Motion) : List Leg × List Leg × Motion × Int :=
  let up := m.toVel A J v
  let down := up.2.toVel A J 0
  (up.1, down.1, up.2, down.2.pos)

/-- The plan that first changes the acceleration, below 0, to a at jerk J and then brakes. -/
def Motion.easing (A J : Nat) (a : Int) (m : Motion) : List Leg × Int :=
  let g : Leg := { start := m, jerk := J, dur := ((a - m.acc) * fx / J).toNat }
  let r := (m.after J g.dur).toVel A J 0
  (g :: r.1, r.2.pos)

/-- The least-time plan, in the positive direction, to a position x not before where braking at once would end: braking
eased, or the highest velocity that x allows, up to V with a leg at V (R297). -/
def Motion.forth (V A J : Nat) (x : Int) (m : Motion) : List Leg :=
  let vs := m.vel + m.acc * m.acc.natAbs / (2 * J)
  if m.acc < 0 ∧ 0 < vs ∧ vs ≤ V ∧ x < (m.easing A J 0).2 then
    (m.easing A J (lastOk (fun a => (m.easing A J a).2 ≤ x) halvings (max m.acc (-A)) 0)).1
  else
    let p := m.via A J V
    if p.2.2.2 ≤ x then
      let level : Leg := { start := p.2.2.1, jerk := 0, dur := ((x - p.2.2.2) * fx / V).toNat }
      p.1 ++ level :: ((p.2.2.1.after 0 level.dur).toVel A J 0).1
    else
      let q := m.via A J (lastOk (fun v => (m.via A J v).2.2.2 ≤ x) halvings (if vs ≤ V then max vs 0 else 0) V)
      q.1 ++ q.2.1

/-- The same in either direction. -/
def Motion.along (back : Bool) (V A J : Nat) (x : Int) (m : Motion) : List Leg :=
  if back then (m.mirror.forth V A J (-x)).map Leg.mirror else m.forth V A J x

/-- A position counts as reached within a 16th of Q4.28's last bit. -/
abbrev closeBy : Nat := 2 ^ 64

/-- The plan to a target x from any motion, and when its return begins (0: it does not pass its target): braking where
that ends at x; onward while x lies ahead of that in the direction of motion; else to rest and back (R297, R298). -/
def Motion.planTo (V A J : Nat) (x : Int) (m : Motion) : List Leg × Nat :=
  let stop := m.toVel A J 0
  let d := x - stop.2.pos
  if d.natAbs ≤ closeBy then (stop.1, 0)
  else
    let still := m.vel = 0 ∧ m.acc = 0
    let back := if still then d < 0 else if m.vel = 0 then m.acc < 0 else m.vel < 0
    if (d < 0) = back then (m.along back V A J x, 0)
    else (stop.1 ++ stop.2.along (d < 0) V A J x, planTime stop.1)

/-- A value of an FP32 limit in units of 2^-96. -/
def limitOf (w : Word) : Nat := let r := (fpVal w).rat; r.1 * fx / r.2

/-- A value in units of 2^-96 as FP32. -/
def fpOfFx (v : Int) : Word := fpOfRat (v < 0) v.natAbs fx

end Sys2Proof.Machine
end

