-- ==== Sys2Proof/Machine/Loops.lean ====
section
/-! DEFINITION. The loop engine: sections and the update (R278 to R283), triggers and cascades (R284 to R287),
gain scheduling (R289 to R292), oscillation detector (R293, R294), injection and capture (R295, R296), FIELD action 0x1 (R209, R290), profile
generator (R297 to R300). -/

namespace Sys2Proof.Machine

open Sys2Proof.Config

/-! ### Sections and the control law (R279 to R281) -/

/-- The range of Q4.28. -/
abbrev qMin : Int := -2147483648
/-- The upper end of Q4.28. -/
abbrev qMax : Int := 2147483647

/-- A sum of Q2.30 × Q4.28 products rounded once to Q4.28, ties to even, beyond the range the nearer end; whether it
was beyond (R280). -/
def toQ (sum : Int) : Int × Bool :=
  let y := roundEven sum (2 ^ 30)
  (clampInt y qMin qMax, y < qMin || qMax < y)

/-- One section in direct form I: coefficients b0 b1 b2 a1 a2, states x1 x2 y1 y2 (R280). -/
def section1 (k : List Int) (st : List Int) (x : Int) : Int × List Int × Bool :=
  let g (i : Nat) : Int := k.getD i 0
  let z (i : Nat) : Int := st.getD i 0
  let y := toQ (g 0 * x + g 1 * z 0 + g 2 * z 1 - g 3 * z 2 - g 4 * z 3)
  (y.1, [x, z 0, y.1, z 2], y.2)

/-- The cascade of a list of sections: its output, the new states, the saturations (R280). -/
def cascade : List (List Int) → List (List Int) → Int → Int × List (List Int) × Nat
  | [], _, x => (x, [], 0)
  | k :: ks, st, x =>
    let a := section1 k (st.headD []) x
    let r := cascade ks st.tail a.1
    (r.1, a.2.1 :: r.2.1, r.2.2 + if a.2.2 then 1 else 0)

/-- Limits of a loop. -/
structure Limits where
  imin : Int
  imax : Int
  omin : Int
  omax : Int
deriving DecidableEq, Repr

/-- The integrator and the output of R281 for cascade output c and ki × c. -/
def controlLaw (m : Limits) (c d prev inj : Int) : Int × Int :=
  let u0 := c + prev + d
  let i := if (m.omax < u0 ∧ 0 < d) ∨ (u0 < m.omin ∧ d < 0) then prev else clampInt (prev + d) m.imin m.imax
  (i, clampInt (c + i + inj) m.omin m.omax)

/-- Region of a scheduling variable, from region k, with three boundaries and hysteresis h (R289). -/
def region (b1 b2 b3 h v : Int) (k : Nat) : Nat :=
  let b (i : Nat) : Int := if i = 1 then b1 else if i = 2 then b2 else b3
  match [3, 2, 1].find? fun r => k < r ∧ b r + h < v with
  | some r => r
  | none =>
    match [0, 1, 2].find? fun r => r < k ∧ v + h < b (r + 1) with
    | some r => r
    | none => k

/-! ### Oscillation detector (R293) -/

/-- The detector after an update with error e: window of win updates, band z. -/
def OscWin.count (win : Nat) (z e : Int) (w : OscWin) : OscWin :=
  let w := if win ≤ w.n then { w with n := 0, crossings := 0, peak := 0 } else w
  let side := if z ≤ e then 1 else if e ≤ -z then -1 else w.side
  { n := w.n + 1, crossings := if w.side * side = -1 then w.crossings + 1 else w.crossings
    peak := max w.peak e.natAbs, side := side }

/-! ### Signals of a field loop (R278, R290, R305, R307) -/

/-- Q4.28 value of a result code by range: bipolar or unipolar, as a rail's fixed scale is (R305, R307; log entry 33). -/
def codeValue (bipolar : Bool) (c : Nat) : Int := if bipolar then ((c : Int) - 2048) * 2 ^ 17 else (c : Int) * 2 ^ 16

/-- The latest result of slot [3:0] of converter [5:4] in a loop's scale. -/
def State.slotValue (s : State) (i : Nat) : Int :=
  let k := i / 16
  let j := i % 16
  let w := Tab.get (0 : Word) (s.conv k).last j
  let c := field w 0 12
  let ch := if s.convOwned k then j else field (Tab.get (0 : Word) (s.conv k).slots j) 0 5
  if ch < 16 then codeValue (Tab.get 0 s.incfg ch ≠ 2) c
  else if ch < 20 then codeValue (rangeBipolar (s.fout (ch - 4)).range.toNat) c
  else if ch < 23 then codeValue false c
  else (Config.railValue (BitVec.ofNat 12 c)).toInt

/-- The scheduling variable of a loop; none where no source is selected (R290). -/
def State.schedVar (s : State) (l : FieldLoop) : Option Int :=
  match field l.src 11 2 with
  | 0 => some (s.slotValue (field l.src 13 6))
  | 1 =>
    let m := s.fieldLoop (field l.src 13 4)
    some (match field l.src 17 2 with
      | 0 => m.err.toInt
      | 1 => m.out.toInt
      | 2 => m.meas.toInt
      | _ => m.int.toInt)
  | 2 => some l.scalar.toInt
  | _ => none

/-- Sections in use. -/
def FieldLoop.sections (l : FieldLoop) : Nat := field l.ctrl 2 3 + 1

/-- LOOP_COEF c of section k in set s, and KI as coefficient 30; b0 resets to 1.0 (R302). -/
def FieldLoop.coefAt (l : FieldLoop) (set i : Nat) : Word :=
  Tab.get (if i < 30 ∧ i % 5 = 0 then 0x40000000 else 0) l.coef (set * 31 + i)

/-- The coefficients of the sections in use of a set. -/
def FieldLoop.bank (l : FieldLoop) (set : Nat) : List (List Int) :=
  (List.range l.sections).map fun k => (List.range 5).map fun c => (l.coefAt set (5 * k + c)).toInt

/-! ### Configuration errors (R282, R285, R292, R295) -/

/-- The region boundaries are in ascending order (R292). -/
def FieldLoop.ordered (l : FieldLoop) : Bool := l.b1.toInt < l.b2.toInt && l.b2.toInt < l.b3.toInt

/-- LOOP_STAT.CFG_ERR of every loop (R282, R285, R292, R295). -/
def State.refreshCfg (s : State) : State :=
  s.each (List.range 16) fun s n =>
    let e := s.loopStopped n
    s.modLoop n fun l => { l with cfgErr := e || !l.ordered || l.injErr }

/-! ### Profile generator (R297 to R300) -/

/-- A Q4.28 word in the planner's units. -/
def fxOfQ (w : Word) : Int := w.toInt * 2 ^ 68

/-- The time of a generator's plan at a moment, 2^-96 s: it stands while the loop's HOLD freezes it (R287, R297). -/
def Profile.clock (now : Nat) (p : Profile) : Nat := (p.heldAt.getD now - p.planAt) * fx / sec

/-- A generator's present position, velocity and acceleration: its plan's, at rest where it has none running (R297,
R298). -/
def Profile.motion (now : Nat) (p : Profile) : Motion :=
  if p.moving && !p.plan.isEmpty then ride { pos := fxOfQ p.target } p.plan (p.clock now) else { pos := fxOfQ p.pos }

/-- PRF_STAT.OVERSHOOT: the plan passes its target, and its return has not begun (R298). -/
def Profile.overshoot (now : Nat) (p : Profile) : Bool := p.moving && p.clock now < p.returnAt

/-- At rest at a position. -/
def Profile.rest (w : Word) (p : Profile) : Profile :=
  { p with pos := w, target := w, vel := 0, acc := 0, moving := false, plan := [], returnAt := 0 }

/-- The generator plans, from a motion, the move to its target (R297, R298). -/
def Profile.replan (p : Profile) : Profile :=
  let g := p.start.planTo (limitOf p.vmax) (limitOf p.amax) (limitOf p.jmax) (fxOfQ p.target)
  { p with plan := g.1, returnAt := g.2, moving := p.moving || !g.1.isEmpty }

/-- A signal held to Q4.28; a value outside the format is a free value (log entry 32). -/
def State.toSignal (s : State) (v : Int) : State × Int :=
  if qMin ≤ v ∧ v ≤ qMax then (s, v) else (s.draw, (Config.loopWrap s.free).toInt)

/-- The generator's plan evaluated at an update of its loop: at its end it rests at the target exactly (R297). -/
def State.prfStep (s : State) (n : Nat) : State :=
  let p := s.prf n
  if !p.moving then s
  else if planTime p.plan ≤ p.clock s.now then s.setPrf n (p.rest p.target)
  else
    let m := p.motion s.now
    let x := s.toSignal (roundEven m.pos (2 ^ 68))
    x.1.setPrf n { p with pos := BitVec.ofInt 32 x.2, vel := fpOfFx m.vel, acc := fpOfFx m.acc }

/-! ### Injection (R295, log entry 14) -/

/-- A frequency in Hz, FP32, as cycles in a time of dt tu, in units of 2^-64. -/
def turnIn (f : Word) (dt : Nat) : Nat := let r := (fpVal f).rat; r.1 * dt * 2 ^ 64 / (r.2 * sec)

/-- x to the power num ÷ den, num below den, by square roots: all in units of 2^-64, the exponent to b bits. -/
def powFrac (x num den : Nat) : Nat → Nat
  | 0 => 2 ^ 64
  | b + 1 =>
    let x := isqrt (x * 2 ^ 64)
    let r := powFrac x (2 * num % den) den b
    if den ≤ 2 * num then x * r / 2 ^ 64 else r

/-- The phase a sweep gains in a time of dt tu from update i on: F0 × (F1 ÷ F0)^(i ÷ LEN), in units of 2^-64 cycles; a free
value where no such frequency is stated, with LEN 0 or F1 not above 0 (R295). -/
def FieldLoop.sweepTurn (l : FieldLoop) (dt : Nat) : Nat :=
  let a := (fpVal l.injF0).rat
  let b := (fpVal l.injF1).rat
  if l.injLen = 0 || fpNeg l.injF1 || b.1 = 0 then Config.sweepOpen l.injF0 l.injF1 l.injLen l.injIdx
  else turnIn l.injF0 dt * powFrac (b.1 * a.2 * 2 ^ 64 / (b.2 * a.1)) l.injIdx l.injLen.toNat 64 / 2 ^ 64

/-- AMP × the sine of a phase in units of 2^-64 cycles, rounded to Q4.28. -/
def injWave (amp : Word) (turn : Nat) : Int := roundEven (amp.toInt * sinTurn turn (2 ^ 64)) sinOne

/-- Orders and taps of the PRBS. -/
def prbsTaps (o : Nat) : Nat × Nat :=
  match o with
  | 0 => (7, 6)
  | 1 => (15, 14)
  | 2 => (23, 18)
  | _ => (31, 28)

/-- The PRBS register one bit on. -/
def prbsNext (o r : Nat) : Nat :=
  let p := prbsTaps o
  (2 * r + (r / 2 ^ (p.1 - 1) + r / 2 ^ (p.2 - 1)) % 2) % 2 ^ p.1

/-- The phase of a sweep at the present update: 0 at its first, its frequency constant from an update to the next. -/
def FieldLoop.sweepNow (now : Nat) (l : FieldLoop) : Nat :=
  if l.injIdx = 0 then 0 else l.injTurn + { l with injIdx := l.injIdx - 1 }.sweepTurn (now - l.last.getD now)

/-- The injected signal of the present update; a sine's time runs from the injection's first update (R295). -/
def FieldLoop.injection (now : Nat) (l : FieldLoop) : Int :=
  if !flag l.injCtrl 0 then 0
  else
    let a := l.injAmp.toInt
    match field l.injCtrl 1 2 with
    | 2 => if l.lfsr / 2 ^ ((prbsTaps (field l.injCtrl 5 2)).1 - 1) % 2 = 1 then a else -a
    | 1 => injWave l.injAmp (l.sweepNow now)
    | _ => injWave l.injAmp (if l.injIdx = 0 then 0 else turnIn l.injF0 (now - l.injAt))

/-- The injection one update on: a PRBS bit lasts HOLD + 1 updates; after LEN updates RUN reads 0. -/
def FieldLoop.injAdvance (now turn : Nat) (l : FieldLoop) : FieldLoop :=
  if !flag l.injCtrl 0 then l
  else
    let n := l.injIdx + 1
    let l := { l with injIdx := n, injAt := if l.injIdx = 0 then now else l.injAt
                      injTurn := turn
                      lfsr := if field l.injCtrl 1 2 = 2 ∧ n % (field l.injCtrl 7 8 + 1) = 0 then
                          prbsNext (field l.injCtrl 5 2) l.lfsr else l.lfsr }
    if l.injLen ≠ 0 ∧ l.injLen.toNat ≤ n then { l with injCtrl := putField l.injCtrl 0 1 0 } else l

/-! ### Capture (R296) -/

/-- A signal of a loop by its SIG code. -/
def FieldLoop.signal (l : FieldLoop) (k : Nat) : Word :=
  match k with
  | 0 => BitVec.ofInt 32 l.injNow
  | 1 => l.sp
  | 2 => l.meas
  | 3 => l.err
  | 4 => l.out
  | _ => l.int

/-- An update of the captured loop: an entry every DECIM updates; after 4,096 entries DONE and CAP_DONE. -/
def State.capture (s : State) (n : Nat) : State :=
  let g := s.loopEng
  if g.capRunning && field g.capCtrl 2 4 = n then
    if g.capSkip ≠ 0 then { s with loopEng := { g with capSkip := g.capSkip - 1 } }
    else
      let l := s.fieldLoop n
      let e := (l.signal (field g.capCtrl 6 3), l.signal (field g.capCtrl 9 3))
      let g := { g with capture := Tab.put (0, 0) g.capture g.capCount e, capCount := g.capCount + 1
                        capSkip := field g.capCtrl 12 8 }
      if g.capCount = 4096 then
        let g := { g with armed := false, capRunning := false, done := true, fresh := freshen s.now (2 ^ 20) g.fresh }
        { s with loopEng := g }.raise 0x8032 [BitVec.ofNat 8 n]
      else { s with loopEng := g }
  else s

/-! ### The update (R281 to R286) -/

/-- Loop n is due and may update, and so is the loop that it drives, with which alone it updates (R282, R285). -/
def State.runsWith (s : State) : Nat → Nat → Bool
  | 0, _ => false
  | d + 1, n =>
    let l := s.fieldLoop n
    l.due && l.live && !s.loopStopped n && match s.innerOf n with | some k => s.runsWith d k | none => true

/-- Loop n may update now: due, live, 9.9 µs after its last update, its limits and cascade in order. -/
def State.loopReady (s : State) (n : Nat) : Bool := s.runsWith 4 n && (s.fieldLoop n).gapOver s.now

/-- Loop n goes first among the loops that are due: an outer loop before its inner, others by index (R286). -/
def State.loopFirst (s : State) (n : Nat) : Bool :=
  let free (k : Nat) : Bool := s.loopReady k && !(s.outersOf k).any s.loopReady
  free n && !(List.range n).any free

/-- The coefficient set in use at an update (R289, R291, R292). -/
def FieldLoop.useSet (l : FieldLoop) : Nat :=
  if flag l.ctrl 5 then field l.ctrl 6 2 else if !l.ordered || l.svStale then 0 else l.setNext.toNat

/-- The set that applies from the next update (R289 to R292, R294). -/
def FieldLoop.nextSet (l : FieldLoop) (set : Nat) (v : Option Int) : Nat :=
  if flag l.ctrl 5 || !l.ordered || l.svStale || l.schedHold then set
  else match v with
    | some v => region l.b1.toInt l.b2.toInt l.b3.toInt l.hyst.toInt v set
    | none => set

/-- The limits of the registers. -/
def FieldLoop.limits (l : FieldLoop) : Limits :=
  { imin := l.imin.toInt, imax := l.imax.toInt, omin := l.omin.toInt, omax := l.omax.toInt }

/-- The output held to a unipolar channel's range (R283). -/
def State.unipolarLimit (s : State) (l : FieldLoop) (u : Int) : Int :=
  let ch := field l.src 6 5
  if ch < 16 && !rangeBipolar (s.fout ch).range.toNat then clampInt u 0 (2 ^ 28) else u

/-- An output at an end of a unipolar channel's range (R283, R302). -/
def State.unipolarEnd (s : State) (l : FieldLoop) (u : Int) : Bool :=
  let ch := field l.src 6 5
  ch < 16 && !rangeBipolar (s.fout ch).range.toNat && (u = 0 || u = 2 ^ 28)

/-- The detector's trigger: output and states held, set 0, no injection, OSC and LOOP_OSC (R294). -/
def State.loopFreeze (s : State) (n set : Nat) (l : FieldLoop) : State :=
  let s := s.setLoop n { l with osc := true, fresh := freshen s.now 4 l.fresh, set := 0, setNext := 0, injCtrl := putField l.injCtrl 0 1 0 }
  (s.raise 0x8030 (layBytes 8 [(0, [BitVec.ofNat 8 n, BitVec.ofNat 8 set]), (2, toLe 2 l.oscWin.crossings),
    (4, toLe 4 l.oscWin.peak)])).refreshIdle

/-- One update of field loop n in the order of R281: profile and set-point, error, detector, cascade, integrator,
limits. The engine takes one update after the other; the output reaches its channel at the update's end, 80 ns and 40 ns a
section after its start (R283, R286). -/
def State.updateLoop (s : State) (n : Nat) : State :=
  let s := s.prfStep n
  let l := s.fieldLoop n
  let start := max s.now s.loopEng.busyUntil
  let done := start + 80 * ns + 40 * ns * l.sections
  let s := { s with loopEng := { s.loopEng with busyUntil := done } }
  let inj := l.injection s.now
  let turn := if field l.injCtrl 1 2 = 1 then l.sweepNow s.now else 0
  let point := field l.injCtrl 3 2
  let outer := s.outersOf n
  let base := match outer with | [k] => (s.fieldLoop k).out.toInt | _ => (s.prf n).pos.toInt
  let a := s.toSignal (base + if point = 0 then inj else 0)
  let meas := a.1.slotValue (field l.src 0 6)
  let b := a.1.toSignal (a.2 - meas + if point = 1 then inj else 0)
  let s := b.1
  let e := b.2
  let v := s.schedVar l
  let set := l.useSet
  let every := match outer with | [k] => field (s.fieldLoop k).ctrl 14 10 + 1 | _ => 1
  let l := { l with
    due := false, last := some s.now, gap := match l.last with | some t => s.now - t | none => 0
    startAt := start, sp := BitVec.ofInt 32 a.2, meas := BitVec.ofInt 32 meas, err := BitVec.ofInt 32 e
    sv := match v with | some v => BitVec.ofInt 32 v | none => l.sv
    set := BitVec.ofNat 2 set, injNow := inj, outerCnt := if every ≤ l.outerCnt + 1 then 0 else l.outerCnt + 1
    oscWin := l.oscWin.count (field l.oscCfg 0 16 + 1) l.oscBand.toInt e }
  let cross := field l.oscCfg 16 8
  if cross ≠ 0 && cross ≤ l.oscWin.crossings && l.oscAmp.toInt ≤ l.oscWin.peak then s.loopFreeze n set l
  else
    let c := cascade (l.bank set) l.sec e
    let d := (toQ ((l.coefAt set 30).toInt * c.1)).1
    let r := controlLaw l.limits c.1 d l.int.toInt (if point = 2 then inj else 0)
    let u := s.unipolarLimit l r.2
    let l := { l with
      setNext := BitVec.ofNat 2 (l.nextSet set v), schedSkip := l.schedHold, schedHold := false
      sec := c.2.1, satCnt := satAdd l.satCnt c.2.2, int := BitVec.ofInt 32 r.1, intReg := BitVec.ofInt 32 r.1
      out := BitVec.ofInt 32 u
      limOut := u = l.omin.toInt || u = l.omax.toInt || s.unipolarEnd l u
      limInt := r.1 = l.imin.toInt || r.1 = l.imax.toInt }.injAdvance s.now turn
    let s := s.setLoop n l
    let ch := field l.src 6 5
    if ch < 16 then s.loopOutput ch u done else s

/-- A due loop updates in its turn; it triggers the converters that select it, and capture takes its entry. One that
may not update, or whose inner loop may not, drops what was due (R282, R284 to R286, R296, R310). -/
def effectLoopUpdate (n : Nat) (s : State) : State :=
  if s.loopFirst n then
    ((s.updateLoop n).capture n).triggerConvs fun _ c => flag c.ctrl 14 && field c.ctrl 15 4 = n
  else if (s.fieldLoop n).due && !s.runsWith 4 n then s.modLoop n fun l => { l with due := false }
  else s
/-- LOOP_UPDATE (R278 to R286, R289, R290, R292 to R300). -/
def execLoopUpdate (t n : Nat) (s : State) : Out := act (n < 16) t s (effectLoopUpdate n)

/-- The loop timer expires, PERIOD after it started or expired before (R284, R327). -/
def effectLoopTimer (n : Nat) (s : State) : State :=
  let l := s.fieldLoop n
  let p := field l.period 0 20 * us
  if flag l.ctrl 0 && flag l.ctrl 8 && !flag l.ctrl 9 && l.timerFrom + p ≤ s.now then
    (s.modLoop n fun l => { l with timerFrom := l.timerFrom + p }).loopDue n 4
  else s
/-- LOOP_TIMER (R284, R327). -/
def execLoopTimer (t n : Nat) (s : State) : Out := act (n < 16) t s (effectLoopTimer n)

/-! ### FIELD action 0x1 (R209, R290) -/

/-- An FP32 in Q4.28: nearest, ties to even, saturating (R290). -/
def toQ428 (w : Word) : Int :=
  if fpIsInf w then (if fpNeg w then -2 ^ 31 else 2 ^ 31 - 1)
  else
    let v := fpVal w
    clampInt (scaleRound v (-28)) (-2 ^ 31) (2 ^ 31 - 1)

/-- The inference scalar of a loop written: a NaN is ignored and counted, any other value clears SV_STALE. One that arrives
by the cycle in which an update starts is used by that update (R290, R291). -/
def FieldLoop.takeScalar (now : Nat) (w : Word) (l : FieldLoop) : FieldLoop :=
  if fpIsNaN w then { l with nanCnt := satInc l.nanCnt }
  else
    let x := toQ428 w
    let l := { l with scalar := BitVec.ofInt 32 x, scalarAt := now, svStale := false }
    if field l.src 11 2 = 2 ∧ l.last.isSome ∧ now / cycle ≤ l.startAt / cycle ∧ !l.osc then
      { l with sv := l.scalar, setNext := BitVec.ofNat 2 ({ l with schedHold := l.schedSkip }.nextSet l.set.toNat (some x)) }
    else l

/-- FIELD 0x1 writes the handle's first FP32 element to its loop (R209, R290). -/
def effectFieldScalar (u : UnitId) (img : Nat) (s : State) : State :=
  s.onOp u img opField fun s o =>
    let i := field o 8 12
    if field o 20 2 ≠ 1 || u ≠ .field then s
    else s.fire u img [i] [] fun s toks _ =>
      let h := tokHandle (toks.headD 0)
      let w := BitVec.ofNat 32 (leAt (s.readBuf (s.stream i).pool.toNat h 0 4) 0 4)
      { st := s.modLoop (field o 22 8) (FieldLoop.takeScalar s.now w) }
/-- FIELD_SCALAR (R145, R209, R290, R291). -/
def execFieldScalar (t : Nat) (u : UnitId) (img : Nat) (s : State) : Out := act (unitOk u) t s (effectFieldScalar u img)

/-! ### SV_STALE (R172, R291) -/

/-- The module with the scalars that the present fabric cycle still brings: they win over an expiry in it (R172, R291, log entry
28). -/
def State.withScalars (s : State) : State :=
  s.inCycle.foldl (init := s) fun s i =>
    match i with
    | .fieldScalar t u img => effectFieldScalar u img (s.tick t)
    | _ => s

/-- The scalar of loop n did not come within TMO ms (R291, R327). -/
def State.scalarLate (s : State) (n : Nat) : Bool :=
  let l := s.fieldLoop n
  let tmo := field l.svTmo 0 16
  tmo ≠ 0 && !l.svStale && l.scalarAt / ms + tmo + 1 ≤ s.now / ms

/-- No scalar came within TMO ms: SV_STALE and its event, and set 0, but where FORCE_SET is in use (R291, R292). -/
def effectSvStale (n : Nat) (s : State) : State :=
  if s.hostUp && s.scalarLate n && s.withScalars.scalarLate n then
    (s.modLoop n fun l =>
      if flag l.ctrl 5 then { l with svStale := true } else { l with svStale := true, set := 0, setNext := 0 }).raise
        0x8031 [BitVec.ofNat 8 n]
  else s
/-- SV_STALE (R172, R291, R292, R327). -/
def execSvStale (t n : Nat) (s : State) : Out := act (n < 16) t s (effectSvStale n)

/-! ### Host writes (R287, R294 to R296, R299 to R301) -/

/-- A host write to a LOOP or PRF register takes effect for the owner of the loop engine; any other sender's is
counted (R301). -/
def State.loopWrite (s : State) (fn : Nat) (f : State → State) : State :=
  if !s.hostUp then s
  else if s.fw.loopOwner = some fn then f s
  else { s with loopEng := { s.loopEng with wrDenied := satInc s.loopEng.wrDenied } }

/-- ENABLE goes to 1: section states 0, integrator at the channel's present output within its limits, or 0 without a channel, the profile
generator at rest at the present measurement (R287). -/
def State.loopStart (s : State) (n : Nat) : State :=
  let l := s.fieldLoop n
  let ch := field l.src 6 5
  let u := codeToLoop (s.fout ch).range.toNat (usedCode ch ((s.fout ch).atPin s.now))
  let i := if ch < 16 then clampInt u l.imin.toInt l.imax.toInt else 0
  let m := BitVec.ofInt 32 (s.slotValue (field l.src 0 6))
  let s := s.setLoop n { l with sec := [], int := BitVec.ofInt 32 i, due := false, timerFrom := s.now, outerCnt := 0, gap := 0 }
  s.modPrf n (Profile.rest m)

/-- HOLD goes to 1: the plan stands; to 0: it goes on from there (R287). -/
def Profile.hold (now : Nat) (on : Bool) (p : Profile) : Profile :=
  match p.heldAt with
  | none => if on then { p with heldAt := some now } else p
  | some h => if on then p else { p with heldAt := none, planAt := p.planAt + (now - h) }

/-- An owner's write of LOOP_CTRL: a SECTIONS code outside its range stays; ENABLE going to 1 starts the loop, 0
stops it; HOLD holds it with every state of it (R287, R301). -/
def State.loopCtrl (s : State) (fn n : Nat) (v : Word) : State :=
  s.loopWrite fn fun s =>
    let l := s.fieldLoop n
    let w := BitVec.ofNat 32 (field v 0 24)
    let w := if 5 < field v 2 3 then putField w 2 3 (field l.ctrl 2 3) else w
    let s := s.setLoop n { l with ctrl := w, due := l.due && flag w 0 && !flag w 1
                                  timerFrom := if flag w 8 && !flag l.ctrl 8 then s.now else l.timerFrom }
    let s := s.modPrf n (Profile.hold s.now (flag w 1))
    let s := if flag w 0 && !flag l.ctrl 0 then s.loopStart n else s
    s.refreshCfg.refreshIdle

/-- A write of 1 to LOOP_CTRL.ENABLE. -/
def effectLoopEnable (fn n : Nat) (v : Word) (s : State) : State := if flag v 0 then s.loopCtrl fn n v else s
/-- LOOP_ENABLE (R285, R287, R301, R302). -/
def execLoopEnable (t fn n : Nat) (v : Word) (s : State) : Out :=
  act (writer fn && n < 16) t s (effectLoopEnable fn n v)

/-- A write of 0 to LOOP_CTRL.ENABLE. -/
def effectLoopDisable (fn n : Nat) (v : Word) (s : State) : State := if flag v 0 then s else s.loopCtrl fn n v
/-- LOOP_DISABLE (R287, R301, R337). -/
def execLoopDisable (t fn n : Nat) (v : Word) (s : State) : Out :=
  act (writer fn && n < 16) t s (effectLoopDisable fn n v)

/-- A write of LOOP_CTRL taken for its HOLD. -/
def effectLoopHold (fn n : Nat) (v : Word) (s : State) : State := s.loopCtrl fn n v
/-- LOOP_HOLD (R287, R301, R337). -/
def execLoopHold (t fn n : Nat) (v : Word) (s : State) : Out :=
  act (writer fn && n < 16) t s (effectLoopHold fn n v)

/-- A write of LOOP_STAT: 1 to OSC releases a frozen loop, which goes on from its held states with set 0; scheduling
resumes one update later (R294). -/
def State.loopStat (s : State) (fn n : Nat) (v : Word) : State :=
  s.loopWrite fn fun s =>
    if (s.fieldLoop n).osc && !w1c s.now (s.fieldLoop n).fresh v 2 true then
      (s.modLoop n fun l => { l with osc := false, set := 0, setNext := 0, schedHold := true
                                     oscWin := {}, due := false }).refreshIdle
    else s
/-- A write of 1 to LOOP_STAT.OSC. -/
def effectLoopOscRelease (fn n : Nat) (v : Word) (s : State) : State := s.loopStat fn n v
/-- LOOP_OSC_RELEASE (R294, R301). -/
def execLoopOscRelease (t fn n : Nat) (v : Word) (s : State) : Out :=
  act (writer fn && n < 16) t s (effectLoopOscRelease fn n v)

/-- An FP32 frequency is at least 0.01 Hz. -/
def freqLow (w : Word) : Bool :=
  let r := (fpVal w).rat
  !fpIsNaN w && !fpIsInf w && !fpNeg w && r.2 ≤ 100 * r.1
/-- An FP32 frequency is at most half of the update rate of a period in tu. -/
def freqHigh (period : Nat) (w : Word) : Bool :=
  let r := (fpVal w).rat
  !fpIsNaN w && !fpIsInf w && (fpNeg w || 2 * r.1 * period ≤ sec * r.2)

/-- The period at which new results of converter k trigger a loop, tu, where its timer alone triggers it: results that come
less than 9.9 µs after an update are skipped; the timebase's samples come every 20 µs (R284, R310, R313). -/
def State.resultPeriod (s : State) (k : Nat) : Option Nat :=
  let c := s.conv k
  let p := c.timer.toNat * us
  if s.convOwned k then some (20 * us)
  else if flag c.ctrl 6 && p ≠ 0 && !(flag c.ctrl 5 || flag c.ctrl 7 || flag c.ctrl 8 || flag c.ctrl 10 || flag c.ctrl 14) then
    some (p * ((loopGap + p - 1) / p))
  else none

/-- The update period against which a loop's frequencies are held, tu: its timer's, D times its inner loop's, or that of the
results that trigger it, measured where no timer fixes it, 10 µs before there is a measure (R284, R285, R295; log entry 14). -/
def State.ratePeriod (s : State) : Nat → Nat → Nat
  | 0, _ => 10 * us
  | d + 1, n =>
    let l := s.fieldLoop n
    match s.innerOf n with
    | some k => s.ratePeriod d k * (field l.ctrl 14 10 + 1)
    | none =>
      if flag l.ctrl 8 then field l.period 0 20 * us
      else (s.resultPeriod (field l.src 0 6 / 16)).getD (if l.gap = 0 then 10 * us else l.gap)

/-- The injection's frequencies lie in range for an update period (R295). -/
def FieldLoop.freqsOk (ty period : Nat) (l : FieldLoop) : Bool :=
  match ty with
  | 0 => freqLow l.injF0 && freqHigh period l.injF0
  | 1 => freqLow l.injF0 && freqHigh period l.injF0 && freqHigh period l.injF1
  | _ => true

/-- An owner's write of LOOP_INJ_CTRL: RUN 1 starts the injection where its frequencies are in range, else sets
CFG_ERR; RUN 0 stops it. A capture armed for the injection's start begins (R295, R296, R301). -/
def State.injCtrl (s : State) (fn n : Nat) (v : Word) : State :=
  s.loopWrite fn fun s =>
    let l := s.fieldLoop n
    let w := BitVec.ofNat 32 (field v 0 15)
    let w := if field v 1 2 = 3 then putField w 1 2 (field l.injCtrl 1 2) else w
    let w := if field v 3 2 = 3 then putField w 3 2 (field l.injCtrl 3 2) else w
    if !flag w 0 then s.modLoop n fun l => { l with injCtrl := w }
    else if !l.freqsOk (field w 1 2) (s.ratePeriod 4 n) then
      (s.modLoop n fun l => { l with injCtrl := putField w 0 1 (field l.injCtrl 0 1), injErr := true }).refreshCfg
    else if flag l.injCtrl 0 then s.modLoop n fun l => { l with injCtrl := w }
    else
      let seed := Config.prbsSeed s.free % (2 ^ (prbsTaps (field w 5 2)).1 - 1) + 1
      let s := (s.draw.modLoop n fun l => { l with injCtrl := w, injErr := false, injIdx := 0, lfsr := seed }).refreshCfg
      let g := s.loopEng
      if g.armed && !g.capRunning && flag g.capCtrl 1 && field g.capCtrl 2 4 = n then
        { s with loopEng := { g with capRunning := true, capCount := 0, capSkip := 0 } }
      else s

/-- A write of 1 to LOOP_INJ_CTRL.RUN. -/
def effectInjectionStart (fn n : Nat) (v : Word) (s : State) : State := if flag v 0 then s.injCtrl fn n v else s
/-- INJECTION_START (R295, R296, R301). -/
def execInjectionStart (t fn n : Nat) (v : Word) (s : State) : Out :=
  act (writer fn && n < 16) t s (effectInjectionStart fn n v)

/-- A write of 0 to LOOP_INJ_CTRL.RUN. -/
def effectInjectionStop (fn n : Nat) (v : Word) (s : State) : State := if flag v 0 then s else s.injCtrl fn n v
/-- INJECTION_STOP (R295, R301). -/
def execInjectionStop (t fn n : Nat) (v : Word) (s : State) : Out :=
  act (writer fn && n < 16) t s (effectInjectionStop fn n v)

/-- An owner's write of LOOP_CAP_CTRL: START to DECIM are set, DONE written 1 clears; ARM 1 arms, or, while a capture is
armed or running, is ignored and counted (R10, R296, R301, R302). -/
def State.capCtrl (s : State) (fn : Nat) (v : Word) : State :=
  s.loopWrite fn fun s =>
    let g := { s.loopEng with done := w1c s.now s.loopEng.fresh v 20 s.loopEng.done }
    let w := BitVec.ofNat 32 (field v 1 19 * 2)
    let w := if 5 < field v 6 3 then putField w 6 3 (field g.capCtrl 6 3) else w
    let w := if 5 < field v 9 3 then putField w 9 3 (field g.capCtrl 9 3) else w
    let g := { g with capCtrl := w }
    if !flag v 0 then { s with loopEng := g }
    else if g.armed then { s with loopEng := { g with capRefused := satInc g.capRefused } }
    else { s with loopEng := { g with armed := true, capRunning := !flag w 1, capCount := 0, capSkip := 0 } }
/-- A write of LOOP_CAP_CTRL. -/
def effectCaptureArm (fn : Nat) (v : Word) (s : State) : State := s.capCtrl fn v
/-- CAPTURE_ARM (R296, R301). -/
def execCaptureArm (t fn : Nat) (v : Word) (s : State) : Out := act (writer fn) t s (effectCaptureArm fn v)

/-- Pending limits take effect. -/
def Profile.takeLimits (p : Profile) : Profile :=
  { p with vmax := p.vNew.getD p.vmax, amax := p.aNew.getD p.amax, jmax := p.jNew.getD p.jmax
           vNew := none, aNew := none, jNew := none }

/-- A move starts from the present motion. -/
def Profile.begin (now : Nat) (p : Profile) : Profile :=
  { p with start := p.motion now, planAt := p.heldAt.getD now }

/-- A target written: clamped to PMIN and PMAX and counted; with BYPASS a step at the next update, otherwise a move
planned, or replanned, under the limits (R297 to R300). -/
def State.prfTarget (s : State) (n : Nat) (v : Word) : State :=
  let p := ((s.prf n).begin s.now).takeLimits
  let x := clampInt v.toInt p.pmin.toInt p.pmax.toInt
  let p := { p with target := BitVec.ofInt 32 x, targetAt := some (s.now / cycle)
                    clamps := if x = v.toInt then p.clamps else satInc p.clamps }
  s.setPrf n (if p.bypass then { p with moving := true, plan := [], returnAt := 0 } else p.replan)
/-- A write of PRF_TARGET. -/
def effectPrfTargetWrite (fn n : Nat) (v : Word) (s : State) : State := s.loopWrite fn fun s => s.prfTarget n v
/-- PRF_TARGET_WRITE (R297 to R301). -/
def execPrfTargetWrite (t fn n : Nat) (v : Word) (s : State) : Out :=
  act (writer fn && n < 16) t s (effectPrfTargetWrite fn n v)

/-- A limit in its range, from 10^-9 to 10^9 (R299). -/
def limitOk (w : Word) : Bool :=
  let r := (fpVal w).rat
  !fpIsNaN w && !fpIsInf w && !fpNeg w && r.2 ≤ 1000000000 * r.1 && r.1 ≤ 1000000000 * r.2

/-- A limit written: pending until the next target write, or taken at once with a target write of the same cycle, whose
move is planned again under it; one out of range changes nothing (R299). -/
def Profile.writeLimit (cyc which : Nat) (v : Word) (p : Profile) : Profile :=
  if !limitOk v then p
  else
    let p := match which with
      | 0 => { p with vNew := some v }
      | 1 => { p with aNew := some v }
      | _ => { p with jNew := some v }
    if p.targetAt = some cyc then
      let p := p.takeLimits
      if p.bypass then p else p.replan
    else p
/-- A write of PRF_VMAX (0), PRF_AMAX (1) or PRF_JMAX (2). -/
def effectPrfLimitWrite (fn n which : Nat) (v : Word) (s : State) : State :=
  s.loopWrite fn fun s => s.modPrf n (Profile.writeLimit (s.now / cycle) which v)
/-- PRF_LIMIT_WRITE (R299, R301). -/
def execPrfLimitWrite (t fn n which : Nat) (v : Word) (s : State) : Out :=
  act (writer fn && n < 16 && which < 3) t s (effectPrfLimitWrite fn n which v)

/-- An owner's write of PRF_CTRL: BYPASS is stored; STOP 1 brings a moving generator to rest within its limits, and
where it rests, rounded to Q4.28, becomes the target (R300). -/
def State.prfCtrl (s : State) (fn n : Nat) (v : Word) : State :=
  s.loopWrite fn fun s =>
    let p := { s.prf n with bypass := flag v 0 }
    if flag v 1 then
      let p := p.begin s.now
      let g := p.start.toVel (limitOf p.amax) (limitOf p.jmax) 0
      let x := s.toSignal (roundEven g.2.pos (2 ^ 68))
      x.1.setPrf n { p with target := BitVec.ofInt 32 x.2, plan := g.1, returnAt := 0, moving := !g.1.isEmpty, targetAt := none }
    else s.setPrf n p
/-- A write of 1 to PRF_CTRL.STOP. -/
def effectPrfStop (fn n : Nat) (v : Word) (s : State) : State := if flag v 1 then s.prfCtrl fn n v else s
/-- PRF_STOP (R300, R301). -/
def execPrfStop (t fn n : Nat) (v : Word) (s : State) : Out :=
  act (writer fn && n < 16) t s (effectPrfStop fn n v)

end Sys2Proof.Machine
end

