-- ==== Sys2Proof/Machine/Heaters.lean ====
section
/-! DEFINITION. Ring heaters: heater codes and dither (R237 to R239), the lock converter and LOCK_ERR (R240, R241), moves
through the profile generator (R247). -/

namespace Sys2Proof.Machine

open Sys2Proof.Config

/-! ### Dither (R74, R238, R239) -/

/-- The tone of the cell at position j of a row, Hz (R239). -/
def ditherHz (j : Nat) : Nat := 10000 + 500 * j

/-- The amplitude of the dither, heater codes (R239). -/
abbrev ditherAmp : Nat := 8

/-- The phase of a core's tone at position j at a moment, in 1/2000 cycle: the tone's cycles since moment 0 in whole µs,
and its phase there (R239; DESIGN CHOICE, log entry 76). -/
def ditherPhase (cl k j t : Nat) : Nat := (ditherHz j / 500 * (t / us) + Config.ditherPhase cl k j) % 2000

/-- A dither sample in heater codes: ±8 × the sine at the last of the 333.3 thousand samples a second, as one of the
two whole codes beside it (R239). -/
def ditherSample (cl k r now : Nat) : Int :=
  let n := now / (3 * us)
  let y := sinTurn (ditherPhase cl k (r % 64) (n * (3 * us))) 2000 * ditherAmp
  let a := y.natAbs / sinOne
  let up := y.natAbs % sinOne ≠ 0 && a < ditherAmp && Config.ditherUp cl k r n
  let m : Int := (min ditherAmp (a + if up then 1 else 0) : Nat)
  if y < 0 then -m else m

/-- A warm core: its rings are held (R20, R21). -/
def Core.warm (c : Core) : Bool :=
  match c.st with
  | .cold | .retired => false
  | _ => true

/-- A cluster whose loops run: locked, not retired, not restarting. -/
def Cluster.up (c : Cluster) : Bool := c.locked && !c.retired && c.restart.isNone

/-! ### Heaters on and off (R20, R21, R26, R415) -/

/-- The cold wear spare is being brought into service: its heaters ramp (R21, R22, R25). -/
def Cluster.warming (c : Cluster) (k : Nat) : Bool := c.wear = some k && c.wearWarm.isSome && (c.core k).st = .cold

/-- Kiln's heater ramps run (R247, R415). -/
def State.inKiln (s : State) : Bool := s.aon.stage = 1 && !s.aon.inReset

/-- The heater of a ring is on: its cluster is not retired and locked, or in Kiln; its core is warm or being warmed; its engine
is in service (R20, R21, R26, R30). -/
def State.heated (s : State) (cl k r : Nat) : Bool :=
  let c := s.cluster cl
  !c.retired && (c.core k).engines.contains (r / 64)
    && (if c.locked then (c.core k).warm || c.warming k else (s.inKiln || c.restart.isSome) && (c.core k).warm)

/-- The dither term of a ring: none on a cold ring, nor inside a quiet window (R21, R74, R76, R239). -/
def State.dither (s : State) (cl k r : Nat) : Int :=
  let c := s.cluster cl
  if s.heated cl k r && c.up && (c.core k).warm && c.quiet.isNone then ditherSample cl k r s.now else 0

/-! ### Heater codes (R237, R238, R260) -/

/-- The highest heater code at which a ring of a cluster locks, from 0x008 to 0xFF7 (log entry 34). -/
def lockTop (d cl : Nat) : Nat := 8 + Config.lockTop d cl % 0xFF0

/-- The heater code at which a ring locks, from 0x008 to its cluster's highest: a free value of lock d; 0 where nothing has
locked (log entry 34). -/
def lockAt (d cl k r : Nat) : Int :=
  if d = 0 then 0 else ((8 + Config.lockCode d cl k r % (lockTop d cl - 7) : Nat) : Int)

/-- The heater code at which a ring locked last. -/
def State.lockBase (s : State) (cl k r : Nat) : Int := lockAt (s.cluster cl).lockDraw cl k r

/-- The inner set-point of a ring, Q4.28 (R242, log entry 24). -/
def State.ringSp (s : State) (cl k r : Nat) : Int :=
  let d := (s.cluster cl).outerDraw
  if d = 0 then 0 else Config.outerSetPoint d cl k r

/-- Inner output, feedforward term and a profile offset: codes before the clamp, over a base (R238). -/
def Ring.sum (ff prof : Int) (x : Ring) : Int := roundEven x.out 65536 + roundEven ff 4000 + prof

/-- The legs of a least-time move under limits in codes per ms, ms² and ms³, from a motion to an offset in codes (R247). -/
def legsTo (lim : Nat × Nat × Nat) (m : Motion) (goal : Int) : List Leg :=
  (m.planTo (lim.1 * fx) (lim.2.1 * fx) (lim.2.2 * fx) (goal * fx)).1

/-- The motion of a move t tu after it was planned. -/
def moveMotion (lim : Nat × Nat × Nat) (m : Motion) (goal : Int) (t : Nat) : Motion :=
  ride { pos := goal * fx } (legsTo lim m goal) (t * fx / ms)

/-- The motion of a ring's profile-generator offset at a moment: under the limits in force when the move began (R247; 14
R380, CAL_SETTINGS: profile limits apply from the next move). -/
def Ring.motionAt (now : Nat) (x : Ring) : Motion :=
  match x.moving with
  | some (goal, _) => moveMotion x.moveLim x.moveFrom goal (now - x.moveAt)
  | none => { pos := x.prof * fx }

/-- The same offset in whole codes. -/
def Ring.profAt (now : Nat) (x : Ring) : Int := roundEven (x.motionAt now).pos fx

/-- The heater code before dither that the loops and the profile generator hold at a moment (R238). -/
def State.heldCode (s : State) (cl k r now : Nat) : Int :=
  let c := s.core cl k
  clampInt (s.lockBase cl k r + (c.ring r).sum c.ff ((c.ring r).profAt now)) 0x008 0xFF7

/-- A ramp of a heater through the profile generator: where it begins and ends, in codes, its start and its limits (R247). -/
structure Ramp where
  begin_ : Int
  end_ : Int
  start : Nat
  lim : Nat × Nat × Nat
deriving DecidableEq, Repr

/-- The code at which a ring locks, moved by the feedforward term that its core holds. -/
def State.rampEnd (s : State) (d cl k r : Nat) : Int :=
  clampInt (lockAt d cl k r + roundEven (s.core cl k).ff 4000) 0x008 0xFF7

/-- The code of a ramp at a moment (R237, R247). -/
def Ramp.code (now : Nat) (x : Ramp) : Int :=
  clampInt (roundEven (moveMotion x.lim { pos := x.begin_ * fx } x.end_ (now - x.start)).pos fx) 0x008 0xFF7

/-- The ramp of a heater in Kiln: from 0 to the code at which its ring locks (R247, R415). -/
def State.kilnRamp (s : State) (cl k r : Nat) : Ramp :=
  { begin_ := 0, end_ := s.rampEnd s.aon.kilnDraw cl k r, start := s.aon.stageFrom, lim := (s.cluster cl).rampLim }

/-- The ramp that a heater runs: from 0 in Kiln and for the cold wear spare, from the code it has in a restart that locks
its ring anew (R21, R247, R431). -/
def State.ramp (s : State) (cl k r : Nat) : Option Ramp :=
  let c := s.cluster cl
  if c.warming k then
    some { begin_ := 0, end_ := s.rampEnd c.lockDraw cl k r, start := c.wearWarm.getD 0 - 250 * ms, lim := c.wearLim }
  else
    match c.restart with
    | some e =>
      let t := e - 300 * ms
      if c.remap then none
      else some { begin_ := if c.locked then s.heldCode cl k r t else (s.kilnRamp cl k r).code t
                  end_ := s.rampEnd c.relockDraw cl k r, start := t, lim := c.rampLim }
    | none => if c.locked then none else some (s.kilnRamp cl k r)

/-- H: the heater code before dither; a heater that is off gets none (R21, R26, R238, R247). -/
def State.heaterCode (s : State) (cl k r : Nat) : Int :=
  if s.heated cl k r then
    match s.ramp cl k r with
    | some x => x.code s.now
    | none => s.heldCode cl k r s.now
  else 0

/-- The code that the heater DAC gets: the dither term is added last (R32, R238). -/
def State.dacCode (s : State) (cl k r : Nat) : Int := s.heaterCode cl k r + s.dither cl k r

/-- H_EXP: the calibrated code moved by the feedforward and outer-loop terms (R260). -/
def State.expCode (s : State) (cl k r : Nat) : Int :=
  let c := s.core cl k
  s.lockBase cl k r + (c.ring r).hCal + roundEven (c.ff + c.hOff) 4000 + roundEven (s.ringSp cl k r) 65536

/-- LINE_CODES of a ring (R237). -/
def Core.lineCodes (b : CalBase) (c : Core) (r : Nat) : Nat := (c.ring r).lineCodes.getD (b.line r)

/-- The sum of a cluster's four sensors, 1/1000 °C. -/
def Cluster.heat (c : Cluster) : Int := c.sensors.foldl (· + ·) 0

/-- The target of the feedforward term: -K_FF × (T - T_CAL), 1/4000 code (R243). -/
def Core.ffGoal (heat : Int) (c : Core) : Int := -((c.kff : Int) * (heat - c.tCal))

/-- The largest step of an update of the feedforward term: 40 codes, in 1/4000 code (R243). -/
abbrev ffStep : Int := 160000

/-- An update of a core's feedforward term: at most 40 codes towards its target; H_EXP's part of a change of T_CAL moves
with it (R243, R260). -/
def Core.feedForward (heat : Int) (c : Core) : Core :=
  { c with ff := c.ff + clampInt (c.ffGoal heat - c.ff) (-ffStep) ffStep
           hOff := c.hOff + clampInt (c.hOffGoal - c.hOff) (-ffStep) ffStep }

/-- T_CAL and K_FF change while the heater stays: the term moves to its new target at its rate limit, and H_EXP with a
part of its own that cancels this (R243, R260; DEDUCED, log entry 79). -/
def Core.newTCal (heat : Int) (kff : Nat) (tCal : Int) (c : Core) : Core :=
  let c := { c with kff := kff, tCal := tCal }
  { c with hOffGoal := c.hOff + c.ff - c.ffGoal heat }

/-! ### The lock converter (R240) -/

/-- The physical engine without light: the one that is not in service (R22, R240). -/
def Core.darkEngine (c : Core) : Nat := ((List.range 9).find? fun e => !c.engines.contains e).getD 8

/-- Samples in a record and between two updates (R241). -/
abbrev recordLen : Nat := 222

/-- One round of the converter: nine photodiodes in engine order, 1.0 µs each (R240). -/
abbrev roundTu : Nat := 9 * us

/-- Rounds of the nine photodiodes up to a moment join the record, which holds the last 222 without a gap; a code has 12
bits (R240, R241). -/
def Core.sample (now : Nat) (xs : List (List Nat)) (c : Core) : Core :=
  let old := if c.monAt + xs.length * roundTu = now then c.mon else []
  let all := old ++ xs.map fun x => (List.range 9).map fun e => x.getD e 0 % 4096
  { c with mon := all.drop (all.length - recordLen), monAt := now }

/-! ### LOCK_ERR (R241) -/

/-- The record is full: 222 rounds. -/
def Core.recordFull (c : Core) : Bool := c.mon.length = recordLen

/-- Weight i of the Hann window, in units of 2^-62 (R241). -/
def hann (i : Nat) : Int := sinOne - sinTurn (4 * i + recordLen) (4 * recordLen)

/-- Sample i of engine e's record, less the dark reference (R240). -/
def Core.lightAt (c : Core) (e i : Nat) : Int :=
  let x := c.mon.getD i []
  (x.getD e 0 : Int) - x.getD c.darkEngine 0

/-- The tone of a ring at sample i of its record, in units of 2^-62, q quarter cycles on: 0 its sine, 1 its cosine (R239, R240). -/
def Core.toneAt (cl k r q : Nat) (c : Core) (i : Nat) : Int :=
  let start := c.monAt - recordLen * roundTu + r / 64 * us
  sinTurn (ditherPhase cl k (r % 64) (start + i * roundTu) + 500 * q) 2000

/-- A sum over the record. -/
def overRecord (f : Nat → Int) : Int := ((List.range recordLen).map f).foldl (· + ·) 0

/-- What ring x's own tone adds to ring r's weighted in-phase sum, in units of 2^-248: x's in-phase and quadrature sums over
the record, each times the weighted product of its tone and r's (R241; log entry 77). -/
def Core.leakOf (cl k r x : Nat) (c : Core) : Int :=
  (([0, 1] : List Nat).map fun q =>
    overRecord (fun i => c.lightAt (r / 64) i * c.toneAt cl k x q i)
      * overRecord fun i => hann i * c.toneAt cl k x q i * c.toneAt cl k r 0 i).foldl (· + ·) 0

/-- The rings of the same row at the tones next to a ring's: those that the Hann window does not hold off by 40 dB (R241). -/
def toneNeighbours (r : Nat) : List Nat :=
  (if r % 64 = 0 then [] else [r - 1]) ++ if r % 64 = 63 then [] else [r + 1]

/-- In-phase sum of a ring's tone over the record under the Hann window, what its neighbours' tones add to it taken out, in
units of 2^-248 ÷ 111: each other tone stays at least 40 dB down (R240, R241; DEDUCED, log entry 77). -/
def Core.inPhase (cl k r : Nat) (c : Core) : Int :=
  111 * sinOne ^ 2 * overRecord (fun i => hann i * c.lightAt (r / 64) i * c.toneAt cl k r 0 i)
    - ((toneNeighbours r).map fun x => c.leakOf cl k r x).foldl (· + ·) 0

/-- LOCK_ERR of a ring, Q4.28: its in-phase amplitude divided by its calibrated slope, rounded once; a free value where
the slope is 0 (R241; DESIGN CHOICE, log entry 77). -/
def State.lockErrOf (s : State) (cl k r : Nat) : Int :=
  let c := s.core cl k
  let slope := (c.ring r).slope.getD ((s.calBase cl k).slope r)
  if slope = 0 then Config.lockErr (s.free + r)
  else
    let y := roundEven (c.inPhase cl k r) (111 * sinOne ^ 2 * (111 * 2 ^ 92 * slope.natAbs))
    if slope < 0 then -y else y

/-! ### Moves (R247) -/

/-- The bits of the least root of x from bit b down: the largest r of them with r^p ≤ x. -/
def rootBits (p x : Nat) : Nat → Nat → Nat
  | 0, r => r
  | b + 1, r => rootBits p x b (if (r + 2 ^ b) ^ p ≤ x then r + 2 ^ b else r)

/-- The p-th root of num ÷ den, rounded up to a whole number below 2^48. -/
def rootUp (p num den : Nat) : Nat :=
  let x := (num + den - 1) / den
  let r := rootBits p x 48 0
  if r ^ p = x then r else r + 1

/-- The time of a least-time move from rest to rest over d codes under velocity v, acceleration a and jerk j, in codes per
ms, ms² and ms³, rounded up to whole tu (R247). -/
def moveTu (v a j d : Nat) : Nat :=
  if d = 0 || v = 0 || a = 0 || j = 0 then 0
  else if a * a ≤ v * j then
    -- both jerk phases reach the acceleration limit on the way to the velocity limit
    if v * (v * j + a * a) ≤ d * (a * j) then rootUp 1 (ms * (d * a * j + a * a * v + v * v * j)) (v * a * j)
    else if 2 * a ^ 3 ≤ d * j ^ 2 then rootUp 1 (ms * a) j + rootUp 2 (ms ^ 2 * (a ^ 3 + 4 * d * j ^ 2)) (a * j ^ 2)
    else rootUp 3 ((4 * ms) ^ 3 * d) (2 * j)
  else if 4 * v ^ 3 ≤ d ^ 2 * j then rootUp 1 (ms * d) v + rootUp 2 ((2 * ms) ^ 2 * v) j
  else rootUp 3 ((4 * ms) ^ 3 * d) (2 * j)

/-- The time of a move of a cluster's ring over d codes (R247, R275). -/
def Cluster.moveTime (c : Cluster) (d : Nat) : Nat := moveTu c.vel.toNat c.acc.toNat c.jerk.toNat d

/-- The time of a move over d codes under given limits. -/
def rampTu (lim : Nat × Nat × Nat) (d : Nat) : Nat := moveTu lim.1 lim.2.1 lim.2.2 d

/-- Heaters that ramp from 0 through the profile generator have reached the codes at which the rings of cluster cl lock under
draw d (R247, R415). -/
def ramped (lim : Nat × Nat × Nat) (d cl start now : Nat) : Bool := start + rampTu lim (lockTop d cl) ≤ now

/-- The time that the ramps of a restart of cluster cl take: the longest among its warm cores' rings (R247, R431). -/
def State.restartTu (s : State) (cl : Nat) : Nat :=
  let c := s.cluster cl
  (((List.range 34).filter fun k => (c.core k).warm).flatMap fun k => (c.core k).active8.map fun r =>
    match s.ramp cl k r with
    | some x => rampTu x.lim (x.end_ - x.begin_).natAbs
    | none => 0).foldl max 0

/-- The profile limits in force: codes per ms, ms² and ms³ (R247, R275). -/
def Cluster.limits (c : Cluster) : Nat × Nat × Nat := (c.vel.toNat, c.acc.toNat, c.jerk.toNat)

/-- The length of a plan in whole tu, rounded up. -/
def planTu (gs : List Leg) : Nat := (planTime gs * ms + fx - 1) / fx

/-- A ring moves by a number of codes through the profile generator, from where it is, and on from where its present move
ends; a target outside the heater range is not made (R247, R265). -/
def State.moveRing (s : State) (cl k r : Nat) (d : Int) : State :=
  let x := (s.core cl k).ring r
  let lim := (s.cluster cl).limits
  let goal := (x.moving.map (·.1)).getD x.prof + d
  let h := clampInt (s.lockBase cl k r + x.sum (s.core cl k).ff (goal - d)) 0x008 0xFF7 + d
  if h < 0x008 ∨ 0xFF7 < h then s
  else
    let m := x.motionAt s.now
    let e := s.now + if x.moving.isSome then planTu (legsTo lim m goal) else (s.cluster cl).moveTime d.natAbs
    let y : Ring := { x with moving := some (goal, e), moveAt := s.now, moveFrom := m, moveLim := lim, mislock := 0, good := false }
    s.modCore cl k fun c => c.setRing r y

/-- Every mislocked ring of a core moves by -n lines (R262). -/
def State.moveMislocked (s : State) (cl k : Nat) : State :=
  let c := s.core cl k
  let b := s.calBase cl k
  let s := s.each (c.active8.filter fun r => (c.ring r).mislock ≠ 0) fun s r =>
    s.moveRing cl k r (-((c.ring r).mislock * (c.lineCodes b r : Int)))
  s.modCore cl k fun c => { c with goodRun := 0 }

/-- A ring's move ends: inner updates resume once a full record of 1,998 µs is taken (R247). In a restart that locks its rings
anew the restart's ramp has taken its place. -/
def effectProfileMoveEnd (cl k r : Nat) (s : State) : State :=
  let x := (s.core cl k).ring r
  match x.moving with
  | some (goal, e) =>
    if e ≤ s.now && ((s.cluster cl).restart.isNone || (s.cluster cl).remap) then
      s.modCore cl k fun c =>
        { c.setRing r { x with prof := goal, moving := none, resumeAt := e + 1998 * us, good := false, found := false } with
          goodRun := 0 }
    else s
  | none => s
/-- PROFILE_MOVE_END (R247, R262). -/
def execProfileMoveEnd (t cl core ring : Nat) (s : State) : Out :=
  act (cl < 832 && core < 34 && ring < 576) t s (effectProfileMoveEnd cl core ring)

end Sys2Proof.Machine
end

