-- ==== Sys2Proof/Machine/Rings.lean ====
section
/-! DEFINITION. Ring holding: lock loops, feedforward, quiet windows, the calibration rotation, spares, mislock,
thermal range, comb, line and engine switch-over (R20 to R26, R73 to R79, R107 to R109, R242 to R277). -/

namespace Sys2Proof.Machine

open Sys2Proof.Config

/-! ### Positions (R17, R22, R94) -/

/-- The state of a core that carries a position: unsettled where a ring misses the threshold, or where it entered through
a ramp and has not settled since (R249, R254). -/
def Core.serviceState (c : Core) : CoreState := if c.allGood && !c.entered then .inService else .unsettled

/-- A packet that the switch has granted lights core k. -/
def Cluster.lit (c : Cluster) (k : Nat) : Bool :=
  (List.range 4).any fun f => match (c.feeder f).packet with | some p => p.holds && p.phys.contains k | none => false

/-- A core's tile boundary: no tile runs on it and no granted packet is about to light it (R22, R94). -/
def Cluster.atBoundary (c : Cluster) (k : Nat) : Bool := (c.core k).run.isNone && !c.lit k

/-- A leaving core's tile boundary: what it has granted is finished as well (R251, R261). -/
def Cluster.tilesDone (c : Cluster) (k : Nat) : Bool := c.atBoundary k && (c.core k).grant.isNone

/-- Position p passes from core a to core b at a tile boundary: stored images, list work, the granted credit and the image
in the holds move with it; b grants credit once its image has loaded, settled and swapped (R22, R94, R100, R254). -/
def State.movePos (s : State) (cl p a b ready : Nat) : State :=
  let x := s.core cl a
  let base := s.calBase cl b
  let s := s.modCore cl b fun y =>
    let load (h : Held) : Held := { h with drive := y.driveCodes base h.image, start := s.now }
    { y with tile := x.tile, grant := x.grant, forward := x.forward, slots := x.slots, prefetch := x.prefetch
             active := x.active.map load, shadow := x.shadow.map load, ready := ready }
  let s := s.modCore cl a fun y =>
    { y with tile := none, grant := none, forward := [], shadow := none, prefetch := none, cut := none }
  s.modCluster cl fun c => ((c.setPhys p b).dropRoutes [a, b]).unlisten b

/-! ### Events (R277) -/

/-- A ring's number in one byte of an event: cell in [5:0], low bits of the row position above it. -/
def ringByte (r : Nat) : Byte := BitVec.ofNat 8 r

/-- A ring-holding event: cluster, core, ring or line, value. -/
def State.ringEvent (s : State) (code cl k r v : Nat) : State :=
  s.raise code (layBytes 8 [(0, toLe 2 cl), (2, toLe 1 k), (3, [ringByte r]), (4, toLe 4 v)])

/-- Entry of a mislocked ring: row position, cell, n (R386). -/
def Core.ringEntry (c : Core) (x : Nat × Int) : List Byte :=
  let row := c.engines.findIdx fun e => e = x.1 / 64
  toLe 4 (row % 8 + x.1 % 64 * 8 + wrapTo 8 x.2 * 65536)

/-- MISLOCK_RINGS slots for the rings beyond the first five, ten a slot (R263). -/
def State.moreRings (s : State) (cl k : Nat) : Nat → List (Nat × Int) → State
  | 0, _ => s
  | n + 1, xs =>
    if xs.isEmpty then s
    else
      let c := s.core cl k
      let ys := xs.take 10
      (s.raise 0x802B (layBytes 44 [(0, toLe 2 cl), (2, toLe 1 k), (3, toLe 1 ys.length),
        (4, ys.flatMap c.ringEntry)])).moreRings cl k n (xs.drop 10)

/-- The earlier of two moments: time of day in s and ns, angle cycle. -/
def earlier (a b : Nat × Nat × Nat) : Nat × Nat × Nat :=
  if b.1 < a.1 ∨ (b.1 = a.1 ∧ b.2.1 < a.2.1) then b else a

/-- The earliest last good check among rings of a core (R260, R263). -/
def Core.goodSince (c : Core) (rs : List Nat) : Nat × Nat × Nat :=
  (rs.filterMap fun r => (c.ring r).badSince).foldl earlier c.lastGood

/-- MISLOCK, its MISLOCK_RINGS and MISLOCK_STREAMS; the window began at the last check that found none (R263, R386, R456). -/
def State.raiseMislock (s : State) (cl k : Nat) (xs : List (Nat × Int)) : State :=
  let c := s.core cl k
  let five := xs.take 5
  let ws := c.written.take 8
  let n := ws.length + if 8 < c.written.length then 128 else 0
  let g := c.goodSince (xs.map (·.1))
  let s := s.raise 0x8020 (layBytes 42 [(0, toLe 2 cl), (2, toLe 1 k), (3, toLe 1 five.length),
    (4, toLe 4 g.1), (8, toLe 4 g.2.1), (12, toLe 4 g.2.2), (16, toLe 1 n),
    (20, five.flatMap c.ringEntry), (40, toLe 2 xs.length)])
  let s := s.moreRings cl k xs.length (xs.drop 5)
  let bits := ws.foldr (fun w acc => w.1 % 4096 + w.2.1.toNat * 2 ^ 12 + w.2.2.toNat * 2 ^ 28 + acc * 2 ^ 44) 0
  s.raise 0x8021 (toLe 44 bits)

/-! ### Spares and claims (R22 to R26, R261, R264) -/

/-- Rank order of claims, higher first (R23). -/
def claimOrder : ClaimRank → Nat
  | .retirement => 2
  | .mislock => 1
  | .calibration => 0

/-- The core that can take a position at once: the rotation spare, else another core that is ready (R22, R251). -/
def Cluster.readySpare (c : Cluster) : Option Nat :=
  let ok (k : Nat) : Bool := (c.core k).st = .spareReady
  if ok c.spareCore then some c.spareCore else (List.range 34).find? ok

/-- The rotation spare takes a claim and copies the claimed core's stores in 192 ns (R261). -/
def Cluster.takeSpare (now k : Nat) (x : Nat × ClaimRank) (c : Cluster) : Cluster :=
  { c with spareCore := k, spareFor := some x, spareNext := none, copyEnd := some (now + 192 * ns) }

/-- The wear spare is called: a cold one is warm in about 250 ms (R22, R25). -/
def Cluster.callWear (now : Nat) (c : Cluster) : Cluster :=
  match c.wear with
  | some w =>
    let cold := (c.core w).st = .cold
    { c with wearWarm := some (c.wearWarm.getD (if cold then now + 250 * ms else now))
             wearLim := if cold && c.wearWarm.isNone then c.limits else c.wearLim }
  | none => { c with wearWarm := none }

/-- A claim waits for the wear spare (R22, R25). -/
def Cluster.toWear (now : Nat) (x : Nat × ClaimRank) (c : Cluster) : Cluster :=
  { c.callWear now with waiting := c.waiting ++ [x] }

/-- The slot in progress carries a position on the spare. -/
def CalSlot.carried (x : CalSlot) : Bool :=
  match x.step with
  | .mirror | .handover => false
  | _ => !x.selfCal

/-- A core's slot ends: gain scheduling resumes for its rings (R246). -/
def Core.slotOver (c : Core) : Core :=
  { c with rings := c.rings.map fun y => (y.1, { y.2 with schedOff := false }) }

/-- A slot ended before its calibration took effect: its turn is repeated (R23, R246, R258). -/
def State.dropSlot (s : State) (cl : Nat) (x : CalSlot) : State :=
  let s := s.modCluster cl fun c => { c.listen none with slot := none, repeatTurn := c.repeatTurn ++ [x.core] }
  s.modCore cl x.core fun c =>
    { c.slotOver with calNew := none, st := if x.selfCal && c.st = .calibrating then .spareReady else c.st }

/-- The spares that a cluster has left: cores that wait warm or cold (R277). -/
def Cluster.sparesLeft (c : Cluster) : Nat :=
  ((List.range 34).filter fun k => (c.core k).st = .spareReady || (c.core k).st = .cold).length

/-- A core that must give up its position for good or for a while, though not for heat (R261, R264, R274). -/
def Core.struck (c : Core) : Bool :=
  c.st = .leaving && match c.cause with | some .mislock | some .engineFault | some .retire => true | _ => false

/-- A cluster that cannot keep 32 serviceable cores in service is retired: fewer than 32 are not retired, or one of exactly
32 that carry the positions must leave (R26). -/
def State.retireCheck (s : State) (cl : Nat) : State :=
  let c := s.cluster cl
  let kept := (List.range 34).filter fun k => (c.core k).st ≠ .retired
  let stuck := (kept.all fun k => (c.posOf k).isSome) && kept.any fun k => (c.core k).struck
  if kept.length < 32 || kept.length = 32 && stuck then
    s.modCluster cl fun c => { c with retired := true, permit := false }
  else s

/-- A claim goes to the wear spare; where none is left the cluster may have to be retired (R22, R25, R26). -/
def State.claimWear (s : State) (cl : Nat) (x : Nat × ClaimRank) : State :=
  (s.modCluster cl (Cluster.toWear s.now x)).retireCheck cl

/-- The claim y that the spare served gives way: a calibration slot ends and repeats its turn, any other claim goes to the
wear spare (R22, R23, R258). -/
def State.yieldClaim (s : State) (cl : Nat) (y : Nat × ClaimRank) : State :=
  match y.2, (s.cluster cl).slot with
  | .calibration, some z => s.dropSlot cl z
  | .calibration, none => s
  | _, _ => s.claimWear cl y

/-- A claim waits for the tile boundary of the spare, which carries a position for a lower one; a lower claim that waits
there goes to the wear spare (R23). -/
def State.waitForSpare (s : State) (cl : Nat) (x : Nat × ClaimRank) : State :=
  match (s.cluster cl).spareNext with
  | none => s.modCluster cl fun c => { c with spareNext := some x }
  | some z =>
    if claimOrder z.2 < claimOrder x.2 then (s.modCluster cl fun c => { c with spareNext := some x }).claimWear cl z
    else s.claimWear cl x

/-- A claim of a core: a ready spare serves it; a lower claim yields, at once where the spare carries nothing, else at the
spare's tile boundary; any other claim goes to the wear spare (R22 to R25, R258). -/
def State.claim (s : State) (cl : Nat) (x : Nat × ClaimRank) : State :=
  let c := s.cluster cl
  let sp := c.spareCore
  match c.spareFor with
  | none =>
    match c.readySpare with
    | some k => s.modCluster cl (Cluster.takeSpare s.now k x)
    | none => s.claimWear cl x
  | some y =>
    if claimOrder x.2 ≤ claimOrder y.2 then s.claimWear cl x
    else if (c.posOf sp).isSome then
      if (c.core sp).st = .leaving then s.claimWear cl x else s.waitForSpare cl x
    else (s.yieldClaim cl y).modCluster cl (Cluster.takeSpare s.now sp x)

/-- The claim that waits for a spare and ranks highest, the first of them (R23, R24). -/
def Cluster.nextClaim (c : Cluster) : Option (Nat × ClaimRank) :=
  ([2, 1, 0] : List Nat).findSome? fun n => c.waiting.find? fun y => claimOrder y.2 = n

/-- Claims of one cycle, by rank, then by core index (R23, R24). -/
def orderClaims (xs : List (Nat × ClaimRank)) : List (Nat × ClaimRank) :=
  let of (r : ClaimRank) : List (Nat × ClaimRank) :=
    ((List.range 34).filter fun k => xs.contains (k, r)).map fun k => (k, r)
  of .retirement ++ of .mislock ++ of .calibration

/-- A core is retired: a spare that carries its position keeps it, the wear spare, if left, warms to become the rotation
spare; CORE_RETIRED and the check of R26 (R22, R264). -/
def State.retireCore (s : State) (cl k : Nat) : State :=
  let s := s.modCore cl k fun c => { c with st := .retired, cause := none, home := none, calNew := none }
  let s := s.modCluster cl fun c =>
    let c := { c.unlisten k with repeatTurn := c.repeatTurn.filter (· ≠ k) }
    let c := if c.spareFor.any fun y => y.1 = k then
        { c with spareFor := none, copyEnd := none, spareNext := none, waiting := c.waiting ++ c.spareNext.toList }
      else c
    if c.readySpare.isNone || !c.waiting.isEmpty then c.callWear s.now else c
  (s.ringEvent 0x8028 cl k 0 (s.cluster cl).sparesLeft).retireCheck cl

/-! ### Engines (R22, R31, R37, R274) -/

/-- The engine map with a failed engine's rows carried by the spare engine; none where more have failed than the one spare
makes good (R22, R31). -/
def Core.spareEngine (c : Core) : Option (List Nat) :=
  match c.engines.filter c.engFailed.contains, (List.range 9).find? fun e => !c.engines.contains e && !c.engFailed.contains e with
  | [], _ => some c.engines
  | [b], some e => some (c.engines.map fun x => if x = b then e else x)
  | _, _ => none

/-- A core out of service gets its engine spare for its failed engine, calibrated in about 150 ms; the wear counter rises
(R22, R31, R274). Nothing changes where no engine in service has failed, or the spare cannot make it good. -/
def State.mend (s : State) (cl k : Nat) : State :=
  let c := s.core cl k
  match c.spareEngine with
  | some es =>
    if es = c.engines then s
    else (s.wears 0).modCore cl k fun c => { c with engines := es, ready := s.now + 150 * ms }
  | none => s

/-- An engine in service has failed and nothing makes it good. -/
def Core.broken (c : Core) : Bool := c.spareEngine.isNone

/-! ### Leaving a position (R251, R262, R264, R268, R274) -/

/-- A core that has given up its position goes where its cause requires; home is the position it takes back. -/
def State.leave (s : State) (cl k : Nat) (home : Option Nat) : State :=
  let c := s.core cl k
  match c.cause with
  | some .thermal =>
    if c.broken then s.retireCore cl k else (s.modCore cl k fun c => { c with st := .heldOut, home := none }).mend cl k
  | some .retire => s.retireCore cl k
  | some .mislock | some .engineFault =>
    if c.broken then s.retireCore cl k
    else ((s.modCore cl k fun c => { c with st := .recovering, home := home, goodRun := 0 }).mend cl k).moveMislocked cl k
  | _ => s.modCore cl k fun c => { c with st := .spareReady, home := none }

/-! ### The rotation (R252 to R259) -/

/-- The core whose turn it is: a repeated turn first, else the next warm core, in service or ready as a spare (R23, R252). -/
def Cluster.turn (c : Cluster) : Option Nat :=
  let fit (k : Nat) : Bool :=
    match (c.core k).st with
    | .inService | .unsettled => (c.posOf k).isSome
    | .spareReady => true
    | _ => false
  match c.repeatTurn.find? fit with
  | some k => some k
  | none => ((List.range 34).map fun i => (c.rotNext + i) % 34).find? fit

/-- A slot begins for core k: a core with a position is mirrored to the ready spare sp, a spare calibrates itself (R254,
R258). -/
def State.startSlot (s : State) (cl k sp : Nat) : State :=
  let self := (s.core cl k).st = .spareReady
  let s := s.modCluster cl fun c =>
    { c with slot := some { core := k, step := if self then .calibrate else .mirror, selfCal := self, startedAt := s.now
                            stepEnd := s.now + ms }
             spareCore := sp
             spareFor := if self && k ≠ sp then none else some (k, .calibration)
             rotNext := if c.repeatTurn.contains k then c.rotNext else (k + 1) % 34
             repeatTurn := c.repeatTurn.erase k }
  if self then (s.modCore cl k fun c => { c with st := .calibrating }).modCluster cl (Cluster.listen (some k)) else s

/-- An advance that may run starts the next slot; without a ready spare slots pause (R264). -/
def State.runAdvance (s : State) (cl : Nat) : State :=
  match (s.cluster cl).turn, (s.cluster cl).readySpare with
  | some k, some sp => s.startSlot cl k sp
  | _, _ => s

/-- No slot may begin: one runs, a claim holds the spare, no spare is ready or a quiet window is open (R23, R79, R253, R264). -/
def Cluster.rotationHeld (c : Cluster) : Bool :=
  c.slot.isSome || c.spareFor.isSome || c.quiet.isSome || c.readySpare.isNone

/-- An advance of the rotation: while no slot may begin it is held one deep; a further one is dropped and counted (R79,
R253, R266). -/
def State.advance (s : State) (cl : Nat) : State :=
  let c := s.cluster cl
  if !c.up then s
  else if c.rotationHeld then
    if c.advHeld then s.modCluster cl fun c => { c with rotOverrun := satInc c.rotOverrun }
    else s.modCluster cl fun c => { c with advHeld := true }
  else s.runAdvance cl

/-- A held advance starts a slot as soon as one may begin (R79, R253). -/
def State.heldAdvance (s : State) (cl : Nat) : State :=
  let c := s.cluster cl
  if c.advHeld && c.up && !c.rotationHeld then (s.modCluster cl fun c => { c with advHeld := false }).runAdvance cl else s

/-- A spare is free again: the highest claim that waits without a wear spare takes it, else a held advance starts (R23, R25,
R253). -/
def State.freeSpare (s : State) (cl : Nat) : State :=
  let s := s.modCluster cl fun c => { c with spareFor := none, copyEnd := none }
  let c := s.cluster cl
  match c.nextClaim, c.wear, c.readySpare with
  | some x, none, some _ => (s.modCluster cl fun c => { c with waiting := c.waiting.erase x }).claim cl x
  | _, _, _ => s.heldAdvance cl

/-- Core k is ready as a spare again: as the rotation spare, or, where another core is that, in the wear spare's place. -/
def State.spareBack (s : State) (cl k : Nat) : State :=
  let s := s.modCore cl k fun c => { c with st := .spareReady, cause := none, home := none, probeFails := 0 }
  let c := s.cluster cl
  if k = c.spareCore then s.freeSpare cl
  else if c.spareFor.isNone && (c.core c.spareCore).st ≠ .spareReady then
    (s.modCluster cl fun c => { c with spareCore := k }).freeSpare cl
  else if c.wear.isNone then
    s.modCluster cl fun c => { c with wear := some k, wearWarm := if c.waiting.isEmpty then none else some s.now }
  else s

/-- The core that carried a position for another gives it up: where it has been struck meanwhile it goes where its cause
requires, else it is ready as a spare again. -/
def State.spareDone (s : State) (cl k : Nat) : State :=
  if (s.core cl k).st = .leaving then s.leave cl k none else s.spareBack cl k

/-- The largest change of a ring's H_EXP at T_CAL on core k since Mash, in codes; 0 where the core has seen no Mash (R276). -/
def State.drift (s : State) (cl k : Nat) : Nat :=
  let c := s.core cl k
  if c.hLock = 0 then 0
  else
    (c.active8.map fun r =>
      ((s.lockBase cl k r + (c.ring r).hCal + roundEven c.hOffGoal 4000)
        - (lockAt c.hLock cl k r + (c.ring r).hMash + c.hMash)).natAbs).foldl max 0

/-- HEATER_DRIFT follows a core's calibration (R276). -/
def State.noteDrift (s : State) (cl k : Nat) : State :=
  let d := s.drift cl k
  s.modCluster cl fun c => { c with heaterDrift := BitVec.ofNat 32 (max c.heaterDrift.toNat d) }

/-- The calibration of a core takes effect: knots, gains and offsets, dark offsets, LO phase, LINE_CODES, lock slopes,
K_FF, T_CAL, the heater codes as calibrated (R243, R254, R255, R260, R276). -/
def State.applyCal (s : State) (cl k : Nat) : State :=
  let c := s.core cl k
  match c.calNew with
  | none => s
  | some v =>
    let heat := (s.cluster cl).heat
    let cal (r : Nat) (x : Ring) : Ring :=
      { x with hCal := roundEven x.out 65536 + x.prof
               lineCodes := ((v.lines.find? fun y => y.1 = r).map (·.2)).orElse fun _ => x.lineCodes
               slope := ((v.slopes.find? fun y => y.1 = r).map (·.2)).orElse fun _ => x.slope }
    let rings := (v.lines.map (·.1) ++ v.slopes.map (·.1)).foldl (fun m r => Tab.put {} m r (cal r (Tab.get {} m r)))
      (c.rings.map fun x => (x.1, cal x.1 x.2))
    let c' : Core := { c with
      knots := v.knots.foldl (fun m x => Tab.put [] m x.1 x.2) c.knots
      rows := v.rows.foldl (fun m x => Tab.put (0, 0) m x.1 x.2) c.rows
      dark := v.dark.foldl (fun m x => Tab.put 0 m x.1 x.2) c.dark
      lo := some v.lo, rings := rings, calNew := none, calibrated := true, hOff := 0 }
    (s.modCluster cl fun x => x.setCore k (c'.newTCal heat v.kff heat)).noteDrift cl k

/-- A cluster's Taster mark goes once every warm core has completed a slot: it is calibrated (R423). -/
def Cluster.tasterDone (c : Cluster) : Cluster :=
  if c.taster && !c.parkedHeat && (List.range 34).all fun k => !(c.core k).warm || (c.core k).calibrated then
    { c with taster := false, calibrated := true, rotates := false }
  else c

/-- A slot's end: gain scheduling resumes for the rings of its core; its spare is free (R246, R254). -/
def State.endSlot (s : State) (cl : Nat) (x : CalSlot) : State :=
  let s := s.modCore cl x.core Core.slotOver
  let s := s.modCluster cl fun c => { c.tasterDone.listen none with slot := none }
  if (s.cluster cl).spareFor.all fun y => y.1 = x.core then s.freeSpare cl else s

/-- Cluster cl belongs to cluster group g; group 255 is every cluster (R380). -/
def State.inGroup (s : State) (g cl : Nat) : Bool :=
  g = 255 || (Tab.get [] s.fw.groups g).any fun r => r.1 ≤ cl && cl ≤ r.2
/-- The clusters of group g. -/
def State.groupClusters (s : State) (g : Nat) : List Nat := (List.range 832).filter (s.inGroup g)

/-- An armed scheduler entry advances this cluster's rotation (R253, R325). -/
def State.scheduled (s : State) (cl : Nat) : Bool :=
  s.sched.any fun e => field e.2.act 0 4 = 5 && flag e.2.act 4 && s.inGroup (field e.2.act 8 8) cl

/-- The rotation timer of a cluster, without a scheduler entry for it, expires. -/
def effectRotationAdvance (cl : Nat) (s : State) : State :=
  let c := s.cluster cl
  if c.up && !s.scheduled cl && c.rotFrom + c.rotMs.toNat * ms ≤ s.now then
    (s.modCluster cl fun c => { c with rotFrom := s.now }).advance cl
  else s
/-- ROTATION_ADVANCE (R79, R252 to R254, R258, R264, R266, R276). -/
def execRotationAdvance (t cl : Nat) (s : State) : Out := act (cl < 832) t s (effectRotationAdvance cl)

/-- The rank at which a leaving core claims (R261, R264, R268). -/
def Core.claimRank (c : Core) : ClaimRank :=
  match c.cause with
  | some .retire | some .thermal => .retirement
  | _ => .mislock

/-- Claims that arrive in one cycle: a core that leaves service claims at the rank of its cause, unless it has; a spare struck
in a slot claims nothing, since it hands back; a calibration claim is an advance (R23, R24, R259, R261, R266). -/
def effectSpareClaim (cl : Nat) (claims : List (Nat × ClaimRank)) (s : State) : State :=
  s.each (orderClaims claims) fun s x =>
    let c := s.cluster cl
    let k := c.core x.1
    if x.2 = .calibration then s.advance cl
    else
      let known (y : Nat × ClaimRank) : Bool := y.1 = x.1 && claimOrder x.2 ≤ claimOrder y.2
      let ending := x.1 = c.spareCore && c.slot.any fun z => z.step = .handBack
      if k.st = .leaving && k.claimRank = x.2 && !ending && !c.spareFor.any known && !c.spareNext.any known && !c.waiting.any known then
        s.claim cl x
      else s
/-- SPARE_CLAIM (R22 to R26, R258, R259, R261, R266, R268). -/
def execSpareClaim (t cl : Nat) (claims : List (Nat × ClaimRank)) (s : State) : Out :=
  act (cl < 832 && claims.all fun x => x.1 < 34) t s (effectSpareClaim cl claims)

/-- The spare's copy of a claimed core's weight SRAM and trailer store is complete; it loads the next image at once (R261). -/
def effectSpareCopyDone (cl : Nat) (s : State) : State :=
  let c := s.cluster cl
  match c.copyEnd, c.spareFor with
  | some e, some x =>
    if e ≤ s.now then
      let s := s.modCluster cl fun c => { c with copyEnd := none }
      s.modCore cl c.spareCore fun y => { y with slots := (c.core x.1).slots, ready := e + 72 * ns }
    else s
  | _, _ => s
/-- SPARE_COPY_DONE (R22, R261). -/
def execSpareCopyDone (t cl : Nat) (s : State) : Out := act (cl < 832) t s (effectSpareCopyDone cl)

/-- The 1 ms mirror of a slot, to the spare or back, or of a recovered core, is complete (R254, R262). -/
def effectMirrorDone (cl : Nat) (s : State) : State :=
  let c := s.cluster cl
  let due (x : CalSlot) : Bool := x.stepEnd ≤ s.now && x.pausedAt.isNone && x.recFrom.isNone
  let s := match c.recov with
    | some x =>
      if x.step = .mirrorBack && due x then
        (s.modCore cl x.core fun y => { y with slots := (c.core (c.phys (y.home.getD 0))).slots }).modCluster cl fun c =>
          { c with recov := some { x with step := .handBack } }
      else s
    | none => s
  match c.slot with
  | some x =>
    if due x then
      match x.step with
      | .mirror =>
        (s.modCore cl c.spareCore fun y => { y with slots := (c.core x.core).slots }).modCluster cl fun c =>
          { c with slot := some { x with step := .handover } }
      | .mirrorBack =>
        (s.modCore cl x.core fun y => { y with slots := (c.core c.spareCore).slots }).modCluster cl fun c =>
          { c with slot := some { x with step := .handBack } }
      | _ => s
    else s
  | none => s
/-- MIRROR_DONE (R254, R262). -/
def execMirrorDone (t cl : Nat) (s : State) : Out := act (cl < 832) t s (effectMirrorDone cl)

/-! ### Handovers (R22, R23, R254, R259, R261, R262) -/

/-- The core under calibration takes its position back from the spare, at the spare's tile boundary (R254, R259). -/
def State.handBack (s : State) (cl : Nat) (x : CalSlot) : State :=
  let sp := (s.cluster cl).spareCore
  match (s.cluster cl).posOf sp with
  | none => s
  | some p =>
    let s := (s.movePos cl p sp x.core (s.now + 73 * ns)).applyCal cl x.core
    let s := s.modCore cl x.core fun y => { y with st := y.serviceState, home := none }
    let s := if (s.core cl sp).st = .leaving then s.leave cl sp none
      else s.modCore cl sp fun y => { y with st := .spareReady }
    s.endSlot cl x

/-- A higher claim takes the spare from the core it served, at the spare's tile boundary: the position goes back to
that core, in service after a slot, LEAVING and waiting for the wear spare after a mislock (R23, R25). -/
def State.displace (s : State) (cl : Nat) (x : Nat × ClaimRank) : State :=
  let c := s.cluster cl
  let sp := c.spareCore
  match c.posOf sp, c.spareFor with
  | some p, some y =>
    let s := s.movePos cl p sp y.1 (s.now + 73 * ns)
    let s := match y.2, c.slot with
      | .calibration, some z =>
        let s := s.dropSlot cl z
        s.modCore cl z.core fun k => { k with st := k.serviceState, home := none }
      | _, _ =>
        let s := s.modCore cl y.1 fun k => { k with st := .leaving, home := none }
        s.modCluster cl fun c => { c.toWear s.now y with recov := none }
    if (s.core cl sp).st = .leaving then
      ((s.modCluster cl fun c => { c with spareFor := none, spareNext := none }).leave cl sp none).claimWear cl x
    else (s.modCore cl sp fun k => { k with st := .spareReady }).modCluster cl (Cluster.takeSpare s.now sp x)
  | _, _ => s

/-- The start of a slot's calibration: core x.core gives its position p to the spare and becomes CALIBRATING; firmware
makes it the listener of the cluster's feeders (R107, R109, R254, R256). -/
def State.slotOut (s : State) (cl p : Nat) (x : CalSlot) : State :=
  let sp := (s.cluster cl).spareCore
  let s := (s.movePos cl p x.core sp (s.now + 73 * ns)).wears 1
  let s := s.modCore cl sp fun y => { y with st := y.serviceState }
  let s := s.modCore cl x.core fun y => { y with st := .calibrating, home := some p }
  s.modCluster cl fun c => { c.listen (some x.core) with slot := some { x with step := .calibrate } }

/-- A recovered core takes its position back from the core that carried it (R262). -/
def State.recovBack (s : State) (cl k p : Nat) : State :=
  let b := (s.cluster cl).phys p
  let s := s.movePos cl p b k (s.now + 73 * ns)
  let s := s.modCore cl k fun y => { y with st := y.serviceState, home := none, cause := none, probeFails := 0 }
  let s := s.modCluster cl fun c =>
    { c with recov := none, spareFor := if c.spareFor.any fun y => y.1 = k then none else c.spareFor }
  s.spareDone cl b

/-- The ready spare takes the position p of a core that leaves (R22, R261). -/
def State.takeOver (s : State) (cl k p : Nat) : State :=
  let sp := (s.cluster cl).spareCore
  let s := (s.movePos cl p k sp (max s.now (s.core cl sp).ready + 1 * ns)).wears 1
  let s := s.modCore cl sp fun y => { y with st := y.serviceState }
  s.leave cl k (some p)

/-- A handover that is due at its outgoing core's tile boundary takes place: a displaced spare, the start or the end of a
slot, a recovered core's return, a claimed core's position; a slot that a quiet window pauses, or whose core's rings are moved
or an engine swapped, waits; a spare that calibrates itself holds nothing up (R22, R23, R79, R254, R258, R259, R261, R262). -/
def effectHandover (cl : Nat) (s : State) : State :=
  let c := s.cluster cl
  let sp := c.spareCore
  let paused := c.slot.any fun x => x.pausedAt.isSome
  match c.spareNext, c.slot.filter (fun x => !x.selfCal), c.recov, c.spareFor with
  | some x, _, _, _ => if c.atBoundary sp && !paused then s.displace cl x else s
  | none, some x, _, _ =>
    match x.step, c.posOf x.core with
    | .handover, some p =>
      if c.atBoundary x.core && !paused && (c.core sp).st = .spareReady && (c.core x.core).st ≠ .leaving then s.slotOut cl p x else s
    | .handBack, _ =>
      if c.atBoundary sp && !paused && x.recFrom.isNone && x.ready ≤ s.now then s.handBack cl x else s
    | _, _ => s
  | none, none, r, f =>
    match r.filter (fun x => x.step = .handBack) |>.bind fun x => (c.core x.core).home.map fun p => (x.core, p) with
    | some (k, p) => if c.atBoundary (c.phys p) then s.recovBack cl k p else s
    | none =>
      match f.filter (fun y => y.2 ≠ .calibration) |>.bind fun y => (c.posOf y.1).map fun p => (y.1, p) with
      | some (k, p) =>
        if (c.core k).st = .leaving && c.copyEnd.isNone && c.tilesDone k && (c.core sp).st = .spareReady then s.takeOver cl k p
        else s
      | none => s
/-- HANDOVER (R17, R22, R23, R79, R94, R100, R107, R251, R254, R259, R261, R262, R268, R274). -/
def execHandover (t cl : Nat) (s : State) : Out := act (cl < 832) t s (effectHandover cl)

/-! ### The end of a slot's calibration (R37, R237, R255, R257) -/

/-- Physical engines that a calibration finds failed: a gain or offset out of range, or a cell whose LINE_CODES is (R37, R237). -/
def failedEngines (v : CalValues) : List Nat :=
  (v.rows.filter fun x => !calInRange x.2).map (·.1)
    ++ (v.lines.filter fun x => x.2 < 300 || 380 < x.2).map fun x => x.1 / 64

/-- The calibrate step of a slot is over: its spare hands back after a mirror, or the slot ends (R254, R258). -/
def State.slotBack (s : State) (cl : Nat) (x : CalSlot) : State :=
  if x.selfCal then
    ((s.applyCal cl x.core).modCore cl x.core fun y => { y with st := .spareReady, calNew := none }).endSlot cl x
  else
    s.modCluster cl fun c => { c.listen none with slot := some { x with step := .mirrorBack, stepEnd := s.now + ms } }

/-- A core under calibration is lost for good: its slot ends, the spare keeps its position (R22, R264). -/
def State.loseSlot (s : State) (cl : Nat) (x : CalSlot) : State :=
  let s := s.modCluster cl fun c => { c.listen none with slot := none }
  let s := (s.modCore cl x.core Core.slotOver).retireCore cl x.core
  if x.selfCal then s.freeSpare cl else s

/-- The slot's probe line check has passed; with probes forbidden and a model step in the way it is left out (R255, R256). -/
def State.lineChecked (s : State) (cl : Nat) (x : CalSlot) : Bool :=
  x.checked || (s.cluster cl).probesForbidden && x.recFrom.isNone

/-- The calibration of a slot ends with its values: they wait for the hand-back; a failed engine brings in the engine
spare, which grows the slot by 150 ms; with more failed than the spare makes good the core is retired (R22, R37, R254,
R255). -/
def effectCalibrationDone (cl k : Nat) (vals : CalValues) (s : State) : State :=
  let c := s.cluster cl
  match c.slot with
  | some x =>
    if x.step = .calibrate && x.core = k && 2 ^ 16 ≤ x.light && x.ready ≤ s.now && x.pausedAt.isNone && s.lineChecked cl x then
      let bad := ((failedEngines vals).filter fun e => (c.core k).engines.contains e).eraseDups
      if bad.isEmpty then (s.modCore cl k fun y => { y with calNew := some vals }).slotBack cl x
      else
        let s := s.modCore cl k fun y => { y with engFailed := y.engFailed ++ bad }
        if (s.core cl k).broken then s.loseSlot cl x
        else
          let s := (s.mend cl k).modCluster cl fun c => { c with slot := some { x with ready := s.now + 150 * ms } }
          s.ringEvent 0x8027 cl k 0 (bad.headD 0)
    else s
  | none => s
/-- CALIBRATION_DONE (R22, R31, R35, R37, R237, R243, R246, R254, R255, R258, R260, R276). -/
def execCalibrationDone (t cl core : Nat) (vals : CalValues) (s : State) : Out :=
  act (cl < 832 && core < 34) t s (effectCalibrationDone cl core vals)

/-- A slot without 2^16 windows of light by 200 ms keeps the core's calibration and skips to the mirror back (R257); the
time that moving and verifying mislocked rings takes does not count (R262). -/
def effectCalStarved (cl : Nat) (s : State) : State :=
  let c := s.cluster cl
  match c.slot with
  | some x =>
    if x.step = .calibrate && x.light < 2 ^ 16 && x.recFrom.isNone && x.startedAt + 200 * ms ≤ s.now && x.pausedAt.isNone then
      let s := s.modCluster cl fun c => { c with calStarved := satInc c.calStarved }
      let s := s.ringEvent 0x8023 cl x.core 0 x.light
      (s.modCore cl x.core fun y => { y with calNew := none }).slotBack cl x
    else s
  | none => s
/-- CAL_STARVED (R246, R254, R257, R276, R277). -/
def execCalStarved (t cl : Nat) (s : State) : Out := act (cl < 832) t s (effectCalStarved cl)

/-! ### Full calibrations and the wear spare (R21, R22, R25, R37, R431) -/

/-- A core after a full calibration with index n (R255, R260, R276, log entry 35): values of its rings and engines are
those of the calibration, its heater codes are the expected ones; at Mash, of the cluster or, for a core warmed by itself, of
its own, they are the reference of HEATER_DRIFT, with the lock d they belong to. -/
def Core.fullCal (b : CalBase) (heat : Int) (mash : Option Nat) (c : Core) : Core :=
  let c : Core := { c with
    knots := [], rows := [], dark := [], lo := none, calNew := none, calibrated := true, hOff := 0
    rings := c.rings.map fun x =>
      let h := roundEven x.2.out 65536 + x.2.prof
      (x.1, { x.2 with hCal := h, hMash := if mash.isSome then h else x.2.hMash, lineCodes := none, slope := none
                       schedOff := false }) }
  let c := c.newTCal heat b.kff heat
  match mash with
  | some d => { c with hMash := roundEven c.hOffGoal 4000, hLock := d }
  | none => c

/-- Engines in service of core k that a full calibration with index n finds failed, or that had failed before it, and what
follows: the engine spare, or, with more failed than it makes good, the core is lost and a ready spare takes its position
(R22, R37, R237). -/
def State.calFaults (s : State) (cl n k : Nat) : State :=
  let c := s.core cl k
  let bad := c.engines.filter fun e => Config.calFails n cl k e && !c.engFailed.contains e
  if !c.warm || (bad.isEmpty && !c.engines.any c.engFailed.contains) then s
  else
    let s := s.modCore cl k fun y => { y with engFailed := y.engFailed ++ bad }
    if (s.core cl k).broken then
      match (s.cluster cl).posOf k, (s.cluster cl).readySpare with
      | some p, some sp =>
        let s := (s.movePos cl p k sp s.now).wears 1
        (s.modCore cl sp fun y => { y with st := y.serviceState }).retireCore cl k
      | some _, none => (s.modCore cl k fun y => { y with st := .leaving, cause := some .retire }).claimWear cl (k, .retirement)
      | none, _ => s.retireCore cl k
    else
      let s := s.mend cl k
      match bad with
      | e :: _ => s.ringEvent 0x8027 cl k 0 e
      | [] => s

/-- The wear spare is warm: ramped, locked and calibrated, with free values of its own; it enters unsettled (R21, R247,
R249, R255, log entry 35). -/
def State.warmUp (s : State) (cl w : Nat) : State :=
  let n := s.free + 1
  let heat := (s.cluster cl).heat
  let s := s.draw.modCore cl w fun c =>
    Core.fullCal { draw := n, cl := cl, k := w } heat (some (s.cluster cl).lockDraw)
      { st := .spareReady, engines := c.engines, engFailed := c.engFailed, calDraw := some n, entered := true
        prefetchDiscard := c.prefetchDiscard, gatherRange := c.gatherRange, dynimgSpecial := c.dynimgSpecial }
  (s.wears 2).calFaults cl n w

/-- The wear spare takes the position of the highest claim that waits, at its core's tile boundary; with no claim waiting it
becomes the rotation spare where none is ready (R22, R23, R25, R251, R264). -/
def State.useWear (s : State) (cl w : Nat) : State :=
  let c := s.cluster cl
  let used (c : Cluster) : Cluster := { c with wear := none, wearWarm := none }
  match c.nextClaim with
  | some x =>
    match c.posOf x.1 with
    | some p =>
      if c.tilesDone x.1 then
        let s := match c.slot with | some z => if z.core = w then s.dropSlot cl z else s | none => s
        let s := (s.movePos cl p x.1 w (s.now + 73 * ns)).modCluster cl fun c => { used c with waiting := c.waiting.erase x }
        let s := s.modCore cl w fun y => { y with st := y.serviceState }
        s.leave cl x.1 (if c.spareFor.any fun y => x.1 = c.spareCore && y.1 ≠ x.1 then none else some p)
      else s
    | none => s.modCluster cl fun c => { c with waiting := c.waiting.erase x }
  | none =>
    if c.spareFor.isNone && (c.core c.spareCore).st ≠ .spareReady then
      (s.modCluster cl fun c => { used c with spareCore := w }).freeSpare cl
    else s.modCluster cl fun c => { c with wearWarm := none }

/-- The wear spare is due: its 250 ms and its heaters' ramp are over. -/
def effectWearSpareReady (cl : Nat) (s : State) : State :=
  let c := s.cluster cl
  match c.wearWarm, c.wear with
  | some e, some w =>
    let ready := if (c.core w).st = .cold then ramped c.wearLim c.lockDraw cl (e - 250 * ms) s.now
      else (c.core w).ready ≤ s.now && ((c.core w).st = .spareReady || c.slot.any fun z => z.core = w)
    if e ≤ s.now && c.up && ready then
      let s := if (c.core w).st = .cold then s.warmUp cl w else s
      if (s.core cl w).st = .retired then s.modCluster cl fun c => { c with wear := none, wearWarm := none }
      else if (s.core cl w).ready ≤ s.now then s.useWear cl w
      else s
    else s
  | _, _ => s
/-- WEAR_SPARE_READY (R20 to R22, R25, R247, R249, R251, R255, R264). -/
def execWearSpareReady (t cl : Nat) (s : State) : Out := act (cl < 832) t s (effectWearSpareReady cl)

/-! ### Mislock and engine faults (R259 to R266, R274) -/

/-- A core that stops granting credits and leaves: the tiles it has granted carry SUSPECT, after a loss of lock UNSETTLED,
after a thermal range exit UNSETTLED alone (R250, R261, R266, R268, R274). -/
def Core.depart (cause : LeaveCause) (c : Core) : Core :=
  let heat := cause = .thermal
  let mark (r : TileRun) : TileRun :=
    { r with suspect := r.suspect || !heat, unsettled := r.unsettled || heat || c.st = .unsettled }
  { c with st := .leaving, cause := some cause, run := c.run.map mark
           tile := if c.grant.isSome then c.tile.map mark else c.tile }

/-- A core in service is struck; where it is the spare that carries a slot's position, that slot ends with the previous
calibration and the turn is repeated (R259, R261, R268, R274). -/
def State.strike (s : State) (cl k : Nat) (cause : LeaveCause) : State :=
  let s := s.modCore cl k (Core.depart cause)
  let c := s.cluster cl
  match c.slot with
  | some x =>
    if k = c.spareCore && x.carried then
      let s := s.modCore cl x.core fun y => { y with calNew := none }
      s.modCluster cl fun c =>
        { c.listen none with slot := some { x with step := .handBack }, repeatTurn := c.repeatTurn ++ [x.core] }
    else s
  | none => s

/-- The spare k, which carries nothing, can serve no longer: a slot in its mirror ends, a claim goes to the wear spare (R22). -/
def State.spareLost (s : State) (cl k : Nat) : State :=
  let c := s.cluster cl
  if k = c.spareCore then
    match c.spareFor with
    | some y => (s.yieldClaim cl y).modCluster cl fun c => { c with spareFor := none, copyEnd := none }
    | none => s
  else s

/-- The time of a slot's calibration stops while its core's rings are moved and verified (R262). -/
def CalSlot.recovers (now : Nat) (x : CalSlot) : CalSlot := { x with checked := false, recFrom := some (x.recFrom.getD now) }

/-- The slot of core k changes. -/
def Cluster.modSlot (k : Nat) (f : CalSlot → CalSlot) (c : Cluster) : Cluster :=
  { c with slot := c.slot.map fun x => if x.core = k then f x else x }

/-- A core whose mislocked rings R261 or R262 handles: it is in service, under calibration, a ready spare or recovering. -/
def Core.mislockActs (c : Core) : Bool :=
  match c.st with
  | .inService | .unsettled | .calibrating | .spareReady | .recovering => true
  | _ => false

/-- A recovered core that mirrors back or waits for its position has to recover again: it keeps the position it takes back
(R262, R274). -/
def Cluster.recovStops (k : Nat) (c : Cluster) : Cluster :=
  { c with recov := if c.recov.any fun x => x.core = k then none else c.recov }

/-- Mislocked rings found in a core: counted, and reported where R261 or R262 handles them; a core in service becomes LEAVING;
a core out of service has them moved back and is verified, a spare meanwhile being no spare (R259, R261, R262, R266, R277). -/
def State.mislocked (s : State) (cl k : Nat) (xs : List (Nat × Int)) : State :=
  if xs.isEmpty then s
  else
    let s := if (s.core cl k).mislockActs then s.raiseMislock cl k xs else s
    let s := s.modCluster cl fun c => { c with mislocks := satAdd c.mislocks xs.length }
    let s := s.modCore cl k fun c =>
      xs.foldl (fun c x => c.setRing x.1 { c.ring x.1 with mislock := x.2, found := true }) c
    match (s.core cl k).st with
    | .inService | .unsettled => s.strike cl k .mislock
    | .calibrating => (s.modCluster cl (Cluster.modSlot k (CalSlot.recovers s.now))).moveMislocked cl k
    | .spareReady =>
      ((s.spareLost cl k).modCore cl k fun c => { c with st := .recovering, cause := some .mislock, home := none }).moveMislocked cl k
    | .recovering => (s.modCluster cl (Cluster.recovStops k)).moveMislocked cl k
    | _ => s

/-- The rings of a core that the heater check finds mislocked, with n; a ring known to be mislocked is not found again
(R260). -/
def State.heaterCheck (s : State) (cl k : Nat) : List (Nat × Int) :=
  let c := s.core cl k
  let b := s.calBase cl k
  c.active8.filterMap fun r =>
    let x := c.ring r
    let d := s.heaterCode cl k r - s.expCode cl k r
    let line := c.lineCodes b r
    if x.moving.isNone && !x.found && (s.cluster cl).mislockFrac.toNat * line < 100 * d.natAbs then
      some (r, roundEven d line)
    else none

/-- A check at moment g: the last good check of every ring that it did not find, that does not move and is not known to be
mislocked, is this one; the other rings keep theirs (R260). -/
def Core.noteCheck (g : Nat × Nat × Nat) (xs : List (Nat × Int)) (c : Core) : Core :=
  let stale (r : Nat) (x : Ring) : Bool := x.moving.isSome || x.found || xs.any fun y => y.1 = r
  let rings := (xs.map (·.1)).foldl (fun m r => Tab.put {} m r { Tab.get {} m r with
    badSince := some (((Tab.get {} m r).badSince).getD c.lastGood) }) c.rings
  let rings := rings.map fun x =>
    (x.1, { x.2 with badSince := if stale x.1 x.2 then some (x.2.badSince.getD c.lastGood) else none })
  { c with rings := rings, lastGood := g
           written := if rings.any (fun x => stale x.1 x.2) then c.written else [] }

/-- A check of a core, with what it finds (R260, R263). -/
def State.checked (s : State) (cl k : Nat) (xs : List (Nat × Int)) : State :=
  let g := ((s.ang.todSeconds s.now).toNat, s.ang.todNanos s.now, s.ang.cycLo.toNat)
  (s.modCore cl k (Core.noteCheck g xs)).mislocked cl k xs

/-- A recovery is over: a core with a position mirrors back, one without is ready as a spare (R259, R262). -/
def State.recovered (s : State) (cl k : Nat) : State :=
  match (s.core cl k).home with
  | some _ =>
    if (s.cluster cl).recov.isNone then
      s.modCluster cl fun c => { c with recov := some { core := k, step := .mirrorBack, stepEnd := s.now + ms } }
    else s
  | none => s.spareBack cl k

/-- A probe check failed after recovery: a second recovery; at the second failure the core is retired, the core that
carries its position keeps it (R264). -/
def State.recoveryFailed (s : State) (cl k : Nat) (wrong : List (Nat × Int)) : State :=
  let n := (s.core cl k).probeFails + 1
  let s := s.checked cl k wrong
  if n < 2 then s.modCore cl k fun c => { c with probeFails := n }
  else (s.retireCore cl k).modCluster cl fun c => { c with recov := if c.recov.any fun x => x.core = k then none else c.recov }

/-- A core that probe packets may light (R109). -/
def Core.listens (c : Core) : Bool :=
  match c.st with
  | .calibrating | .spareReady | .recovering => true
  | _ => false

/-- No ring of a core moves, a swapped engine is calibrated, and the core is settled (R249, R262). -/
def Core.relocked (now : Nat) (c : Core) : Bool :=
  3 ≤ c.goodRun && c.ready ≤ now && c.active8.all fun r => (c.ring r).moving.isNone

/-- The rings that answered a probe packet in a window other than their own: n is the distance. A ring that the list does not
name answered in its own window alone; window 64 stands for none (R260; log entry 88). -/
def probeWrong (seen : List (Nat × Nat)) : List (Nat × Int) :=
  seen.filterMap fun x => if x.2 = x.1 % 64 || x.2 = 64 then none else some (x.1, (x.2 : Int) - (x.1 % 64 : Nat))

/-- Every ring answered, in its own window and in no other (R260). -/
def probePassed (seen : List (Nat × Nat)) : Bool := seen.all fun x => x.2 = x.1 % 64

/-- The test image of a probe check: every code +127 (R260). -/
def testImage : WImage := { code := List.replicate 512 127 }

/-- The core holds the test image for a probe check (R260). -/
def Core.holdTest (b : CalBase) (now : Nat) (c : Core) : Core :=
  { c with active := some { image := testImage, drive := c.driveCodes b testImage, start := now, usable := true } }

/-- A good probe check of a core: no ring of it is known to be mislocked any more (R260, R262). -/
def Core.verified (c : Core) : Core := { c with rings := c.rings.map fun x => (x.1, { x.2 with found := false, mislock := 0 }) }

/-- A probe check that every ring passes (R260, R263). -/
def State.verified (s : State) (cl k : Nat) : State := (s.modCore cl k Core.verified).checked cl k []

/-- A running model step uses the cluster. -/
def State.inUse (s : State) (cl : Nat) : Bool :=
  s.fw.images.any fun x => x.2.running && (x.2.placed.getD []).contains cl

/-- A feeder may light core k with a probe packet: its next FEED is not ready, no other light is on the core, and where
probes are forbidden no model step runs (R93, R109, R256). -/
def State.mayProbe (s : State) (cl f k : Nat) : Bool :=
  let c := s.cluster cl
  let idle := match (c.feeder f).packet with
    | none => true
    | some p => p.phase = .waiting && p.readySince.isNone
  c.up && idle && (!c.probesForbidden || !s.inUse cl) && (c.core k).listens && (c.feeder f).notBefore ≤ s.now
    && !(c.heldByOthers s.now f).contains k

/-- Feeder f as firmware sets its entry for a probe packet to core k: a changed entry clears its route (R100, R109). -/
def Cluster.probeEntry (f k : Nat) (c : Cluster) : Feeder := (c.feeder f).listen (some k)

/-- The end of a probe packet from feeder f to core k: 2 ns of reconfiguration unless the feeder's route is this core alone,
then 64 windows of 8 ns, not before a swap on the core has ended (R44, R101, R256). -/
def Cluster.probeEnd (now f k : Nat) (c : Cluster) : Nat :=
  max (symbolEdge now + if (c.probeEntry f k).route = some [k] then 0 else 2 * ns) (c.core k).swapUntil + probeTu

/-- The feeder is taken by the probe packet, its entry naming the core; other feeders' routes through the core are cleared
(R93, R100, R101, R109, R256). -/
def Cluster.probe (now f k : Nat) (c : Cluster) : Cluster :=
  let e := c.probeEnd now f k
  (c.dropRoutes [k]).setFeeder f { c.probeEntry f k with probe := some (k, e), notBefore := e, route := some [k] }

/-- The slot of a core whose moved rings a probe check has verified goes on: the time this took does not count (R262). -/
def CalSlot.resumes (now : Nat) (x : CalSlot) : CalSlot :=
  let d := (x.recFrom.map fun r => now - r).getD 0
  { x with checked := true, recFrom := none, startedAt := x.startedAt + d, stepEnd := x.stepEnd + d }

/-- A probe check of the core under calibration: light gathered while it calibrates, and the line check of its slot; once
rings have been moved it verifies them, and at the second failure of that the core is retired (R255, R256, R260, R262,
R264). -/
def State.probeSlot (s : State) (cl k : Nat) (x : CalSlot) (seen : List (Nat × Nat)) : State :=
  if x.core ≠ k || (x.step ≠ .calibrate && x.recFrom.isNone) || x.pausedAt.isSome then s
  else
    let s := if x.step = .calibrate then s.modCluster cl (Cluster.modSlot k fun x => { x with light := x.light + 64 }) else s
    if x.recFrom.isSome && !(s.core cl k).relocked s.now then s
    else if probePassed seen then
      ((s.verified cl k).modCore cl k fun c => { c with probeFails := 0 }).modCluster cl
        (Cluster.modSlot k (CalSlot.resumes s.now))
    else
      let n := (s.core cl k).probeFails + if x.recFrom.isSome then 1 else 0
      let s := (s.checked cl k (probeWrong seen)).modCore cl k fun c => { c with probeFails := n }
      match (s.cluster cl).slot with
      | some x => if n < 2 then s else s.loseSlot cl x
      | none => s

/-- A feeder without a ready FEED issues a 512 ns probe packet to a core without a position, whose entry firmware writes for
it and which holds the test image: 64 windows of light, and the probe check of R260 with the windows in which rings answered
otherwise than in their own alone. -/
def effectProbePacket (cl f k : Nat) (seen : List (Nat × Nat)) (s : State) : State :=
  if s.mayProbe cl f k then
    let s := s.modCluster cl (Cluster.probe s.now f k)
    let s := s.modCore cl k (Core.holdTest (s.calBase cl k) s.now)
    match (s.core cl k).st, (s.cluster cl).slot with
    | .recovering, _ =>
      if !(s.core cl k).relocked s.now then s
      else if probePassed seen then (s.verified cl k).recovered cl k
      else s.recoveryFailed cl k (probeWrong seen)
    | .calibrating, some x => s.probeSlot cl k x seen
    | _, _ =>
      if probePassed seen then s.verified cl k
      else if (probeWrong seen).isEmpty then s
      else s.checked cl k (probeWrong seen)
  else s
/-- PROBE_PACKET (R93, R100, R101, R107 to R109, R255, R256, R260, R262 to R264, R277). -/
def execProbePacket (t cl f core : Nat) (seen : List (Nat × Nat)) (s : State) : Out :=
  act (cl < 832 && f < 4 && core < 34 && seen.all fun x => x.1 < 576 && x.2 ≤ 64) t s (effectProbePacket cl f core seen)

/-- A receiver or row ADC fault on a row of a core: in service it leaves as for a mislock, SUSPECT set; under calibration
the engine spare comes in and the slot grows; a core out of service gets it at once and is verified; with more failed
than the spare makes good the core is retired and no engine is spared (R22, R31, R259, R274, R277). -/
def effectEngineSpared (cl k row : Nat) (s : State) : State :=
  let c := s.core cl k
  if (s.cluster cl).up && c.warm then
    let e := c.engines.getD row 0
    let s := s.modCore cl k fun c => { c with engFailed := if c.engFailed.contains e then c.engFailed else c.engFailed ++ [e] }
    let broken := (s.core cl k).broken
    let s := match c.st, (s.cluster cl).slot with
      | .inService, _ | .unsettled, _ => s.strike cl k .engineFault
      | .calibrating, some x =>
        if broken then s.loseSlot cl x
        else (s.mend cl k).modCluster cl (Cluster.modSlot k fun x => { x with ready := s.now + 150 * ms })
      | .spareReady, _ =>
        let s := s.spareLost cl k
        if broken then s.retireCore cl k
        else (s.modCore cl k fun c => { c with st := .recovering, cause := some .engineFault, home := none, goodRun := 0 }).mend cl k
      | .recovering, _ =>
        let s := s.modCluster cl (Cluster.recovStops k)
        if broken then s.retireCore cl k else (s.modCore cl k fun c => { c with goodRun := 0 }).mend cl k
      | .heldOut, _ => if broken then s.retireCore cl k else s.mend cl k
      | _, _ => s
    if broken then s else s.ringEvent 0x8027 cl k row e
  else s
/-- ENGINE_SPARED (R22, R31, R259, R274, R277). -/
def execEngineSpared (t cl core row : Nat) (s : State) : Out :=
  act (cl < 832 && core < 34 && row < 8) t s (effectEngineSpared cl core row)

/-! ### Thermal range (R267 to R270) -/

/-- Every running model step that uses a cluster is to be aborted, with a cause. -/
def State.abortUsing (s : State) (cl cause : Nat) : State :=
  s.each ((s.fw.images.filter fun x => x.2.running && (x.2.placed.getD []).contains cl).map (·.1)) fun s i =>
    s.markAbort i cause 0xFFFF

/-- A core on factory calibration; its heaters stay (R269, log entries 7 and 79). -/
def Core.factory (heat : Int) (c : Core) : Core :=
  let rings : Tab Ring := c.rings.map fun x => (x.1, { x.2 with lineCodes := none, slope := none })
  let d : Core := { c with knots := [], rows := [], dark := [], lo := none, calDraw := none, calibrated := false, rings := rings }
  if c.warm then d.newTCal heat 68 260000 else c

/-- The core that has left its heater range: in service it leaves; under calibration, recovering or as a spare it is
HELD_OUT at once, and what carries its position keeps it as a claim of retirement rank (R251, R268). -/
def State.heldOut (s : State) (cl k : Nat) : State :=
  let out (s : State) : State :=
    (s.modCore cl k fun c => { c.slotOver with st := .heldOut, cause := some .thermal, home := none, calNew := none }).modCluster
      cl (Cluster.unlisten k)
  let c := s.cluster cl
  match (c.core k).st, c.slot with
  | .inService, _ | .unsettled, _ => s.strike cl k .thermal
  | .calibrating, some x =>
    let s := (out s).modCluster cl fun c => { c.listen none with slot := none }
    if x.selfCal then s.freeSpare cl else s.modCluster cl fun c => { c with spareFor := some (k, .retirement) }
  | .recovering, _ =>
    (out s).modCluster cl fun c =>
      { c with recov := if c.recov.any fun x => x.core = k then none else c.recov
               spareFor := c.spareFor.map fun y => if y.1 = k then (k, .retirement) else y }
  | .spareReady, _ => out (s.spareLost cl k)
  | _, _ => s

/-- A ring has left its heater range: its core goes to be HELD_OUT; the cluster's steps are aborted, factory calibration is
loaded, the cluster goes into Taster service, parked with fewer than 32 cores (R268, R269). -/
def State.thermalOut (s : State) (cl k r : Nat) : State :=
  let s := s.heldOut cl k
  let s := s.modCluster cl fun c => { c with thermalRange := satInc c.thermalRange }
  let temp := (s.cluster cl).heat / 4000
  let s := (s.ringEvent 0x8024 cl k r (wrapTo 32 temp)).abortUsing cl 5
  s.modCluster cl fun c =>
    let out := (List.range 34).filter fun k => (c.core k).st ≠ .retired && (c.core k).st ≠ .heldOut && (c.core k).cause ≠ some .thermal
    let heat := c.heat
    (List.range 34).foldl (fun c k => c.modCore k (Core.factory heat))
      { c with taster := true, parkedHeat := true, calDraw := 0, parked := c.parked || out.length < 32 }

/-- A cluster restarts: the switch keeps no route and no listener entry, a packet leaves none either (R100). -/
def Cluster.clearRoutes (c : Cluster) : Cluster := c.eachFeeder fun x => { x.clearRoute with listener := none }

/-- A restart of a cluster begins: about 300 ms, in which its heaters ramp to the free codes at which its rings lock anew
(R247, R431; log entry 34). The switch keeps no route and no listener; an open quiet window goes without a close (R100;
DESIGN CHOICE, log entry 80). -/
def State.beginRestart (s : State) (cl : Nat) : State :=
  let n := s.free + 1
  s.draw.modCluster cl fun c =>
    { c.clearRoutes with
      restart := some (s.now + 300 * ms), slot := none, recov := none, spareNext := none, copyEnd := none
      quiet := none, advHeld := false, remap := false, relockDraw := n, rampLim := c.limits }

/-- After 1 s in band firmware restarts a cluster that R269 put into Taster service or parked; model steps that use it
are aborted, for the cause of its thermal event (R270; DESIGN CHOICE, log entry 88). -/
def effectClusterReturn (cl : Nat) (s : State) : State :=
  let c := s.cluster cl
  match c.bandSince with
  | some b => if c.parkedHeat && c.up && b + sec ≤ s.now then (s.abortUsing cl 5).beginRestart cl else s
  | none => s
/-- CLUSTER_RETURN (R270). -/
def execClusterReturn (t cl : Nat) (s : State) : Out := act (cl < 832) t s (effectClusterReturn cl)

/-- A ring after its cluster's relock: one that a remap moved keeps the codes it is held at, its move having ended; the
reference of HEATER_DRIFT stays (R271, R276). -/
def Ring.relocked (remap : Bool) (x : Ring) : Ring :=
  if remap then
    { prof := (x.moving.map (·.1)).getD x.prof, out := x.out, integ := x.integ, sec := x.sec, set := x.set, hMash := x.hMash }
  else { hMash := x.hMash }

/-- A warm core after its cluster's relock: in service, unsettled at first, or a ready spare, HELD_OUT cores as well; its
weight SRAM holds zeros (R249, R270, R271, R458). -/
def Cluster.relockCore (c : Cluster) (k : Nat) (x : Core) : Core :=
  if x.warm then
    { x with
      st := if (c.posOf k).isSome then .unsettled else .spareReady
      cause := none, home := none, probeFails := 0, goodRun := 0, entered := true, mon := [], calDraw := none
      rings := x.rings.foldl (fun m r => Tab.put {} m r.1 (r.2.relocked c.remap)) []
      tile := none, run := none, grant := none, ready := 0, slots := [], shadow := none, active := none, prefetch := none
      forward := [], cut := none }
  else x

/-- The restart is over: rings relocked, at free heater codes but for a remap, a full calibration of free values with what
it finds failed, which is Mash's where the cluster had not completed it; positions stay, a warm core without one is the
rotation spare; the profile's count of clusters is kept (R22, R37, R270, R276, R431, R438, log entries 34 and 35). -/
def State.relock (s : State) (cl : Nat) : State :=
  let c := s.cluster cl
  let idle := (List.range 34).filter fun k => (c.posOf k).isNone && (c.core k).warm
  let spare := if idle.contains c.spareCore then c.spareCore else idle.headD c.spareCore
  let n := s.free + 1
  let heat := c.heat
  let lock := if c.remap then c.lockDraw else c.relockDraw
  let mash := if c.calibrated then none else some lock
  let c := (List.range 34).foldl (fun d k =>
    d.setCore k (if (c.core k).warm then Core.fullCal { draw := n, cl := cl, k := k } heat mash (c.relockCore k (c.core k))
      else c.core k)) c
  let s := s.draw.setCluster cl
    { c.clearRoutes with
      restart := none, locked := true, calibrated := true, rotates := false, taster := false, parked := false, parkedHeat := false
      spareCore := spare, spareFor := none, waiting := [], wearWarm := if idle.isEmpty then c.wearWarm else none
      lockDraw := lock, calDraw := n, outerDraw := 0, remap := false }
  (s.each (List.range 34) fun s k => (s.noteDrift cl k).calFaults cl n k).settleProfile

/-- The moves of a remap are over. -/
def Cluster.movesOver (c : Cluster) (now : Nat) : Bool :=
  c.cores.all fun x => x.2.rings.all fun r => r.2.moving.all fun m => m.2 ≤ now

/-- A cluster's restart ends: its 300 ms and its heaters' moves are over (R247, R271, R431). -/
def effectClusterRestartEnd (cl : Nat) (s : State) : State :=
  let c := s.cluster cl
  match c.restart with
  | some e =>
    let moved := if c.remap then c.movesOver s.now else e - 300 * ms + s.restartTu cl ≤ s.now
    if e ≤ s.now && !c.retired && moved then s.relock cl else s
  | none => s
/-- CLUSTER_RESTART_END (R22, R247, R270, R271, R431). -/
def execClusterRestartEnd (t cl : Nat) (s : State) : Out := act (cl < 832) t s (effectClusterRestartEnd cl)

/-! ### The loops (R241 to R250, R268) -/

/-- Region boundaries and hysteresis of a ring's heater code (R244). -/
def ringRegion (h : Int) (k : Nat) : Nat := region 0x400 0x800 0xC00 0x20 h k

/-- The sections of a ring loop for a coefficient set: 2 sections and KI (10 "Ring loops", log entry 25). -/
def Cluster.ringBank (c : Cluster) (set : Nat) : List (List Int) :=
  (List.range 2).map fun k => (List.range 5).map fun i =>
    (Tab.get (if i = 0 then 0x40000000 else 0) c.ringCoef (set * 31 + 5 * k + i)).toInt

/-- One inner update of a ring: LOCK_ERR against the set-point, detector, cascade, integrator within the heater range
(R242, R244 to R246, R280, R281, R293, R294). -/
def State.innerRing (s : State) (cl k r : Nat) (err : Int) : State :=
  let c := s.cluster cl
  let x := (c.core k).ring r
  let good := err.natAbs ≤ c.settleThresh.toNat * 65536
  if x.moving.isSome || s.now < x.resumeAt then s
  else if x.frozen ≠ 0 then
    s.modCore cl k fun y => y.setRing r { x with lockErr := err, good := good, frozen := x.frozen - 1 }
  else
    let a := s.toSignal (s.ringSp cl k r - err)
    let s := a.1
    let osc := x.osc.count 1024 0x00800000 a.2
    if 16 ≤ osc.crossings && 0x01000000 ≤ osc.peak then
      let s := s.modCluster cl fun c => { c with lockOsc := satInc c.lockOsc }
      let s := s.modCore cl k fun y => y.setRing r { x with lockErr := err, good := good, frozen := 10, set := 0, schedOff := true, osc := {} }
      s.ringEvent 0x8022 cl k r x.set
    else
      let base := s.lockBase cl k r * 65536
      let lo := 0x008 * 65536 - base
      let hi := 0xFF7 * 65536 - base
      let set := if x.schedOff then 0 else x.set
      let q := cascade (c.ringBank set) x.sec a.2
      let d := (toQ ((Tab.get (0 : Word) c.ringCoef (set * 31 + 30)).toInt * q.1)).1
      let u := controlLaw { imin := lo, imax := hi, omin := lo, omax := hi } q.1 d x.integ 0
      let x := { x with lockErr := err, good := good, osc := osc, sec := q.2.1, integ := u.1, out := u.2
                        clamped := if u.2 = lo || u.2 = hi then x.clamped + 1 else 0 }
      let h := clampInt (s.lockBase cl k r + x.sum (c.core k).ff x.prof) 0x008 0xFF7
      s.modCore cl k fun y => y.setRing r { x with set := if x.schedOff then 0 else ringRegion h set }

/-- The settled count and state of a core after an inner update (R248, R249). -/
def Core.settleStep (c : Core) : Core :=
  let n := if c.allGood then c.goodRun + 1 else 0
  { c with goodRun := n
           entered := c.entered && n < 3
           st := match c.st with
             | .inService => if n = 0 then .unsettled else .inService
             | .unsettled => if 3 ≤ n then .inService else .unsettled
             | x => x }

/-- A ring whose inner output held at a clamp for two updates with LOCK_ERR above the threshold (R268). -/
def Core.outOfRange (c : Core) (thresh : Nat) : Option Nat :=
  c.active8.find? fun r => 2 ≤ (c.ring r).clamped && thresh * 65536 < (c.ring r).lockErr.natAbs

/-- A core that leaves its heater range is to be HELD_OUT; a core that leaves anyway or is out already is not (R268). -/
def Core.holds (c : Core) : Bool :=
  match c.st with
  | .leaving | .heldOut | .cold | .retired => false
  | _ => true

/-- The samples of the monitor photodiodes join the record of a warm core; every 999 µs, once the record is full, its inner
loops update: not inside a quiet window nor for 2 ms after it; then the settled threshold, the heater range, and the
heater check of an unsettled core (R74, R76, R240 to R242, R249, R260, R268). -/
def effectInnerUpdate (cl k : Nat) (samples : List (List Nat)) (s : State) : State :=
  let c := s.cluster cl
  if c.up && (c.core k).warm then
    let s := s.modCore cl k (Core.sample s.now samples)
    if c.quiet.isNone && c.innerOff ≤ s.now && (c.core k).lastInner + 999 * us ≤ s.now && (s.core cl k).recordFull then
      let s := s.each (c.core k).active8 fun s r => s.innerRing cl k r (s.lockErrOf cl k r)
      let s := s.modCore cl k fun y => { y.settleStep with lastInner := s.now }
      let y := s.core cl k
      match y.holds, y.st, y.outOfRange c.settleThresh.toNat with
      | true, _, some r => s.thermalOut cl k r
      | _, .unsettled, none => s.checked cl k (s.heaterCheck cl k)
      | _, _, _ => s
    else s
  else s
/-- INNER_UPDATE (R74, R76, R240 to R242, R244 to R250, R260, R261, R266 to R268, R276, R277). -/
def execInnerUpdate (t cl core : Nat) (samples : List (List Nat)) (s : State) : Out :=
  act (cl < 832 && core < 34) t s (effectInnerUpdate cl core samples)

/-- Every 10 ms the outer loops set new inner set-points and the settings of R275 take effect; every warm core's
heater check runs; an update inside a quiet window is skipped with its check (R74, R242, R260). -/
def effectOuterUpdate (cl : Nat) (s : State) : State :=
  let c := s.cluster cl
  if c.up && c.lastOuter + 10 * ms ≤ s.now then
    if c.quiet.isSome then s.modCluster cl fun c => { c with lastOuter := s.now }
    else
      let n := s.free + 1
      let s := s.draw.modCluster cl fun c =>
        { c with lastOuter := s.now, outerDraw := n, settleThresh := c.settleNext, mislockFrac := c.fracNext }
      s.each ((List.range 34).filter fun k => (c.core k).warm) fun s k => s.checked cl k (s.heaterCheck cl k)
  else s
/-- OUTER_UPDATE (R74, R242, R260 to R263, R266, R276, R277). -/
def execOuterUpdate (t cl : Nat) (s : State) : Out := act (cl < 832) t s (effectOuterUpdate cl)

/-! ### Quiet windows (R73 to R79) -/

/-- A quiet window closes: dither resumes, inner updates 2 ms later, a paused slot goes on, a held advance runs; windows up
to the close keep the paused figure (R75, R76, R78, R79). -/
def State.closeQuiet (s : State) (cl e : Nat) : State :=
  let s := s.modCluster cl fun c =>
    { c with quiet := none, quietClosed := some e, innerOff := e + 2 * ms
             quietLast := c.quiet.map fun q => (q.openedAt, e)
             slot := c.slot.map fun x =>
               match x.pausedAt with
               | some p => { x with pausedAt := none, startedAt := x.startedAt + (e - p), stepEnd := x.stepEnd + (e - p)
                                    ready := x.ready + (e - p) }
               | none => x }
  s.heldAdvance cl

/-- A sensor stays from 45 to 85 °C with a slew of at most 5 °C/ms (R270). -/
def inBand (old new : Int) : Bool := 45000 ≤ new && new ≤ 85000 && (new - old).natAbs ≤ 500

/-- Every 100 µs the feedforward term of every warm core moves towards its target by at most 40 codes; the sensors' slew
over the update is noted; a sensor more than 0.5 °C from its value at the opening closes a quiet window early (R64, R78,
R242, R243, R270). -/
def effectFeedforwardUpdate (cl : Nat) (sensors : List Int) (s : State) : State :=
  let c := s.cluster cl
  if c.up && c.lastFf + 100 * us ≤ s.now then
    let xs := (List.range 4).map fun i => sensors.getD i (c.sensors.getD i 0)
    let band := (List.range 4).all fun i => inBand (c.sensors.getD i 0) (xs.getD i 0)
    let s := s.modCluster cl fun c =>
      { c with sensors := xs, lastFf := s.now, bandSince := if band then some (c.bandSince.getD s.now) else none
               slew := ((List.range 4).map fun i => 10 * (xs.getD i 0 - c.sensors.getD i 0).natAbs).foldl max 0 }
    let heat := (s.cluster cl).heat
    let s := s.each ((List.range 34).filter fun k => (c.core k).warm) fun s k => s.modCore cl k (Core.feedForward heat)
    match c.quiet with
    | some q =>
      if (List.range 4).any fun i => 500 < (xs.getD i 0 - q.base.getD i 0).natAbs then
        (s.closeQuiet cl s.now).raise 0x802A (toLe 2 cl)
      else s
    | none => s
  else s
/-- FEEDFORWARD_UPDATE (R64, R74, R78, R242, R243, R267, R270). -/
def execFeedforwardUpdate (t cl : Nat) (sensors : List Int) (s : State) : Out :=
  act (cl < 832) t s (effectFeedforwardUpdate cl sensors)

/-- A quiet window of 10 µs units requested for one cluster: refused while one is open or less than 9 ms after one
closed; a length above 1 ms is clipped and counted, one below 10 µs counts as 10 µs (R73, R77). A refused request does not
count in QUIET_CLIP (DESIGN CHOICE, log entry 81). -/
def State.openQuiet1 (tens : Nat) (s : State) (cl : Nat) : State :=
  let c := s.cluster cl
  if c.quiet.isSome || (c.quietClosed.any fun e => s.now < e + 9 * ms) then
    (s.modCluster cl fun c => { c with quietRefused := satInc c.quietRefused }).raise 0x8029 (toLe 2 cl)
  else
    s.modCluster cl fun c =>
      { c with quiet := some { openedAt := s.now, len := max 1 (min tens 100) * 10 * us, base := c.sensors }
               quietClip := if 100 < tens then satInc c.quietClip else c.quietClip
               slot := c.slot.map fun x => { x with pausedAt := some s.now } }

/-- A quiet window requested for a list of clusters. -/
def State.openQuiet (s : State) (cls : List Nat) (tens : Nat) : State := s.each cls (State.openQuiet1 tens)
/-- A request for the named clusters. -/
def effectQuietWindowOpen (cls : List Nat) (tens : Nat) (s : State) : State := s.openQuiet cls tens
/-- QUIET_WINDOW_OPEN (R73, R74, R77, R79). -/
def execQuietWindowOpen (t : Nat) (cls : List Nat) (tens : Nat) (s : State) : Out :=
  act (cls.all fun c => c < 832) t s (effectQuietWindowOpen cls tens)

/-- A quiet window reaches its length. -/
def effectQuietClose (cl : Nat) (s : State) : State :=
  match (s.cluster cl).quiet with
  | some q => if q.openedAt + q.len ≤ s.now then s.closeQuiet cl (q.openedAt + q.len) else s
  | none => s
/-- QUIET_CLOSE (R75, R76, R79). -/
def execQuietClose (t cl : Nat) (s : State) : Out := act (cl < 832) t s (effectQuietClose cl)

/-! ### Line and comb switch-over (R22, R271 to R273) -/

/-- The standby comb takes over, with its own 4 spare lines (R22, R272, R273). -/
def Cluster.switchComb (c : Cluster) : Cluster :=
  { c with comb := 1, combWorn := false, combRatio := 1000, spareLines := 4, lineShift := [] }

/-- The lines in use, by the position of the cells that they serve: the first 64 that are not mapped out (R22, R271). -/
def Cluster.usedLines (c : Cluster) : List Nat := ((List.range 68).filter fun l => !c.lineShift.contains l).take 64

/-- The tiles that a cluster's cores have granted carry SUSPECT (R271). -/
def Cluster.suspectAll (c : Cluster) : Cluster :=
  let mark (r : TileRun) : TileRun := { r with suspect := true }
  { c with cores := c.cores.map fun x =>
      (x.1, { x.2 with run := x.2.run.map mark, tile := if x.2.grant.isSome then x.2.tile.map mark else x.2.tile }) }

/-- Every ring of a cluster at position j and upward moves one line (R247, R271); lines of higher number lie at higher heater
codes (DEDUCED, log entry 82). -/
def State.shiftLines (s : State) (cl j : Nat) : State :=
  let c := s.cluster cl
  s.each ((List.range 34).filter fun k => (c.core k).warm) fun s k =>
    let y := c.core k
    let b := s.calBase cl k
    s.each (y.active8.filter fun r => j ≤ r % 64) fun s r => s.moveRing cl k r (y.lineCodes b r)

/-- A used comb line lost power: the cluster stops, its steps are aborted, and it restarts with a spare line, which
LINE_REMAPPED reports, with the standby comb once the lines are used, or is retired with the standby in use (R271, R272,
R277). -/
def effectLineRemapped (cl line : Nat) (s : State) : State :=
  let c := s.cluster cl
  if c.up && c.usedLines.contains line then
    let s := s.modCluster cl Cluster.suspectAll
    let s := s.abortUsing cl 6
    if c.spareLines ≠ 0 then
      let s := (s.wears 3).shiftLines cl (c.usedLines.findIdx (· = line))
      let s := s.modCluster cl fun c => { c with spareLines := c.spareLines - 1, lineShift := c.lineShift ++ [line] }
      let s := (s.beginRestart cl).modCluster cl fun c => { c with remap := true }
      s.ringEvent 0x8026 cl 0 line (c.spareLines - 1)
    else if c.comb = 0 then ((s.wears 4).modCluster cl Cluster.switchComb).beginRestart cl
    else s.modCluster cl fun c => { c with retired := true, permit := false }
  else s
/-- LINE_REMAPPED (R22, R26, R247, R271, R272, R277). -/
def execLineRemapped (t cl line : Nat) (s : State) : Out :=
  act (cl < 832 && line < 68) t s (effectLineRemapped cl line)

/-- The 10 s check of the active comb's drive current, in 1/1000 of its initial value (R273). -/
def effectCombWorn (cl ratio : Nat) (s : State) : State :=
  let c := s.cluster cl
  if c.up && c.combCheck + 10 * sec ≤ s.now then
    let s := s.modCluster cl fun c =>
      { c with combCheck := s.now, combRatio := BitVec.ofNat 16 ratio, combWorn := c.combWorn || 1600 < ratio }
    if 1600 < ratio && !c.combWorn then s.ringEvent 0x8025 cl 0 0 ratio else s
  else s
/-- COMB_WORN (R273, R277). -/
def execCombWorn (t cl ratio : Nat) (s : State) : Out := act (cl < 832 && ratio < 65536) t s (effectCombWorn cl ratio)

/-- Firmware switches a worn comb to the standby in a gap of 300 ms without a model step on the cluster (R273). -/
def effectWornCombSwitch (cl : Nat) (s : State) : State :=
  let c := s.cluster cl
  if c.up && c.combWorn && c.comb = 0 && !s.inUse cl && c.idleSince + 300 * ms ≤ s.now then
    ((s.wears 4).modCluster cl Cluster.switchComb).beginRestart cl
  else s
/-- WORN_COMB_SWITCH (R22, R273). -/
def execWornCombSwitch (t cl : Nat) (s : State) : Out := act (cl < 832) t s (effectWornCombSwitch cl)

end Sys2Proof.Machine
end

