-- ==== Sys2Proof/Machine/AngleTime.lean ====
section
/-! DEFINITION. The angle timebase, its sources, sample clocks, the angle scheduler and the time of day (R185, R186,
R316 to R326). -/

namespace Sys2Proof.Machine

open Sys2Proof.Config

/-! ### Phase (R316 to R319) -/

/-- One cycle in phase units. -/
abbrev turn : Nat := 2 ^ 32

/-- The unwrapped phase: cycle count × 2^32 + phase (R185). -/
def Angle.unwrapped (a : Angle) : Nat := a.cycles.toNat * turn + a.phase.toNat

/-- The timebase moved on by n units (R316). -/
def Angle.move (n : Nat) (a : Angle) : Angle :=
  let p := a.phase.toNat + n
  { a with phase := BitVec.ofNat 32 p, cycles := a.cycles + BitVec.ofNat 48 (p / turn), prev := (a.phase, a.cycLo) }

/-- Phase units of 1 µs at a frequency in Q16.16 Hz; one that is no whole number is rounded as a free value says
(log entry 11). -/
def increment (freq : Word) (up : Bool) : Nat :=
  let n := freq.toNat * 65536
  n / 1000000 + if up ∧ n % 1000000 ≠ 0 then 1 else 0

/-- A phase difference as the shorter way round, from -180° to 180°. -/
def shortWay (d : Int) : Int :=
  let x := d % (turn : Int)
  if x ≤ 2 ^ 31 then x else x - turn

/-- 0.1° in phase units (R319). -/
abbrev tenthDegree : Nat := 1193046

/-- The source in use. -/
def Angle.source (a : Angle) : Nat := field a.ctrl 0 2

/-- A tracked frequency, from 0.01 Hz to 1 kHz, of a loop of a bandwidth (R317, log entry 12). -/
def tracked (n bw : Nat) : Word := BitVec.ofNat 32 (0x28F + Config.trackedFreq n bw % (0x03E80000 - 0x28F + 1))

/-- The reference's phase: encoder edges since the Z index, which is angle 0, or the time since the last pulse at the tracked
frequency; a source whose phase no row gives has none (R317, log entry 12). -/
def Angle.reference (now : Nat) (a : Angle) : Option Int :=
  match a.source with
  | 2 => a.encZ.map fun z => (a.encPos - z) * turn / (max (field a.enc 0 20) 1 : Nat)
  | 3 => if a.ppcSeen then some (((now - a.ppcAt) * a.freq.toNat * 65536 / sec : Nat) : Int) else none
  | _ => none

/-- The phase error to the reference, ANG_OFFSET included, the shorter way round (R316, R317). -/
def Angle.refError (n now : Nat) (a : Angle) : Int :=
  shortWay (match a.reference now with
    | some r => r + a.offset.toNat - a.phase.toNat
    | none => Config.phaseError n)

/-- The frequency and state of the timebase before an update: free-run takes ANG_FREQ_SET, a lost source holds the
frequency, a good one is tracked; LOCKED while the phase error is below 0.1° (R317, R318). -/
def Angle.steer (n now : Nat) (a : Angle) : Angle :=
  if a.source = 0 then { a with freq := a.freqSet }
  else if a.lost then a
  else
    { a with freq := tracked n (field a.ctrl 2 6)
             locked := if a.pull.isSome then a.locked else (a.refError n now).natAbs < tenthDegree }

/-- The phase step of an update: nothing while a reverse move freezes it; the increment, in a pull-in changed by 2 % towards
the reference until the error is below 0.1°, when HOLDOVER clears and LOCKED sets, where the source is there (R316, R318 to
R320). -/
def Angle.step (n : Nat) (a : Angle) : Angle :=
  if a.reverse then a.move 0
  else
    let inc := increment a.freq (Config.phaseRoundsUp n)
    match a.pull with
    | none => a.move inc
    | some e =>
      let m := min inc e.natAbs
      let left : Int := if e < 0 then e + m else e - m
      let k := e.natAbs / 50 - left.natAbs / 50
      let b := a.move (if e < 0 then inc - k else inc + k)
      if left.natAbs < 50 * tenthDegree then { b with pull := none, holdover := b.lost, locked := !b.lost }
      else { b with pull := some left }

/-- Crossings of an angle between two unwrapped phases (R185). -/
def crossings (u0 u1 angle : Nat) : Int :=
  ((u1 : Int) - angle) / (turn : Int) - ((u0 : Int) - angle) / (turn : Int)

/-- The cycle that a crossing of an angle belongs to (R323). -/
def crossedCycle (u1 angle : Nat) : Nat := (u1 - angle) / turn

/-! ### What an update sets off (R185, R322 to R325) -/

/-- Channels whose sample clock is code c of CLK_SEL take a tick (R322, R334). -/
def State.tickOutputs (s : State) (keep : Nat → Bool) (c : Nat) : State :=
  s.each (List.range 16) fun s n =>
    let f := s.fout n
    if keep n && f.enable && f.clkSel.toNat = c && f.source ≠ 2 then s.modFout n (Fout.offerTick n s.now) else s

/-- Sample clock m: at most one tick an update, a second one due is lost and counted (R322). -/
def State.sampleClock (s : State) (u0 u1 m : Nat) : State :=
  let w := s.ang.sclk.getD m 0
  let per := field w 0 12 + 1
  let n := u1 * per / turn - u0 * per / turn
  if !flag w 12 || n = 0 then s
  else
    let s := { s with ang := { s.ang with sclkLost := satAdd s.ang.sclkLost (n - 1) } }
    let s := s.triggerConvs fun _ c => flag c.ctrl 8 && (flag c.ctrl 9 == (m == 1))
    s.tickOutputs (fun _ => true) (m + 1)

/-- The response to a STEP_START as BUSY, present state running (R375, R382). -/
def busyAnswer (b : List Byte) : List Byte :=
  b.take 4 ++ toLe 1 4 ++ (b.drop 5).take 3 ++ toLe 2 0x40 ++ toLe 2 1 ++ List.replicate 52 0

/-- The response at place k of a channel, to a STEP_START, becomes BUSY: in its outbound slot, or among the messages held
behind the ring (R375, R382). -/
def Channel.busyStart (k : Nat) (c : Channel) : Channel :=
  let behind := (BitVec.ofNat 16 k - c.outTail).toNat
  if behind < c.held.length then { c with held := c.held.modify behind fun m => { m with slot := busyAnswer m.slot } }
  else
    let a := 0x800 + 0x40 * (k % 32)
    { c with page := c.page.write a (busyAnswer (c.page.readN a 64)) }

/-- The scheduler's start of an image: before Tap it starts a Taster job in Taster service only; in the cycle of a STEP_START
that started the step, the scheduler start counts as the one that did and the command gets BUSY (R178, R325, R382,
R422; log entry 86). -/
def State.schedStart (s : State) (img : Nat) : State :=
  if s.aon.stage ≠ 3 && !(s.aon.taster && (s.image img).img.taster) then s
  else match (s.image img).cmdStart with
  | some x =>
    if (s.image img).running && x.1 = s.now / cycle then
      (s.dropStart img).modChan x.2.1 (Channel.busyStart x.2.2)
    else s.startStep img
  | none => s.startStep img

/-- The action of scheduler entry e (R325); ANGLE_EVENT carries the event code and the entry (R386). -/
def State.schedAction (s : State) (e : Nat) (act : Word) : State :=
  match field act 0 4 with
  | 1 => s.schedStart (field act 8 8)
  | 2 => s.triggerConvs fun k c => flag c.ctrl 7 && flag act (8 + k)
  | 3 => s.tickOutputs (fun n => flag act (8 + n)) 3
  | 4 => s.openQuiet (s.groupClusters (field act 8 8)) (field act 16 16)
  | 5 => s.each (s.groupClusters (field act 8 8)) State.advance
  | 6 => s.raise 0x8101 (toLe 2 (field act 8 16) ++ toLe 2 e)
  | _ => s

/-- An entry whose PHASE is not below its DIVISOR (R323). -/
def SchedEntry.bad (e : SchedEntry) : Bool := field e.cyc 0 16 < field e.cyc 16 16

/-- An entry as an update sees it: a write in the cycle of the update takes effect from the next one (R324). -/
def SchedEntry.seen (now : Nat) (e : SchedEntry) : SchedEntry :=
  if e.since = some (now / cycle) then { angle := e.was.1, cyc := e.was.2.1, act := e.was.2.2 } else e

/-- An entry fires at a crossing of its angle in a cycle whose count modulo DIVISOR is PHASE (R323). -/
def SchedEntry.fires (u0 u1 : Nat) (e : SchedEntry) : Bool :=
  flag e.act 4 && !e.bad && 0 < crossings u0 u1 e.angle.toNat
    && crossedCycle u1 e.angle.toNat % (field e.cyc 0 16 + 1) = field e.cyc 16 16

/-- ANG_STAT.CFG_ERR: an entry breaks R323. -/
def State.schedCheck (s : State) : State := { s with ang := { s.ang with cfgErr := s.sched.any fun e => e.2.bad } }

/-- A WAITANG at an update: a crossing that SKIP lets pass, or the one it completes on; an update in the fabric cycle in
which the unit reached the WAITANG does not count for it (R185). -/
def Prog.crossed (now u0 u1 : Nat) (p : Prog) : Prog :=
  match p.ang with
  | none => p
  | some (a, skip) =>
    if crossings u0 u1 a.toNat ≤ 0 || p.angAt / cycle = now / cycle then p
    else match skip with
      | 0 => { p with ang := none, pos := p.pos + 1, busyUntil := now }
      | k + 1 => { p with ang := some (a, k) }

/-- Memberships of cluster groups that firmware wrote since the last scheduler update (R380). -/
def State.nextGroups (s : State) : State :=
  { s with fw := { s.fw with groups := s.fw.groupsNext.foldl (fun m x => Tab.put [] m x.1 x.2) s.fw.groups, groupsNext := [] } }

/-- An update of the timebase, 1 µs after the last: new memberships of cluster groups hold; the phase moves, then sample
clocks, scheduler entries in ascending index and waiting units see the crossings (R185, R316, R317, R319, R322 to R325). -/
def effectAngleUpdate (s : State) : State :=
  if s.hostUp && s.ang.lastUpdate + us ≤ s.now then
    let u0 := s.ang.unwrapped
    let s : State := { s.draw.nextGroups with ang := { ((s.ang.steer s.free s.now).step s.free) with lastUpdate := s.now } }
    let u1 := s.ang.unwrapped
    let s : State := { s with progs := s.progs.map fun x => (x.1, x.2.crossed s.now u0 u1) }
    let s : State := (s.sampleClock u0 u1 0).sampleClock u0 u1 1
    s.each ((s.sched.map fun x => (x.1, x.2.seen s.now)).filter fun x => x.2.fires u0 u1) fun s x => s.schedAction x.1 x.2.act
  else s
/-- ANGLE_UPDATE (R73, R77, R178, R185, R186, R253, R310, R311, R316 to R319, R322 to R325, R334, R335). -/
def execAngleUpdate (t : Nat) (s : State) : Out := act true t s effectAngleUpdate

/-! ### Losses (R317, R318) -/

/-- The selected source is lost: holdover at the held frequency, LOSS, ANG_LOSS (R318). -/
def State.loseSource (s : State) : State :=
  let a := s.ang
  ({ s with ang := { a with
    lost := true, lostAt := s.now, loss := true, fresh := freshen s.now 2 a.fresh, holdover := true, locked := false
    pull := none, goodCycles := 0 } }).raise 0x8033 (layBytes 8 [(0, toLe 1 a.source), (4, toLe 4 a.freq.toNat)])

/-- The three-phase amplitude stayed below 10 % for 2 cycles, or its frequency left the range (R317). -/
def effectThreePhaseLoss (s : State) : State := if s.hostUp && s.ang.source = 1 && !s.ang.lost then s.loseSource else s
/-- THREE_PHASE_LOSS (R317, R318). -/
def execThreePhaseLoss (t : Nat) (s : State) : Out := act true t s effectThreePhaseLoss

/-- No encoder edge for LOSS_TMO ms (R317, R327). -/
def effectEncoderLoss (s : State) : State :=
  let a := s.ang
  if s.hostUp && a.source = 2 && !a.lost && a.encAt / ms + field a.encTmo 0 16 + 1 ≤ s.now / ms then s.loseSource else s
/-- ENCODER_LOSS (R172, R317, R318, R327). -/
def execEncoderLoss (t : Nat) (s : State) : Out := act true t s effectEncoderLoss

/-- No pulse within 1.5 periods at the held frequency, counted in 1 µs edges from the first one after the last pulse (R172,
R317, R327). -/
def effectPpcLoss (s : State) : State :=
  let a := s.ang
  if s.hostUp && a.source = 3 && !a.lost &&
      3 * sec * 65536 ≤ 2 * ((s.now / us - (a.ppcAt / us + 1)) * us) * a.freq.toNat then s.loseSource else s
/-- PPC_LOSS (R172, R317, R318, R327). -/
def execPpcLoss (t : Nat) (s : State) : Out := act true t s effectPpcLoss

/-- A pull-in towards a reference begins with a phase error in units (R319). -/
def Angle.pullIn (e : Int) (a : Angle) : Angle := { a with pull := some (50 * e), holdover := true, locked := false }

/-- A cycle of this length lies outside 0.01 Hz to 1 kHz (R317). -/
def offBand (dt : Nat) : Bool := dt < ms || 100 * sec < dt

/-- The lost source is valid again, after 2 good cycles, those of the three-phase source c and d tu long, or 256 encoder edges:
the phase is pulled in (R319). -/
def effectSourceReacquired (c d : Nat) (s : State) : State :=
  let a := s.ang
  let good := match a.source with
    | 2 => 256 ≤ a.goodCycles
    | 3 => 2 ≤ a.goodCycles
    | _ => !offBand c && !offBand d && a.lostAt + c + d ≤ s.now
  if s.hostUp && a.lost && good then
    { s.draw with ang := { a with lost := false }.pullIn (a.refError s.free s.now) }
  else s
/-- SOURCE_REACQUIRED (R319). -/
def execSourceReacquired (r : Seen GoodCycles) (s : State) : Out :=
  act true r.t s (effectSourceReacquired r.it.first r.it.second)

/-! ### Edges (R317, R320) -/

/-- Place of A and B in the forward order 00, 10, 11, 01 (log entry 36). -/
def quadrant (a b : Bool) : Nat :=
  match a, b with
  | false, false => 0
  | true, false => 1
  | true, true => 2
  | false, true => 3

/-- A sample of the encoder lines: any edge restarts the loss timer; both changed counts in ENC_ERR; one step moves the
position; below the highest position the phase is frozen and REVERSE reads 1 (R320). -/
def Angle.encoder (now : Nat) (x y : Bool) (a : Angle) : Angle :=
  let d := (quadrant x y + 4 - quadrant a.encAB.1 a.encAB.2) % 4
  let a := { a with encAB := (x, y) }
  match d with
  | 0 => a
  | 2 => { a with encErr := satInc a.encErr, encAt := now }
  | _ =>
    let p := if d = 1 then a.encPos + 1 else a.encPos - 1
    let top := max a.encTop p
    { a with encPos := p, encTop := top, reverse := a.source = 2 && p < top, encAt := now
             goodCycles := if a.lost then a.goodCycles + 1 else a.goodCycles }
/-- A forward edge counted in the encoder's cycle of COUNTS edges; the cycle it completes took less than 1 ms or more than 100 s:
above 1 kHz or below 0.01 Hz, which counts as loss (R317). -/
def Angle.encCycle (now : Nat) (a : Angle) : Angle × Bool :=
  let n := a.encTurn.1 + 1
  if field a.enc 0 20 ≤ n then ({ a with encTurn := (0, now) }, offBand (now - a.encTurn.2))
  else ({ a with encTurn := (n, a.encTurn.2) }, false)
/-- An edge at the encoder inputs; the Z index is angle 0 of the reference, and edges that only make up for a reverse move add
nothing to the cycle (R317, R320). -/
def effectEncoderEdge (x y z : Bool) (s : State) : State :=
  if s.hostUp then
    let a := s.ang.encoder s.now x y
    let a := if z then { a with encZ := some a.encPos } else a
    if a.encTop = s.ang.encTop then { s with ang := a }
    else
      let b := a.encCycle s.now
      let s := { s with ang := b.1 }
      if b.2 && a.source = 2 && !a.lost then s.loseSource else s
  else s
/-- ENCODER_EDGE (R317, R319, R320). -/
def execEncoderEdge (t : Nat) (a b z : Bool) (s : State) : Out := act true t s (effectEncoderEdge a b z)

/-- An edge at the pulse-per-cycle input: the selected one is the reference; a period, from one pulse to the next, outside
0.01 Hz to 1 kHz counts as loss (R317). -/
def effectPpcEdge (falling : Bool) (s : State) : State :=
  let a := s.ang
  if s.hostUp && a.source = 3 && flag a.ctrl 8 == falling then
    let good := a.ppcSeen && 2 * (s.now - a.ppcAt) * a.freq.toNat < 3 * sec * 65536 && !offBand (s.now - a.ppcAt)
    let s' := { s with ang := { a with
      ppcAt := s.now, ppcSeen := true, goodCycles := if a.lost then (if good then a.goodCycles + 1 else 0) else 0 } }
    if !a.lost && a.ppcSeen && offBand (s.now - a.ppcAt) then s'.loseSource else s'
  else s
/-- PPC_EDGE (R317, R319). -/
def execPpcEdge (t : Nat) (falling : Bool) (s : State) : Out := act true t s (effectPpcEdge falling)

/-! ### Time of day (R326) -/

/-- An edge of the 1 PPS input: held seconds load, with nanoseconds 0; later edges steer the rate from then on; one more than
1 ms off sets PPS_LOSS, and the counter runs free until 4 edges in a row come in time (R326, log entry 27). -/
def Angle.pps (now : Nat) (rate : Int) (a : Angle) : Angle :=
  let old := (a.todSec, a.todBase, a.todRem, a.todPull)
  match a.todPending with
  | some v => { a with todSec := v, todPending := none, todBase := now, todRem := 0, todPull := 0, todOld := old, ppsGood := 0
                       ppsLock := true }
  | none =>
    let n := a.todNanos now
    let off := min n (1000000000 - n)
    let based := { a with todSec := a.todSeconds now, todBase := now, todRem := a.todTu now % sec, todOld := old }
    if 1000000 < off then
      { based with ppsLoss := true, ppsFresh := freshen now 2 a.ppsFresh, ppsLock := false, ppsGood := 0, todPull := 0 }
    else
      let g := a.ppsGood + 1
      if a.ppsLock || 4 ≤ g then { based with ppsGood := g, ppsLock := true, todPull := rate } else { based with ppsGood := g }
/-- A 1 PPS edge. -/
def effectPpsEdge (s : State) : State :=
  if s.hostUp then { s.draw with ang := s.ang.pps s.now (Config.todRate s.free) } else s
/-- PPS_EDGE (R326). -/
def execPpsEdge (t : Nat) (s : State) : Out := act true t s effectPpsEdge

/-- Seconds written wait for the next 1 PPS edge (R326). -/
def effectAngTodSecWrite (fn : Nat) (v : Word) (s : State) : State :=
  s.angWrite fn fun s => { s with ang := { s.ang with todPending := some v } }
/-- ANG_TOD_SEC_WRITE (R10, R326, R328). -/
def execAngTodSecWrite (t fn : Nat) (v : Word) (s : State) : Out := act (writer fn) t s (effectAngTodSecWrite fn v)

/-! ### ANG_OFFSET, ANG_CTRL, ANG_CYC_LO -/

/-- A change of ANG_OFFSET is pulled in; the phase does not jump (R319). -/
def effectAngOffsetWrite (fn : Nat) (v : Word) (s : State) : State :=
  s.angWrite fn fun s =>
    let a := s.ang
    let e := shortWay (a.pull.getD 0 / 50 + v.toNat - a.offset.toNat)
    if v = a.offset then s else { s with ang := { a with offset := v }.pullIn e }
/-- ANG_OFFSET_WRITE (R10, R316, R319, R328). -/
def execAngOffsetWrite (t fn : Nat) (v : Word) (s : State) : Out := act (writer fn) t s (effectAngOffsetWrite fn v)

/-- A new ANG_CTRL word: a bandwidth outside 1 to 50 Hz stays. -/
def Angle.ctrlWord (v : Word) (a : Angle) : Word :=
  let w := BitVec.ofNat 32 (field v 0 9)
  if 1 ≤ field v 2 6 ∧ field v 2 6 ≤ 50 then w else putField w 2 6 (field a.ctrl 2 6)

/-- A write of ANG_CTRL: a change of SOURCE is pulled in; the three-phase source takes converter 0 (R313, R319, R328). -/
def effectAngSourceWrite (fn : Nat) (v : Word) (s : State) : State :=
  s.angWrite fn fun s =>
    let a := s.ang
    let b := { a with ctrl := a.ctrlWord v }
    if b.source = a.source then { s with ang := b }
    else
      let b := { b with lost := false, reverse := false, encAt := s.now, ppcAt := s.now, ppcSeen := false, lastThree := s.now
                        goodCycles := 0, encTop := b.encPos, encTurn := (0, s.now) }
      let b := b.pullIn (if b.source = 0 then 0 else b.refError s.free s.now)
      ({ s.draw with ang := b }).modConv 0 fun k =>
        if b.source = 1 then { k with run := none, slot := 0, held := false } else { k with three := none }
/-- ANG_SOURCE_WRITE (R10, R313, R317, R319, R328). -/
def execAngSourceWrite (t fn : Nat) (v : Word) (s : State) : Out := act (writer fn) t s (effectAngSourceWrite fn v)

/-- A read of ANG_CYC_LO returns the low half of the cycle count and latches ANG_CYC_HI (R329). -/
def effectAngCycLoRead (fn : Nat) (s : State) : State :=
  if s.hostUp then
    { s with ang := { s.ang with cycHi := BitVec.ofNat 16 (s.ang.cycles.toNat / turn) }
             readOut := { who := fn, data := toLe 4 s.ang.cycLo.toNat } }
  else s
/-- ANG_CYC_LO_READ (R10, R329). -/
def execAngCycLoRead (t fn : Nat) (s : State) : Out := act (writer fn) t s (effectAngCycLoRead fn)

end Sys2Proof.Machine
end

