-- ==== Sys2Proof/Machine/Mailbox.lean ====
section
/-! DEFINITION. Mailboxes, doorbells, event delivery and locks (R354 to R372). -/

namespace Sys2Proof.Machine

open Sys2Proof.Config

/-! ### The PCIe configuration identity (R350, R353) -/

/-- A function's PCIe configuration identity. -/
structure PciIdentity where
  vendor : Half := 0x1F7A       -- Vendor ID, which MCTP messages carry too (R356)
  device : Half                 -- Device ID
  revision : Byte := 0x01       -- Revision ID: stepping A1
  classCode : BitVec 24 := 0x120000   -- processing accelerator
  bar0 : Nat := 0x4000000       -- bytes of BAR0
  bar0Bits : Nat := 64          -- address bits of BAR0
  bar0Prefetch : Bool := false  -- BAR0 is prefetchable
  bar2 : Option (Nat × Nat)     -- least and largest bytes of BAR2, which is resizable between them
  bar2Bits : Nat := 64          -- address bits of BAR2
  bar2Prefetch : Bool := true   -- BAR2 is prefetchable
  msix : Nat := 64              -- MSI-X vectors
deriving DecidableEq, Repr

/-- The identity of PF0 (fn = 0) and of VF fn, 1 to 63: only PF0 has BAR2 (R350, R353). -/
def pciIdentity (fn : Nat) : PciIdentity :=
  if fn = 0 then { device := 0x4847, bar2 := some (2 ^ 30, 2 ^ 40) } else { device := 0x4848, bar2 := none }

/-! ### Committing inbound slots (R354 to R359, R362) -/

/-- Identity stamped into byte 7 of n slots from index i on (R359). -/
def stamp (ch : Nat) (page : Memory) (i : Nat) : Nat → Memory
  | 0 => page
  | n + 1 => stamp ch (page.write (0x40 * (i % 32) + 7) [BitVec.ofNat 8 ch]) (i + 1) n

/-- The inbound doorbell with a new TAIL: rejected and counted when it moves back, more than 32 slots forward or
more than 32 ahead of the head; otherwise the slots are stamped and committed (R359, R362). -/
def Channel.doorbell (ch : Nat) (tail : Half) (c : Channel) : Channel :=
  let d := (tail - c.inTail).toNat
  if d = 0 then c
  else if 32 < d ∨ 32 < (tail - c.inHead).toNat then { c with badDb := c.badDb + 1 }
  else { c with page := stamp ch c.page c.inTail.toNat d, inTail := tail }

/-- A whole slot committed by a sender without a BAR: it enters the ring stamped; with the ring full it is turned
away like a doorbell (R354, R356, R359, R362). -/
def Channel.commitSlot (ch : Nat) (slot : List Byte) (c : Channel) : Channel :=
  if c.inFill < 32 then
    ({ c with page := c.page.write (0x40 * (c.inTail.toNat % 32)) (padTo 64 slot) }).doorbell ch (c.inTail + 1)
  else { c with badDb := c.badDb + 1 }

/-- A sender reaches its channel: also while D1 is held in reset, where doorbells are kept, but not under PERST# (R373; log
entry 2). -/
def State.chanUp (s : State) : Bool := s.aon.power && !(s.aon.inReset && s.aon.perst)

/-- The sender of a channel writes its page and pointers itself: the BMC and the link peers send whole messages (R354,
R356). -/
def ringWriter (ch : Nat) : Bool := ch ≤ 63 || ch = 65 || 130 ≤ ch

/-- A write of MBX_IN_TAIL. -/
def effectDoorbell (ch : Nat) (v : Word) (s : State) : State :=
  if s.chanUp && ringWriter ch then s.modChan ch (Channel.doorbell ch (BitVec.ofNat 16 v.toNat)) else s
/-- DOORBELL (R354, R359, R362, R363, R373). -/
def execDoorbell (t ch : Nat) (v : Word) (s : State) : Out := act (ch < 160) t s (effectDoorbell ch v)

/-- A complete MCTP message of type 0x7E with the Vendor ID of R350 is one inbound slot of channel 64. -/
def effectMctpMessage (kind : Byte) (vendor : Half) (slot : List Byte) (s : State) : State :=
  if s.chanUp && kind = 0x7E && vendor = (pciIdentity 0).vendor then s.modChan 64 (Channel.commitSlot 64 slot) else s
/-- MCTP_MESSAGE (R350, R354, R356, R359). -/
def execMctpMessage (t : Nat) (m : MctpMessage) (s : State) : Out :=
  act true t s (effectMctpMessage m.kind m.vendor m.slot)

/-! ### The outbound ring's head (R365 to R367, R373) -/

/-- MBX_OUT_HEAD written: rejected and counted when it moves back or past TAIL; a ring left not empty raises vector 0,
unless its tail has advanced in the same cycle, which has raised the one vector of both (tail0: the tail when the cycle
began; R366, R367). -/
def Channel.outHeadWrite (ch : Nat) (tail0 head : Half) (c : Channel) : Channel :=
  if c.outFill < (head - c.outHead).toNat then { c with badDb := c.badDb + 1 }
  else
    let c := { c with outHead := head }
    if ch ≤ 63 && 0 < c.outFill && c.outTail = tail0 then c.raiseVector 0 else c
/-- A write of MBX_OUT_HEAD. -/
def effectMbxOutHeadWrite (ch : Nat) (v : Word) (s : State) : State :=
  if s.chanUp && ringWriter ch then
    s.modChan ch (Channel.outHeadWrite ch (Tab.get {} s.snap.chans ch).outTail (BitVec.ofNat 16 v.toNat))
  else s
/-- MBX_OUT_HEAD_WRITE (R365 to R367, R373). -/
def execMbxOutHeadWrite (t ch : Nat) (v : Word) (s : State) : Out := act (ch < 160) t s (effectMbxOutHeadWrite ch v)

/-- The next held event or response of a channel is written. -/
def effectEventDelivery (ch : Nat) (s : State) : State :=
  if s.fw.serving then s.modChan ch (Channel.deliverHeld (s.headsDue ch) ch) else s
/-- EVENT_DELIVERY (R263, R277, R365 to R367, R385 to R387). -/
def execEventDelivery (t ch : Nat) (s : State) : Out := act (ch < 160) t s (effectEventDelivery ch)

/-! ### Locks (R369 to R372) -/

/-- Identities that may use the locks: every PCIe function and the test port (R356, R369). -/
def lockUser (who : Nat) : Bool := who ≤ 63 || who = 65

/-- The value of LCK n, and of LCK_PEEK n (R369, R373). -/
def Locks.value (l : Locks) (n : Nat) : Word :=
  match Tab.get 0 l.owner n with
  | 0 => 0
  | k + 1 => 0x80000000 ||| BitVec.ofNat 32 k

/-- The identity of a command that reads LCK n. -/
def readsLock (n : Nat) : Instr → Option Nat
  | .lockRead _ who k => if k = n then some who else none
  | .rcRead _ who off => if lockUser who ∧ off / 4 * 4 = 0x300000 + 4 * n then some who else none
  | _ => none
/-- The identity of a command that writes LCK n. -/
def writesLock (n : Nat) : Instr → Option Nat
  | .lockWrite _ who k _ => if k = n then some who else none
  | .registerWrite _ who off _ => if lockUser who ∧ off / 4 * 4 = 0x300000 + 4 * n then some who else none
  | _ => none

/-- Releases of the present fabric cycle that a read has already taken ahead: lock and owner (R371). -/
def State.releasesAhead (s : State) : List (Nat × Nat) :=
  if s.locks.ahead.1 = s.now / cycle + 1 then s.locks.ahead.2 else []

/-- The lock's owner still releases it in the present fabric cycle (R371; log entry 28). -/
def State.releaseDue (s : State) (n : Nat) : Bool :=
  match Tab.get 0 s.locks.owner n with
  | 0 => false
  | k + 1 => (s.inCycle.filterMap (writesLock n)).contains k && !s.releasesAhead.contains (n, k)

/-- The lock is free for a read: it has no owner, or its owner releases it in the same cycle (R371). -/
def State.lockFree (s : State) (n : Nat) : Bool := Tab.get 0 s.locks.owner n = 0 || s.releaseDue n

/-- Identity who acquires lock n; a release that its owner still sends in this fabric cycle is taken ahead (R369, R371). -/
def State.acquire (s : State) (who n : Nat) : Locks :=
  { s.locks with
    owner := Tab.put 0 s.locks.owner n (who + 1)
    ahead := if s.releaseDue n then (s.now / cycle + 1, (n, Tab.get 0 s.locks.owner n - 1) :: s.releasesAhead) else s.locks.ahead }

/-- The lowest identity that reads a lock in the present fabric cycle, beside the reader itself (R370). -/
def State.lowestReader (s : State) (who n : Nat) : Nat := (s.inCycle.filterMap (readsLock n)).foldl min who

/-- A read of LCK n returns its value; a free lock goes to the lowest identity that reads it in the cycle, and each other
reader sees that identity as owner (R369, R370, R371). -/
def effectLockRead (who n : Nat) (s : State) : State :=
  if s.hostUp then
    if s.lockFree n then
      let low := s.lowestReader who n
      if low = who then
        { s with locks := s.acquire who n
                 readOut := { who := who, data := [0, 0, 0, 0] } }
      else { s with readOut := { who := who, data := toLe 4 (0x80000000 ||| BitVec.ofNat 32 low : Word).toNat } }
    else { s with readOut := { who := who, data := toLe 4 (s.locks.value n).toNat } }
  else s
/-- LOCK_READ (R10, R369 to R371). -/
def execLockRead (t who n : Nat) (s : State) : Out := act (lockUser who && n < 64) t s (effectLockRead who n)

/-- A write of LCK n: the owner's releases the lock, or has released it where a read of the same cycle took it ahead; any
other is ignored and recorded (R371). -/
def effectLockWrite (who n : Nat) (_v : Word) (s : State) : State :=
  if s.hostUp then
    if s.releasesAhead.contains (n, who) then
      { s with locks := { s.locks with ahead := (s.locks.ahead.1, s.locks.ahead.2.erase (n, who)) } }
    else if Tab.get 0 s.locks.owner n = who + 1 then { s with locks := { s.locks with owner := Tab.put 0 s.locks.owner n 0 } }
    else { s with locks := { s.locks with denied := s.locks.denied + 1, deniedId := BitVec.ofNat 8 who
                                          deniedLock := BitVec.ofNat 6 n } }
  else s
/-- LOCK_WRITE (R10, R371). -/
def execLockWrite (t who n : Nat) (v : Word) (s : State) : Out := act (lockUser who && n < 64) t s (effectLockWrite who n v)

/-- Every lock of an identity released (R372). -/
def Locks.releaseAll (who : Nat) (l : Locks) : Locks := { l with owner := l.owner.filter fun p => p.2 ≠ who + 1 }

/-- A function-level reset, or the end of a VF's SR-IOV enable, releases the function's locks (R372). -/
def effectFunctionLevelReset (fn : Nat) (s : State) : State := { s with locks := s.locks.releaseAll fn }
/-- FUNCTION_LEVEL_RESET (R372). -/
def execFunctionLevelReset (t fn : Nat) (s : State) : Out := act (fn ≤ 63) t s (effectFunctionLevelReset fn)

end Sys2Proof.Machine
end

