-- ==== Sys2Proof/Machine/Quant.lean ====
section
/-! DEFINITION. The quantiser: narrow formats, blocks, packets and scale streams (R111 to R125, R207). -/

namespace Sys2Proof.Machine

open Sys2Proof.Config

/-! ### Encoding a block (R115, R121 to R125) -/

/-- A block: its exponent and codes, and what it counts. -/
structure Block where
  exp : Int := 0
  codes : List Int := []
  sat : Nat := 0
  under : Bool := false
  zero : Bool := false
  nans : Nat := 0
  clamp : Bool := false
deriving DecidableEq, Repr

/-- One element's code and whether it saturated (R122, R123). -/
def blockCode (c e : Int) (w : Word) : Int × Bool :=
  if fpIsNaN w then (0, false)
  else if fpIsInf w then (if fpNeg w then -c else c, true)
  else
    let x := scaleRound (fpVal w) e
    if c < x then (c, true) else if x < -c then (-c, true) else (x, false)

/-- A block of at most 32 elements encoded; the +63 of an infinite element and the -64 of a block of NaNs alone count in
EXP_CLAMP, and the latter block is under-range (DESIGN CHOICE, log entry 64); the -64 of an all-zero block does not count in
EXP_CLAMP (DESIGN CHOICE, log entry 87); a short one is filled out with code 0 (R113, R121 to
R125, R132). A block of equal elements is encoded as any other, with zero point 0 (R124). -/
def encodeBlock (f : Nat) (ws : List Word) : Block :=
  let c := fmtMax f
  let zero := ws.all fpIsZero
  let fit := smallestExp fun e =>
    !(ws.any fpIsInf) && (finites ws).all fun w => scaleLe (fpVal w) e c && scaleLe (fpVal w).neg e c
  let e := if zero then -64 else fit.1
  let cs := ws.map (blockCode c e)
  let top : Nat := cs.foldl (fun m x => max m x.1.natAbs) 0
  { exp := e
    codes := cs.map (·.1) ++ List.replicate (32 - ws.length) 0
    sat := (cs.filter (·.2)).length
    under := !zero && top < 2 ^ (fmtWidth f - 3)
    zero := zero
    nans := (ws.filter fpIsNaN).length
    clamp := !zero && fit.2 }

/-- The data bytes of a block: element i in bits [w·i + w - 1 : w·i] of one little-endian string (R115). -/
def packBlock (f : Nat) (codes : List Int) : List Byte :=
  let w := fmtWidth f
  toLe (fmtBytes f) ((codes.zipIdx.map fun c => wrapTo w c.1 * 2 ^ (w * c.2)).foldl (· + ·) 0)

/-- A list cut into pieces of n elements. -/
def chunks {α : Type} (n : Nat) : Nat → List α → List (List α)
  | 0, _ => []
  | k + 1, xs => if xs.isEmpty then [] else xs.take n :: chunks n k (xs.drop n)

/-- The blocks of a tensor: 32 elements at a time along each innermost row (R113). -/
def tensorBlocks (rowLen : Nat) (ws : List Word) : List (List Word) :=
  (chunks (max rowLen 1) ws.length ws).flatMap fun r => chunks 32 r.length r

/-- The packet pairs of encoded blocks: full data packets, the last one filled up to the smallest count with pad
blocks, and their scale packets (R117 to R119). -/
def packPairs (f : Nat) (first : Half) (bs : List Block) : List Pair :=
  (chunks (fmtMost f) bs.length bs).zipIdx.map fun g =>
    let pad := fmtLeast f - g.1.length
    { pseq := first + BitVec.ofNat 16 g.2
      data := some (g.1.flatMap (fun b => packBlock f b.codes) ++ List.replicate (pad * fmtBytes f) 0)
      scales := some (g.1.map (fun b => BitVec.ofNat 8 (wrapTo 8 b.exp)) ++ List.replicate pad 0xC0) }

/-- The counts of encoded blocks in the stream's QNT record (R121 to R125, R132, R140). -/
def Qnt.countBlocks (f : Nat) (q : Qnt) (bs : List Block) : Qnt :=
  { q with
    format := BitVec.ofNat 3 f
    satCodes := satAdd q.satCodes ((bs.map (·.sat)).foldl (· + ·) 0)
    underBlocks := satAdd q.underBlocks (bs.filter (·.under)).length
    zeroBlocks := satAdd q.zeroBlocks (bs.filter (·.zero)).length
    zeroRange := q.zeroRange || bs.any (·.zero)
    nan := satAdd q.nan ((bs.map (·.nans)).foldl (· + ·) 0)
    expClamp := satAdd q.expClamp (bs.filter (·.clamp)).length
    lastExp := match bs.getLast? with | some b => BitVec.ofNat 8 (wrapTo 8 b.exp) | none => q.lastExp }

/-- The packets of narrow pairs as bytes of a buffer: the data packets in order, then their scale packets (DESIGN
CHOICE, log entry 62). -/
def pairBytes (ps : List Pair) : List Byte :=
  (ps.flatMap fun p => p.data.getD []) ++ ps.flatMap fun p => p.scales.getD []

/-- Narrow pairs held in a handle of pool p (R110, R118). -/
def State.storePairs (s : State) (p h : Nat) (ps : List Pair) : State :=
  (s.modPool p fun q => { q with pairs := q.pairs ++ [(h, ps)] }).writeBuf p h 0 (pairBytes ps)

/-- The source elements of a tile: the stream's element count, or all that the buffer holds where it states none, as 0
(R119; DESIGN CHOICE, log entry 63). -/
def State.tileElems (s : State) (i elems : Nat) (wide : Bool) (tok : Dword) : List Word :=
  let p := (s.stream i).pool.toNat
  let bs := s.readBuf p (tokHandle tok) 0 (s.pool p).bufSize
  let ws := if wide then wordsOf bs else (halvesOf bs).map bfWiden
  if elems = 0 then ws else ws.take elems

/-- QUANT encodes a wide handle into narrow data and scale packets; its counts, thresholds and events are those of
STREAM_OUT, which always measures (R113, R115, R118 to R125, R132, R134 to R136, R207). -/
def effectQuantEncode (u : UnitId) (img : Nat) (s : State) : State :=
  s.onOp u img opQuant fun s o =>
    if flag o 34 then s
    else
      let i := field o 8 12
      let out := field o 20 12
      let f := field o 32 2
      s.fire u img [i] [out] fun s toks hs =>
        let m := s.stream out
        let bs := (tensorBlocks m.rowLen (s.tileElems i m.elems (flag o 35) (toks.getD 0 0))).map (encodeBlock f)
        let ps := packPairs f m.pseq bs
        let sat := (bs.map (·.sat)).foldl (· + ·) 0
        let under := (bs.filter (·.under)).length
        let beyond := exceeds sat m.qnt.satThresh || exceeds under m.qnt.underThresh
        let q := m.qnt.countBlocks f bs
        let q := { q with secondExc := if beyond then satInc q.secondExc else q.secondExc }
        let s := s.setStream out { m with qnt := q, pseq := m.pseq + BitVec.ofNat 16 ps.length }
        let s := s.each hs fun s h => s.storePairs m.pool.toNat h.2 ps
        { st := s.raiseQnt out (m.seqOf u) sat under m.qnt.satThresh m.qnt.underThresh false
          code := if bs.any (fun b => 0 < b.nans) then some ecNan else none }
/-- QUANT with DECODE 0 (R111, R113, R115, R118 to R125, R132, R134 to R136, R145, R156, R157, R207, R392). -/
def execQuantEncode (t : Nat) (u : UnitId) (img : Nat) (s : State) : Out := act (unitOk u) t s (effectQuantEncode u img)

/-! ### Decoding (R111, R113 to R117, R120) -/

/-- One code of a block's little-endian string. -/
def unpackCode (f : Nat) (bits i : Nat) : Int := signedOf (fmtWidth f) (bits / 2 ^ (fmtWidth f * i) % 2 ^ fmtWidth f)

/-- A block decoded: its 32 values, which of its codes are reserved, and whether its scale byte is (R114, R116, R117). -/
def decodeBlock (f : Nat) (data : List Byte) (scale : Byte) : List (Word × Bool) × Bool :=
  let bits := le data
  let e := clampInt scale.toInt (-64) 63
  ((List.range 32).map fun i =>
    let c := unpackCode f bits i
    (fpOfDyadic false { m := max c (-(fmtMax f)), e := e }, decide (c < -(fmtMax f))),
    scale.toInt ≠ e)

/-- A pair's blocks, or none where scale and data packets do not match or one is absent (R120). -/
def decodePair (f : Nat) (p : Pair) : Option (List (List (Word × Bool) × Bool)) :=
  match p.data, p.scales with
  | some d, some sc =>
    if sc.length * fmtBytes f = d.length then
      some ((chunks (fmtBytes f) d.length d).zipIdx.map fun b => decodeBlock f b.1 (sc.getD b.2 0))
    else none
  | _, _ => none

/-- Element j of block b belongs to the tensor: it is no pad of a short row and lies within the element count, where one
is stated (R113, R119). -/
def isElem (rowLen elems b j : Nat) : Bool :=
  let r := max rowLen 1
  let per := (r + 31) / 32
  let col := 32 * (b % per) + j
  col < r && (elems = 0 || b / per * r + col < elems)

/-- A pair's blocks; those of a discarded pair are empty, so that every block keeps its place in the tile: as many as its data
packet holds (R113, R119, R120; log entry 87). -/
def pairBlocks (f : Nat) (p : Pair) : List (List (Word × Bool) × Bool) :=
  (decodePair f p).getD (List.replicate ((p.data.getD []).length / fmtBytes f) ([], false))

/-- The tensor's elements of a tile's decoded blocks, and the reserved codes and scale bytes among them: pads take no
part (R113, R114, R117, R119). -/
def unblock (rowLen elems : Nat) (bs : List (List (Word × Bool) × Bool)) : List Word × Nat :=
  let rs := bs.zipIdx.map fun b => (((b.1.1).zipIdx.filter fun x => isElem rowLen elems b.2 x.2).map (·.1), b.1.2)
  (rs.flatMap fun r => r.1.map (·.1),
    (rs.map fun r => (r.1.filter (·.2)).length + if r.2 && !r.1.isEmpty then 1 else 0).foldl (· + ·) 0)

/-- QUANT decodes the packet pairs of a narrow handle into BF16 or FP32; a pair whose counts differ is discarded,
counted, and an error token stands for the tile (R111, R114, R116, R117, R119, R120, R207). QNT_STAT.FORMAT takes its value at a
conversion, a decoding too, and keeps it when the job is removed; LAST_EXP is that of encodings alone (DESIGN CHOICE, log
entry 87). -/
def effectQuantDecode (u : UnitId) (img : Nat) (s : State) : State :=
  s.onOp u img opQuant fun s o =>
    if flag o 34 then
      let i := field o 8 12
      let f := field o 32 2
      s.fire u img [i] [field o 20 12] fun s toks hs =>
        let m := s.stream i
        let h := tokHandle (toks.getD 0 0)
        let ps := (((s.pool m.pool.toNat).pairs.find? fun x => x.1 = h).map (·.2)).getD []
        let bad := (ps.filter fun p => (decodePair f p).isNone).length
        let (ws, res) := unblock m.rowLen m.elems (ps.flatMap (pairBlocks f))
        let s := s.modStream i fun m => { m with qnt := { m.qnt with
          format := BitVec.ofNat 3 f
          rxReserved := satAdd m.qnt.rxReserved res
          pairMismatch := satAdd m.qnt.pairMismatch bad } }
        if 0 < bad then { st := s, code := some ecPair, asError := true }
        else
          let bytes := if flag o 35 then bytesOfWords ws else bytesOfHalves (ws.map bfRound)
          { st := s.each hs fun s x => s.writeBuf (s.stream x.1).pool.toNat x.2 0 bytes
            code := if 0 < res then some ecRxReserved else none }
    else s
/-- QUANT with DECODE 1 (R111, R113 to R117, R119, R120, R145, R156, R157, R207, R405). -/
def execQuantDecode (t : Nat) (u : UnitId) (img : Nat) (s : State) : Out := act (unitOk u) t s (effectQuantDecode u img)

end Sys2Proof.Machine
end

