-- ==== Sys2Proof/Machine/Ports.lean ====
section
/-! DEFINITION. SEND and RECV at a link port (R208, R403, R405, R408). -/

namespace Sys2Proof.Machine

open Sys2Proof.Config

/-- The packets of a pair: the data packet, then its scale packet with the same PSEQ (R394 to R396). -/
def pairPackets (src dest remote : Nat) (p : Pair) : List LinkPacket :=
  let mk (kind : BitVec 4) (d : List Byte) : LinkPacket :=
    { hdr := { kind := kind, bypassLeft := 3, bytes := BitVec.ofNat 12 (d.length - 1), dest := BitVec.ofNat 16 dest
               src := BitVec.ofNat 16 src, stream := BitVec.ofNat 12 remote, pseq := p.pseq }
      payload := d }
  (p.data.map (mk 0)).toList ++ (p.scales.map (mk 1)).toList

/-- SEND is done with its token: a data token's handle is released (R157, R208, R408). The guarded wait ends. -/
def State.sendDone (s : State) (u : UnitId) (img i : Nat) (tok : Dword) : State :=
  (((s.takeHead u i).releaseTok i tok s.now).modStream i (Stream.endGuard s.now)).finish u img s.now

/-- Streams of SENDs of running steps that wait for link n, with unit, image and the token at the head (R167, R208, R408). -/
def State.sendsOver (s : State) (n : Nat) : List (UnitId × Nat × Nat × Dword) :=
  s.progs.filterMap fun x =>
    let o := x.2.op
    let i := field o 8 12
    match x.2.unit, s.dataAt i x.2.unit with
    | .port _, some tok =>
      if opcode o = opSend && s.routeLink (field o 20 16) = some n && (s.stream i).guard.isSome
        then some (x.2.unit, x.1 / 2 ^ 24, i, tok) else none
    | _, _ => none

/-- A link's port holds packets to send and lacks a credit, or holds packets that are not acked; SENDs that wait for a credit
hold theirs at the port (R407). -/
def Link.waits (asked : Bool) (l : Link) : Bool :=
  ((!l.queue.isEmpty || asked) && l.credits = 0) || !l.unacked.isEmpty

/-- The link timer after a change of a link: it runs from now on where it did not run yet, and stops where nothing waits
(R407). -/
def Link.runTimer (now : Nat) (asked : Bool) (l l' : Link) : Link :=
  { l' with timer := if l'.waits asked then some (if l.waits asked then l.timer.getD now else now) else none }

/-- SEND hands every packet pair of its handle to the link that routes DEST. Without a valid entry or a link credit
it waits, guarded by STREAM_IN's timer and for a credit by the link's; over a link that is down it releases its handle without sending; an error
token is dropped with its handle (R157, R167, R208, R403, R407, R408). -/
def effectSend (u : UnitId) (img : Nat) (s : State) : State :=
  s.onOp u img opSend fun s o =>
    let i := field o 8 12
    let dest := field o 20 16
    match s.dataAt i u with
    | none => s
    | some tok =>
      let wait (s : State) : State := s.modStream i (Stream.startGuard s.now)
      if tokType tok = tyError then s.sendDone u img i tok
      else
        match s.routeLink dest with
        | none => wait s
        | some n =>
          let l := s.link n
          if l.st ≠ 2 then s.sendDone u img i tok
          else if l.credits = 0 then
            let before := !(s.sendsOver n).isEmpty
            (wait s).modLink n fun l =>
              { l with timer := if l.waits before then some (l.timer.getD s.now) else some s.now }
          else
            let pool := (s.stream i).pool.toNat
            let ps := (((s.pool pool).pairs.find? fun x => x.1 = tokHandle tok).map (·.2)).getD []
            let s := s.modLink n fun l =>
              { l with queue := l.queue ++ ps.flatMap (pairPackets s.linkMod.portAddr.toNat dest (field o 36 12)) }
            s.sendDone u img i tok
/-- SEND (R145, R156, R157, R208, R403). -/
def execSend (t : Nat) (u : UnitId) (img : Nat) (s : State) : Out := act (unitOk u) t s (effectSend u img)

/-- The landing-buffer entries of the pairs that RECV took are free: their credits go back on their link (R405). -/
def Link.dropLanded (stream : Nat) (src : Half) (qs : List Half) (l : Link) : Link :=
  let mine (p : LinkPacket) : Bool := p.hdr.stream.toNat = stream && p.hdr.src = src && qs.contains p.hdr.pseq
  { l with landing := l.landing.filter fun p => !mine p, outCredit := l.outCredit + (l.landing.filter mine).length }

/-- The landing-buffer entries of streams that no job takes any more are free: their credits go back (R405; log entry 51). -/
def State.freeLanding (s : State) (ids : List Nat) : State :=
  let mine (p : LinkPacket) : Bool := ids.contains p.hdr.stream.toNat
  { s with links := s.links.map fun x => (x.1,
      { x.2 with landing := x.2.landing.filter fun p => !mine p, outCredit := x.2.outCredit + (x.2.landing.filter mine).length }) }

/-- RECV takes the packet pairs of one tile, landed for stream REMOTE from SOURCE, into a handle of STREAM_OUT; while
SOURCE's link is lost it sends a PEER_LOST error token for the tile instead (R118, R120, R208, R405, R408). -/
def effectRecv (u : UnitId) (img : Nat) (s : State) : State :=
  s.onOp u img opRecv fun s o =>
    let out := field o 8 12
    let src : Half := BitVec.ofNat 16 (field o 20 16)
    let m := s.stream out
    let from_ := field o 36 12
    if m.peerLost then
      if m.hasCredit then (s.sendError u [out] { err := some ecPeerLost } (m.seqOf u)).finish u img s.now
      else s.markAll [out] .credit
    else
      match s.recvPairs img o with
      | none => s.markAll [out] .input
      | some ps =>
        s.fire u img [] [out] fun s _ hs =>
          let qs := ps.map (·.pseq)
          let s := s.modStream out fun m => { m with pseq := m.pseq + BitVec.ofNat 16 ps.length }
          let s := s.modStream from_ fun m => { m with rx := m.rx.filter fun p => !(p.src = src && qs.contains p.pseq) }
          let s := s.each (List.range 64) fun s n => s.modLink n (Link.dropLanded from_ src qs)
          { st := s.each hs fun s h => s.storePairs m.pool.toNat h.2 ps }
/-- RECV (R145, R156, R157, R208, R405, R408). -/
def execRecv (t : Nat) (u : UnitId) (img : Nat) (s : State) : Out := act (unitOk u) t s (effectRecv u img)

end Sys2Proof.Machine
end

