-- ==== Sys2Proof/Machine/Links.lean ====
section
/-! DEFINITION. Optical links: header frames, bypass, landing, acks, credits, replay, the link timer, link states,
the spare lane, pass-through (R390 to R412). -/

namespace Sys2Proof.Machine

open Sys2Proof.Config

/-- The partner of link n in its bypass pair (R397). -/
def partner (n : Nat) : Nat := n ^^^ 1

/-- The frequency of a lane, GHz: data 0 to 7, spare 8, header 9 (R388). -/
def laneGHz (lane : Nat) : Nat := 192300 + 200 * lane

/-- One bit enters a CRC-16 register with the polynomial x^16 + x^12 + x^5 + 1 (R393). -/
def crcStep (r : Half) (b : Bool) : Half := if r.msb != b then (r <<< 1) ^^^ 0x1021 else r <<< 1

/-- The number of the k-th bit of a frame that its CRC takes. -/
def crcBit (k : Nat) : Nat :=
  8 * (if Config.crcOrder 0 then 13 - k / 8 else k / 8) + (if Config.crcOrder 1 then 7 - k % 8 else k % 8)

/-- The CRC of a frame's bits [111:0] (R393, R394; log entry 23). -/
def crc16 (b : BitVec 112) : Half :=
  let r := ((List.range 112).map fun k => b.getLsbD (crcBit k)).foldl crcStep Config.crcStart
  (if Config.crcOrder 2 then r.reverse else r) ^^^ Config.crcEnd

/-- Bits [111:0] of a header frame, over which its CRC stands (R394). -/
def headerBits (h : HeaderFrame) : BitVec 112 :=
  h.reserved ++ h.lseq ++ h.pseq ++ h.stream ++ h.src ++ h.dest ++ h.bytes ++ h.bypassLeft ++ h.kind

/-- A header frame passes its CRC (R393, R394). -/
def headerIntact (h : HeaderFrame) : Bool := h.crc = crc16 (headerBits h)

/-- A header as a sender sends it: reserved bits 0, and its CRC (R393, R394). -/
def sealHeader (h : HeaderFrame) : HeaderFrame :=
  { h with reserved := 0, crc := crc16 (headerBits { h with reserved := 0 }) }

/-- The CRC of an ack, credit or control frame: its TYPE stands in bits [3:0] (R393, R394; log entry 23). -/
def frameCrc (kind : BitVec 4) (carries : List Nat) : Half := crc16 (Config.frameBody kind.toNat carries ++ kind)

/-- The CRC of an ack frame. -/
def ackCrc (src lseq lander : Half) : Half := frameCrc 2 [src.toNat, lseq.toNat, lander.toNat]

/-- The CRC of a credit frame. -/
def creditCrc (k : Nat) : Half := frameCrc 3 [k]

/-- The CRC of a control frame. -/
def controlCrc (part : List Byte) : Half := frameCrc 4 ((padTo 12 part).map (·.toNat))

/-- Link n is up. -/
def State.linkIsUp (s : State) (n : Nat) : Bool := (s.link n).st = 2

/-- A frame that fails its CRC is discarded and counted (R393). -/
def Link.badFrame (l : Link) : Link := { l with cwUncorr := satInc l.cwUncorr }

/-- Payload bytes a header announces. -/
def headerSize (h : HeaderFrame) : Nat := h.bytes.toNat + 1

/-- Units of link time in a tu: a flit's 0.64 ns are 96 of them (R391). -/
abbrev fine : Nat := 25

/-- Link time of a packet's payload, 1/25 tu (R391). -/
def packetTime (h : HeaderFrame) : Nat := (headerSize h + 63) / 64 * 96

/-- The lead of a regenerating sender's header over its payload (R395). -/
abbrev leadTu : Nat := 40 * ns

/-- From the decode of a header to its payload's first flit on the partner link: the lead at arrival, 8 ns less for each
powered bypass, less 8 ns of decoding, and 12 ns of delay (R396, R398). -/
def bypassLead (h : HeaderFrame) : Nat := leadTu + 4 * ns - 8 * ns * (3 - h.bypassLeft.toNat)

/-- A SEND waits for a credit of link n (R167, R407). -/
def State.asked (s : State) (n : Nat) : Bool := !(s.sendsOver n).isEmpty

/-- Link n changed, and its timer with it (R407). -/
def State.modPort (s : State) (n : Nat) (f : Link → Link) : State :=
  let asked := s.asked n
  s.modLink n fun l => l.runTimer s.now asked (f l)

/-! ### Headers (R393 to R400, R403) -/

/-- What a module does with a data or scale header. -/
inductive HeaderChoice where
  | land
  | regenerate
  | fallback
  | bypass
  | drop
deriving DecidableEq, Repr

/-- The end of the last payload that the link sends or has announced. -/
def Link.busyUntil (l : Link) : Nat := l.busy.foldl (fun m x => max m x.2) 0

/-- A payload of a length is announced from a moment on; payloads that have passed are forgotten (R397). -/
def Link.announce (now start len : Nat) (l : Link) : Link :=
  { l with busy := (l.busy.filter fun x => now * fine < x.2) ++ [(start, start + len)] }

/-- The link is sending, or has a header out, for a packet that overlaps a payload from moment a on (R397). -/
def Link.overlaps (l : Link) (a len : Nat) : Bool := l.busy.any fun x => a < x.2 && x.1 < a + len

/-- The link without the own packet whose header it sends in the present cycle: that packet waits again, to be sent or to be
sent once more (R399, R406). -/
def Link.unsend (now : Nat) (l : Link) : Link :=
  match l.sent with
  | some u =>
    if u.at_ / cycle = now / cycle then
      let l := { l with outHdr := u.outHdr, bypassRun := u.bypassRun, busy := u.busy, timer := u.timer, sent := none }
      match u.replays with
      | none => { l with queue := u.packet :: l.queue, unacked := l.unacked.dropLast, credits := min (l.credits + 1) 64
                         lseq := l.lseq - 1 }
      | some r => { l with replays := r
                           unacked := l.unacked.map fun p => if p.hdr.lseq = u.packet.hdr.lseq then u.packet else p }
    else l
  | none => l

/-- The choice of R397 for a header on link n, tested in its order, at a module with an address. -/
def State.addressedChoice (s : State) (n : Nat) (h : HeaderFrame) : HeaderChoice :=
  let p := s.link (partner n)
  let e := Tab.get (0 : Half) s.linkMod.routes (h.dest.toNat / 16)
  if h.dest = s.linkMod.portAddr then .land
  else if !flag e 7 then .drop
  else if !(field e 0 6 = partner n && flag e 6) then .regenerate
  else if h.bypassLeft = 0 then .regenerate
  else if p.overlaps ((s.now + bypassLead h) * fine) (packetTime h) || p.credits = 0 || (16 ≤ p.bypassRun && !p.queue.isEmpty) then .fallback
  else .bypass

/-- What the module does with a header: an unassigned module lands no data or scale packet, so what it cannot bypass
it drops (R403). The ports keep the address over a reset of D1 (R402, R413; log entry 52). -/
def State.headerChoice (s : State) (n : Nat) (h : HeaderFrame) : HeaderChoice :=
  let c := s.addressedChoice n h
  if s.linkMod.portAddr = 0 ∧ c ≠ .bypass then .drop else c

/-- The packet passes as light: one credit of the partner link is spent, the header goes on with BYPASS_LEFT less 1, the
upstream credit returns at once (R398, R399). -/
def State.bypass (s : State) (n : Nat) (h : HeaderFrame) : State :=
  let s := s.modPort (partner n) fun l => Link.announce s.now ((s.now + bypassLead h) * fine) (packetTime h)
    { l with credits := l.credits - 1
             bypassed := satInc l.bypassed
             bypassRun := if l.queue.isEmpty then 0 else l.bypassRun + 1
             outHdr := some (sealHeader { h with bypassLeft := h.bypassLeft - 1 }) }
  s.modLink n fun l => { l with outCredit := l.outCredit + 1 }

/-- A data or scale header that passes its CRC is decoded on link n. In the cycle in which the module would send its own header
on the partner link a bypass wins (R399). A packet that lands and is dropped leaves the landing buffer at once (R403, R405). -/
def State.decodeHeader (s : State) (n : Nat) (h : HeaderFrame) : State :=
  let early := s.modLink (partner n) (Link.unsend s.now)
  let s := if early.headerChoice n h = .bypass then early else s
  match s.headerChoice n h with
  | .land => s.modLink n fun l => { l with expect := l.expect ++ [(h, none)] }
  | .regenerate => s.modLink n fun l => { l with expect := l.expect ++ [(h, s.routeLink h.dest.toNat)] }
  | .fallback =>
    let s := s.modLink (partner n) fun l => { l with fallback := satInc l.fallback }
    s.modLink n fun l => { l with expect := l.expect ++ [(h, some (partner n))] }
  | .bypass => s.bypass n h
  | .drop => s.modLink n fun l => { l with drops := satInc l.drops, outCredit := l.outCredit + 1 }

/-- A frame that passed its CRC, by its TYPE: a reserved one is discarded and counted, an idle frame changes nothing, and
ack, credit and control frames have rows of their own (R394). -/
def State.decodeFrame (s : State) (n : Nat) (h : HeaderFrame) : State :=
  if 6 ≤ h.kind.toNat then s.modLink n fun l => { l with drops := satInc l.drops }
  else if 2 ≤ h.kind.toNat then s
  else s.decodeHeader n h

/-- A frame of the header lane is decoded on link n. -/
def effectHeaderFrame (n : Nat) (h : HeaderFrame) (s : State) : State :=
  if !s.linkIsUp n then s
  else if !headerIntact h then s.modLink n Link.badFrame
  else s.decodeFrame n h
/-- HEADER_FRAME (R393, R394, R397 to R400, R403 to R405). -/
def execHeaderFrame (t link : Nat) (h : HeaderFrame) (s : State) : Out := act (link < 64) t s (effectHeaderFrame link h)

/-! ### Landing (R400, R405, R406) -/

/-- A packet's data or scales put beside what its pair already holds. -/
def addPair (rx : List Pair) (h : HeaderFrame) (d : List Byte) : List Pair :=
  let put (p : Pair) : Pair := if h.kind = 0 then { p with data := some d } else { p with scales := some d }
  if rx.any fun p => p.pseq = h.pseq && p.src = h.src then
    rx.map fun p => if p.pseq = h.pseq && p.src = h.src then put p else p
  else rx ++ [put { pseq := h.pseq, src := h.src }]

/-- An ack of a landed packet: SRC, LSEQ and the lander's address. -/
def State.ack (s : State) (n : Nat) (h : HeaderFrame) : State :=
  s.modLink n fun l => { l with outAck := some (h.src, h.lseq, s.linkMod.portAddr) }

/-- A packet joins a link's outgoing traffic. -/
def State.enqueue (s : State) (n : Nat) (p : LinkPacket) : State :=
  s.modPort n fun l => { l with queue := l.queue ++ [p] }

/-- The same packet of a stream, by DEST, STREAM, PSEQ and kind (R406). -/
def sameHeader (h g : HeaderFrame) : Bool :=
  h.src = g.src && h.dest = g.dest && h.stream = g.stream && h.pseq = g.pseq && h.kind = g.kind

/-- A packet that arrived on the link to be sent on is taken; the last 64 of a SRC are known, as many as a sender holds
unacked (R406; log entry 51). -/
def Link.notePassed (h : HeaderFrame) (l : Link) : Link :=
  { l with passed := (l.passed.filter fun g => g.src ≠ h.src) ++ newest 64 ((l.passed.filter fun g => g.src = h.src) ++ [h]) }

/-- The payload of the oldest header that awaits one lands: with an uncorrectable codeword it is discarded without
an ack; one already taken is discarded and acked again; the others are stored and acked, for a stream here or for
the next link, as decided with the header, where the packet leaves the landing buffer at once (R400, R404 to R406). -/
def effectPacketLanded (n : Nat) (payload : List Byte) (bad : Bool) (s : State) : State :=
  match (s.link n).expect with
  | [] => s
  | (h, onward) :: r =>
    let s := s.modLink n fun l => { l with expect := r }
    if bad then s.modLink n Link.badFrame
    else
      let d := padTo (headerSize h) payload
      match onward with
      | some m =>
        if (s.link n).passed.any (sameHeader h) then s.ack n h else
        let s := (s.ack n h).enqueue m { hdr := { h with bypassLeft := 3 }, payload := d }
        s.modLink n fun l => ({ l with outCredit := l.outCredit + 1 }).notePassed h
      | none =>
        let i := h.stream.toNat
        if (s.stream i).taken.contains (h.pseq, decide (h.kind = 1)) then s.ack n h
        else
          let s := s.ack n h
          let s := s.modLink n fun l => { l with landing := l.landing ++ [{ hdr := h, payload := d, sentAt := s.now }] }
          s.modStream i fun m => { m with rx := addPair m.rx h d, taken := newest 64 (m.taken ++ [(h.pseq, decide (h.kind = 1))]) }
/-- PACKET_LANDED (R400, R405, R406). -/
def execPacketLanded (t link : Nat) (payload : List Byte) (bad : Bool) (s : State) : Out :=
  act (link < 64) t s (effectPacketLanded link payload bad)

/-! ### Acks, credits, control frames (R393, R394, R405 to R407) -/

/-- The link timer restarts from zero where something still waits (R407). -/
def Link.restartTimer (now : Nat) (asked : Bool) (l : Link) : Link :=
  { l with timer := if l.waits asked then some now else none }

/-- An ack: the packet it names is no longer kept, and the timer restarts; an ack for another module's packet travels on
towards SRC. -/
def State.takeAck (s : State) (n : Nat) (src lseq lander : Half) : State :=
  let mine (p : LinkPacket) : Bool := p.hdr.src = src && p.hdr.lseq = lseq
  if (s.link n).unacked.any mine then
    s.modLink n fun l => Link.restartTimer s.now (s.asked n) { l with unacked := l.unacked.filter fun p => !mine p }
  else if src = s.linkMod.portAddr then s
  else
    match s.routeLink src.toNat with
    | some m => s.modLink m fun l => { l with outAck := some (src, lseq, lander) }
    | none => s

/-- An ack frame. -/
def effectAckFrame (n : Nat) (crc src lseq lander : Half) (s : State) : State :=
  if !s.linkIsUp n then s
  else if crc = ackCrc src lseq lander then s.takeAck n src lseq lander
  else s.modLink n Link.badFrame
/-- ACK_FRAME (R393, R394, R406, R407). -/
def execAckFrame (t link : Nat) (crc src lseq lander : Half) (s : State) : Out :=
  act (link < 64) t s (effectAckFrame link crc src lseq lander)

/-- Credits come: they are held, at most 64, and the timer restarts; a SEND that waited for one has it (R172). -/
def State.takeCredits (s : State) (n k : Nat) : State :=
  let asked := s.asked n
  let s := s.each (s.sendsOver n) fun s x => s.modStream x.2.2.1 (Stream.meetGuard s.now)
  s.modLink n fun l => Link.restartTimer s.now asked { l with credits := min (l.credits + k) 64 }

/-- A credit frame. -/
def effectCreditFrame (n : Nat) (crc : Half) (k : Nat) (s : State) : State :=
  if !s.linkIsUp n then s
  else if crc = creditCrc k then s.takeCredits n k
  else s.modLink n Link.badFrame
/-- CREDIT_FRAME (R393, R394, R405, R407). -/
def execCreditFrame (t link : Nat) (crc : Half) (credits : Nat) (s : State) : Out :=
  act (link < 64 && 1 ≤ credits && credits ≤ 64) t s (effectCreditFrame link crc credits)

/-- 12 bytes of a slot come, where the mailboxes can be reached; the sixth part commits the slot on the peer's channel
66 + link, stamped from the link it arrived on (R354, R355, R394). -/
def State.takePart (s : State) (n : Nat) (part : List Byte) : State :=
  if !s.chanUp then s
  else
    s.modChan (66 + n) fun c =>
      let bs := c.part ++ padTo 12 part
      if bs.length < 72 then { c with part := bs } else ({ c with part := [] }).commitSlot (66 + n) (bs.take 64)

/-- A control frame. -/
def effectControlFrame (n : Nat) (crc : Half) (part : List Byte) (s : State) : State :=
  if !s.linkIsUp n then s
  else if crc = controlCrc part then s.takePart n part
  else s.modLink n Link.badFrame
/-- CONTROL_FRAME (R354, R355, R393, R394). -/
def execControlFrame (t link : Nat) (crc : Half) (part : List Byte) (s : State) : Out :=
  act (link < 64) t s (effectControlFrame link crc part)

/-! ### Sending and replay (R390 to R396, R399, R406) -/

/-- The next packet of link n leaves: a credit is spent, it gets the next LSEQ, its header goes 40 ns ahead with
BYPASS_LEFT 3, and it is kept until it is acked. Packets follow one another without a gap; while another payload stands
before its own, and while a bypass passes, it waits (R392, R399). -/
def effectPacketSend (n : Nat) (s : State) : State :=
  let l := s.link n
  match l.queue with
  | [] => s
  | p :: r =>
    if l.st = 2 && 0 < l.credits && l.busyUntil < (s.now + leadTu + 1) * fine && l.unacked.length < 64 then
      let start := max l.busyUntil ((s.now + leadTu) * fine)
      let h := sealHeader { p.hdr with bypassLeft := 3, lseq := l.lseq }
      s.modPort n fun _ => Link.announce s.now start (packetTime h) { l with
        queue := r
        unacked := l.unacked ++ [{ p with hdr := h, sentAt := s.now }]
        credits := l.credits - 1
        lseq := l.lseq + 1
        outHdr := some h
        bypassRun := 0
        sent := some { at_ := s.now, packet := p, busy := l.busy, outHdr := l.outHdr, bypassRun := l.bypassRun, timer := l.timer } }
    else s
/-- PACKET_SEND (R390 to R392, R395, R396, R399, R405). -/
def execPacketSend (t link : Nat) (s : State) : Out := act (link < 64) t s (effectPacketSend link)

/-- A kept packet is sent again and counted: its header 40 ns ahead, its payload behind those that the link has announced
(R395, R406). -/
def Link.resend (now : Nat) (l : Link) (p : LinkPacket) : Link :=
  Link.announce now (max l.busyUntil ((now + leadTu) * fine)) (packetTime p.hdr)
    { l with unacked := l.unacked.map fun q => if q.hdr.lseq = p.hdr.lseq then { q with sentAt := now } else q
             replays := satInc l.replays
             bypassRun := 0
             outHdr := some p.hdr }

/-- A packet not acked within 10 µs is replayed. Like an own packet that is sent first it waits for payloads announced before it
and for a bypass (R399, R406). -/
def effectPacketReplay (n : Nat) (lseq : Half) (s : State) : State :=
  let l := s.link n
  match l.unacked.find? fun p => p.hdr.lseq = lseq && p.sentAt + 10 * us ≤ s.now with
  | some p =>
    if l.st = 2 && l.busyUntil < (s.now + leadTu + 1) * fine then
      s.setLink n { l.resend s.now p with
        sent := some { at_ := s.now, packet := p, replays := some l.replays, busy := l.busy, outHdr := l.outHdr
                       bypassRun := l.bypassRun, timer := l.timer } }
    else s
  | none => s
/-- PACKET_REPLAY (R399, R406). -/
def execPacketReplay (t link : Nat) (lseq : Half) (s : State) : Out := act (link < 64) t s (effectPacketReplay link lseq)

/-- Link n counts the codewords it has corrected since they were last counted, a free number; its lanes carry codewords
while it is up (R390, R414; log entry 38). -/
def State.countCodewords (s : State) (n : Nat) : State :=
  s.modLink n fun l =>
    if l.cwAt < s.now then
      { l with cwCorr := if l.st = 2 then satAdd l.cwCorr (Config.cwCorrected n l.cwAt s.now) else l.cwCorr, cwAt := s.now }
    else l

/-! ### Link states (R402, R407, R408, R411, R412) -/

/-- A link's state changes; a change raises LINK_STATE (R386, R408). -/
def State.setLinkState (s : State) (n : Nat) (st : BitVec 2) (reason : BitVec 3) : State :=
  let old := (s.link n).st
  let s := (s.countCodewords n).modLink n fun l => { l with st := st, downReason := reason }
  if old = st then s else s.raise 0x8041 [BitVec.ofNat 8 n, BitVec.ofNat 8 old.toNat, BitVec.ofNat 8 st.toNat]

/-- RECV streams of running steps whose SOURCE routes over a link (R408). -/
def State.recvStreams (s : State) (n : Nat) : List Nat :=
  s.progs.flatMap fun kp =>
    kp.2.list.filterMap fun o =>
      if opcode o = opRecv && s.routeLink (field o 20 16) = some n then
        match kp.2.unit with
        | .port _ => some (field o 8 12)
        | _ => none
      else none

/-- What a link loses when it goes down or passes light through: packets not acked, its queue, its landing buffer;
a SEND that waits for it releases its handle, and RECV streams over it have lost their peer (R402, R408). -/
def State.loseLink (s : State) (n : Nat) : State :=
  let landed := (s.link n).landing
  let s := s.each landed fun s p =>
    s.modStream p.hdr.stream.toNat fun m =>
      { m with rx := m.rx.filter fun x => !(x.pseq = p.hdr.pseq && x.src = p.hdr.src) }
  let s := s.modLink n fun l =>
    { l with unacked := [], landing := [], queue := [], expect := [], credits := 0, timer := none, failedLane := none
             bypassRun := 0, busy := [], passed := [], sent := none }
  let s := s.each (s.sendsOver n) fun s x => s.sendDone x.1 x.2.1 x.2.2.1 x.2.2.2
  s.each (s.recvStreams n) fun s i =>
    s.modStream i fun m =>
      match m.img with
      | some img => if (s.image img).running then { m with peerLost := true } else m
      | none => m

/-- A link goes down for a reason and, unless it is disabled, trains again (R408). -/
def State.linkGoesDown (s : State) (n : Nat) (reason : BitVec 3) : State :=
  if (s.link n).st = 0 then s.modLink n fun l => { l with downReason := reason }
  else
    let s := (s.setLinkState n 0 reason).loseLink n
    if reason = 5 ∨ reason = 4 then s else s.setLinkState n 1 reason

/-- Link n passes light straight through with its lasers dark (R402). -/
def State.passThrough (s : State) (n : Nat) : State :=
  if (s.link n).st = 3 then s else (s.setLinkState n 3 (s.link n).downReason).loseLink n

/-- A link is held in pass-through: its engine in reset or unpowered, or forced on either link of its pair (R402, R421). -/
def State.heldThrough (s : State) (n : Nat) : Bool :=
  !s.aon.power || s.aon.inReset || s.aon.linksHeld || flag s.aon.d4Reset (n / 4)
    || (s.link n).mode = 2 || (s.link (partner n)).mode = 2

/-- A level mismatch keeps the link down: only a new training of the peer, whose level changed, brings it back (R412). -/
def Link.levelDown (l : Link) : Bool := l.st = 0 && l.downReason = 4

/-- The link goes down in one of the cases of R408. -/
def effectLinkDown (n : Nat) (reason : BitVec 3) (s : State) : State :=
  if (s.link n).st = 3 then s else s.linkGoesDown n reason
/-- LINK_DOWN (R408, R432). -/
def execLinkDown (t link : Nat) (reason : BitVec 3) (s : State) : Out := act (link < 64) t s (effectLinkDown link reason)

/-- The 1 µs edge on which a link timer that runs from a moment expires: the (limit + 1)th after it (R172, R407). -/
def Link.timerEdge (l : Link) (t0 : Nat) : Nat := (t0 / us + l.limit.toNat + 1) * us

/-- Link n with the acks and credits that the present fabric cycle still brings: they win over an expiry in it (R172, R407, log
entry 28). -/
def State.linkArrivals (s : State) (n : Nat) : State :=
  s.inCycle.foldl (init := s) fun s i =>
    match i with
    | .creditFrame t m crc k => if m = n then effectCreditFrame n crc k (s.tick t) else s
    | .ackFrame t m crc src lseq lander => if m = n then effectAckFrame n crc src lseq lander (s.tick t) else s
    | _ => s

/-- The timer of link n has expired: something waits, and no credit or ack came within the limit (R407). -/
def State.timerOut (s : State) (n : Nat) : Bool :=
  let l := s.link n
  match l.timer with
  | some t0 => l.st = 2 && l.waits (s.asked n) && l.timerEdge t0 ≤ s.now
  | none => false

/-- The link timer expires: no credit or ack came within the limit (R172, R401, R407, R408). -/
def effectLinkTimer (n : Nat) (s : State) : State :=
  if s.timerOut n && (s.linkArrivals n).timerOut n then s.linkGoesDown n 3 else s
/-- LINK_TIMER (R172, R401, R407, R408, R432). -/
def execLinkTimer (t link : Nat) (s : State) : Out := act (link < 64) t s (effectLinkTimer link)

/-- One data lane fails: the spare stands in once the ends agree; a second one takes the link down (R409 to R411). -/
def State.laneFails (s : State) (n lane : Nat) : State :=
  let l := s.link n
  if l.st ≠ 2 then s
  else if l.spareUsed then (if lane ≤ 8 && l.spareFor.toNat ≠ lane then s.linkGoesDown n 2 else s)
  else if lane ≤ 7 then
    (match l.failedLane with
     | some k => if k = lane then s else s.linkGoesDown n 2
     | none => s.setLink n { l with failedLane := some lane })
  else s

/-- Loss of lock on one lane, or on more than one (R408, R409, R411). -/
def effectLaneLockLoss (n : Nat) (lanes : List Nat) (s : State) : State :=
  match lanes with
  | [] => s
  | [k] => s.laneFails n k
  | _ => if s.linkIsUp n then s.linkGoesDown n 1 else s
/-- LANE_LOCK_LOSS (R402, R408, R409, R411, R432). -/
def execLaneLockLoss (t link : Nat) (lanes : List Nat) (s : State) : Out :=
  act (link < 64 && lanes.all (· < 10)) t s (effectLaneLockLoss link lanes)

/-- A data lane's pre-FEC symbol error ratio has exceeded its limit over 100 ms (R409, R411). -/
def effectLaneErrorRate (n lane : Nat) (s : State) : State := s.laneFails n lane
/-- LANE_ERROR_RATE (R408, R409, R411). -/
def execLaneErrorRate (t link lane : Nat) (s : State) : Out := act (link < 64 && lane < 10) t s (effectLaneErrorRate link lane)

/-- At the agreed codeword both ends map the failed lane to lane 8; what is unacked is replayed (R22, R410). -/
def effectSpareLaneSwitch (n : Nat) (s : State) : State :=
  let l := s.link n
  match l.failedLane with
  | some k =>
    (s.wears 5).setLink n (l.unacked.foldl (Link.resend s.now)
      { l with failedLane := none, spareUsed := true, spareFor := BitVec.ofNat 3 k })
  | none => s
/-- SPARE_LANE_SWITCH (R22, R410). -/
def execSpareLaneSwitch (t link : Nat) (s : State) : Out := act (link < 64) t s (effectSpareLaneSwitch link)

/-- Firmware sends PEER_READY to the peer on link n, in its channel's control frames (R380, R421). -/
def State.sendPeerReady (s : State) (n : Nat) : State :=
  s.postKept (66 + n) { slot := padTo 64 (toLe 2 0x0704 ++ [0, 0, 4, 0, 0, 0xFF] ++ toLe 2 s.linkMod.addr.toNat
    ++ toLe 1 s.linkMod.tlevel.toNat ++ toLe 1 s.linkMod.clevel.toNat) }

/-- Training ends: levels that differ by at most 1 bring the link up, at or after Tap with a
PEER_READY, others leave it down with reason 0x4 (R411, R412, R421). A new training chooses the lanes anew; the neighbour's
landing buffer is empty, 64 credits. -/
def effectLinkUp (n : Nat) (peer : Half) (tl cl : BitVec 8) (s : State) : State :=
  if s.heldThrough n || (s.link n).mode = 1 || (s.link n).st = 2 then s
  else
    let s := s.modLink n fun l =>
      { l with peer := peer, tlevel := tl, clevel := cl, spareUsed := false, spareFor := 0, failedLane := none }
    let own := s.linkMod.tlevel.toNat
    if own ≤ tl.toNat + 1 && tl.toNat ≤ own + 1 then
      let s := (s.modLink n fun l => { l with
        credits := 64, unacked := [], landing := [], expect := [], busy := [], passed := [], timer := none }).setLinkState n 2 0
      if s.aon.stage = 3 && s.fw.serving then s.sendPeerReady n else s
    else s.setLinkState n 0 4
/-- LINK_UP (R402, R411, R412, R421, R432). -/
def execLinkUp (t link : Nat) (peer : Half) (tlevel clevel : BitVec 8) (s : State) : Out :=
  act (link < 64) t s (effectLinkUp link peer tlevel clevel)

end Sys2Proof.Machine
end

