-- ==== Sys2Proof/Machine/Reduce.lean ====
section
/-! DEFINITION. The reduction tree (R195 to R198). -/

namespace Sys2Proof.Machine

open Sys2Proof.Config

/-- Terms added pairwise, one level; an odd last term passes up (R197). -/
def pairUp : List Word → List Word
  | a :: b :: r => fpAdd a b :: pairUp r
  | r => r

/-- Levels of pairwise addition until one term is left. -/
def treeFrom : Nat → List Word → Word
  | _, [] => 0
  | _, [a] => a
  | 0, a :: _ => a
  | n + 1, xs => treeFrom n (pairUp xs)

/-- The tree sum in rank order (R197). -/
def treeSum (xs : List Word) : Word := treeFrom 6 xs

/-- The output elements of a plan over the slices of a handle, with an external handle added last (R195, R196). -/
def reduceElems (plan : Dword) (slices : List Word) (ext : Option (List Word)) : List Word :=
  let n := popCount (BitVec.ofNat 32 (field plan 0 32))
  let wn := field plan 32 16 + 1
  let ways := field plan 48 5 + 1
  let rows := field plan 53 3 + 1
  let g := n / ways
  (List.range (wn * g * rows)).map fun e =>
    let k := e % rows
    let t := e / rows / g
    let grp := e / rows % g
    let y := treeSum ((List.range ways).map fun i => slices.getD ((grp + i * g) * wn * rows + t * rows + k) 0)
    match ext with
    | some x => fpAdd y (x.getD e 0)
    | none => y

/-- Fabric cycles of a REDUCE (R198). -/
def reduceCycles (plan : Dword) (ext : Bool) : Nat :=
  let n := popCount (BitVec.ofNat 32 (field plan 0 32))
  let es := (field plan 32 16 + 1) * (field plan 53 3 + 1)
  let eo := es * (n / (field plan 48 5 + 1))
  max ((es + 15) / 16) (if ext then (eo + 15) / 16 else 0) + 20

/-- REDUCE adds the slices of its handle group by group into a new handle (R195 to R198). -/
def effectReduce (u : UnitId) (img : Nat) (s : State) : State :=
  s.onOp u img opReduce fun s o =>
    let i := field o 14 12
    let out := field o 26 12
    let ext := field o 38 12
    let plan := (s.prog u img).plans.getD (field o 8 6) 0
    s.fire u img (opInputs o) [out] fun s toks hs =>
      let words (j : Nat) (tok : Dword) : List Word :=
        wordsOf (s.readBuf (s.stream j).pool.toNat (tokHandle tok) 0 (s.pool (s.stream j).pool.toNat).bufSize)
      let xs := if ext = 0xFFF then none else some (words ext (toks.getD 1 (toks.getD 0 0)))
      let ys := reduceElems plan (words i (toks.getD 0 0)) xs
      let bs := if flag o 50 then bytesOfHalves (ys.map bfRound) else bytesOfWords ys
      { st := s.each hs fun s h => s.writeBuf (s.stream h.1).pool.toNat h.2 0 bs
        dur := reduceCycles plan xs.isSome * cycle }
/-- REDUCE (R67, R145, R155, R195 to R198). -/
def execReduce (t : Nat) (u : UnitId) (img : Nat) (s : State) : Out := act (unitOk u) t s (effectReduce u img)

end Sys2Proof.Machine
end

