-- ==== Sys2Proof/Machine/Vector.lean ====
section
/-! DEFINITION. The vector unit: the functions of VOP (R199 to R206) and dynamic images (R60). -/

namespace Sys2Proof.Machine

open Sys2Proof.Config

/-! ### Operands of a VOP (R199 to R201) -/

/-- What a function works on: the elements of a and b in FP32, the index buffer's bytes, the shape, K, the next
constant, the function table and the output shape. -/
structure VopIn where
  a : List Word := []
  b : List Word := []
  stats : List Word := []
  idx : List Byte := []
  rows : Nat := 0
  cols : Nat := 0
  k : Word := 0
  k2 : Word := 0
  tbl : FnTable := {}
  outRows : Nat := 0
  outCols : Nat := 0
deriving DecidableEq, Repr

/-- ROWS and COLS of a shape entry. -/
def shapeOf (w : Word) : Nat × Nat := (field w 0 16, field w 16 16)

/-- FMT reads BF16. -/
def vopBfIn (o : Dword) : Bool := flag o 15
/-- FMT writes BF16. -/
def vopBfOut (o : Dword) : Bool := flag o 14

/-- Elements of a buffer in FP32: BF16 widened exactly (R200). -/
def elemsOf (bf : Bool) (bs : List Byte) : List Word := if bf then (halvesOf bs).map bfWiden else wordsOf bs

/-- The operands of a VOP whose input tokens were taken. An absent SRC_B of a function of two operands is an empty buffer (DESIGN
CHOICE, log entry 87; R201). -/
def State.vopIn (s : State) (p : Prog) (o : Dword) (toks : List Dword) : VopIn :=
  let sh := shapeOf (p.shapes.getD (field o 58 6) 0)
  let out := shapeOf (p.shapes.getD (field o 52 6) 0)
  let buf (i : Nat) (k : Dword) : List Byte :=
    s.readBuf (s.stream i).pool.toNat (tokHandle k) 0 (s.pool (s.stream i).pool.toNat).bufSize
  let ta := toks.getD 0 0
  let tb := toks.getD 1 ta
  let bb := if field o 28 12 = 0xFFF then [] else buf (field o 28 12) tb
  { a := (elemsOf (vopBfIn o) (buf (field o 16 12) ta)).take (sh.1 * sh.2)
    b := elemsOf (vopBfIn o) bb
    stats := wordsOf bb
    idx := bb
    rows := sh.1
    cols := sh.2
    k := p.consts.getD (field o 52 6) 0
    k2 := p.consts.getD (field o 52 6 + 1) 0
    tbl := p.tables.getD (field o 52 6) {}
    outRows := out.1
    outCols := out.2 }

/-- N ÷ p, rounded up. -/
def perCycle (n p : Nat) : Nat := (n + p - 1) / p

/-- The bytes of results under FMT; statistics are always FP32 (R199, R201). -/
def vopBytes (o : Dword) (wide : Bool) (ys : List Word) : List Byte :=
  if vopBfOut o && !wide then bytesOfHalves (ys.map bfRound) else bytesOfWords ys

/-- A VOP of one function: the buffers are read, the result of f goes into a new handle, and the output token
follows by 24 + Σ⌈N ÷ p⌉ fabric cycles (R145, R199, R206). -/
def State.vop (s : State) (u : UnitId) (img func : Nat) (wide : Bool) (cycles : Nat → Nat) (f : VopIn → List Word) : State :=
  s.onOp u img opVop fun s o =>
    if vopFunc o = func then
      let p := s.prog u img
      s.fire u img (opInputs o) (opOutputs o) fun s toks hs =>
        let x := s.vopIn p o toks
        { st := s.each hs fun s h => s.writeBuf (s.stream h.1).pool.toNat h.2 0 (vopBytes o wide (f x))
          dur := (24 + cycles (x.rows * x.cols)) * cycle }
    else s

/-- A result for every element of a. -/
def VopIn.map (x : VopIn) (f : Word → Word) : List Word := x.a.map f
/-- A result for every pair of elements of a and b. -/
def VopIn.zip (x : VopIn) (f : Word → Word → Word) : List Word := (x.a.zip x.b).map fun p => f p.1 p.2
/-- Row r of a. -/
def VopIn.row (x : VopIn) (r : Nat) : List Word := (x.a.drop (r * x.cols)).take x.cols
/-- Results row by row. -/
def VopIn.perRow (x : VopIn) (f : List Word → List Word) : List Word := (List.range x.rows).flatMap fun r => f (x.row r)

/-! ### Reductions in the fixed order of R202 -/

/-- Sum in order from the first element; of none +0.0. -/
def sumFrom : List Word → Word
  | [] => 0
  | a :: r => r.foldl vuAdd (vuFlush a)

/-- Terms added pairwise, one level. -/
def vuPairUp : List Word → List Word
  | a :: b :: r => vuAdd a b :: vuPairUp r
  | r => r

/-- 16 lane sums, each over the columns that leave its index on division by 16, then added pairwise (R202). -/
def laneSum (xs : List Word) : Word :=
  let lanes := (List.range 16).map fun l =>
    sumFrom (((List.range xs.length).filter fun i => i % 16 = l).map fun i => xs.getD i 0)
  (vuPairUp (vuPairUp (vuPairUp (vuPairUp lanes)))).headD 0

/-- The largest of a list. -/
def largest : List Word → Word
  | [] => 0
  | a :: r => r.foldl (fun m x => fpMaximum m (vuFlush x)) (vuFlush a)

/-- The largest magnitude of a list. -/
def largestAbs (xs : List Word) : Word := largest (xs.map fun x => fpAbs (vuFlush x))

/-- Lists of 32 consecutive elements, the last one as long as what is left (R113). -/
def blocks32 : Nat → List Word → List (List Word)
  | 0, _ => []
  | n + 1, xs => if xs.isEmpty then [] else xs.take 32 :: blocks32 n (xs.drop 32)

/-- Mean, and 1 ÷ √(variance + K), of one row (R201, R202). -/
def nstats (k : Word) (xs : List Word) : List Word :=
  let n := fpOfInt xs.length
  let mean := vuDiv (laneSum xs) n
  let var := vuDiv (laneSum (xs.map fun x => let d := vuSub x mean; vuMul d d)) n
  [mean, vuRsqrt (vuAdd var k)]

/-- Largest a, and the sum of e^(a - m), of one row (R201, R202). -/
def smstats (xs : List Word) : List Word :=
  let m := largest xs
  [m, laneSum (xs.map fun x => vuExp (vuSub x m))]

/-- Each element with the statistics pair of its row. -/
def VopIn.withStats (x : VopIn) (f : Word → Word → Word → Word) : List Word :=
  (List.range x.rows).flatMap fun r => (x.row r).map fun a => f a (x.stats.getD (2 * r) 0) (x.stats.getD (2 * r + 1) 0)

/-! ### Function tables (R204) -/

/-- Floor of a finite value. -/
def fpFloor (w : Word) : Int :=
  let d := fpVal w
  if 0 ≤ d.e then d.m * 2 ^ d.e.toNat else d.m / 2 ^ (-d.e).toNat

/-- TABLE of one element. -/
def tableOf (t : FnTable) (a : Word) : Word :=
  let u := vuMul (vuSub a t.base) (fpOfDyadic false { m := 1, e := -t.k })
  let at_ (i : Nat) : Word := t.entries.getD i 0
  if fpIsNaN u then fpNaN
  else if fpLt u 0 then vuFlush (at_ 0)
  else if fpIsInf u || fpLt (fpOfInt 255) u then vuFlush (at_ 255)
  else
    let i := (clampInt (fpFloor u) 0 254).toNat
    let f := fpMinimum (fpMaximum (vuSub u (fpOfInt i)) 0) (fpOfInt 1)
    vuAdd (at_ i) (vuMul (vuSub (at_ (i + 1)) (at_ i)) f)

/-! ### The functions -/

/-- a + b. -/
def effectVAdd (u : UnitId) (img : Nat) (s : State) : State :=
  s.vop u img 0x00 false (fun n => perCycle n 16) fun x => x.zip vuAdd
/-- ADD (R145, R156, R157, R199 to R201, R206). -/
def execVAdd (t : Nat) (u : UnitId) (img : Nat) (s : State) : Out := act (unitOk u) t s (effectVAdd u img)

/-- a - b. -/
def effectVSub (u : UnitId) (img : Nat) (s : State) : State :=
  s.vop u img 0x01 false (fun n => perCycle n 16) fun x => x.zip vuSub
/-- SUB (R145, R156, R157, R199 to R201, R206). -/
def execVSub (t : Nat) (u : UnitId) (img : Nat) (s : State) : Out := act (unitOk u) t s (effectVSub u img)

/-- a × b. -/
def effectVMul (u : UnitId) (img : Nat) (s : State) : State :=
  s.vop u img 0x02 false (fun n => perCycle n 16) fun x => x.zip vuMul
/-- MUL (R145, R156, R157, R199 to R201, R206). -/
def execVMul (t : Nat) (u : UnitId) (img : Nat) (s : State) : Out := act (unitOk u) t s (effectVMul u img)

/-- max(a, b). -/
def effectVMax (u : UnitId) (img : Nat) (s : State) : State :=
  s.vop u img 0x03 false (fun n => perCycle n 16) fun x => x.zip fun a b => fpMaximum (vuFlush a) (vuFlush b)
/-- MAX (R145, R156, R157, R199 to R201, R206). -/
def execVMax (t : Nat) (u : UnitId) (img : Nat) (s : State) : Out := act (unitOk u) t s (effectVMax u img)

/-- min(a, b). -/
def effectVMin (u : UnitId) (img : Nat) (s : State) : State :=
  s.vop u img 0x04 false (fun n => perCycle n 16) fun x => x.zip fun a b => fpMinimum (vuFlush a) (vuFlush b)
/-- MIN (R145, R156, R157, R199 to R201, R206). -/
def execVMin (t : Nat) (u : UnitId) (img : Nat) (s : State) : Out := act (unitOk u) t s (effectVMin u img)

/-- a × K. -/
def effectVScale (u : UnitId) (img : Nat) (s : State) : State :=
  s.vop u img 0x05 false (fun n => perCycle n 16) fun x => x.map fun a => vuMul a x.k
/-- SCALE (R145, R156, R157, R199 to R201, R206). -/
def execVScale (t : Nat) (u : UnitId) (img : Nat) (s : State) : Out := act (unitOk u) t s (effectVScale u img)

/-- a × K + b with one rounding. -/
def effectVAxpy (u : UnitId) (img : Nat) (s : State) : State :=
  s.vop u img 0x06 false (fun n => perCycle n 16) fun x => x.zip fun a b => vuFma a x.k b
/-- AXPY (R145, R156, R157, R199 to R201, R206). -/
def execVAxpy (t : Nat) (u : UnitId) (img : Nat) (s : State) : Out := act (unitOk u) t s (effectVAxpy u img)

/-- a limited to the range from K to the next constant. -/
def effectVClamp (u : UnitId) (img : Nat) (s : State) : State :=
  s.vop u img 0x07 false (fun n => perCycle n 16) fun x => x.map fun a => fpMinimum (fpMaximum (vuFlush a) (vuFlush x.k)) (vuFlush x.k2)
/-- CLAMP (R145, R156, R157, R199 to R201, R206). -/
def execVClamp (t : Nat) (u : UnitId) (img : Nat) (s : State) : Out := act (unitOk u) t s (effectVClamp u img)

/-- a, converted under FMT. -/
def effectVCopy (u : UnitId) (img : Nat) (s : State) : State :=
  s.vop u img 0x08 false (fun n => perCycle n 16) fun x => x.map vuFlush
/-- COPY (R145, R156, R157, R199 to R201, R206). -/
def execVCopy (t : Nat) (u : UnitId) (img : Nat) (s : State) : Out := act (unitOk u) t s (effectVCopy u img)

/-- Function table PARAM applied to a (R204). -/
def effectVTable (u : UnitId) (img : Nat) (s : State) : State :=
  s.vop u img 0x09 false (fun n => perCycle n 16) fun x => x.map (tableOf x.tbl)
/-- TABLE (R145, R156, R157, R199 to R201, R204, R206). -/
def execVTable (t : Nat) (u : UnitId) (img : Nat) (s : State) : Out := act (unitOk u) t s (effectVTable u img)

/-- e^a (R203). -/
def effectVExp (u : UnitId) (img : Nat) (s : State) : State :=
  s.vop u img 0x0A false (fun n => perCycle n 8) fun x => x.map vuExp
/-- EXP (R145, R156, R157, R199 to R201, R203, R206). -/
def execVExp (t : Nat) (u : UnitId) (img : Nat) (s : State) : Out := act (unitOk u) t s (effectVExp u img)

/-- 1 ÷ a (R203). -/
def effectVRecip (u : UnitId) (img : Nat) (s : State) : State :=
  s.vop u img 0x0B false (fun n => perCycle n 8) fun x => x.map vuRecip
/-- RECIP (R145, R156, R157, R199 to R201, R203, R206). -/
def execVRecip (t : Nat) (u : UnitId) (img : Nat) (s : State) : Out := act (unitOk u) t s (effectVRecip u img)

/-- 1 ÷ √a (R203). -/
def effectVRsqrt (u : UnitId) (img : Nat) (s : State) : State :=
  s.vop u img 0x0C false (fun n => perCycle n 8) fun x => x.map vuRsqrt
/-- RSQRT (R145, R156, R157, R199 to R201, R203, R206). -/
def execVRsqrt (t : Nat) (u : UnitId) (img : Nat) (s : State) : Out := act (unitOk u) t s (effectVRsqrt u img)

/-- Largest |a| of every row. -/
def effectVRmaxabs (u : UnitId) (img : Nat) (s : State) : State :=
  s.vop u img 0x10 false (fun n => perCycle n 16) fun x => x.perRow fun r => [largestAbs r]
/-- RMAXABS (R145, R156, R157, R199 to R201, R206). -/
def execVRmaxabs (t : Nat) (u : UnitId) (img : Nat) (s : State) : Out := act (unitOk u) t s (effectVRmaxabs u img)

/-- Largest a of every row. -/
def effectVRmax (u : UnitId) (img : Nat) (s : State) : State :=
  s.vop u img 0x11 false (fun n => perCycle n 16) fun x => x.perRow fun r => [largest r]
/-- RMAX (R145, R156, R157, R199 to R201, R206). -/
def execVRmax (t : Nat) (u : UnitId) (img : Nat) (s : State) : Out := act (unitOk u) t s (effectVRmax u img)

/-- Sum of a of every row, in the order of R202. -/
def effectVRsum (u : UnitId) (img : Nat) (s : State) : State :=
  s.vop u img 0x12 false (fun n => perCycle n 16) fun x => x.perRow fun r => [laneSum r]
/-- RSUM (R145, R156, R157, R199 to R202, R206). -/
def execVRsum (t : Nat) (u : UnitId) (img : Nat) (s : State) : Out := act (unitOk u) t s (effectVRsum u img)

/-- Largest |a| of every 32-element block along COLS. -/
def effectVBmaxabs (u : UnitId) (img : Nat) (s : State) : State :=
  s.vop u img 0x13 false (fun n => perCycle n 16) fun x => x.perRow fun r => (blocks32 r.length r).map largestAbs
/-- BMAXABS (R145, R156, R157, R199 to R201, R206). -/
def execVBmaxabs (t : Nat) (u : UnitId) (img : Nat) (s : State) : Out := act (unitOk u) t s (effectVBmaxabs u img)

/-- Mean and 1 ÷ √(variance + K) of every row, FP32. -/
def effectVNstats (u : UnitId) (img : Nat) (s : State) : State :=
  s.vop u img 0x18 true (fun n => 2 * perCycle n 8) fun x => x.perRow (nstats x.k)
/-- NSTATS (R145, R156, R157, R199 to R202, R206). -/
def execVNstats (t : Nat) (u : UnitId) (img : Nat) (s : State) : Out := act (unitOk u) t s (effectVNstats u img)

/-- (a - mean) × rstd from the pairs in b. -/
def effectVNapply (u : UnitId) (img : Nat) (s : State) : State :=
  s.vop u img 0x19 false (fun n => perCycle n 16) fun x => x.withStats fun a m r => vuMul (vuSub a m) r
/-- NAPPLY (R145, R156, R157, R199 to R201, R206). -/
def execVNapply (t : Nat) (u : UnitId) (img : Nat) (s : State) : Out := act (unitOk u) t s (effectVNapply u img)

/-- Largest a and sum of e^(a - m) of every row, FP32. -/
def effectVSmstats (u : UnitId) (img : Nat) (s : State) : State :=
  s.vop u img 0x1A true (fun n => perCycle n 16 + perCycle n 8) fun x => x.perRow smstats
/-- SMSTATS (R145, R156, R157, R199 to R203, R206). -/
def execVSmstats (t : Nat) (u : UnitId) (img : Nat) (s : State) : Out := act (unitOk u) t s (effectVSmstats u img)

/-- e^(a - m) ÷ sum from the pairs in b. -/
def effectVSmapply (u : UnitId) (img : Nat) (s : State) : State :=
  s.vop u img 0x1B false (fun n => perCycle n 8) fun x => x.withStats fun a m z => vuDiv (vuExp (vuSub a m)) z
/-- SMAPPLY (R145, R156, R157, R199 to R201, R203, R206). -/
def execVSmapply (t : Nat) (u : UnitId) (img : Nat) (s : State) : Out := act (unitOk u) t s (effectVSmapply u img)

/-! ### GATHER and EDGESUM (R205) -/

/-- The entries of an index buffer of w bytes each: the count, cut to what the buffer holds, and whether it was cut. -/
def VopIn.count (x : VopIn) (w : Nat) : Nat × Bool :=
  let n := leAt x.idx 0 4
  let held := (x.idx.length - 4) / w
  (min n held, held < n)

/-- Index i of the buffer. -/
def VopIn.index (x : VopIn) (i : Nat) : Nat := leAt x.idx (4 + 2 * i) 2

/-- GATHER's output, one list per row, and what it adds to GATHER_RANGE. -/
def gatherRows (x : VopIn) : List (List Word) × Nat :=
  let c := x.count 2
  let idx := (List.range (min c.1 x.outRows)).map x.index
  let rows := idx.map fun i => (List.range x.outCols).map fun j => if i < x.rows then vuFlush ((x.row i).getD j 0) else 0
  (rows, (idx.filter fun i => x.rows ≤ i).length + if c.2 then 1 else 0)

/-- Row d of a matrix plus a row. -/
def addRow (m : List (List Word)) (d : Nat) (r : List Word) : List (List Word) :=
  m.set d ((List.range (m.getD d []).length).map fun j => vuAdd ((m.getD d []).getD j 0) (r.getD j 0))

/-- EDGESUM's output rows, and what it adds to GATHER_RANGE. -/
def edgeRows (x : VopIn) : List (List Word) × Nat :=
  let c := x.count 4
  let init := List.replicate x.outRows (List.replicate x.outCols (0 : Word))
  (List.range c.1).foldl (fun (a : List (List Word) × Nat) i =>
    let sI := x.index (2 * i)
    let dI := x.index (2 * i + 1)
    let bad := (if x.rows ≤ sI then 1 else 0) + if x.rows ≤ dI then 1 else 0
    if bad = 0 && dI < x.outRows then (addRow a.1 dI (x.row sI), a.2) else (a.1, a.2 + bad))
    (init, if c.2 then 1 else 0)

/-- A VOP over an index buffer: it takes one further cycle per index entry (R205, R206); a row that no entry of
the count reaches keeps what the handle held. -/
def State.vopIndexed (s : State) (u : UnitId) (img func w : Nat) (f : VopIn → List (List Word) × Nat) : State :=
  s.onOp u img opVop fun s o =>
    if vopFunc o = func then
      let p := s.prog u img
      s.fire u img (opInputs o) (opOutputs o) fun s toks hs =>
        let x := s.vopIn p o toks
        let y := f x
        let s := match u with
          | .vu cl pos => s.modCore cl ((s.cluster cl).phys pos) fun c => { c with gatherRange := satAdd c.gatherRange y.2 }
          | _ => s
        { st := s.each hs fun s h => s.writeBuf (s.stream h.1).pool.toNat h.2 0 (vopBytes o false y.1.flatten)
          dur := (24 + perCycle (x.rows * x.cols) 16 + (x.count w).1) * cycle }
    else s

/-- Output row i is row idx[i] of a. -/
def effectVGather (u : UnitId) (img : Nat) (s : State) : State := s.vopIndexed u img 0x20 2 gatherRows
/-- GATHER (R145, R156, R157, R199 to R201, R205, R206). -/
def execVGather (t : Nat) (u : UnitId) (img : Nat) (s : State) : Out := act (unitOk u) t s (effectVGather u img)

/-- Row d += row s of a, for each pair in turn. -/
def effectVEdgesum (u : UnitId) (img : Nat) (s : State) : State := s.vopIndexed u img 0x21 4 edgeRows
/-- EDGESUM (R145, R156, R157, R199 to R201, R205, R206). -/
def execVEdgesum (t : Nat) (u : UnitId) (img : Nat) (s : State) : Out := act (unitOk u) t s (effectVEdgesum u img)

/-! ### DYNIMG (R60) -/

/-- One row of a dynamic image: exponent, codes, what it adds to DYNIMG_SPECIAL, whether it held a NaN (R60). A row
with an infinite element has exponent +63 and counts its NaNs and infinities, not a clamped exponent beside them; a row of NaNs,
or of NaNs and zeros, has -64 and counts no clamped exponent (DESIGN CHOICE, log entry 87). -/
def dynRow (xs : List Word) : Int × List Int × Nat × Bool :=
  let xs := (List.range 64).map fun j => vuFlush (xs.getD j 0)
  let nan := xs.any fpIsNaN
  let special := (xs.filter fun w => fpIsNaN w || fpIsInf w).length
  let fin := finites xs
  let zero := fin.all fpIsZero
  let fit := smallestExp fun e => fin.all fun w => scaleLe (fpVal w) e 127 && scaleLe (fpVal w).neg e 127
  let e : Int := if xs.any fpIsInf then 63 else if zero then -64 else fit.1
  let clamp := !(xs.any fpIsInf) && !zero && fit.2
  let code (w : Word) : Int :=
    if fpIsNaN w then 0
    else if fpIsInf w then (if fpNeg w then -127 else 127)
    else clampInt (scaleRound (fpVal w) e) (-127) 127
  (e, xs.map code, special + (if clamp then 1 else 0), nan)

/-- The trailer of a dynamic image: exponents, row sums, IMAGE_FLAGS bits 0 and 1; BIAS and IMAGE_ID are 0 (DESIGN CHOICE, log
entry 87; R39, R60). -/
def dynTrailer (rows : List (Int × List Int × Nat × Bool)) : List Byte :=
  rows.flatMap (fun r => toLe 1 (wrapTo 8 r.1))
    ++ rows.flatMap (fun r => toLe 2 (wrapTo 16 (r.2.1.foldl (· + ·) 0)))
    ++ List.replicate 34 0 ++ [3] ++ List.replicate 5 0

/-- DYNIMG builds an image from 8 rows of 64 and writes it to slot PARAM of the core; it waits for the slot as
WFILL does (R60, R189, R201). -/
def effectVDynimg (u : UnitId) (img : Nat) (s : State) : State :=
  s.onOp u img opVop fun s o =>
    match u with
    | .vu cl pos =>
      if vopFunc o = 0x30 then
        let k := (s.cluster cl).phys pos
        let slot := field o 52 6 % 32
        if (s.core cl k).slotHeld slot then s
        else
          let p := s.prog u img
          s.fire u img (opInputs o) (opOutputs o) fun s toks _ =>
            let x := s.vopIn p o toks
            let rows := (List.range 8).map fun r => dynRow ((x.a.drop (64 * r)).take 64)
            let w : WImage := { code := rows.flatMap fun r => r.2.1.flatMap fun c => toLe 1 (wrapTo 8 c)
                                trailer := dynTrailer rows }
            { st := s.modCore cl k fun c =>
                { c.setSlot slot w with dynimgSpecial := satAdd c.dynimgSpecial ((rows.map (·.2.2.1)).foldl (· + ·) 0) }
              dur := (24 + 2 * perCycle 512 8) * cycle
              code := if rows.any (·.2.2.2) then some ecNan else none }
      else s
    | _ => s
/-- DYNIMG (R60, R61, R145, R156, R157, R189, R199 to R201, R206). -/
def execVDynimg (t : Nat) (u : UnitId) (img : Nat) (s : State) : Out := act (unitOk u) t s (effectVDynimg u img)

end Sys2Proof.Machine
end

