-- ==== Sys2Proof/Machine/Jobs.lean ====
section
/-! DEFINITION. Images and jobs: the checks of a placement (R180, R383), the choice of clusters, queues, stores and
permits (R150, R159, R459, R84), placing and removing a job (R130, R168, R178, R407, R431). -/

namespace Sys2Proof.Machine

open Sys2Proof.Config

/-! ### Lists and tables (R180, R383) -/

/-- Entries of a list with their numbers. -/
def numbered (xs : List Dword) : List (Nat × Dword) := (List.range xs.length).zip xs

/-- 0x01: a list, or a table, exceeds its store (R175, R180). -/
def declTooLong (d : UnitDecl) : Bool :=
  storeSize d.unit < d.list.length || 64 < d.routes.length || 64 < d.plans.length || 64 < d.shapes.length
    || 64 < d.consts.length || 8 < d.tables.length

/-- 0x02: a LOOP whose TARGET is not below its own entry. -/
def loopForward (x : Nat × Dword) : Bool := opcode x.2 = opLoop && x.1 ≤ field x.2 8 8

/-- 0x03: a LOOP whose body holds another LOOP of the same LEVEL. -/
def loopNested (xs : List (Nat × Dword)) (x : Nat × Dword) : Bool :=
  opcode x.2 = opLoop && xs.any fun y =>
    opcode y.2 = opLoop && field x.2 8 8 ≤ y.1 && y.1 < x.1 && field y.2 32 2 = field x.2 32 2

/-- 0x04: a FENCE whose group lacks the unit. -/
def fenceAstray (im : Image) (u : UnitId) (o : Dword) : Bool :=
  opcode o = opFence && !(((im.groups.find? fun g => g.1 = field o 8 12).map (·.2)).getD []).contains u

/-- 0x05: RSCALE with ROW_MASK 0. -/
def scaleEmpty (o : Dword) : Bool := opcode o = opRscale && field o 8 8 = 0

/-- 0x06: a REDUCE plan whose WAYS does not divide the bits of its POS_MASK. -/
def planUneven (d : UnitDecl) (o : Dword) : Bool :=
  opcode o = opReduce &&
    let p := d.plans.getD (field o 8 6) 0
    popCount (BitVec.ofNat 32 (field p 0 32)) % (field p 48 5 + 1) ≠ 0

/-- The buffer size of a stream's pool in an image; SRAM buffers have the size stated for their cluster (R158, R159). -/
def Image.bufKibOf (im : Image) (rel : Nat) : Nat := ((im.bufKib.find? fun x => x.1 = rel).map (·.2)).getD 4
/-- The buffer size of the pool that stream i of an image draws on; none where the image declares no such stream or
pool. -/
def Image.bufOf (im : Image) (i : Nat) : Option Nat :=
  match im.streams.find? fun m => m.id = i with
  | some m =>
    (im.pools.find? fun p => p.id = m.pool).map fun p =>
      if p.inHbm then p.bufSize else Image.bufKibOf im p.cluster * 1024
  | none => none
/-- n bytes exceed the buffer of stream i's pool. -/
def Image.exceeds (im : Image) (i n : Nat) : Bool := match Image.bufOf im i with | some b => b < n | none => false

/-- The ROW_MASK of the last RSCALE above entry i (R192). -/
def rowMaskAt (xs : List Dword) (i : Nat) : Nat :=
  match ((xs.take i).filter fun o => opcode o = opRscale).getLast? with
  | some o => field o 8 8
  | none => 0xFF

/-- ROW_MASKs put to those with which entry i can be reached. -/
def addMasks (m : List (List Nat)) (i : Nat) (ks : List Nat) : List (List Nat) :=
  m.modify i fun old => (old ++ ks).eraseDups

/-- One pass down a list: each entry hands the ROW_MASKs it leaves to its successors, a LOOP to its TARGET too (R182,
R192). -/
def maskPass (xs : List Dword) (m : List (List Nat)) : List (List Nat) :=
  (numbered xs).foldl (fun m x =>
    let ks := if opcode x.2 = opRscale then [field x.2 8 8] else m.getD x.1 []
    if opcode x.2 = opEnd || (m.getD x.1 []).isEmpty then m
    else
      let m := addMasks m (x.1 + 1) ks
      if opcode x.2 = opLoop && field x.2 16 16 ≠ 0 then addMasks m (field x.2 8 8) ks else m) m

/-- The ROW_MASKs with which each entry of a list can run: a pass more than it has LOOPs finds them all (R182, R192). -/
def rowMasks (xs : List Dword) : List (List Nat) :=
  (List.range ((xs.filter fun o => opcode o = opLoop).length + 1)).foldl (fun m _ => maskPass xs m)
    ([0xFF] :: List.replicate xs.length [])

/-- Bytes of results that a TILE writes, up to the end of its slice, with the widest ROW_MASK it can run with (R192, R194). -/
def tileBytes (xs : List Dword) (x : Nat × Dword) : Nat :=
  let rows := ((rowMaskAt xs x.1 :: (rowMasks xs).getD x.1 []).map fun k => popCount (BitVec.ofNat 8 k)).foldl max 0
  (field x.2 51 5 + 1) * (field x.2 35 16 + 1) * rows * 4

/-- Bytes of results that a REDUCE writes (R195, R196). -/
def planBytes (d : UnitDecl) (o : Dword) : Nat :=
  let p := d.plans.getD (field o 8 6) 0
  (field p 32 16 + 1) * (popCount (BitVec.ofNat 32 (field p 0 32)) / (field p 48 5 + 1)) * (field p 53 3 + 1)
    * (if flag o 50 then 2 else 4)

/-- Bytes of results that a VOP writes (R199, R201, R205). DYNIMG writes no buffer. -/
def vopOut (d : UnitDecl) (o : Dword) : Nat :=
  let sh := shapeOf (d.shapes.getD (field o 58 6) 0)
  let out := shapeOf (d.shapes.getD (field o 52 6) 0)
  let w := if vopBfOut o then 2 else 4
  match vopFunc o with
  | 0x10 | 0x11 | 0x12 => sh.1 * w
  | 0x13 => sh.1 * ((sh.2 + 31) / 32) * w
  | 0x18 | 0x1A => sh.1 * 8
  | 0x20 | 0x21 => out.1 * out.2 * w
  | 0x30 => 0
  | _ => sh.1 * sh.2 * w

/-- 0x07: an output exceeds its pool buffer. -/
def outTooBig (im : Image) (d : UnitDecl) (x : Nat × Dword) : Bool :=
  let o := x.2
  if opcode o = opTile then Image.exceeds im (field o 23 12) (tileBytes d.list x)
  else if opcode o = opReduce then Image.exceeds im (field o 26 12) (planBytes d o)
  else if opcode o = opVop then Image.exceeds im (field o 40 12) (vopOut d o)
  else false

/-- 0x0D: a VOP's PARAM lies beyond its table. -/
def paramBad (o : Dword) : Bool :=
  opcode o = opVop &&
    match vopFunc o with
    | 0x07 => field o 52 6 = 63
    | 0x09 => 8 ≤ field o 52 6
    | 0x30 => 32 ≤ field o 52 6
    | _ => false

/-- The reason of IMAGE_INVALID: the lowest code among the rules of R180 that the image breaks; 0 for none (R383). -/
def Image.reason (im : Image) : Nat :=
  let anyOp (f : UnitDecl → Nat × Dword → Bool) : Bool := im.units.any fun d => (numbered d.list).any (f d)
  if im.units.any declTooLong then 0x01
  else if anyOp fun _ x => loopForward x then 0x02
  else if anyOp fun d x => loopNested (numbered d.list) x then 0x03
  else if anyOp fun d x => fenceAstray im d.unit x.2 then 0x04
  else if anyOp fun _ x => scaleEmpty x.2 then 0x05
  else if anyOp fun d x => planUneven d x.2 then 0x06
  else if anyOp (outTooBig im) then 0x07
  else if anyOp fun _ x => paramBad x.2 then 0x0D
  else 0

/-! ### Resources (R150, R158, R159, R459, R383) -/

/-- A serviceable cluster: locked and calibrated, or in Taster service, and neither retired, parked nor restarting. -/
def Cluster.serviceable (c : Cluster) : Bool := c.locked && !c.retired && !c.parked && c.restart.isNone

/-- The units of an image on relative cluster rel, placed on module cluster cl. -/
def unitsFor (im : Image) (rel cl : Nat) : List UnitId :=
  (im.units.filter fun d => unitCluster d.unit = some rel).map fun d => UnitId.place ((List.range rel).map (fun _ => 0) ++ [cl]) d.unit

/-- Consuming inputs of the units for which a test holds, among stream edges (R150). -/
def queuesAt (edges : List UnitId) (home : UnitId → Bool) : Nat := (edges.filter home).length

/-- The consuming inputs of the streams that placed jobs have. -/
def State.edgesHeld (s : State) : List UnitId :=
  s.streams.flatMap fun x => if x.2.img.isSome then x.2.consumers.map (·.unit) else []

/-- The list that a placed image has for unit u. -/
def State.listFor (s : State) (img : Nat) (u : UnitId) : List Dword :=
  (((s.image img).img.units.find? fun d => UnitId.place (s.clustersOf img) d.unit = u).map (·.list)).getD []

/-- Entries of unit u's store that lists of placed jobs occupy (R459). -/
def State.entriesHeld (s : State) (u : UnitId) : Nat := (s.jobs.map fun i => (s.listFor i u).length).foldl (· + ·) 0

/-- Cluster cl has hamper queues for relative cluster rel of an image, and free entries in the stores of its shared units
(R150, R459). -/
def State.hasRoom (s : State) (im : Image) (rel cl : Nat) : Bool :=
  let wanted := (im.streams.flatMap fun m => m.consumers.map (·.1)).filter fun u => unitCluster u = some rel
  wanted.length + queuesAt s.edgesHeld (fun u => unitCluster u = some cl) ≤ 512 &&
    im.units.all fun d => unitCluster d.unit ≠ some rel || unitAlone d.unit ||
      (unitsFor { im with units := [d] } rel cl).all fun u => s.entriesHeld u + d.list.length ≤ 64

/-- Cluster cl can take relative cluster rel of an image: no other job there, or jobs of the same buffer size that
hold none of the units needed (R159, R459); a cluster in Taster service takes Taster-capable images only (R422, R269). -/
def State.fits (s : State) (im : Image) (rel cl : Nat) : Bool :=
  let c := s.cluster cl
  c.serviceable && (!(s.aon.taster || c.parkedHeat) || im.taster) &&
    let others := s.jobsOn cl
    (others.isEmpty || c.bufKib = Image.bufKibOf im rel) &&
    (unitsFor im rel cl).all fun u => !unitAlone u || !(others.any fun i => (s.unitsOf i).contains u)

/-- The lowest clusters that fit relative clusters rel, rel + 1, …, each cluster taken once (log entry 15). -/
def chooseFrom (fits : Nat → Nat → Bool) : Nat → Nat → List Nat → Option (List Nat)
  | 0, _, _ => some []
  | n + 1, rel, free =>
    match free.find? (fits rel) with
    | some cl => (chooseFrom fits n (rel + 1) (free.filter (· ≠ cl))).map (cl :: ·)
    | none => none

/-- The clusters of a placement by a test: those from a pinned first cluster on, or the lowest that fit. -/
def chooseBy (fits : Nat → Nat → Bool) (n : Nat) (pin : Option Nat) : Option (List Nat) :=
  match pin with
  | some c =>
    if (List.range n).all fun r => c + r < 832 && fits r (c + r) then some ((List.range n).map (c + ·)) else none
  | none => chooseFrom fits n 0 (List.range 832)

/-- The clusters of a placement (R159, R459). -/
def State.choose (s : State) (im : Image) (pin : Option Nat) : Option (List Nat) :=
  chooseBy (fun rel cl => s.fits im rel cl && s.hasRoom im rel cl) im.clusters pin

/-- 0x08: hamper queues exhausted: 512 in a cluster, 64 at each stream engine and link port (R150), and, as the manual names no
number for it, 64 at the field I/O port (DESIGN CHOICE, log entry 87). -/
def State.queuesShort (s : State) (im : Image) (cls : List Nat) : Bool :=
  let mine := im.streams.flatMap fun m => m.consumers.map fun c => UnitId.place cls c.1
  let all := mine ++ s.edgesHeld
  let alone := im.streams.flatMap fun m => m.consumers.map (·.1)
  (cls.any fun c => 512 < queuesAt all fun u => unitCluster u = some c) ||
    ((List.range im.clusters).any fun r => 512 < queuesAt alone fun u => unitCluster u = some r) ||
    mine.any fun u => (unitCluster u).isNone && 64 < queuesAt all fun v => v = u

/-- What firmware adds to an image's pool numbers: the least that leaves them free and below 4,096 (R158; log entry 15). -/
def State.poolBase (s : State) (im : Image) : Option Nat :=
  (List.range 4096).find? fun b => im.pools.all fun p => b + p.id < 4096 && (s.pool (b + p.id)).img.isNone

/-- What firmware adds to an image's stream numbers: the least that leaves them free and below 4,096 (R141; log entry 15). -/
def State.streamBase (s : State) (im : Image) : Option Nat :=
  (List.range 4096).find? fun b => im.streams.all fun m => b + m.id < 4096 && (s.stream (b + m.id)).img.isNone

/-- 0x09: more than 4,096 pools. -/
def State.poolsShort (s : State) (im : Image) : Bool := (s.poolBase im).isNone

/-- 0x0A: stream numbers exhausted. -/
def State.streamsShort (s : State) (im : Image) : Bool := (s.streamBase im).isNone

/-- 0x0E: a shared store lacks the entries for a list (R459). -/
def State.storesShort (s : State) (im : Image) (cls : List Nat) : Bool :=
  im.units.any fun d =>
    let u := UnitId.place cls d.unit
    !unitAlone u && 64 < s.entriesHeld u + d.list.length

/-- The reason of NO_RESOURCE: the lowest code that applies; 0 for none. Queues and stores are exhausted where no choice of
clusters with room is left (R383). -/
def State.resourceReason (s : State) (im : Image) (pin : Option Nat) : Nat :=
  let cls := (s.choose im pin).orElse fun _ => chooseBy (s.fits im) im.clusters pin
  if s.queuesShort im (cls.getD []) then 0x08
  else if s.poolsShort im then 0x09
  else if s.streamsShort im then 0x0A
  else if cls.isNone || profileClusters s.aon.profile < (s.usedClusters ++ cls.getD []).eraseDups.length then 0x0B
  else if s.storesShort im (cls.getD []) then 0x0E
  else 0

/-- Clusters that hold a fast-window permit. -/
def State.permitsHeld (s : State) : Nat := (s.clusters.filter fun x => x.2.permit).length

/-- Clusters without a permit that placements still waiting are to get one for (R81, R82). -/
def State.permitsPromised (s : State) : List Nat :=
  ((s.fw.images.flatMap fun x => x.2.promised).eraseDups).filter fun c => !(s.cluster c).permit

/-- Permits that firmware can grant: at most 416, those promised to placements that wait among them, and none outside the
full profile (R81, R84, R438). -/
def State.permitsFree (s : State) : Nat :=
  if s.aon.profile = 0 then 416 - s.permitsHeld - s.permitsPromised.length else 0

/-- No placement waits for a permit any more: a later profile change has withdrawn it (R82, R440). -/
def State.unpromise (s : State) : State :=
  { s with fw := { s.fw with images := s.fw.images.map fun x => (x.1, { x.2 with promised := [] }) } }

/-- The clusters of a placement that need a permit they do not hold, or hold no longer than to their next fence (R84,
R439). -/
def State.permitsNeeded (s : State) (im : Image) (cls : List Nat) : List Nat :=
  ((im.fastClusters.map fun r => cls.getD r 0).eraseDups).filter fun c => !(s.cluster c).permit || (s.cluster c).permitGoing

/-! ### Placing (R130, R142, R150, R151, R158, R159, R168, R175, R178, R220, R407) -/

/-- A stream number as firmware assigns it; 0xFFF stands for an absent operand (R141, R181). -/
def movedStream (base n : Nat) : Nat := if n = 0xFFF then n else (base + n) % 4096

/-- Where an operation names streams of its own module: bit positions (R181). -/
def streamFields (o : Dword) : List Nat :=
  let c := opcode o
  if c = opEvent then [24]
  else if c = opTile then [23]
  else if c = opWfill then [8, 26]
  else if c = opReduce then [14, 26, 38]
  else if c = opVop then [16, 28, 40]
  else if c = opQuant then [8, 20]
  else if c = opFeed ∨ c = opSend ∨ c = opRecv ∨ c = opField then [8]
  else []

/-- An operation with the stream numbers that firmware assigned. -/
def moveOp (base : Nat) (o : Dword) : Dword :=
  (streamFields o).foldl (fun o k => putField o k 12 (movedStream base (field o k 12))) o

/-- An address word with the stream number that firmware assigned: handle space alone names a stream (R222). -/
def moveAddr (base a : Nat) : Nat := if awSpace a = 2 then a - awStream a + movedStream base (awStream a) else a

/-- A descriptor with the stream numbers that firmware assigned (R221, R222). -/
def moveDesc (base : Nat) (d : List Byte) : List Byte :=
  toLe 8 (moveAddr base (dSrc d)) ++ toLe 8 (moveAddr base (dDst d)) ++ (d.drop 16).take 22
    ++ toLe 2 (leAt d 38 2 - dComp d + movedStream base (dComp d)) ++ d.drop 40

/-- An image with the stream and pool numbers that firmware assigned (R141; log entry 15). -/
def moveImage (streams pools : Nat) (im : Image) : Image :=
  { im with
    units := im.units.map fun d => { d with list := d.list.map (moveOp streams) }
    pools := im.pools.map fun p => { p with id := pools + p.id }
    streams := im.streams.map fun m => { m with id := streams + m.id, pool := pools + m.pool }
    descs := im.descs.map fun x => (x.1, x.2.1, moveDesc streams (padTo 64 x.2.2)) }

/-- The record of an image that is placed under the numbers that firmware assigns; its own where they are free. -/
def ImgRec.renumber (streams pools : Nat) (r : ImgRec) : ImgRec :=
  if streams = 0 ∧ pools = 0 then r else { r with img := moveImage streams pools r.img, asLoaded := some r.img }

/-- A WFILL of the image passes images along stream i: a chain (R230). -/
def Image.chainOn (im : Image) (i : Nat) : Bool :=
  im.units.any fun d => d.list.any fun o => opcode o = opWfill && flag o 25 && field o 26 12 = i

/-- The record of a stream at placement: counters and settings stay, the carried state is empty (R130, R133, R140). -/
def streamPlaced (img : Nat) (cls : List Nat) (im : Image) (d : StreamDecl) (old : Stream) : Stream :=
  { old with
    img := some img
    pool := BitVec.ofNat 12 d.pool
    producers := d.producers.map (UnitId.place cls)
    consumers := d.consumers.map fun c => { unit := UnitId.place cls c.1, c := c.2, credits := c.2 }
    seq := [], tiles := [], hq := 0, stalled := false, wait := none, guard := none, guardStalled := false, sink := 0
    chain := Image.chainOn im d.id
    limit := BitVec.ofNat 20 d.limit
    qnt := { old.qnt with carry := none }
    rowLen := d.rowLen, elems := d.elems, rx := [], taken := [], peerLost := false }

/-- The record of a pool at placement: every handle free. -/
def poolPlaced (img : Nat) (cls : List Nat) (im : Image) (d : PoolDecl) (old : Pool) : Pool :=
  { old with
    img := some img, inHbm := d.inHbm, cluster := cls.getD d.cluster 0, base := d.base
    bufSize := if d.inHbm then d.bufSize else Image.bufKibOf im d.cluster * 1024
    size := BitVec.ofNat 16 d.handles, freeList := List.range d.handles, back := [], counts := [], pairs := []
    minFree := BitVec.ofNat 16 (min old.minFree.toNat d.handles) }

/-- The smallest limit that the placed images state for each link; 200 µs where none states one (R407). -/
def State.linkLimits (s : State) : State :=
  s.each (List.range 64) fun s n =>
    let xs := s.jobs.flatMap fun i => ((s.image i).img.linkLimits.filter fun x => x.1 = n).map (·.2)
    let v := BitVec.ofNat 14 (xs.foldl min (xs.headD 200))
    if (s.link n).limit = v then s else s.modLink n fun l => { l with limit := v }

/-- An image's list and tables written into the stores of its units that a condition names (R175). -/
def State.writeStores (s : State) (img : Nat) (cls : List Nat) (which : UnitId → Bool) : State :=
  s.each ((s.image img).img.units.filter fun d => which d.unit) fun s d =>
    s.setProg (UnitId.place cls d.unit) img
      { unit := UnitId.place cls d.unit, list := d.list, routes := d.routes, plans := d.plans, shapes := d.shapes
        consts := d.consts, tables := d.tables }

/-- A unit is inside a model step of some job. -/
def State.inStep (s : State) (u : UnitId) : Bool := (s.listsOf u).any fun x => (s.image x.1).running

/-- What a placement still waits for: a shared unit inside a model step of another job (R175), or a cluster that is to get
a permit and is not drained (R82). -/
def State.placeWaits (s : State) (img : Nat) (cls : List Nat) : Bool :=
  let im := (s.image img).img
  (im.units.any fun d => !unitAlone d.unit && s.inStep (UnitId.place cls d.unit))
    || (s.permitsNeeded im cls).any s.working

/-- The end of a placement: the stores of shared units, and the permits it was promised (R82, R175, R440). -/
def State.finishPlace (s : State) (img : Nat) : State :=
  let s := s.writeStores img (s.clustersOf img) fun u => !unitAlone u
  let s := s.each (s.image img).promised fun s c => s.modCluster c fun k => { k with permit := true, permitGoing := false }
  s.modImage img fun r => { r with waiting := false, promised := [] }

/-- Images that the lists of removed jobs have loaded into a core are no SWAP's any more (R191). -/
def Core.unlist (c : Core) : Core :=
  { c with shadow := c.shadow.map fun h => { h with byList := false }, prefetch := c.prefetch.map fun x => (x.1, false) }

/-- The cores of a job hold no image that a list of theirs has loaded (R191). -/
def State.unlistCores (s : State) (us : List UnitId) : State :=
  s.each us fun s u =>
    match u with
    | .core c p => s.modCore c ((s.cluster c).phys p) Core.unlist
    | _ => s

/-- An image placed on clusters: stores, streams, pools, descriptor stores, buffer sizes, link limits; the stores of
shared units and the permits follow at once, or, where they have to wait, at the command's end (R82, R175, R376). -/
def State.placeJob (s : State) (img : Nat) (cls : List Nat) (noProbes : Bool) : State :=
  let im := (s.image img).img
  let waits := s.placeWaits img cls
  let permits := s.permitsNeeded im cls
  let s := s.modImage img fun r =>
    { r with placed := some cls, running := false, starts := 0, overrun := 0, completed := 0, lastUs := 0, abort := none
             waiting := waits, promised := permits }
  let s := s.each (List.range cls.length) fun s r =>
    s.modCluster (cls.getD r 0) fun c =>
      { c with bufKib := Image.bufKibOf im r, probesForbidden := c.probesForbidden || noProbes }
  let s := s.each im.pools fun s d => s.modPool d.id (poolPlaced img cls im d)
  let s := (s.each im.streams fun s d => s.modStream d.id (streamPlaced img cls im d)).freeLanding (im.streams.map (·.id))
  let s := s.writeStores img cls unitAlone
  let s := s.unlistCores (s.unitsOf img)
  let s := s.each im.descs fun s d => s.modDesc d.1 d.2.1 fun k => { k with store := padTo 64 (d.2.2.take 42) }
  if waits then s.linkLimits else (s.finishPlace img).linkLimits

/-! ### Removing (R171, R380, R431) -/

/-- The record of a stream that no job holds: counters stay (R133). -/
def Stream.freed (m : Stream) : Stream :=
  { m with img := none, producers := [], consumers := [], seq := [], tiles := [], hq := 0, stalled := false, wait := none
           guard := none, guardStalled := false, chain := false
           qnt := { m.qnt with carry := none }, rx := [], taken := [], peerLost := false }

/-- The record of a pool that no job holds. -/
def Pool.freed (p : Pool) : Pool :=
  { p with img := none, size := 0, freeList := [], back := [], counts := [], pairs := [] }

/-- A job that is still placed needs the fast window on cluster c. -/
def State.fastOn (s : State) (c : Nat) : Bool :=
  (s.jobsOn c).any fun i => (s.image i).img.fastClusters.any fun r => (s.clustersOf i).getD r 832 = c

/-- A placed job leaves its units, streams, pools and clusters; a permit that no job needs any more goes at once, or at
the cluster's next fence; once the last permit that was to go has gone, the parking that a profile owes follows (R82, R439). -/
def State.unplace (s : State) (img : Nat) : State :=
  let cls := s.clustersOf img
  let us := s.unitsOf img
  let s := s.each ((s.descs.filter fun d => s.descImg d.2.work = some img).map (·.1)) fun s k =>
    s.modDesc (k / 8192) (k % 8192) Desc.abort
  let remotes := s.remotesOf img
  let s := s.each remotes fun s i => s.modStream i fun m => { m with rx := [], taken := [] }
  let s := s.freeLanding (s.streamsOf img ++ remotes)
  let s := s.each (s.streamsOf img) fun s i => s.modStream i Stream.freed
  let s := s.each (s.poolsOf img) fun s p => s.modPool p Pool.freed
  let s := s.each us fun s u => s.setProg u img {}
  let s := s.unlistCores us
  let s := s.modImage img fun r =>
    { r with placed := none, running := false, abort := none, waiting := false, promised := []
             img := r.asLoaded.getD r.img, asLoaded := none }
  let s := s.each cls fun s c =>
    s.modCluster c fun k =>
      { k with bufKib := if (s.jobsOn c).isEmpty then 4 else k.bufKib
               permit := k.permit && (s.fastOn c || s.undrained c)
               permitGoing := (k.permitGoing || (k.permit && !s.fastOn c)) && s.undrained c }
  s.linkLimits.settleProfile

/-- A job removed: a running step is aborted first (R171, R386). -/
def State.removeJob (s : State) (img : Nat) : State :=
  if (s.image img).placed.isSome then (s.abortStep img 8 0xFFFF).unplace img else s

/-! ### Ownership (R368, R375, R380) -/

/-- Whether an image index, 0 to 255, holds an image. -/
def State.loaded (s : State) (i : Nat) : Bool := (s.image i).loaded

/-- Images that an identity loaded. -/
def State.imagesOf (s : State) (who : Nat) : List Nat :=
  (s.fw.images.filter fun x => x.2.loaded && x.2.owner = who).map (·.1)

end Sys2Proof.Machine
end

