-- ==== Sys2Proof/Machine/Bringup.lean ====
section
/-! DEFINITION. Power, bring-up, retry, watchdog, thermal trip, reset domains, event outputs (R412, R415 to R433,
R436, R443, R448, R457, R458). -/

namespace Sys2Proof.Machine

open Sys2Proof.Config

/-! ### Reset of D1 (R288, R321, R346, R372, R373, R431, R457) -/

/-- The STR record of a stack after a reset of D1: counts go, the unit's present state stays (R457). -/
def Stack.d1Reset (k : Stack) : Stack :=
  { turn := k.turn, busyUntil := k.busyUntil, rowFails := k.rowFails, reserveFor := k.reserveFor, reserveUsed := k.reserveUsed
    migrating := k.migrating, degraded := k.degraded }

/-- The LNK record of a link after a reset of D1: counts and limit go, the link itself goes on; what landed for streams here
leaves the landing buffer (R402, R405, R457). -/
def Link.d1Reset (now : Nat) (l : Link) : Link :=
  { l with cwCorr := 0, cwAt := now, cwUncorr := 0, replays := 0, drops := 0, bypassed := 0, fallback := 0, limit := 0xC8
           landing := [], outCredit := l.outCredit + l.landing.length }

/-- A cluster after a reset of D1: its word of the counter block is 0 and firmware's settings have their defaults (R275, R457). -/
def Cluster.d1Reset (now : Nat) (c : Cluster) : Cluster :=
  { c with switchWait := 0, waitCounted := now, settleThresh := 3, mislockFrac := 50, settleNext := 3, fracNext := 50
           rotMs := 100, vel := 50, acc := 10, jerk := 5, probesForbidden := false, permitGoing := false }

/-- A reset of D1: CASK_RESETS counts it; running steps are aborted with no event, every job and image goes; mailboxes,
locks, field inputs, timebase, scheduler, loops and the counter block return to reset values; the outputs take R346. -/
def State.resetD1 (s : State) : State :=
  let s := { s with fw := { s.fw with serving := false } }
  let s := s.each s.jobs fun s i => (s.abortStep i 9 0xFFFF).unplace i
  let s := s.each (List.range 16) fun s n => s.modFout n (Fout.beforeTick s.now (Fout.d1Reset s.now))
  let records : Tab Stack := s.hbmStacks.map fun x => (x.1, x.2.d1Reset)
  let links : Tab Link := s.links.map fun x => (x.1, x.2.d1Reset s.now)
  let clusters : Tab Cluster := s.clusters.map fun x => (x.1, x.2.d1Reset s.now)
  State.refreshIdle { s with
    aon := { s.aon with resets := s.aon.resets + 1, armed := false, d1Reset := true, taster := false }
    fw := {}, chans := [], locks := {}, streams := [], pools := [], progs := []
    hbmStacks := records
    links := links
    clusters := clusters
    linkMod := { portAddr := s.linkMod.portAddr, routes := s.linkMod.routes }
    loops := [], prfs := [], loopEng := {}, convs := [], incfg := [], incfgAt := []
    ang := { todBase := s.now, lastUpdate := s.now }, sched := [] }

/-! ### Resets of D2, D3 and D4 (R346, R402, R429 to R431, R458) -/

/-- A core through a reset of D2: stores and loops are lost, its place, engine map, retirement and counts stay (R31, R458). -/
def Core.d2Reset (c : Cluster) (k : Nat) (x : Core) : Core :=
  let st := match x.st with
    | .cold => CoreState.cold
    | .retired => .retired
    | _ => if (c.posOf k).isSome then .inService else .spareReady
  { st := st, engines := x.engines, engFailed := x.engFailed, prefetchDiscard := x.prefetchDiscard
    gatherRange := x.gatherRange, dynimgSpecial := x.dynimgSpecial }

/-- A cluster through a reset of D2: unlocked and uncalibrated; what the wear of its parts made, its settings, its
counts and its jobs' buffer size and permits stay. -/
def Cluster.d2Reset (now : Nat) (c : Cluster) : Cluster :=
  let idle := (List.range 34).filter fun k =>
    (c.posOf k).isNone && (c.core k).st ≠ .cold && (c.core k).st ≠ .retired
  let spare := if idle.contains c.spareCore then c.spareCore else idle.headD c.spareCore
  let cores := c.cores.map fun x => (x.1, Core.d2Reset c x.1 x.2)
  { c with
    feeders := [], cores := cores, locked := false, calibrated := false, taster := false, parkedHeat := false
    failures := 0, restart := none, quiet := none, quietClosed := none, quietLast := none, remap := false, slot := none
    advHeld := false, spareFor := none
    spareCore := spare, copyEnd := none, wearWarm := none, waiting := [], repeatTurn := [], lockDraw := 0, calDraw := 0
    outerDraw := 0, innerOff := 0, recov := none, spareNext := none, bandSince := none, idleSince := now, rotates := false }

/-- A job has data in the HBM stacks of quarter q: a pool or a region (R431). -/
def State.dataIn (s : State) (q img : Nat) : Bool :=
  (s.poolsOf img).any (fun p => (s.pool p).inHbm && (s.pool p).base / 2 ^ 36 / 4 = q)
    || (s.image img).img.hbm.any fun r => r.1 / 2 ^ 36 / 4 ≤ q && q ≤ (r.1 + r.2 - 1) / 2 ^ 36 / 4

/-- A job uses quarter q: a unit, a cluster or data there. -/
def State.usesQuarter (s : State) (q img : Nat) : Bool :=
  (s.unitsOf img).any (fun u => unitQuarter u = some q) || (s.clustersOf img).any (fun c => c / 208 = q) || s.dataIn q img

/-- Firmware keeps a descriptor store entry for the end of Mash: a placed job uses its quarter (R220). -/
def State.descKept (s : State) (key : Nat) : Bool := s.jobs.any (s.usesQuarter (key / 8192 / 4))

/-- A descriptor of a placed job through a reset of D2: its entry is empty until the end of Mash, firmware keeps a copy
(R220). -/
def Desc.d2Reset (k : Desc) : Desc :=
  { kept := if k.kept.isEmpty then k.store else k.kept, lastErr := k.lastErr }

/-- The end of Mash: firmware writes the descriptor stores of quarters that recover back; every descriptor starts in IDLE with
an empty shadow (R220). -/
def State.restoreDescs (s : State) : State :=
  { s with descs := (s.descs.map fun x =>
      if s.aon.recover2.getLsbD (x.1 / 8192 / 4) then
        (x.1, { store := if !x.2.kept.isEmpty && s.descKept x.1 then x.2.kept else x.2.store, lastErr := x.2.lastErr })
      else x).filter fun x => x.2 ≠ {} }

/-- The end of Mash: firmware writes the lists and tables that jobs have lost back into the stores of recovered units (R431). -/
def State.restoreStores (s : State) : State :=
  s.each s.jobs fun s i =>
    let cls := s.clustersOf i
    s.writeStores i cls fun d =>
      let u := UnitId.place cls d
      (unitQuarter u).any s.aon.recover2.getLsbD && s.prog u i = {} && (unitAlone u || !(s.image i).waiting)

/-- A reset of D2 or D3 on an output channel: a stream-fed one is flushed, which gives a waiting FIELD 0x2 room (R172, R333,
R346). -/
def State.faultOutput (s : State) (n : Nat) : State :=
  let f := s.fout n
  let s := s.modFout n (Fout.beforeTick s.now (Fout.d23Reset s.now))
  if f.source = 1 && f.st ≠ .hiz then s.roomFrees n else s

/-- A reset of D2 of quarter q: model steps that use the quarter are aborted; clusters, cluster SRAM and descriptors
lose their contents, unit and descriptor stores too until firmware restores them; stream-fed outputs enter FAULT. -/
def State.resetD2 (s : State) (q : Nat) : State :=
  let s := s.each (s.jobs.filter (s.usesQuarter q)) fun s i => s.abortStep i 9 0xFFFF
  let s := s.each (List.range 16) State.faultOutput
  { s with
    aon := { s.aon with d2Reset := s.aon.d2Reset ||| BitVec.ofNat 4 (2 ^ q) }
    clusters := s.clusters.map fun x => (x.1, if x.1 / 208 = q then x.2.d2Reset s.now else x.2)
    descs := s.descs.filterMap fun x =>
      if x.1 / 8192 / 4 = q then (if s.descKept x.1 then some (x.1, x.2.d2Reset) else none) else some x
    progs := s.progs.filter fun p => unitQuarter p.2.unit ≠ some q
    sram := s.sram.filter fun c => c.1 / 0x300000 / 208 ≠ q }

/-- A reset of D3 of quarter q, which includes its D2: the contents of its stacks are lost, jobs with data there are
removed (R430, R431). -/
def State.resetD3 (s : State) (q : Nat) : State :=
  let s := s.each (s.jobs.filter (s.dataIn q)) fun s i => (s.abortStep i 9 0xFFFF).unplace i
  let s := s.resetD2 q
  { s with
    aon := { s.aon with d3Reset := s.aon.d3Reset ||| BitVec.ofNat 4 (2 ^ q), hbmTrained := false }
    hbm := s.hbm.filter fun c => c.1 / 2 ^ 36 / 4 ≠ q
    bad := s.bad.filter fun l => l * 64 / 2 ^ 36 / 4 ≠ q }

/-- A reset of link engine e: links 4e to 4e + 3 pass light through (R402, R431). -/
def State.resetD4 (s : State) (e : Nat) : State :=
  let s := s.modAon fun a => { a with d4Reset := a.d4Reset ||| BitVec.ofNat 16 (2 ^ e) }
  s.each [4 * e, 4 * e + 1, 4 * e + 2, 4 * e + 3] State.passThrough

/-- A reset of D1 to D4: jobs go (R431), then quarters first, so that a stream-fed channel ends in FAULT (R346); after Tap links stay in
pass-through until Tap again (R421). -/
def State.resetAll (s : State) : State :=
  if s.aon.inReset then s
  else
    let held := s.aon.linksHeld || s.aon.tapped
    let s := s.each s.jobs fun s i => (s.abortStep i 9 0xFFFF).unplace i
    let s := s.each (List.range 4) State.resetD3
    let s := s.each (List.range 16) State.resetD4
    let s := if s.aon.d1Reset then s else s.resetD1
    { s with
      aon := { s.aon with inReset := true, linksHeld := held, stage := 5, resetHold := none
                          askD1 := false, askD2 := 0, askD3 := 0, askD4 := 0 }
      linkMod := {} }

/-! ### Holds and release (R418, R419, R436, R443) -/

/-- Why D1 to D4 stay in reset: AON_STAGE.STAGE reads 0x4 in a back-off wait without another hold, else 0x5 (R418, R433, R436). -/
def Aon.heldStage (a : Aon) : BitVec 3 :=
  if a.backoff.isSome && !a.perst && !a.supplyHold then 4 else 5

/-- No hold remains. -/
def Aon.noHold (a : Aon) : Bool :=
  a.power && !a.perst && !a.supplyHold && !a.thermalHold && a.backoff.isNone && a.resetHold.isNone

/-- A bring-up stage is entered at this moment: STAGE goes to the host where mailboxes are served (R386, R415). -/
def State.enterStage (s : State) (st : BitVec 3) : State :=
  let s := s.modAon fun a => { a with stage := st, stageFrom := s.now }
  s.raise 0x8050 (layBytes 8 [(0, toLe 1 st.toNat), (4, toLe 4 s.aon.count.toNat)])

/-- Quarters whose D2 leaves reset recover until the end of Mash (R431). -/
def Aon.releaseQuarters (a : Aon) : Aon := { a with recover2 := a.recover2 ||| a.d2Reset, d2Reset := 0, d3Reset := 0 }

/-- D1 leaves reset: the watchdog arms, the time of day counts from 0 and Steep begins (R321, R415, R425). -/
def State.releaseD1 (s : State) : State :=
  let s := s.modAon fun a =>
    { a.releaseQuarters with d1Reset := false, inReset := false, d4Reset := 0, armed := true, beatAt := s.now }
  { s with ang := { s.ang with todBase := s.now, lastUpdate := s.now } }.enterStage 0

/-- D1 to D4 leave reset when no hold remains; until then STAGE tells the hold. -/
def State.tryRelease (s : State) : State :=
  if !s.aon.inReset then s
  else if s.aon.noHold then s.releaseD1
  else s.modAon fun a => { a with stage := a.heldStage }

/-- EVT2 conducts for 10 ms from a retry or expiry (R448). -/
def Aon.pulse (now : Nat) (a : Aon) : Aon := { a with evt2Until := some (now + 10 * ms) }

/-- The back-off wait of attempt k in tu: 2^(min(k, 7) - 1) s (R418). -/
def backoffTu (k : Nat) : Nat := 2 ^ (min k 7 - 1) * sec

/-- A retry: D1 to D4 in reset, COUNT and TOTAL rise, the back-off wait begins; PERST# stops it (R418, R419). -/
def State.retry (s : State) : State :=
  let armed := s.aon.armed
  let s := s.resetAll
  let s := s.modAon fun a =>
    let k := satInc a.count
    { a with count := k, total := satInc a.total, retryAt := some s.now, retryArmed := armed, resetHold := none
             backoff := if a.perst then none else some (s.now + backoffTu k.toNat) }.pulse s.now
  s.tryRelease

/-- Two events fall in one fabric cycle. -/
def sameCycle (x : Option Nat) (now : Nat) : Bool :=
  match x with
  | some t => t / cycle = now / cycle
  | none => false

/-! ### Supply (R436) -/

/-- D0 at power-good: what lies in flash and in the non-volatile safe records is kept, all else is at reset. -/
def State.powerUp (s : State) (power : Bool) : State :=
  { now := s.now, pending := s.pending, free := s.free, wear := s.wear
    aon := { power := power, bootBank := s.aon.bootBank, bankOk := s.aon.bankOk, flash := s.aon.flash, perst := s.aon.perst, goodAt := s.now
             diodes := s.aon.diodes, supplyFrom := s.now }
    fouts := s.fouts.map fun x => (x.1, { nvm := x.2.nvm, range := x.2.nvm.range })
    ang := { todBase := s.now, lastUpdate := s.now } }

/-- The input rises above 44.0 V; PERST# then holds reset, or Steep begins. -/
def effectPowerGood (mv : Nat) (s : State) : State :=
  if !s.aon.power && 44000 < mv then (s.powerUp true).tryRelease else s
/-- POWER_GOOD (R15, R343, R344, R415, R416, R433, R436, R440). -/
def execPowerGood (t mv : Nat) (s : State) : Out := act true t s (effectPowerGood mv)

/-- The input falls below 38.0 V: D0 loses power, and with it Cask and every domain (R402, R428, R436). -/
def effectPowerLoss (mv : Nat) (s : State) : State :=
  if s.aon.power && mv < 38000 then s.powerUp false else s
/-- POWER_LOSS (R346, R402, R428, R436). -/
def execPowerLoss (t mv : Nat) (s : State) : Out := act true t s (effectPowerLoss mv)

/-- The input has been below 46.0 V since a moment, for 1 ms, or falls below 40.0 V: the supply hold. -/
def effectSupplyHold (mv since : Nat) (s : State) : State :=
  if s.aon.power && 38000 ≤ mv && (mv < 40000 || mv < 46000 && since + ms ≤ s.now) then
    (s.resetAll.modAon fun a => { a with supplyHold := true, supplyFrom := s.now }).tryRelease
  else s
/-- SUPPLY_HOLD (R346, R429, R431, R436). -/
def execSupplyHold (t : Nat) (r : SupplyReading) (s : State) : Out := act true t s (effectSupplyHold r.mv r.since)

/-- The input has been above 47.5 V since a moment, for 100 ms of the hold: the hold is released. -/
def effectSupplyHoldRelease (mv since : Nat) (s : State) : State :=
  if s.aon.power && s.aon.supplyHold && 47500 < mv && max since s.aon.supplyFrom + 100 * ms ≤ s.now then
    (s.modAon fun a => { a with supplyHold := false }).tryRelease
  else s
/-- SUPPLY_HOLD_RELEASE (R415, R436). -/
def execSupplyHoldRelease (r : Seen SupplyReading) (s : State) : Out :=
  act true r.t s (effectSupplyHoldRelease r.it.mv r.it.since)

/-! ### PERST# (R419) -/

/-- PERST# asserts: D1 to D4 in reset, the back-off wait stops. -/
def effectPerstAssert (s : State) : State :=
  if s.aon.power then
    (s.resetAll.modAon fun a => { a with perst := true, backoff := none, resetHold := none }).tryRelease
  else s.modAon fun a => { a with perst := true }
/-- PERST_ASSERT (R402, R419, R429, R431). -/
def execPerstAssert (t : Nat) (s : State) : Out := act true t s effectPerstAssert

/-- PERST# deasserts: Steep begins at once where no other hold remains. -/
def effectPerstDeassert (s : State) : State := (s.modAon fun a => { a with perst := false }).tryRelease
/-- PERST_DEASSERT (R415, R419, R425, R436). -/
def execPerstDeassert (t : Nat) (s : State) : Out := act true t s effectPerstDeassert

/-! ### Stages (R415 to R424) -/

/-- Every cluster that is not retired has passed Kiln. -/
def State.allLocked (s : State) : Bool := (List.range 832).all fun c => (s.cluster c).retired || (s.cluster c).locked

/-- A cluster holds a placed Taster job: Mash excludes it (R423). -/
def State.excluded (s : State) (cl : Nat) : Bool := (s.jobsOn cl).any fun i => (s.image i).img.taster

/-- Every cluster has calibrated, is left to its rotation, has been given up or is excluded now (R415, R423). -/
def State.allCalibrated (s : State) : Bool :=
  (List.range 832).all fun c => (s.cluster c).retired || (s.cluster c).calibrated || (s.cluster c).rotates || s.excluded c

/-- A die has given up every cluster (R417). -/
def State.deadDie (s : State) : Bool :=
  (List.range 4).any fun q => (List.range 208).all fun c => (s.cluster (208 * q + c)).retired

/-- Links that may train begin to, but for those that a level mismatch keeps down (R408, R412, R421). -/
def State.trainLinks (s : State) : State :=
  s.each (List.range 64) fun s n =>
    if s.heldThrough n then s.passThrough n
    else if (s.link n).mode = 1 || (s.link n).st = 1 || (s.link n).st = 2 || (s.link n).levelDown then s
    else s.setLinkState n 1 (s.link n).downReason

/-- Tap: COUNT returns to 0, links leave forced pass-through, PEER_READY goes out on every link that is up, descriptor
stores of placed jobs are back (R220, R418, R421, R422). -/
def State.enterTap (s : State) : State :=
  let s := s.modAon fun a =>
    { a with count := 0, taster := false, tapped := true, linksHeld := false }
  let s := s.restoreDescs.restoreStores.modAon fun a => { a with recover2 := 0 }
  let s := (s.enterStage 3).trainLinks
  s.each ((List.range 64).filter s.linkIsUp) State.sendPeerReady

/-- Kiln begins: no Taster service, and the heaters of clusters that have not locked ramp to free codes (R247, R415, R422). -/
def State.enterKiln (s : State) : State :=
  let n := s.free + 1
  let s := s.draw.modAon fun a => { a with taster := false, kilnDraw := n }
  let ramped : Tab Cluster := s.clusters.map fun x => (x.1, { x.2 with rampLim := x.2.limits })
  ({ s with clusters := ramped }).enterStage 1

/-- A firmware bank verifies: as its last commit found it, or as shipped (R420, log entry 89). -/
def Aon.verifies (a : Aon) (b : Bool) : Bool := (if b then a.bankOk.2 else a.bankOk.1).getD (Config.bankVerifies b)

/-- The bank that boots: the marked one if it verifies, else the other; none where neither does (R420). -/
def Aon.boots (a : Aon) : Option Bool :=
  if a.verifies a.bootBank then some a.bootBank else if a.verifies (!a.bootBank) then some !a.bootBank else none

/-- Steep ends: the booted bank, firmware serves mailboxes; then Kiln with HBM and link training, or, after a reset of
D1 alone, Tap again, or Mash with Taster service (R415, R420, R422, R431). -/
def effectSteepEnd (s : State) : State :=
  if s.aon.stage = 0 && !s.aon.inReset && s.aon.power && s.aon.boots.isSome then
    let s := s.modAon fun a => { a with bank := a.boots.getD a.bootBank, standbyCp := Config.standbyBoots s.free }
    let s := s.wearsWhen s.aon.standbyCp 7
    let s := { s.draw with fw := { s.fw with serving := true } }
    let s := s.trainLinks
    if !s.allLocked then s.enterKiln
    else if !s.allCalibrated then (s.modAon fun a => { a with taster := true }).enterStage 2
    else s.enterTap
  else s
/-- STEEP_END (R415, R416, R420, R421, R431, R373, R377). -/
def execSteepEnd (t : Nat) (s : State) : Out := act true t s effectSteepEnd

/-- The slot that firmware wrote last into a channel's outbound ring (R357). -/
def Channel.lastOut (c : Channel) : List Byte := c.page.readN (0x800 + 0x40 * ((c.outTail - 1).toNat % 32)) 64

/-- A stage fails with a code: CASK_STAGE, the STAGE event with the failed flag, which goes out where mailboxes are served and
its ring has room before the retry resets them, and the retry (R417; log entry 20). -/
def State.failStage (s : State) (code : Half) : State :=
  let st := s.aon.stage
  let s := s.modAon fun a => { a with failCode := code, failStage := st }
  let s := s.raise 0x8050 (layBytes 8 [(0, toLe 1 st.toNat), (1, [1]), (2, toLe 2 code.toNat), (4, toLe 4 s.aon.count.toNat)])
  let s := if s.fw.serving then s.each (List.range 64) fun s ch => s.modChan ch (Channel.drain (s.headsDue ch) ch 288) else s
  let got := (List.range 64).filter fun ch => s.fw.serving && (s.fw.route ch 0x8050).1 && (s.chan ch).held.isEmpty
  (s.modAon fun a => { a with stageSent := got.map fun ch => (ch, (s.chan ch).lastOut) }).retry

/-- Post-package repair of a stack: as many of the rows logged as failed as it has repair rows left; the log is empty (R22;
log entry 78). -/
def State.repairRows (s : State) (k : Nat) : State :=
  let done := Tab.get 0 s.wear.rows k
  let n := min (s.stack k).rowFails (Config.repairRows k - done)
  { s with wear := { s.wear with rows := Tab.put 0 s.wear.rows k (done + n) } }.modStack k fun m => { m with rowFails := 0 }

/-- HBM training inside Kiln ends; post-package repair is applied in it (R22). -/
def effectHbmTrainingEnd (s : State) : State :=
  if s.aon.stage = 1 then (s.each (List.range 16) State.repairRows).modAon fun a => { a with hbmTrained := true } else s
/-- HBM_TRAINING_END (R22, R415, R416). -/
def execHbmTrainingEnd (t : Nat) (s : State) : Out := act true t s effectHbmTrainingEnd

/-- A warm core after Kiln: its heaters have ramped, its rings are locked on factory calibration; it enters unsettled (R247,
R249, R415). -/
def Core.lock (positioned : Bool) (heat : Int) (c : Core) : Core :=
  if c.warm then
    { c with st := if positioned then .unsettled else .spareReady, entered := true, goodRun := 0, mon := [] }.newTCal heat 68 260000
  else c

/-- A cluster has locked: rings at free heater codes, factory calibration until Mash; without a ready spare the wear spare
warms (R22, R415, R422, log entry 34). -/
def Cluster.lock (n now : Nat) (c : Cluster) : Cluster :=
  let heat := c.heat
  let c := (List.range 34).foldl (fun d k => d.modCore k (Core.lock (d.posOf k).isSome heat))
    { c with locked := true, taster := true, calibrated := false, rotates := false, lockDraw := n, calDraw := 0 }
  if c.readySpare.isNone then c.callWear now else c

/-- The heaters of every cluster that locks in this Kiln have ramped up (R247, R415). -/
def State.kilnRamped (s : State) : Bool :=
  (List.range 832).all fun c => (s.cluster c).retired || (s.cluster c).locked
    || ramped (s.cluster c).rampLim s.aon.kilnDraw c s.aon.stageFrom s.now

/-- Kiln ends: with HBM trained, heaters ramped and no cluster restarting, every cluster not given up has locked; Mash and
Taster service begin. A die that has given up every cluster fails the stage (R417). -/
def effectKilnEnd (s : State) : State :=
  if s.aon.stage = 1 && s.aon.hbmTrained && s.kilnRamped && (List.range 832).all fun c => (s.cluster c).restart.isNone then
    if s.deadDie then s.failStage 0x0202
    else
      let n := s.aon.kilnDraw
      let s := s.each (List.range 832) fun s c =>
        if (s.cluster c).retired || (s.cluster c).locked then s else s.modCluster c (Cluster.lock n s.now)
      (s.modAon fun a => { a with taster := true }).enterStage 2
  else s
/-- KILN_END (R247, R249, R415, R416, R422 to R424). -/
def execKilnEnd (t : Nat) (s : State) : Out := act true t s effectKilnEnd

/-- A cluster has passed Mash: free calibration values, T_CAL at its sensors, nothing drifted yet (R243, R260, R276, R415,
log entry 35). -/
def Cluster.mash (n cl : Nat) (c : Cluster) : Cluster :=
  let heat := c.heat
  (List.range 34).foldl (fun d k =>
    if (d.core k).warm then
      d.modCore k fun x => { (x.fullCal { draw := n, cl := cl, k := k } heat (some c.lockDraw)) with calDraw := none }
    else d)
    { c with calibrated := true, taster := false, rotates := false, calDraw := n, heaterDrift := 0 }

/-- Mash of a cluster, with what it finds failed (R22, R37, R237). -/
def State.mashCluster (s : State) (n cl : Nat) : State :=
  (s.modCluster cl (Cluster.mash n cl)).each (List.range 34) fun s k => s.calFaults cl n k

/-- Mash ends: every cluster that is neither excluded nor given up has calibrated, the excluded ones are left to their
rotation; Tap. A die that has given up every cluster fails the stage (R417, R423). -/
def effectMashEnd (s : State) : State :=
  if s.aon.stage = 2 && s.aon.resetHold.isNone && s.allLocked && (List.range 832).all fun c => (s.cluster c).restart.isNone then
    if s.deadDie then s.failStage 0x0301
    else
      let n := s.free + 1
      let s := s.draw
      let s := s.each (List.range 832) fun s c =>
        if (s.cluster c).retired || (s.cluster c).calibrated then s
        else if s.excluded c then s.modCluster c fun k => { k with rotates := true }
        else s.mashCluster n c
      s.enterTap
  else s
/-- MASH_END (R22, R37, R220, R237, R380, R415, R418, R421 to R424). -/
def execMashEnd (t : Nat) (s : State) : Out := act true t s effectMashEnd

/-- A stage fails in the fabric cycle of a watchdog expiry, whose reset stands: the code goes to CASK_STAGE and COUNT adds 1
once (R428). -/
def State.failInExpiry (s : State) (code : Half) : State :=
  if s.aon.inReset && sameCycle s.aon.expiryAt s.now && !sameCycle s.aon.retryAt s.now then
    (s.modAon fun a => { a with failCode := code, failStage := a.expiryStage.1 }).retry
  else s

/-- The stage timer of a stage in ms and its failure code (R416, R417). -/
def stageLimit (st : BitVec 3) : Option (Nat × Half) :=
  match st.toNat with
  | 0 => some (2000, 0x0103)
  | 1 => some (10000, 0x0203)
  | 2 => some (15000, 0x0302)
  | _ => none

/-- The stage timer of a stage that began at a moment has expired: the first 1 ms edge after its limit has passed (R172). -/
def timedOut (n from_ now : Nat) : Bool := from_ / ms + n + 1 ≤ now / ms

/-- The stage timer expires, in the cycle of a watchdog expiry too (R172, R416, R417, R428). -/
def effectStageTimer (s : State) : State :=
  match stageLimit s.aon.stage, stageLimit s.aon.expiryStage.1 with
  | some (n, code), _ => if s.aon.power && !s.aon.inReset && timedOut n s.aon.stageFrom s.now then s.failStage code else s
  | none, some (n, code) => if timedOut n s.aon.expiryStage.2 s.now then s.failInExpiry code else s
  | none, none => s
/-- STAGE_TIMER (R172, R416 to R418). -/
def execStageTimer (t : Nat) (s : State) : Out := act true t s effectStageTimer

/-- Failure codes of R417 other than the timers', with their stages. -/
def failureStage (code : Half) : Option (BitVec 3) :=
  match code.toNat with
  | 0x0101 | 0x0102 => some 0
  | 0x0201 | 0x0202 => some 1
  | 0x0301 => some 2
  | _ => none

/-- A stage fails. In the cycle of a watchdog expiry the expiry's reset stands: the code still goes to CASK_STAGE and
COUNT adds 1 once (R417, R428). -/
def effectStageFailure (code : Half) (s : State) : State :=
  match failureStage code with
  | some st =>
    if s.aon.power && !s.aon.inReset && s.aon.stage = st then s.failStage code
    else if s.aon.expiryStage.1 = st then s.failInExpiry code
    else s
  | none => s
/-- STAGE_FAILURE (R417, R418, R428). -/
def execStageFailure (t : Nat) (code : Half) (s : State) : Out := act true t s (effectStageFailure code)

/-- The back-off wait ends. -/
def effectBackoffEnd (s : State) : State :=
  match s.aon.backoff with
  | some e => if e ≤ s.now then (s.modAon fun a => { a with backoff := none }).tryRelease else s
  | none => s
/-- BACKOFF_END (R415, R418, R436). -/
def execBackoffEnd (t : Nat) (s : State) : Out := act true t s effectBackoffEnd

/-- A cluster fails to lock in Kiln, or to calibrate in Mash: a cluster restart, after a second failure it is retired. -/
def effectClusterBringupFail (cl : Nat) (s : State) : State :=
  let c := s.cluster cl
  if (s.aon.stage = 1 && !c.locked || s.aon.stage = 2 && !c.calibrated) && !c.retired then
    if c.failures = 0 then (s.modCluster cl fun c => { c with failures := 1 }).beginRestart cl
    else s.modCluster cl fun c => { c with failures := c.failures + 1, retired := true, permit := false, restart := none }
  else s
/-- CLUSTER_BRINGUP_FAIL (R26, R417). -/
def execClusterBringupFail (t cl : Nat) (s : State) : Out := act (cl < 832) t s (effectClusterBringupFail cl)

/-! ### Heartbeat and watchdog (R425 to R428) -/

/-- A change of WDG_BEAT restarts the watchdog, with the limit of WDG_CTRL from now on. -/
def effectHeartbeat (beat : Half) (s : State) : State :=
  if s.aon.armed && beat ≠ s.aon.beat then
    s.modAon fun a => { a with beat := beat, beatAt := s.now, wdgNow := a.wdgLimit.toNat }
  else s
/-- HEARTBEAT (R425). -/
def execHeartbeat (t : Nat) (beat : Half) (s : State) : Out := act true t s (effectHeartbeat beat)

/-- A Cask code from WDG_ACT and the low 8 bits of CASK_RESETS; REASON 0x000 is never latched (R426, R427). -/
def Aon.caskCode (a : Aon) : Word :=
  let reason := if a.actReason = 0 then 1 else a.actReason.toNat
  BitVec.ofNat 32 (a.actDomain.toNat * 2 ^ 28 + a.actUnit.toNat * 2 ^ 20 + reason * 2 ^ 8 + a.resets.toNat % 256)

/-- A code shifts into Cask; the oldest is lost (R428). -/
def Aon.latchCask (a : Aon) : Aon := { a with cask := (a.caskCode :: a.cask).take 8, expiries := satInc a.expiries }

/-- The watchdog's edge: the (N + 1)th tick after the last change of WDG_BEAT (R425). -/
def Aon.beatLate (now : Nat) (a : Aon) : Bool := a.beatAt / ms + a.wdgNow + 1 ≤ now / ms

/-- The watchdog expires: CASK_RESETS rises, the code is latched, D1 to D4 are reset, held 10 ms. In the cycle of a retry
it is that retry's reset (R426, R428, R431, R443). -/
def effectWatchdogExpiry (s : State) : State :=
  let now := s.now
  if s.aon.armed && s.aon.beatLate now then
    let stage := (s.aon.stage, s.aon.stageFrom)
    let s := s.resetAll
    s.modAon fun a =>
      { a.latchCask with expiryAt := some now, expiryStage := stage, resetHold := some (now + 10 * ms), stage := 5 }.pulse now
  else if sameCycle s.aon.retryAt now && s.aon.retryArmed && s.aon.beatLate now && !sameCycle s.aon.expiryAt now then
    s.modAon fun a => { a.latchCask with expiryAt := some now }
  else s
/-- WATCHDOG_EXPIRY (R172, R425 to R428, R430, R431, R448). -/
def execWatchdogExpiry (t : Nat) (s : State) : Out := act true t s effectWatchdogExpiry

/-! ### Trip diodes (R443, R448) -/

/-- The trip diodes read temperatures: above 100 °C a retry that also holds reset until all read 80 °C or less. -/
def State.readDiodes (s : State) (xs : List Int) : State :=
  let s := s.modAon fun a => { a with diodes := xs }
  if !s.aon.power then s
  else if xs.any fun x => 100 < x then
    if s.aon.thermalHold then s
    else
      let s := s.modAon fun a => { a with thermalHold := true }
      if sameCycle s.aon.retryAt s.now then s.tryRelease else s.retry
  else if s.aon.thermalHold && xs.all fun x => x ≤ 80 then
    (s.modAon fun a => { a with thermalHold := false }).tryRelease
  else s

/-- A trip diode reads above 100 °C. -/
def effectThermalTrip (die : Nat) (temp : Int) (s : State) : State := s.readDiodes (s.aon.diodes.set die temp)
/-- THERMAL_TRIP (R418, R431, R443, R448). -/
def execThermalTrip (t die : Nat) (temp : Int) (s : State) : Out := act (die < 4) t s (effectThermalTrip die temp)

/-- The trip diodes have come to read 80 °C or less. -/
def effectThermalTripRelease (temps : List Int) (s : State) : State := s.readDiodes temps
/-- THERMAL_TRIP_RELEASE (R436, R443). -/
def execThermalTripRelease (t : Nat) (temps : List Int) (s : State) : Out :=
  act (temps.length = 4) t s (effectThermalTripRelease temps)

/-- A trip diode's reading crosses 85 °C. -/
def effectTripDiodeCrossing (die : Nat) (temp : Int) (s : State) : State := s.readDiodes (s.aon.diodes.set die temp)
/-- TRIP_DIODE_CROSSING (R448). -/
def execTripDiodeCrossing (t die : Nat) (temp : Int) (s : State) : Out :=
  act (die < 4) t s (effectTripDiodeCrossing die temp)

/-! ### Domain resets (R429 to R431) -/

/-- The requests that a reset carries out are met. -/
def Aon.met (d1 : Bool) (d2 d3 : BitVec 4) (d4 : Half) (a : Aon) : Aon :=
  { a with askD1 := a.askD1 && !d1, askD2 := a.askD2 &&& ~~~d2, askD3 := a.askD3 &&& ~~~d3, askD4 := a.askD4 &&& ~~~d4 }

/-- A reset of domains that MODULE_RESET asked for takes effect: a quarter's D3 includes its D2; the domains are held
10 ms; a request in a running reset adds its domains; all domains together are a whole-module reset. -/
def effectDomainReset (d1 : Bool) (d2 d3 : BitVec 4) (d4 : Half) (s : State) : State :=
  let a := s.aon
  let asked := (!d1 || a.askD1) && d2 &&& ~~~a.askD2 = 0 && d3 &&& ~~~a.askD3 = 0 && d4 &&& ~~~a.askD4 = 0
  if !a.power || a.inReset || !asked || (!d1 && d2 = 0 && d3 = 0 && d4 = 0) then s
  else
    let until_ := a.resetHold.getD (s.now + 10 * ms)
    let held := a.resetHold.isSome
    let all := (d1 || held && a.d1Reset) && ((if held then a.d3Reset else 0) ||| d3) = 0xF
      && ((if held then a.d4Reset else 0) ||| d4) = 0xFFFF
    if all then (s.resetAll).modAon fun a => { a with resetHold := some until_ }
    else
      let s := s.each (bitsOf (d2 &&& ~~~d3)) State.resetD2
      let s := s.each (bitsOf d3) State.resetD3
      let s := s.each (bitsOf d4) State.resetD4
      let s := if d1 && !s.aon.d1Reset then s.resetD1 else s
      s.modAon fun a => { a.met d1 d2 d3 d4 with resetHold := some until_, stage := if a.d1Reset then 5 else a.stage }
/-- DOMAIN_RESET (R288, R321, R346, R372, R402, R429 to R431, R457, R458). -/
def execDomainReset (t : Nat) (d1 : Bool) (d2 d3 : BitVec 4) (d4 : Half) (s : State) : Out :=
  act true t s (effectDomainReset d1 d2 d3 d4)

/-- The 10 ms reset hold is over: D1 to D4, or D1, leave reset into Steep; a quarter's recovery begins with Kiln, which
follows a Steep that still runs; link engines train again (R415, R425, R431). -/
def effectResetRelease (s : State) : State :=
  match s.aon.resetHold with
  | some e =>
    if e ≤ s.now then
      let s := s.modAon fun a => { a with resetHold := none }
      if s.aon.inReset then s.tryRelease
      else if s.aon.d1Reset then s.releaseD1
      else
        let s := (s.modAon fun a => { a with d4Reset := 0 }).trainLinks
        if s.aon.d2Reset = 0 then s
        else
          let s := s.modAon Aon.releaseQuarters
          if s.aon.stage = 0 then s else s.enterKiln
    else s
  | none => s
/-- RESET_RELEASE (R415, R419, R425, R431). -/
def execResetRelease (t : Nat) (s : State) : Out := act true t s effectResetRelease

/-! ### Event outputs (R448) -/

/-- Whether event output k conducts. -/
def State.eventOut (s : State) (k : Nat) : Bool :=
  s.aon.power && s.aon.evtOn &&
    match k with
    | 0 => s.aon.stage = 3
    | 1 => (List.range 16).all fun n => (s.fout n).st = .running || (s.fout n).st = .safe
    | 2 => s.aon.evt2Until.isSome
    | 3 => s.aon.diodes.all fun x => x ≤ 85
    | _ => false

/-- The 10 ms pulse of EVT2 ends. -/
def effectEvtPulseEnd (s : State) : State :=
  match s.aon.evt2Until with
  | some e => if e ≤ s.now then s.modAon fun a => { a with evt2Until := none } else s
  | none => s
/-- EVT_PULSE_END (R448). -/
def execEvtPulseEnd (t : Nat) (s : State) : Out := act true t s effectEvtPulseEnd

/-- 1 ms after power-up the event outputs are first evaluated. -/
def effectEvtFirstEvaluation (s : State) : State :=
  if s.aon.power && s.aon.goodAt + ms ≤ s.now then s.modAon fun a => { a with evtOn := true } else s
/-- EVT_FIRST_EVALUATION (R448). -/
def execEvtFirstEvaluation (t : Nat) (s : State) : Out := act true t s effectEvtFirstEvaluation

end Sys2Proof.Machine
end

