-- ==== Sys2Proof/Machine/Counters.lean ====
section
/-! DEFINITION. The read-only counter block at BAR0 offset 0x0050_0000: the words of the HQ, pool, row-scaler, switch,
QNT, STR and LNK records (R140, R174, R235, R236, R414), and the clears of COUNTER_CLEAR (R133, R380). -/

namespace Sys2Proof.Machine

open Sys2Proof.Config

/-! ### HQ and pool records (R174) -/

/-- Entries of a consumer queue (R149). -/
def Consumer.fill (c : Consumer) : Nat := c.queue.length

/-- Credits that the producer of stream i holds on an edge; a chain edge has at most its one (R151, R230). -/
def State.edgeCredits (s : State) (i : Nat) (c : Consumer) : Nat :=
  let m := s.stream i
  if m.chain then (if (s.chainEnd (m.img.getD 0) i c).isSome then 1 else 0) else c.credits

/-- Word k of stream i's HQ record. -/
def State.hqWord (s : State) (i k : Nat) : Word :=
  let m := s.stream i
  match k with
  | 0 =>
    let held := m.consumers.map (s.edgeCredits i)
    let credits := held.foldl min (held.headD 0)
    let fill := m.consumers.foldl (fun n c => max n c.fill) 0
    BitVec.ofNat 32 (m.hq.toNat + (if m.stalled || m.guardStalled then 8 else 0) + credits % 128 * 2 ^ 4
      + fill % 128 * 2 ^ 11 + m.pool.toNat * 2 ^ 18)
  | 1 => BitVec.ofNat 32 (m.lastSent.toNat + m.lastCredited.toNat * 65536)
  | 2 => BitVec.ofNat 32 m.limit.toNat
  | 3 => BitVec.ofNat 32 (m.stalls.toNat + m.maxWait.toNat * 65536)
  | _ => 0

/-- Word k of a pool's record. -/
def Pool.word (p : Pool) (k : Nat) : Word :=
  match k with
  | 0 => BitVec.ofNat 32 (p.freeList.length % 65536 + p.minFree.toNat * 65536)
  | 1 => BitVec.ofNat 32 (p.size.toNat + if p.inHbm then 65536 else 0)
  | _ => 0

/-! ### Row-scaler and switch counters (R236) -/

/-- Word k of a stream's row-scaler record. -/
def Stream.rowWord (m : Stream) (k : Nat) : Word :=
  match k with
  | 0 => m.rowClip
  | 1 => m.rowOvf
  | 2 => m.winDemote
  | _ => 0

/-! ### QNT record (R140) -/

/-- Word k of a QNT record. -/
def Qnt.word (q : Qnt) (k : Nat) : Word :=
  match k with
  | 0 => q.satCodes
  | 1 => q.underBlocks
  | 2 => q.zeroBlocks
  | 3 => BitVec.ofNat 32 (q.replays.toNat + q.secondExc.toNat * 65536)
  | 4 =>
    BitVec.ofNat 32 (q.format.toNat + (if q.carried then 8 else 0) + q.headroom.toNat * 16 + q.policy.toNat * 64
      + (if q.zeroRange then 256 else 0) + (if q.carry.isSome then 512 else 0) + q.lastExp.toNat * 2 ^ 16
      + (match q.carry with | some e => wrapTo 8 e.1 | none => 0) * 2 ^ 24)
  | 5 => BitVec.ofNat 32 (q.satThresh.toNat + q.underThresh.toNat * 65536)
  | 6 => BitVec.ofNat 32 (q.nan.toNat + q.rxReserved.toNat * 2 ^ 16 + q.pairMismatch.toNat * 2 ^ 24)
  | 7 => BitVec.ofNat 32 (q.carryFallback.toNat + q.expClamp.toNat * 65536)
  | _ => 0

/-! ### STR record (R235) -/

/-- Descriptors of engine e in ARMED, ACTIVE or DRAINING. -/
def State.activeDescs (s : State) (e : Nat) : Nat :=
  (s.descs.filter fun d =>
    d.1 / 8192 = e && (d.2.st = .armed || d.2.st = .active || d.2.st = .draining)).length

/-- Word k of engine e's STR record. -/
def State.strWord (s : State) (e k : Nat) : Word :=
  let m := s.stack e
  match k with
  | 0 =>
    BitVec.ofNat 32 (s.outstanding e % 1024 + s.activeDescs e % 16384 * 2 ^ 10 + m.reserveFor.toNat * 2 ^ 24
      + (if m.reserveUsed then 2 ^ 29 else 0) + (if m.migrating.isSome then 2 ^ 30 else 0) + if m.degraded then 2 ^ 31 else 0)
  | 1 => BitVec.ofNat 32 m.units.toNat
  | 2 => BitVec.ofNat 32 (m.units.toNat / 2 ^ 32)
  | 3 => m.short
  | 4 => BitVec.ofNat 32 (m.rearmOverrun.toNat + m.armRefused.toNat * 65536)
  | 5 => BitVec.ofNat 32 (m.errDesc.toNat + m.errCode.toNat * 2 ^ 16)
  | 6 => BitVec.ofNat 32 m.overrunDesc.toNat
  | 7 => BitVec.ofNat 32 (m.maxLat.toNat + m.hostOor.toNat * 65536)
  | 8 => m.corrected
  | _ => 0

/-! ### LNK record (R414) -/

/-- Received power of link n's weakest lane; no light before the first training and in pass-through (log entry 38). -/
def State.lanePower (s : State) (n : Nat) : Half :=
  let l := s.link n
  if l.st = 3 || (l.st = 0 && l.downReason = 0) then 0x8000 else BitVec.ofNat 16 (Config.measured 2 n s.now)

/-- LNK_POWER.RX: after a reset of D1 its reset value, until firmware serves again (R15, R457; DESIGN CHOICE, log entry 38). -/
def State.rxPower (s : State) (n : Nat) : Half := if s.fw.serving then s.lanePower n else 0x8000

/-- LNK_STAT.LOW_POWER: the weakest lane is below −11.0 dBm, 0 where it has no light. -/
def State.lowPower (s : State) (n : Nat) : Bool := s.lanePower n ≠ 0x8000 && (s.lanePower n).toInt < -11 * 256

/-- Word k of link n's LNK record. -/
def State.linkWord (s : State) (n k : Nat) : Word :=
  let l := s.link n
  match k with
  | 0 =>
    BitVec.ofNat 32 (l.st.toNat + (if l.spareUsed then 4 else 0) + l.spareFor.toNat * 8 + (if s.lowPower n then 64 else 0)
      + l.downReason.toNat * 128)
  | 1 => BitVec.ofNat 32 (l.peer.toNat + l.tlevel.toNat * 2 ^ 16 + l.clevel.toNat * 2 ^ 24)
  | 2 => l.cwCorr
  | 3 => l.cwUncorr
  | 4 => BitVec.ofNat 32 (l.replays.toNat + l.drops.toNat * 65536)
  | 5 => BitVec.ofNat 32 (l.bypassed.toNat + l.fallback.toNat * 65536)
  | 6 => BitVec.ofNat 32 l.limit.toNat
  | 7 =>
    BitVec.ofNat 32 ((s.rxPower n).toNat
      + (if s.rxPower n = 0x8000 then 0 else Config.measured 3 n s.now % 10) * 65536)
  | 8 => BitVec.ofNat 32 (l.credits % 128 + l.unacked.length % 128 * 128)
  | _ => 0

/-- LNK_MODULE. -/
def LinkMod.word (m : LinkMod) : Word :=
  BitVec.ofNat 32 (m.addr.toNat + m.tlevel.toNat * 2 ^ 16 + m.clevel.toNat * 2 ^ 24)

/-! ### The block -/

/-- The word at an offset of BAR0 inside the counter block; offsets that no record holds read 0 (R352). -/
def State.counterWord (s : State) (off : Nat) : Word :=
  if off < 0x540000 then 0
  else if off < 0x550000 then s.hqWord ((off - 0x540000) / 0x10) (off % 0x10 / 4)
  else if off < 0x558000 then (s.pool ((off - 0x550000) / 8)).word (off % 8 / 4)
  else if off < 0x560000 then 0
  else if off < 0x570000 then (s.stream ((off - 0x560000) / 0x10)).rowWord (off % 0x10 / 4)
  else if off < 0x570000 + 4 * 832 then (s.cluster ((off - 0x570000) / 4)).switchWait
  else if off < 0x580000 then 0
  else if off < 0x5A0000 then (s.stream ((off - 0x580000) / 0x20)).qnt.word (off % 0x20 / 4)
  else if off < 0x5A0400 then s.strWord ((off - 0x5A0000) / 0x40) (off % 0x40 / 4)
  else if off < 0x5B0000 then 0
  else if off < 0x5B1000 then s.linkWord ((off - 0x5B0000) / 0x40) (off % 0x40 / 4)
  else if off = 0x5B1000 then s.linkMod.word
  else 0

/-- What a read of a counter finds counted up to its own moment: the switch's waits and a link's codewords (R104, R414). -/
def State.countedTo (s : State) (off : Nat) : State :=
  if 0x570000 ≤ off ∧ off < 0x570000 + 4 * 832 then s.modCluster ((off - 0x570000) / 4) (Cluster.countWait s.now)
  else if 0x5B0000 ≤ off ∧ off < 0x5B1000 then s.countCodewords ((off - 0x5B0000) / 0x40)
  else s

/-! ### Clears (R133, R174, R236, R276, R302, R329, R349, R380)

A clear takes effect before the increments of its fabric cycle: each count keeps what that cycle has added, the record b being
the one that stood as the cycle began (R133; log entry 28). -/

/-- Scope 0x0: the counts of a QNT record; settings and carried state stay. -/
def Qnt.clear (b q : Qnt) : Qnt :=
  { q with satCodes := countLeft q.satCodes b.satCodes, underBlocks := countLeft q.underBlocks b.underBlocks
           zeroBlocks := countLeft q.zeroBlocks b.zeroBlocks, replays := countLeft q.replays b.replays
           secondExc := countLeft q.secondExc b.secondExc, zeroRange := q.zeroRange && !b.zeroRange
           nan := countLeft q.nan b.nan, rxReserved := countLeft q.rxReserved b.rxReserved
           pairMismatch := countLeft q.pairMismatch b.pairMismatch
           carryFallback := countLeft q.carryFallback b.carryFallback, expClamp := countLeft q.expClamp b.expClamp }

/-- Scope 0x0 for a stream. -/
def Stream.clearQnt (b m : Stream) : Stream := { m with qnt := Qnt.clear b.qnt m.qnt }

/-- Scope 0x1: the counts of an HQ record. -/
def Stream.clearHq (b m : Stream) : Stream :=
  { m with stalls := countLeft m.stalls b.stalls, maxWait := longestLeft m.maxWait b.maxWait }

/-- Scope 0x2: MIN_FREE takes the value of FREE. -/
def Pool.clearMin (p : Pool) : Pool := { p with minFree := BitVec.ofNat 16 p.freeList.length }

/-- Scope 0x3: the counts of an STR record; what STR_LAST_ERR and STR_LAST_OVERRUN name stays. -/
def Stack.clear (b k : Stack) : Stack :=
  { k with units := countLeft k.units b.units, short := countLeft k.short b.short
           rearmOverrun := countLeft k.rearmOverrun b.rearmOverrun, armRefused := countLeft k.armRefused b.armRefused
           maxLat := longestLeft k.maxLat b.maxLat, hostOor := countLeft k.hostOor b.hostOor
           corrected := countLeft k.corrected b.corrected }

/-- The counts of a core. -/
def Core.clear (b c : Core) : Core :=
  { c with prefetchDiscard := countLeft c.prefetchDiscard b.prefetchDiscard, gatherRange := countLeft c.gatherRange b.gatherRange
           dynimgSpecial := countLeft c.dynimgSpecial b.dynimgSpecial }

/-- Scope 0x4: the counts of a cluster and its cores. -/
def Cluster.clear (b c : Cluster) : Cluster :=
  { c with mislocks := countLeft c.mislocks b.mislocks, rotOverrun := countLeft c.rotOverrun b.rotOverrun
           calStarved := countLeft c.calStarved b.calStarved, lockOsc := countLeft c.lockOsc b.lockOsc
           thermalRange := countLeft c.thermalRange b.thermalRange
           unsettledTiles := countLeft c.unsettledTiles b.unsettledTiles, heaterDrift := countLeft c.heaterDrift b.heaterDrift
           quietClip := countLeft c.quietClip b.quietClip, quietRefused := countLeft c.quietRefused b.quietRefused
           cores := c.cores.map fun x => (x.1, Core.clear (b.core x.1) x.2) }

/-- Scope 0x8: a cluster's STR_SWITCH_WAIT keeps the symbols of the present fabric cycle. -/
def Cluster.clearWait (now : Nat) (c : Cluster) : Cluster :=
  let c := c.countWait (max (now / cycle * cycle) c.waitCounted)
  { c with switchWait := 0 }.countWait now

/-- Scope 0x5: the counts of a field loop and its profile generator. -/
def FieldLoop.clear (b l : FieldLoop) : FieldLoop :=
  { l with satCnt := countLeft l.satCnt b.satCnt, skipCnt := countLeft l.skipCnt b.skipCnt, nanCnt := countLeft l.nanCnt b.nanCnt }
/-- The count of a profile generator. -/
def Profile.clear (b p : Profile) : Profile := { p with clamps := countLeft p.clamps b.clamps }

/-- Scope 0x6: the row-scaler record of a stream. -/
def Stream.clearRow (b m : Stream) : Stream :=
  { m with rowClip := countLeft m.rowClip b.rowClip, rowOvf := countLeft m.rowOvf b.rowOvf
           winDemote := countLeft m.winDemote b.winDemote }

/-- The counts of link n, cleared by scope 0x7 only; of the corrected codewords those of the present fabric cycle stay (R414,
log entry 38). -/
def Link.clear (now n : Nat) (b l : Link) : Link :=
  { l with cwCorr := if l.st = 2 then BitVec.ofNat 32 (Config.cwCorrected n (max l.cwAt (now / cycle * cycle)) now) else 0
           cwAt := now, cwUncorr := countLeft l.cwUncorr b.cwUncorr
           replays := countLeft l.replays b.replays, drops := countLeft l.drops b.drops
           bypassed := countLeft l.bypassed b.bypassed, fallback := countLeft l.fallback b.fallback }

/-- Every count of a stream. -/
def Stream.clear (b m : Stream) : Stream := Stream.clearQnt b (Stream.clearRow b (Stream.clearHq b m))

/-- The counts of ANG_STAT (R329). -/
def Angle.clear (b a : Angle) : Angle :=
  { a with encErr := countLeft a.encErr b.encErr, sclkLost := countLeft a.sclkLost b.sclkLost
           wrDenied := countLeft a.wrDenied b.wrDenied }

/-- STEP_OVERRUN of an image. -/
def ImgRec.clear (b r : ImgRec) : ImgRec := { r with overrun := countLeft r.overrun b.overrun }

/-- Every record of a table cleared against those of another. -/
def Tab.clear {α : Type} (d : α) (f : α → α → α) (b m : Tab α) : Tab α := m.map fun x => (x.1, f (Tab.get d b x.1) x.2)

/-- Every counter on the module that no read clears (scope 0x7). -/
def State.clearAll (s : State) : State :=
  let b := s.snap
  { s with
    streams := Tab.clear {} Stream.clear b.streams s.streams
    pools := ((List.range 4096).map fun i => (i, (s.pool i).clearMin)).filter fun x => x.2 ≠ {}
    hbmStacks := Tab.clear {} Stack.clear b.hbmStacks s.hbmStacks
    clusters := Tab.clear {} (fun b c => (Cluster.clear b c).clearWait s.now) b.clusters s.clusters
    loops := Tab.clear {} FieldLoop.clear b.loops s.loops
    prfs := Tab.clear {} Profile.clear b.prfs s.prfs
    loopEng := { s.loopEng with wrDenied := countLeft s.loopEng.wrDenied b.loopDenied
                                capRefused := countLeft s.loopEng.capRefused b.capRefused }
    ang := Angle.clear b.ang s.ang
    foutDenied := countLeft s.foutDenied b.foutDenied
    fw := { s.fw with images := Tab.clear {} ImgRec.clear b.images s.fw.images }
    links := s.links.map fun x => (x.1, Link.clear s.now x.1 (Tab.get {} b.links x.1) x.2)
    snap := { b with
      streams := Tab.clear {} Stream.clear b.streams b.streams, hbmStacks := Tab.clear {} Stack.clear b.hbmStacks b.hbmStacks
      clusters := Tab.clear {} Cluster.clear b.clusters b.clusters, loops := Tab.clear {} FieldLoop.clear b.loops b.loops
      prfs := Tab.clear {} Profile.clear b.prfs b.prfs, links := b.links.map fun x => (x.1, Link.clear s.now x.1 x.2 x.2)
      capRefused := 0, loopDenied := 0, ang := b.ang.clear b.ang, foutDenied := 0
      images := Tab.clear {} ImgRec.clear b.images b.images } }

/-- The counts that the present fabric cycle found change as a clear in it leaves them. -/
def State.modSnap (s : State) (f : Snap → Snap) : State := { s with snap := f s.snap }

/-- Stream i cleared by g, and its counts of the cycle's start with it. -/
def State.clearStream (s : State) (i : Nat) (g : Stream → Stream → Stream) : State :=
  let b := Tab.get {} s.snap.streams i
  (s.modStream i (g b)).modSnap fun x => { x with streams := Tab.put {} x.streams i (g b b) }

/-- A clear under COUNTER_CLEAR. -/
def State.clearScope (s : State) (scope i : Nat) : State :=
  match scope with
  | 0 => s.clearStream i Stream.clearQnt
  | 1 => s.clearStream i Stream.clearHq
  | 2 => s.modPool i Pool.clearMin
  | 3 =>
    let b := Tab.get {} s.snap.hbmStacks i
    (s.modStack i (Stack.clear b)).modSnap fun x => { x with hbmStacks := Tab.put {} x.hbmStacks i (b.clear b) }
  | 4 =>
    let b := Tab.get {} s.snap.clusters i
    (s.modCluster i (Cluster.clear b)).modSnap fun x => { x with clusters := Tab.put {} x.clusters i (b.clear b) }
  | 5 =>
    let l := Tab.get {} s.snap.loops i
    let p := Tab.get {} s.snap.prfs i
    ((s.modLoop i (FieldLoop.clear l)).modPrf i (Profile.clear p)).modSnap fun x =>
      { x with loops := Tab.put {} x.loops i (l.clear l), prfs := Tab.put {} x.prfs i (p.clear p) }
  | 6 => s.clearStream i Stream.clearRow
  | 7 => s.clearAll
  | 8 => s.modCluster i (Cluster.clearWait s.now)
  | _ => s

/-- The greatest index of a scope; none for a scope that is not listed. -/
def scopeEnd (scope : Nat) : Option Nat :=
  match scope with
  | 0 | 1 | 2 | 6 => some 4095
  | 3 | 5 => some 15
  | 4 | 8 => some 831
  | 7 => some 65535
  | _ => none

end Sys2Proof.Machine
end

