-- ==== Sys2Proof/Machine/Firmware.lean ====
section
/-! DEFINITION. The Sorilait command service: turns, checks, responses, COMMAND_DONE (R358 to R368, R374 to R378), and
the identity and health commands (R380, R381, R423, R424). -/

namespace Sys2Proof.Machine

open Sys2Proof.Config

/-! ### Identities and classes (R354, R368) -/

/-- Permission classes, numbered as PERM_READ reports them. -/
abbrev clsAdmin : Nat := 0
abbrev clsTenant : Nat := 1
abbrev clsManage : Nat := 2
abbrev clsTest : Nat := 3
abbrev clsPeer : Nat := 4

/-- The class of an identity: VFs as PERM_SET left them; internal units count as ADMIN (log entry 16). -/
def State.classOf (s : State) (who : Nat) : Nat :=
  if who = 0 then clsAdmin
  else if who ≤ 63 then Tab.get clsTenant s.fw.classes who
  else if who = 64 then clsManage
  else if who = 65 then clsTest
  else if who ≤ 129 then clsPeer
  else clsAdmin

/-- The classes that a command's group allows (R368); of links and rings PEER has LINK_STATUS and PEER_READY only. -/
def classAllows (op cls : Nat) : Bool :=
  match op / 256 with
  | 1 => true
  | 2 | 3 => cls = clsAdmin || cls = clsTenant
  | 4 => cls = clsAdmin || cls = clsTest
  | 5 | 6 => cls = clsAdmin
  | 7 => cls = clsAdmin || cls = clsPeer && (op = 0x0700 || op = 0x0704)
  | 8 => cls = clsAdmin || cls = clsManage
  | _ => false

/-- Opcodes of R380. -/
def fwOpcodes : List Nat :=
  (List.range 7).map (0x0100 + ·) ++ (List.range 14).map (0x0200 + ·) ++ (List.range 3).map (0x0300 + ·)
    ++ (List.range 5).map (0x0400 + ·) ++ (List.range 3).map (0x0500 + ·) ++ (List.range 6).map (0x0600 + ·)
    ++ (List.range 5).map (0x0700 + ·) ++ (List.range 5).map (0x0800 + ·)

/-! ### Replies (R374, R375) -/

/-- STATUS, DETAIL and RESULT of a response. -/
structure Reply where
  status : Nat := 0
  detail : Nat := 0
  result : List Byte := []
deriving DecidableEq, Repr

abbrev stAccepted : Nat := 0x0001
abbrev stDenied : Nat := 0x0010
abbrev stNotOwner : Nat := 0x0011
abbrev stBadOpcode : Nat := 0x0020
abbrev stBadLength : Nat := 0x0021
abbrev stBadField : Nat := 0x0022
abbrev stBadDescriptor : Nat := 0x0023
abbrev stNoResource : Nat := 0x0030
abbrev stNoFastWindow : Nat := 0x0031
abbrev stLevelTooLow : Nat := 0x0032
abbrev stImageInvalid : Nat := 0x0033
abbrev stSignature : Nat := 0x0034
abbrev stBusy : Nat := 0x0040
abbrev stNotReady : Nat := 0x0041
abbrev stNoObject : Nat := 0x0042

/-- The 64 bytes of a response to a command slot (R358, R374). -/
def responseSlot (slot : List Byte) (r : Reply) : List Byte :=
  padTo 64 (slot.take 4 ++ toLe 1 (4 + r.result.length) ++ [1, 0, 0xFF] ++ toLe 2 r.status ++ toLe 2 r.detail ++ r.result)

/-- What a handler answers. -/
abbrev Handled := State × Reply

/-- A refusal without effect (R376). -/
def refuse (s : State) (status detail : Nat) : Handled := (s, { status := status, detail := detail })

/-- OK with a RESULT. -/
def okWith (s : State) (result : List Byte) : Handled := (s, { result := result })

/-- A command answered ACCEPTED, with what COMMAND_DONE will report (R376). -/
def accept (s : State) (ch : Nat) (slot : List Byte) (done : Reply) (when_ : DoneWhen := .now) : Handled :=
  ({ s with fw := { s.fw with accepted := s.fw.accepted ++
      [{ ch := ch, op := BitVec.ofNat 16 (slotOp slot), seq := BitVec.ofNat 16 (slotSeq slot)
         status := BitVec.ofNat 16 done.status, detail := BitVec.ofNat 16 done.detail, result := done.result
         when_ := when_ }] } }, { status := stAccepted })

/-! ### Taking a command (R359, R360, R363 to R365, R376) -/

/-- A channel has a command, and its outbound ring room for the response. -/
def Channel.serveable (c : Channel) : Bool := 0 < c.inFill && c.outFill < 32 && c.held.all (·.event)

/-- The channel whose turn it is: ascending from the one after the last served. -/
def State.nextChannel (s : State) : Option Nat :=
  ((List.range 160).map fun i => (s.fw.turn + i) % 160).find? fun ch => (s.chan ch).serveable

/-- The next inbound slot of a channel, as committed. -/
def Channel.nextSlot (c : Channel) : List Byte := c.page.readN (0x40 * (c.inHead.toNat % 32)) 64

/-- The slot with the payload bytes beyond LENGTH read as 0 (R360). -/
def cutSlot (slot : List Byte) : List Byte := padTo 64 (slot.take (8 + slotLen slot))

/-- MBX_IN_HEAD passes the command; on a full ring IN_SPACE is set and vector 1 raised (R366, R373). -/
def Channel.advanceHead (ch now : Nat) (c : Channel) : Channel :=
  let d := { c with inHead := c.inHead + 1 }
  if c.inFill = 32 then
    let d := { d with inSpace := true, fresh := freshen now 2 d.fresh }
    if ch ≤ 63 then d.raiseVector 1 else d
  else d

/-- Where a command's host-memory descriptors stand (R361, R380). -/
inductive DescForm where
  | none
  | must
  | inPayload
  | may
deriving DecidableEq, Repr

/-- The refusal of a command's descriptors: host memory is out of reach of channels 64 to 159; a byte count outside 1
to 16,777,216 names its descriptor; FLAGS bit 2 must be set, or clear, where the command says so (R361, R375). -/
def descRefusal (ch : Nat) (slot : List Byte) (form : DescForm) : Option Reply :=
  let listed : Option Reply :=
    if 64 ≤ ch then some { status := stBadDescriptor }
    else if slotLen slot ≠ 16 ∧ slotLen slot ≠ 32 ∧ slotLen slot ≠ 48 then some { status := stBadLength }
    else
      ((List.range (slotLen slot / 16)).find? fun i =>
        leAt slot (16 + 16 * i) 4 = 0 || 16777216 < leAt slot (16 + 16 * i) 4).map fun i =>
          { status := stBadDescriptor, detail := i }
  match form with
  | .none => if slotDesc slot && 64 ≤ ch then some { status := stBadDescriptor } else Option.none
  | .must => if slotDesc slot then listed else some { status := stBadField, detail := 5 }
  | .may => if slotDesc slot then listed else Option.none
  | .inPayload =>
    if slotDesc slot then some { status := stBadField, detail := 5 }
    else Option.none

/-- The checks that come before a command's own (log entry 16): LENGTH above 56, host memory out of reach of a command that
always takes it, the class, the descriptors, the least LENGTH. -/
def State.preCheck (s : State) (ch : Nat) (slot : List Byte) (least : Nat) (form : DescForm) : Option Reply :=
  if 56 < slotLen slot then some { status := stBadLength }
  else if form = .inPayload && 64 ≤ ch then some { status := stBadDescriptor }
  else if !classAllows (slotOp slot) (s.classOf ch) then some { status := stDenied, detail := s.classOf ch }
  else
    match descRefusal ch slot form with
    | some r => some r
    | none => if slotLen slot < least then some { status := stBadLength } else none

/-- The place of the next response of a channel, counted in outbound slots: the ring's tail, or behind the messages held
(R365). -/
def Channel.nextPlace (c : Channel) : Nat :=
  c.outTail.toNat + if c.outFill < 32 && c.held.all (·.event) then 0 else c.held.length

/-- The response written: the head advances past the command, the response enters the ring (R363, R365, R374). -/
def State.respond (s : State) (ch : Nat) (slot : List Byte) (r : Reply) : State :=
  let s := s.modChan ch (Channel.advanceHead ch s.now)
  let s := { s with fw := { s.fw with turn := (ch + 1) % 160 } }
  s.postKept ch { slot := responseSlot slot r }

/-- Firmware takes the next command of channel ch where it is that channel's turn and the slot holds opcode op; it
runs the checks, then the handler, and answers (R363, R364, R368, R374 to R378). -/
def State.command (s : State) (ch op least : Nat) (form : DescForm) (h : List Byte → State → Handled) : State :=
  let raw := (s.chan ch).nextSlot
  if s.hostUp && s.fw.serving && s.nextChannel = some ch && slotOp raw = op then
    let slot := cutSlot raw
    match s.preCheck ch slot least form with
    | some r => s.respond ch slot r
    | none =>
      let x := h slot s
      x.1.respond ch slot x.2
  else s

/-- A command with no such opcode. -/
def effectBadOpcode (ch : Nat) (s : State) : State :=
  let raw := (s.chan ch).nextSlot
  if s.hostUp && s.fw.serving && s.nextChannel = some ch && !fwOpcodes.contains (slotOp raw) then
    s.respond ch (cutSlot raw) { status := if 56 < slotLen raw then stBadLength else stBadOpcode }
  else s
/-- BAD_OPCODE (R360, R363, R374, R375). -/
def execBadOpcode (t ch : Nat) (s : State) : Out := act (ch < 160) t s (effectBadOpcode ch)

/-! ### COMMAND_DONE (R376, R386) -/

/-- The command has ended. -/
def State.ended (s : State) (a : Accepted) : Bool :=
  match a.when_ with
  | .now => true
  | .restart cls => cls.all fun c => (s.cluster c).restart.isNone
  | .permits => s.clusters.all fun x => !x.2.permitGoing
  | .placed img => !(s.image img).waiting || !s.placeWaits img (s.clustersOf img)

/-- The first command of a channel that has ended leaves the list and is reported to its channel; never dropped. What a
placement had to wait for is done then (R82, R175). -/
def effectCommandDone (ch : Nat) (s : State) : State :=
  if s.fw.serving then
    match s.fw.accepted.find? fun a => a.ch = ch && s.ended a with
    | some a =>
      let s := { s with fw := { s.fw with accepted := s.fw.accepted.erase a } }
      let s := match a.when_ with | .placed img => if (s.image img).waiting then s.finishPlace img else s | _ => s
      let body := toLe 2 a.op.toNat ++ toLe 2 a.seq.toNat ++ toLe 2 a.status.toNat ++ toLe 2 a.detail.toNat
        ++ padTo 36 a.result
      s.postKept ch { slot := eventSlot s 0x8000 body, vector := (s.fw.route ch 0x8000).2 }
    | none => s
  else s
/-- COMMAND_DONE (R365, R376, R385, R386). -/
def execCommandDone (t ch : Nat) (s : State) : Out := act (ch < 160) t s (effectCommandDone ch)

/-! ### Identity and health (R2, R380, R381, R422 to R424) -/

/-- The stage byte: bit 7 is set in Taster service. -/
def State.stageByte (s : State) : Nat := s.aon.stage.toNat + if s.aon.taster then 128 else 0

/-- AON_IDENT (R2, R3). -/
abbrev identWord : Nat := 0x48470100

/-- IDENTIFY's record; the version bytes are free values of the booted bank (log entry 29). -/
def State.identity (s : State) : List Byte :=
  toLe 4 identWord ++ (List.range 4).flatMap (fun i => toLe 1 (Config.reported i))
    ++ [if s.aon.bank then 1 else 0] ++ toLe 1 s.linkMod.tlevel.toNat ++ toLe 1 s.linkMod.clevel.toNat
    ++ toLe 1 s.stageByte ++ toLe 2 s.linkMod.addr.toNat
/-- A request for identity. -/
def effectIdentify (ch : Nat) (s : State) : State := s.command ch 0x0100 0 .none fun _ s => okWith s s.identity
/-- IDENTIFY (R2, R374, R380). -/
def execIdentify (t ch : Nat) (s : State) : Out := act (ch < 160) t s (effectIdentify ch)

/-- Spares that are not left, in HEALTH order: cold engines, ready rotation spares, cold wear spares, comb lines, standby
combs, link lanes, HBM channels, control processors (R22). -/
def State.sparesGone (s : State) : List Nat :=
  let cls := s.clusters.map (·.2)
  let sum (f : Cluster → Nat) : Nat := (cls.map f).foldl (· + ·) 0
  [sum fun c => (c.cores.filter fun x => !x.2.engFailed.isEmpty).length,
   sum fun c => if c.readySpare.isSome then 0 else 1,
   sum fun c => if c.wear.any fun w => (c.core w).st = .cold then 0 else 1,
   sum fun c => 4 - c.spareLines,
   sum fun c => c.comb,
   (s.links.filter fun x => x.2.spareUsed).length,
   (s.hbmStacks.filter fun x => x.2.reserveUsed).length,
   if s.aon.standbyCp then 1 else 0]

/-- Spares that the module has, in HEALTH order (R22). -/
def spareTotals : List Nat := [28288, 832, 832, 3328, 832, 128, 16, 1]

/-- Spares left. -/
def State.sparesLeft (s : State) : List Byte :=
  (spareTotals.zip s.sparesGone).flatMap fun x => toLe 2 (x.1 - x.2)

/-- GMAC/s of a cluster that is not parked: 16,384 products a window at its shortest window now (R381, R424). -/
def Cluster.gmacs (c : Cluster) (taster : Bool) : Nat :=
  if c.retired || c.parked || !c.locked || c.restart.isSome then 0
  else if taster || c.parkedHeat then 2048
  else if c.permit then 32768
  else 16384

/-- HEALTH bytes 20 to 23: 0 in Steep and Kiln (R381, R424). -/
def State.gmacs (s : State) : Nat :=
  if s.aon.stage = 2 || s.aon.stage = 3 then
    ((List.range 832).map fun c => (s.cluster c).gmacs s.aon.taster).foldl (· + ·) 0
  else 0

/-- Clusters with a property. -/
def State.countClusters (s : State) (f : Cluster → Bool) : Nat := ((List.range 832).filter fun c => f (s.cluster c)).length

/-- HEALTH's record; input power is a free value (log entry 29). -/
def State.health (s : State) : List Byte :=
  toLe 2 (s.countClusters fun c => !c.retired) ++ toLe 2 (s.countClusters fun c => c.parked)
    ++ toLe 2 (s.countClusters fun c => c.retired) ++ toLe 2 s.permitsHeld ++ toLe 4 s.gmacs
    ++ toLe 1 (wrapTo 8 (s.aon.diodes.foldl max (s.aon.diodes.headD 0))) ++ toLe 1 s.stageByte
    ++ toLe 2 (Config.reported (200 + 2 * s.free)) ++ s.sparesLeft
    ++ toLe 2 (((List.range 16).filter fun k => (s.stack k).degraded).foldl (fun n k => n + 2 ^ k) 0)
/-- A request for health. -/
def effectHealth (ch : Nat) (s : State) : State := s.command ch 0x0101 0 .none fun _ s => okWith s.draw s.health
/-- HEALTH (R26, R374, R380, R381, R422, R424, R437). -/
def execHealth (t ch : Nat) (s : State) : Out := act (ch < 160) t s (effectHealth ch)

/-- Core states as R251 numbers them. -/
def CoreState.code : CoreState → Nat
  | .inService => 0
  | .unsettled => 1
  | .leaving => 2
  | .spareReady => 3
  | .calibrating => 4
  | .recovering => 5
  | .heldOut => 6
  | .cold => 7
  | .retired => 8

/-- The cluster runs on factory calibration, or has a warm core that has not completed calibration since the cluster came up
(R380, R423). -/
def Cluster.onFactory (c : Cluster) : Bool :=
  c.taster || c.cores.any fun x => x.2.warm && !x.2.calibrated

/-- CLUSTER_HEALTH's record (R276, R380). -/
def Cluster.health (c : Cluster) : List Byte :=
  [c.mislocks, c.rotOverrun, c.calStarved, c.lockOsc, c.thermalRange, c.unsettledTiles, c.heaterDrift].flatMap
      (fun w => toLe 4 w.toNat)
    ++ toLe 17 ((List.range 34).foldr (fun k acc => (c.core k).st.code + 16 * acc) 0)
    ++ toLe 1 ((if c.permit then 1 else 0) + (if c.parked then 2 else 0) + (if c.retired then 4 else 0) + if c.onFactory then 8 else 0)
    ++ toLe 2 c.quietClip.toNat ++ toLe 2 c.quietRefused.toNat
/-- A request for a cluster's health. -/
def effectClusterHealth (ch : Nat) (s : State) : State :=
  s.command ch 0x0102 2 .none fun slot s =>
    let c := leAt slot 8 2
    if 832 ≤ c then refuse s stBadField 8 else okWith s (s.cluster c).health
/-- CLUSTER_HEALTH (R251, R276, R374, R380, R423). -/
def execClusterHealth (t ch : Nat) (s : State) : Out := act (ch < 160) t s (effectClusterHealth ch)

/-- CORE_COUNTS' record (R31, R48, R60, R205, R251). -/
def Core.counts (c : Core) : List Byte :=
  toLe 4 c.prefetchDiscard.toNat ++ toLe 4 c.gatherRange.toNat
    ++ toLe 4 (c.engines.foldr (fun e acc => e + 16 * acc) 0) ++ toLe 1 c.st.code ++ [0, 0, 0] ++ toLe 4 c.dynimgSpecial.toNat
/-- A request for a core's counts. -/
def effectCoreCounts (ch : Nat) (s : State) : State :=
  s.command ch 0x0103 3 .none fun slot s =>
    let c := leAt slot 8 2
    let k := leAt slot 10 1
    if 832 ≤ c then refuse s stBadField 8 else if 34 ≤ k then refuse s stBadField 10 else okWith s (s.core c k).counts
/-- CORE_COUNTS (R31, R374, R380). -/
def execCoreCounts (t ch : Nat) (s : State) : Out := act (ch < 160) t s (effectCoreCounts ch)

/-- The Cask codes, newest first, and COUNT (R380, R433). -/
def effectCaskRead (ch : Nat) (s : State) : State :=
  s.command ch 0x0104 0 .none fun _ s =>
    okWith s ((List.range 8).flatMap (fun k => toLe 4 (s.aon.cask.getD k 0).toNat) ++ toLe 4 s.aon.count.toNat)
/-- CASK_READ (R374, R380, R428, R433). -/
def execCaskRead (t ch : Nat) (s : State) : Out := act (ch < 160) t s (effectCaskRead ch)

/-- WEAR_READ's record: uses since manufacture are what the wear counters have counted beside free values for the time
before, in 16 bits that stop at their end, service hours a free value (R22, log entry 29). -/
def State.wearRecord (s : State) (c : Cluster) : List Byte :=
  (List.range 8).flatMap (fun k => toLe 2 (min 0xFFFF (Config.reported (4 + k) + Tab.get 0 s.wear.used k)))
    ++ toLe 4 (Config.reported (201 + 2 * s.free)) ++ toLe 2 c.combRatio.toNat ++ toLe 1 c.comb ++ toLe 1 c.spareLines
/-- A request for wear. -/
def effectWearRead (ch : Nat) (s : State) : State :=
  s.command ch 0x0105 2 .none fun slot s =>
    let c := leAt slot 8 2
    if 832 ≤ c then refuse s stBadField 8 else okWith s.draw (s.wearRecord (s.cluster c))
/-- WEAR_READ (R22, R273, R374, R380). -/
def execWearRead (t ch : Nat) (s : State) : Out := act (ch < 160) t s (effectWearRead ch)

/-- A stack's STR record, with its rows repaired, beside a free value for the time before, and its repair rows left (R22, log
entries 29 and 78). -/
def effectMemoryHealth (ch : Nat) (s : State) : State :=
  s.command ch 0x0106 1 .none fun slot s =>
    let e := leAt slot 8 1
    if 16 ≤ e then refuse s stBadField 8
    else
      let rows := Tab.get 0 s.wear.rows e
      okWith s ((List.range 9).flatMap (fun k => toLe 4 (s.strWord e k).toNat)
        ++ toLe 2 (min 0xFFFF (Config.reported (100 + e) + rows)) ++ toLe 2 (min 0xFFFF (Config.repairRows e - rows)))
/-- MEMORY_HEALTH (R22, R235, R374, R380). -/
def execMemoryHealth (t ch : Nat) (s : State) : Out := act (ch < 160) t s (effectMemoryHealth ch)

end Sys2Proof.Machine
end

