-- ==== Sys2Proof/Machine/FwJobs.lean ====
section
/-! DEFINITION. Firmware commands on images, jobs, model steps, memory, descriptors, streams, quantisation policy and
counters (R376 to R383). -/

namespace Sys2Proof.Machine

open Sys2Proof.Config

/-! ### Ownership (R368, R375) -/

/-- The sender's class is TENANT: it may name objects of its own images only. -/
def State.tenant (s : State) (ch : Nat) : Bool := s.classOf ch = clsTenant

/-- The refusal of an image index at slot byte 8: a TENANT's foreign or missing image, or a missing one. -/
def State.imageRefusal (s : State) (ch i : Nat) : Option Reply :=
  if s.tenant ch && !((s.image i).loaded && (s.image i).owner = ch) then some { status := stNotOwner, detail := 8 }
  else if (s.image i).loaded then none
  else some { status := stNoObject, detail := 8 }

/-- … and of one that must be placed; its placement may still wait for its end (log entry 75). -/
def State.jobRefusal (s : State) (ch i : Nat) : Option Reply :=
  match s.imageRefusal ch i with
  | some r => some r
  | none => if (s.image i).placed.isSome then none else some { status := stNoObject, detail := 8 }

/-- An object of a placed image is the identity's own. -/
def State.ownsImg (s : State) (ch : Nat) (img : Option Nat) : Bool :=
  match img with
  | some i => (s.image i).owner = ch
  | none => false

/-- The refusal of a stream number at slot byte 8. -/
def State.streamRefusal (s : State) (ch i : Nat) : Option Reply :=
  if 4096 ≤ i then some { status := stBadField, detail := 8 }
  else if s.tenant ch && !s.ownsImg ch (s.stream i).img then some { status := stNotOwner, detail := 8 }
  else none

/-- The refusal of an engine and descriptor at slot bytes 8 and 10. -/
def State.descRefused (s : State) (ch e d : Nat) : Option Reply :=
  if 16 ≤ e then some { status := stBadField, detail := 8 }
  else if 8192 ≤ d then some { status := stBadField, detail := 10 }
  else if s.tenant ch && !((s.imagesOf ch).any fun i => (s.image i).img.descs.any fun x => x.1 = e && x.2.1 = d) then
    some { status := stNotOwner, detail := 8 }
  else none

/-- A handler behind a refusal. -/
def behind (r : Option Reply) (s : State) (h : State → Handled) : Handled :=
  match r with
  | some x => (s, x)
  | none => h s

/-! ### Images (R361, R368, R380, R383) -/

/-- The lowest image index that is free; at most 64 images are loaded. -/
def State.freeImage (s : State) : Option Nat :=
  if 64 ≤ (s.fw.images.filter fun x => x.2.loaded).length then none
  else (List.range 256).find? fun i => !(s.image i).loaded

/-- The number of the descriptor whose access failed, one of those that the slot holds (R361, R375). -/
def failedDesc (slot : List Byte) (k : Nat) : Nat := min k (slotLen slot / 16 - 1)

/-- IMAGE_LOAD reads an Ulurex image from host memory (R4). -/
def handleImageLoad (ch : Nat) (img : Fetched Image) (slot : List Byte) (s : State) : Handled :=
  match img, s.freeImage with
  | .failed k, _ => refuse s stBadDescriptor (failedDesc slot k)
  | .data _, none => refuse s stNoResource 0x0C
  | .data im, some i =>
    accept (s.setImage i { loaded := true, img := im, owner := ch }) ch slot { result := toLe 1 i ++ toLe 1 im.level }
/-- An image load. -/
def effectImageLoad (ch : Nat) (img : Fetched Image) (s : State) : State :=
  s.command ch 0x0200 16 .must (handleImageLoad ch img)
/-- IMAGE_LOAD (R361, R368, R374 to R376, R380, R383). -/
def execImageLoad (t ch : Nat) (img : Fetched Image) (s : State) : Out := act (ch < 160) t s (effectImageLoad ch img)

/-- An image that is not placed is unloaded. -/
def effectImageUnload (ch : Nat) (s : State) : State :=
  s.command ch 0x0201 1 .none fun slot s =>
    let i := leAt slot 8 1
    behind (s.imageRefusal ch i) s fun s =>
      if (s.image i).placed.isSome then refuse s stBusy 1 else okWith (s.setImage i {}) []
/-- IMAGE_UNLOAD (R374 to R376, R380). -/
def execImageUnload (t ch : Nat) (s : State) : Out := act (ch < 160) t s (effectImageUnload ch)

/-! ### Jobs (R84, R377, R380, R383, R439) -/

/-- Commands marked Tap before Tap: in Taster service those on a Taster-capable image run (R377, R422). -/
def State.notReady (s : State) (taster : Bool) : Bool := !(s.aon.stage = 3 || s.aon.taster && taster)

/-- The checks of a placement in their order, then the placement, under stream numbers that firmware assigns. What the
compiler sees to is not checked: one BIAS per output element, handles around a cycle, two handles and slots, dynamic products (R41, R173, R234, R413, R454). -/
def State.place (s : State) (ch i : Nat) (noProbes : Bool) (pin : Option Nat) (slot : List Byte) : Handled :=
  let im := (s.image i).img
  let need := s.permitsNeeded im ((s.choose im pin).getD [])
  if Image.reason im ≠ 0 then refuse s stImageInvalid (Image.reason im)
  else if s.linkMod.clevel.toNat < im.level then refuse s stLevelTooLow s.linkMod.clevel.toNat
  else if s.resourceReason im pin ≠ 0 then refuse s stNoResource (s.resourceReason im pin)
  else if s.permitsFree < need.length then refuse s stNoFastWindow s.permitsFree
  else
    let cls := (s.choose im pin).getD []
    let base := (s.streamBase im).getD 0
    let s := s.modImage i (ImgRec.renumber base ((s.poolBase im).getD 0))
    let first := base + (im.streams.map (·.id)).foldl min ((im.streams.map (·.id)).headD 0)
    accept (s.placeJob i cls noProbes) ch slot { result := toLe 2 cls.length ++ toLe 2 first ++ toLe 2 need.length } (.placed i)

/-- A placement. -/
def effectJobPlace (ch : Nat) (s : State) : State :=
  s.command ch 0x0202 2 .none fun slot s =>
    let i := leAt slot 8 1
    let fl : Byte := slot.getD 9 0
    if flag fl 1 && slotLen slot < 4 then refuse s stBadLength 0
    else if s.notReady ((s.image i).img.taster && (s.imageRefusal ch i).isNone) then refuse s stNotReady s.stageByte
    else behind (s.imageRefusal ch i) s fun s =>
      if (s.image i).placed.isSome then refuse s stBusy 1
      else if flag fl 1 && 832 ≤ leAt slot 10 2 then refuse s stBadField 10
      else s.place ch i (flag fl 0) (if flag fl 1 then some (leAt slot 10 2) else none) slot
/-- JOB_PLACE (R84, R150, R159, R180, R374 to R378, R380, R383, R422, R439, R459). -/
def execJobPlace (t ch : Nat) (s : State) : Out := act (ch < 160) t s (effectJobPlace ch)

/-- A job is removed; a running step is aborted first. -/
def effectJobRemove (ch : Nat) (s : State) : State :=
  s.command ch 0x0203 1 .none fun slot s =>
    let i := leAt slot 8 1
    behind (s.jobRefusal ch i) s fun s => accept (s.removeJob i) ch slot {}
/-- JOB_REMOVE (R171, R374 to R376, R380, R386). -/
def execJobRemove (t ch : Nat) (s : State) : Out := act (ch < 160) t s (effectJobRemove ch)

/-! ### Model steps (R171, R178, R376, R377, R382) -/

/-- A model step is started; BUSY counts a dropped start while one runs. Units in reset start none (log entry 52). -/
def effectStepStart (ch : Nat) (s : State) : State :=
  s.command ch 0x0204 1 .none fun slot s =>
    let i := leAt slot 8 1
    if s.notReady ((s.image i).img.taster && (s.jobRefusal ch i).isNone) then refuse s stNotReady s.stageByte
    else behind (s.jobRefusal ch i) s fun s =>
      if (s.image i).waiting then refuse s stNoObject 8
      else if s.jobInReset i then refuse s stNotReady s.stageByte
      else if (s.image i).running then
        (s.dropStart i, { status := stBusy, detail := if (s.image i).abort.isSome then 2 else 1 })
      else
        let s := (s.startStep i).modImage i fun r => { r with cmdStart := some (s.now / cycle, ch, (s.chan ch).nextPlace) }
        okWith s (toLe 4 (s.image i).starts.toNat)
/-- STEP_START (R178, R374 to R378, R380, R382). -/
def execStepStart (t ch : Nat) (s : State) : Out := act (ch < 160) t s (effectStepStart ch)

/-- A running step is aborted. -/
def effectStepAbort (ch : Nat) (s : State) : State :=
  s.command ch 0x0205 1 .none fun slot s =>
    let i := leAt slot 8 1
    behind (s.jobRefusal ch i) s fun s =>
      if (s.image i).running then okWith (s.abortStep i 7 0xFFFF) [] else refuse s stNoObject 8
/-- STEP_ABORT (R171, R374 to R376, R380, R386). -/
def execStepAbort (t ch : Nat) (s : State) : Out := act (ch < 160) t s (effectStepAbort ch)

/-- STEP_STATUS' record. -/
def ImgRec.status (r : ImgRec) : List Byte :=
  [if r.running then (if r.abort.isSome then 2 else 1) else 0, 0, 0, 0] ++ toLe 4 r.starts.toNat ++ toLe 4 r.overrun.toNat
    ++ toLe 4 r.completed.toNat ++ toLe 4 r.lastUs.toNat
/-- A request for a step's status. -/
def effectStepStatus (ch : Nat) (s : State) : State :=
  s.command ch 0x0206 1 .none fun slot s =>
    let i := leAt slot 8 1
    behind (s.imageRefusal ch i) s fun s => okWith s (s.image i).status
/-- STEP_STATUS (R178, R374, R375, R380). -/
def execStepStatus (t ch : Nat) (s : State) : Out := act (ch < 160) t s (effectStepStatus ch)

/-! ### Memory (R210, R213, R214, R361, R380) -/

/-- An HBM range lies within the regions of the identity's own images. -/
def State.ownsHbm (s : State) (ch a n : Nat) : Bool :=
  (s.imagesOf ch).any fun i => (s.image i).img.hbm.any fun r => r.1 ≤ a && a + n ≤ r.1 + r.2

/-- A range has memory behind every byte (R210, R211). -/
def rangeUsable (a n : Nat) : Bool := a < 2 ^ 40 && a % 2 ^ 36 + n ≤ stackBytes

/-- The refusal of a device range: from 64 B to 16 MiB, in memory, a TENANT's own. -/
def State.rangeRefusal (s : State) (ch a n : Nat) : Option Reply :=
  if n < 64 ∨ 16777216 < n then some { status := stBadField, detail := 24 }
  else if s.tenant ch && !s.ownsHbm ch a n then some { status := stNotOwner, detail := 8 }
  else if !rangeUsable a n then some { status := stBadField, detail := 8 }
  else none

/-- Host memory is copied to HBM; none stands for a host access that failed. -/
def effectMemWrite (ch : Nat) (data : Option (List Byte)) (s : State) : State :=
  s.command ch 0x0207 24 .inPayload fun slot s =>
    let a := leAt slot 8 8
    let n := leAt slot 24 4
    behind (s.rangeRefusal ch a n) s fun s =>
      match data with
      | some bs => accept (s.writeHbm a (padTo n bs)) ch slot {}
      | none => refuse s stBadDescriptor 0
/-- MEM_WRITE (R213, R214, R361, R374 to R376, R380). -/
def execMemWrite (t ch : Nat) (data : Option (List Byte)) (s : State) : Out := act (ch < 160) t s (effectMemWrite ch data)

/-- HBM is copied to host memory; poisoned data shows in COMMAND_DONE. -/
def effectMemRead (ch : Nat) (reachable : Bool) (s : State) : State :=
  s.command ch 0x0208 24 .inPayload fun slot s =>
    let a := leAt slot 8 8
    let n := leAt slot 24 4
    behind (s.rangeRefusal ch a n) s fun s =>
      if !reachable then refuse s stBadDescriptor 0
      else
        let s := s.readHbm a n
        if s.badIn a n then accept s ch slot { status := stBadDescriptor }
        else accept { s with fw := { s.fw with dmaOut := s.hbm.readN a n } } ch slot {}
/-- MEM_READ (R213, R214, R361, R374 to R376, R380). -/
def execMemRead (t ch : Nat) (reachable : Bool) (s : State) : Out := act (ch < 160) t s (effectMemRead ch reachable)

/-! ### Descriptors (R221, R223 to R228, R380) -/

/-- States as R223 orders them. -/
def DescState.code : DescState → Nat
  | .idle => 0
  | .armed => 1
  | .active => 2
  | .draining => 3
  | .done => 4
  | .error => 5

/-- The store of a descriptor is written; a working copy stays. Between a reset of D2 and the end of Mash firmware's copy is
written too (R220). -/
def effectDescWrite (ch : Nat) (s : State) : State :=
  s.command ch 0x0209 46 .none fun slot s =>
    let e := leAt slot 8 1
    let d := leAt slot 10 2
    behind (s.descRefused ch e d) s fun s =>
      let b := padTo 64 ((slot.drop 12).take 42)
      okWith (s.modDesc e d fun k => { k with store := b, kept := if k.kept.isEmpty then [] else b }) []
/-- DESC_WRITE (R221, R224, R374, R375, R380). -/
def execDescWrite (t ch : Nat) (s : State) : Out := act (ch < 160) t s (effectDescWrite ch)

/-- A firmware arm. -/
def effectDescArm (ch : Nat) (s : State) : State :=
  s.command ch 0x020A 4 .none fun slot s =>
    let e := leAt slot 8 1
    let d := leAt slot 10 2
    behind (s.descRefused ch e d) s fun s =>
      let s := s.fwArm e d
      okWith s (toLe 1 (s.desc e d).st.code)
/-- DESC_ARM (R224 to R228, R374, R375, R380). -/
def execDescArm (t ch : Nat) (s : State) : Out := act (ch < 160) t s (effectDescArm ch)

/-- A descriptor in ERROR or DONE returns to IDLE. -/
def effectDescReset (ch : Nat) (s : State) : State :=
  s.command ch 0x020B 4 .none fun slot s =>
    let e := leAt slot 8 1
    let d := leAt slot 10 2
    behind (s.descRefused ch e d) s fun s =>
      match (s.desc e d).st with
      | .armed | .active | .draining => refuse s stBusy (s.desc e d).st.code
      | _ => okWith (s.modDesc e d fun k => { k with st := .idle, shadow := none, shadowImg := none }) []
/-- DESC_RESET (R223, R374, R375, R380). -/
def execDescReset (t ch : Nat) (s : State) : Out := act (ch < 160) t s (effectDescReset ch)

/-- DESC_STATUS' record: the ID and progress of the working copy, or of the store where nothing was latched. -/
def Desc.status (k : Desc) : List Byte :=
  let w := if k.work.isEmpty then k.store else k.work
  let n := dCount w
  let got := k.sent + k.finished.length
  let all := 0 < got && got = dTotal w
  toLe 1 k.st.code ++ [if k.shadow.isSome then 1 else 0] ++ toLe 2 (dId w)
    ++ toLe 4 (if all then n else if n = 0 then 0 else got % n)
    ++ toLe 2 (if all then dPasses w - 1 else if n = 0 then 0 else got / n) ++ toLe 1 k.lastErr.toNat
/-- A request for a descriptor's status. -/
def effectDescStatus (ch : Nat) (s : State) : State :=
  s.command ch 0x020C 4 .none fun slot s =>
    let e := leAt slot 8 1
    let d := leAt slot 10 2
    behind (s.descRefused ch e d) s fun s => okWith s (s.desc e d).status
/-- DESC_STATUS (R223, R228, R374, R375, R380). -/
def execDescStatus (t ch : Nat) (s : State) : Out := act (ch < 160) t s (effectDescStatus ch)

/-! ### Streams, quantisation policy, counters (R130, R133, R168, R380) -/

/-- The credit-wait limit of a placed stream, from its next wait. -/
def effectStreamLimit (ch : Nat) (s : State) : State :=
  s.command ch 0x020D 8 .none fun slot s =>
    let i := leAt slot 8 2
    let n := leAt slot 12 4
    behind (s.streamRefusal ch i) s fun s =>
      if n < 1 ∨ 1000000 < n then refuse s stBadField 12
      else if (s.stream i).img.isNone then refuse s stNoObject 8
      else okWith (s.modStream i fun m => { m with limit := BitVec.ofNat 20 n }) []
/-- STREAM_LIMIT (R168, R374, R375, R380). -/
def execStreamLimit (t ch : Nat) (s : State) : Out := act (ch < 160) t s (effectStreamLimit ch)

/-- The quantisation settings of a stream, from its next tile. -/
def effectQntPolicy (ch : Nat) (s : State) : State :=
  s.command ch 0x0300 10 .none fun slot s =>
    let i := leAt slot 8 2
    behind (s.streamRefusal ch i) s fun s =>
      if 1 < leAt slot 10 1 then refuse s stBadField 10
      else if 3 < leAt slot 11 1 then refuse s stBadField 11
      else if 2 < leAt slot 12 1 then refuse s stBadField 12
      else okWith (s.modStream i fun m => { m with qnt := { m.qnt with
        carried := leAt slot 10 1 = 1, headroom := BitVec.ofNat 2 (leAt slot 11 1), policy := BitVec.ofNat 2 (leAt slot 12 1)
        satThresh := BitVec.ofNat 16 (leAt slot 14 2), underThresh := BitVec.ofNat 16 (leAt slot 16 2) } }) []
/-- QNT_POLICY (R134, R135, R140, R374, R375, R380). -/
def execQntPolicy (t ch : Nat) (s : State) : Out := act (ch < 160) t s (effectQntPolicy ch)

/-- The carried state of a stream is emptied. -/
def effectQntCarryReset (ch : Nat) (s : State) : State :=
  s.command ch 0x0301 2 .none fun slot s =>
    let i := leAt slot 8 2
    behind (s.streamRefusal ch i) s fun s =>
      okWith (s.modStream i fun m => { m with qnt := { m.qnt with carry := none } }) []
/-- QNT_CARRY_RESET (R130, R374, R375, R380). -/
def execQntCarryReset (t ch : Nat) (s : State) : Out := act (ch < 160) t s (effectQntCarryReset ch)

/-- The refusal of a TENANT's scope and index: scopes 0x0 to 0x2 and 0x6 on its own, 0x8 on clusters that
no job but its own uses. -/
def State.scopeRefusal (s : State) (ch scope i : Nat) : Option Reply :=
  if !s.tenant ch then none
  else
    let own : Option Bool := match scope with
      | 0 | 1 | 6 => some (s.ownsImg ch (s.stream i).img)
      | 2 => some (s.ownsImg ch (s.pool i).img)
      | 8 => some ((s.jobsOn i).all fun j => (s.image j).owner = ch)
      | _ => none
    match own with
    | none => some { status := stNotOwner, detail := 8 }
    | some true => none
    | some false => some { status := stNotOwner, detail := 10 }

/-- Counters of a scope are cleared. -/
def effectCounterClear (ch : Nat) (s : State) : State :=
  s.command ch 0x0302 4 .none fun slot s =>
    let scope := leAt slot 8 1
    let i := leAt slot 10 2
    match scopeEnd scope with
    | none => refuse s stBadField 8
    | some top =>
      if top < i then refuse s stBadField 10
      else behind (s.scopeRefusal ch scope i) s fun s => okWith (s.clearScope scope i) []
/-- COUNTER_CLEAR (R133, R174, R235, R236, R276, R374, R375, R380, R414). -/
def execCounterClear (t ch : Nat) (s : State) : Out := act (ch < 160) t s (effectCounterClear ch)

end Sys2Proof.Machine
end

