-- ==== Sys2Proof/Machine/FwControl.lean ====
section
/-! DEFINITION. Firmware commands on calibration, the angle schedule, field I/O, events, permissions, locks, links,
upgrade, power profiles and resets (R365, R366, R368, R372, R377, R380, R384, R438 to R440). -/

namespace Sys2Proof.Machine

open Sys2Proof.Config

/-! ### Precision and calibration control (R73 to R79, R253, R273, R275, R380, R431) -/

/-- The clusters that a cluster field names: 0xFFFF is every cluster (R379). -/
def clustersNamed (c : Nat) : Option (List Nat) :=
  if c = 0xFFFF then some (List.range 832) else if c < 832 then some [c] else none

/-- The slot offset of the first setting outside its range (R275). -/
def badSetting (slot : List Byte) : Option Nat :=
  ([(10, 1, 1, 63), (11, 1, 30, 70), (12, 2, 10, 10000), (14, 2, 1, 400), (16, 2, 1, 100), (18, 2, 1, 50), (20, 1, 0, 1)].find?
    fun x => leAt slot x.1 x.2.1 < x.2.2.1 || x.2.2.2 < leAt slot x.1 x.2.1).map (·.1)

/-- A cluster's settings of R275. -/
def Cluster.settings (slot : List Byte) (c : Cluster) : Cluster :=
  { c with settleNext := BitVec.ofNat 8 (leAt slot 10 1), fracNext := BitVec.ofNat 8 (leAt slot 11 1)
           rotMs := BitVec.ofNat 16 (leAt slot 12 2), vel := BitVec.ofNat 16 (leAt slot 14 2)
           acc := BitVec.ofNat 16 (leAt slot 16 2), jerk := BitVec.ofNat 16 (leAt slot 18 2)
           probesForbidden := leAt slot 20 1 = 1 }

/-- All settings of a cluster, or none. -/
def effectCalSettings (ch : Nat) (s : State) : State :=
  s.command ch 0x0400 13 .none fun slot s =>
    match clustersNamed (leAt slot 8 2), badSetting slot with
    | none, _ => refuse s stBadField 8
    | _, some off => refuse s stBadField off
    | some cls, none => okWith (s.each cls fun s c => s.modCluster c (Cluster.settings slot)) []
/-- CAL_SETTINGS (R275, R374, R375, R380). -/
def execCalSettings (t ch : Nat) (s : State) : Out := act (ch < 160) t s (effectCalSettings ch)

/-- A quiet window is requested for a cluster group; opened and refused clusters are counted. -/
def effectQuietOpen (ch : Nat) (s : State) : State :=
  s.command ch 0x0401 4 .none fun slot s =>
    let cls := s.groupClusters (leAt slot 8 1)
    let no := (cls.filter fun c =>
      (s.cluster c).quiet.isSome || (s.cluster c).quietClosed.any fun e => s.now < e + 9 * ms).length
    okWith (s.openQuiet cls (leAt slot 10 2)) (toLe 2 (cls.length - no) ++ toLe 2 no)
/-- QUIET_OPEN (R73 to R79, R374, R375, R380). -/
def execQuietOpen (t ch : Nat) (s : State) : Out := act (ch < 160) t s (effectQuietOpen ch)

/-- An advance of the rotation in each cluster of a group. -/
def effectRotAdvance (ch : Nat) (s : State) : State :=
  s.command ch 0x0402 1 .none fun slot s => okWith (s.each (s.groupClusters (leAt slot 8 1)) State.advance) []
/-- ROT_ADVANCE (R253, R374, R375, R380). -/
def execRotAdvance (t ch : Nat) (s : State) : Out := act (ch < 160) t s (effectRotAdvance ch)

/-- Clusters restart: running steps that use them are aborted first (R171, R431). -/
def State.restartClusters (s : State) (cls : List Nat) : State :=
  s.each cls fun s c =>
    let s := s.each ((s.jobsOn c).filter fun i => (s.image i).running) fun s i => s.abortStep i 7 0xFFFF
    s.beginRestart c

/-- The cluster restarts on its standby comb. -/
def effectCombSwitch (ch : Nat) (s : State) : State :=
  s.command ch 0x0403 2 .none fun slot s =>
    match clustersNamed (leAt slot 8 2) with
    | none => refuse s stBadField 8
    | some cls =>
      if cls.any fun c => (s.cluster c).comb ≠ 0 then refuse s stBusy 1
      else
        let live := cls.filter fun c => !(s.cluster c).retired
        if live.isEmpty then refuse s stBusy 2
        else accept (s.restartClusters live |>.each live fun s c => (s.wears 4).modCluster c Cluster.switchComb) ch slot {} (.restart live)
/-- COMB_SWITCH (R22, R171, R273, R374 to R376, R380, R431). -/
def execCombSwitch (t ch : Nat) (s : State) : Out := act (ch < 160) t s (effectCombSwitch ch)

/-- The cluster restarts with full calibration. -/
def effectClusterRestart (ch : Nat) (s : State) : State :=
  s.command ch 0x0404 2 .none fun slot s =>
    match clustersNamed (leAt slot 8 2) with
    | none => refuse s stBadField 8
    | some cls =>
      let live := cls.filter fun c => !(s.cluster c).retired
      if live.isEmpty then refuse s stBusy 2 else accept (s.restartClusters live) ch slot {} (.restart live)
/-- CLUSTER_RESTART (R171, R374 to R376, R380, R431). -/
def execClusterRestart (t ch : Nat) (s : State) : Out := act (ch < 160) t s (effectClusterRestart ch)

/-! ### Angle schedule (R323 to R325, R380) -/

/-- A scheduler entry is written. -/
def effectSchedWrite (ch : Nat) (s : State) : State :=
  s.command ch 0x0500 19 .none fun slot s =>
    let e := leAt slot 8 2
    let action := leAt slot 20 1
    if 512 ≤ e then refuse s stBadField 8
    else if 6 < action then refuse s stBadField 20
    else if 1 < leAt slot 21 1 then refuse s stBadField 21
    else if action = 1 && (s.image (leAt slot 24 1)).placed.isNone then refuse s stNoObject 24
    else okWith (s.setSched e
      { (s.schedEntry e).touch s.now with
        angle := BitVec.ofNat 32 (leAt slot 12 4), cyc := BitVec.ofNat 32 (leAt slot 16 4)
        act := BitVec.ofNat 32 (action + leAt slot 21 1 * 16 + leAt slot 24 3 * 256) }).schedCheck []
/-- SCHED_WRITE (R323 to R325, R374, R375, R380). -/
def execSchedWrite (t ch : Nat) (s : State) : Out := act (ch < 160) t s (effectSchedWrite ch)

/-- A scheduler entry is read, laid out as SCHED_WRITE takes it. -/
def effectSchedRead (ch : Nat) (s : State) : State :=
  s.command ch 0x0501 2 .none fun slot s =>
    let e := leAt slot 8 2
    let x := s.schedEntry e
    if 512 ≤ e then refuse s stBadField 8
    else okWith s (toLe 4 x.angle.toNat ++ toLe 4 x.cyc.toNat ++ toLe 1 (field x.act 0 4) ++ toLe 1 (field x.act 4 1) ++ [0, 0]
      ++ toLe 3 (field x.act 8 24))
/-- SCHED_READ (R329, R374, R375, R380). -/
def execSchedRead (t ch : Nat) (s : State) : Out := act (ch < 160) t s (effectSchedRead ch)

/-- The membership of a cluster group is replaced, from the next scheduler update on. -/
def effectClusterGroup (ch : Nat) (s : State) : State :=
  s.command ch 0x0502 2 .none fun slot s =>
    let g := leAt slot 8 1
    let n := leAt slot 9 1
    let rs := (List.range n).map fun i => (leAt slot (12 + 4 * i) 2, leAt slot (14 + 4 * i) 2)
    if g = 255 then refuse s stBadField 8
    else if n < 1 ∨ 11 < n then refuse s stBadField 9
    else if slotLen slot < 4 + 4 * n then refuse s stBadLength 0
    else
      match rs.findIdx? fun r => r.2 < r.1 || 832 ≤ r.2 with
      | some i => refuse s stBadField (12 + 4 * i)
      | none => okWith { s with fw := { s.fw with groupsNext := s.fw.groupsNext ++ [(g, rs)] } } []
/-- CLUSTER_GROUP (R325, R374, R375, R380). -/
def execClusterGroup (t ch : Nat) (s : State) : Out := act (ch < 160) t s (effectClusterGroup ch)

/-! ### Field I/O ownership, safe records (R301, R328, R341, R344, R349, R380) -/

/-- The owner of field I/O or of the loop engine changes. -/
def effectFieldOwner (ch : Nat) (s : State) : State :=
  s.command ch 0x0600 2 .none fun slot s =>
    let f := leAt slot 9 1
    let who := if f = 0xFF then none else some f
    if 63 < f && f ≠ 0xFF then (if 1 < leAt slot 8 1 then refuse s stBadField 8 else refuse s stBadField 9)
    else
      match leAt slot 8 1 with
      | 0 => okWith { s with fw := { s.fw with ioOwner := who } } []
      | 1 => okWith { s with fw := { s.fw with loopOwner := who } } []
      | _ => refuse s stBadField 8
/-- FIELD_OWNER (R301, R328, R349, R374, R375, R380). -/
def execFieldOwner (t ch : Nat) (s : State) : Out := act (ch < 160) t s (effectFieldOwner ch)

/-- A new safe record: in SAFE and FAULT the pin takes the new safe value, a channel in HIZ leaves it (R341, R344, R380). -/
def Fout.writeSafe (now : Nat) (r : SafeRec) (f : Fout) : Fout :=
  let f := { f with nvm := r }
  match f.st with
  | .safe => f.driveSafe now
  | .fault => if f.drives then f.driveSafe now else f
  | .hiz => f.loadRecord now
  | _ => f

/-- The safe record of a channel is written. -/
def effectSafeWrite (ch : Nat) (s : State) : State :=
  s.command ch 0x0601 7 .none fun slot s =>
    let n := leAt slot 8 1
    let mv := sleAt slot 10 2
    if 16 ≤ n then refuse s stBadField 8
    else if mv < -10000 ∨ 10000 < mv then refuse s stBadField 10
    else if 24000 < leAt slot 12 2 then refuse s stBadField 12
    else if 6 < leAt slot 14 1 then refuse s stBadField 14
    else accept (s.modFout n (Fout.writeSafe s.now
      { mv := BitVec.ofNat 16 (leAt slot 10 2), ua := BitVec.ofNat 16 (leAt slot 12 2)
        range := BitVec.ofNat 3 (leAt slot 14 1), valid := true })) ch slot {}
/-- SAFE_WRITE (R341, R342, R344, R374 to R376, R380). -/
def execSafeWrite (t ch : Nat) (s : State) : Out := act (ch < 160) t s (effectSafeWrite ch)

/-! ### Event routing, permissions, locks (R365, R366, R368, R372, R380) -/

/-- The subscriptions of a channel after EVENT_ROUTE: 0xFFFF replaces every one of them. -/
def Fw.route' (f : Fw) (ch code : Nat) (on : Bool) (vec : Nat) : Fw :=
  if code = 0xFFFF then
    { f with subAll := Tab.put (ch = 0, 0) f.subAll ch (on, vec), subs := Tab.put [] f.subs ch [] }
  else
    let old := (Tab.get [] f.subs ch).filter fun x => x.code ≠ BitVec.ofNat 16 code
    { f with subs := Tab.put [] f.subs ch (old ++ [{ code := BitVec.ofNat 16 code, on := on, vector := vec }]) }

/-- A channel is subscribed to events, or no longer. -/
def effectEventRoute (ch : Nat) (s : State) : State :=
  s.command ch 0x0602 6 .none fun slot s =>
    let c := leAt slot 8 1
    let vec := leAt slot 13 1
    if 63 < c then refuse s stBadField 8
    else if 1 < leAt slot 12 1 then refuse s stBadField 12
    else if vec = 1 ∨ 63 < vec then refuse s stBadField 13
    else okWith { s with fw := s.fw.route' c (leAt slot 10 2) (leAt slot 12 1 = 1) vec } []
/-- EVENT_ROUTE (R365, R366, R374, R375, R380). -/
def execEventRoute (t ch : Nat) (s : State) : Out := act (ch < 160) t s (effectEventRoute ch)

/-- The class of a VF is set. -/
def effectPermSet (ch : Nat) (s : State) : State :=
  s.command ch 0x0603 2 .none fun slot s =>
    let who := leAt slot 8 1
    let cls := leAt slot 9 1
    if who < 1 ∨ 63 < who then refuse s stBadField 8
    else if 1 < cls then refuse s stBadField 9
    else okWith { s with fw := { s.fw with classes := Tab.put clsTenant s.fw.classes who cls } } []
/-- PERM_SET (R368, R374, R375, R380). -/
def execPermSet (t ch : Nat) (s : State) : Out := act (ch < 160) t s (effectPermSet ch)

/-- The class of an identity is read. -/
def effectPermRead (ch : Nat) (s : State) : State :=
  s.command ch 0x0604 1 .none fun slot s =>
    let who := leAt slot 8 1
    if 160 ≤ who then refuse s stBadField 8 else okWith s (toLe 1 (s.classOf who))
/-- PERM_READ (R354, R368, R374, R375, R380). -/
def execPermRead (t ch : Nat) (s : State) : Out := act (ch < 160) t s (effectPermRead ch)

/-- A lock is released, whoever owns it. -/
def effectLockRelease (ch : Nat) (s : State) : State :=
  s.command ch 0x0605 1 .none fun slot s =>
    let n := leAt slot 8 1
    if 64 ≤ n then refuse s stBadField 8
    else
      let who := match Tab.get 0 s.locks.owner n with
        | 0 => 0xFF
        | k + 1 => k
      okWith { s with locks := { s.locks with owner := Tab.put 0 s.locks.owner n 0 } } (toLe 1 who)
/-- LOCK_RELEASE (R372, R374, R375, R380). -/
def execLockRelease (t ch : Nat) (s : State) : Out := act (ch < 160) t s (effectLockRelease ch)

/-! ### Links (R380, R402 to R404, R408, R412, R414) -/

/-- LINK_STATUS' record of link n. -/
def State.linkStatus (s : State) (n : Nat) : List Byte :=
  let l := s.link n
  toLe 1 l.st.toNat ++ [if l.spareUsed then 1 else 0] ++ toLe 2 l.peer.toNat ++ toLe 1 l.tlevel.toNat ++ toLe 1 l.clevel.toNat
    ++ [0, 0] ++ toLe 4 l.cwCorr.toNat ++ toLe 4 l.cwUncorr.toNat
/-- A request for a link's status. -/
def effectLinkStatus (ch : Nat) (s : State) : State :=
  s.command ch 0x0700 1 .none fun slot s =>
    let n := leAt slot 8 1
    if 64 ≤ n then refuse s stBadField 8 else
      let s := s.countCodewords n
      okWith s (s.linkStatus n)
/-- LINK_STATUS (R374, R375, R380, R414). -/
def execLinkStatus (t ch : Nat) (s : State) : Out := act (ch < 160) t s (effectLinkStatus ch)

/-- Route entries are written, all together, whatever the hop budget of the ring (R455). -/
def effectRouteWrite (ch : Nat) (s : State) : State :=
  s.command ch 0x0701 4 .none fun slot s =>
    let i := leAt slot 8 2
    let n := leAt slot 10 1
    if n < 1 ∨ 26 < n then refuse s stBadField 10
    else if 4096 < i + n then refuse s stBadField 8
    else if slotLen slot < 4 + 2 * n then refuse s stBadLength 0
    else okWith { s with linkMod := { s.linkMod with
      routes := (List.range n).foldl (fun m k => Tab.put 0 m (i + k) (BitVec.ofNat 16 (leAt slot (12 + 2 * k) 1)))
        s.linkMod.routes } } []
/-- ROUTE_WRITE (R374, R375, R380, R403, R404). -/
def execRouteWrite (t ch : Nat) (s : State) : Out := act (ch < 160) t s (effectRouteWrite ch)

/-- The module gets its address. -/
def effectAddressSet (ch : Nat) (s : State) : State :=
  s.command ch 0x0702 2 .none fun slot s =>
    if s.fw.images.any fun x => x.2.running then refuse s stBusy 1
    else okWith { s with linkMod := { s.linkMod with
      addr := BitVec.ofNat 16 (leAt slot 8 2), portAddr := BitVec.ofNat 16 (leAt slot 8 2) } } []
/-- ADDRESS_SET (R374, R375, R380, R403). -/
def execAddressSet (t ch : Nat) (s : State) : Out := act (ch < 160) t s (effectAddressSet ch)

/-- A link in its mode: disabled it is dark, in forced pass-through its pair passes light, otherwise it trains (R402, R408). -/
def State.applyMode (s : State) (n : Nat) : State :=
  if s.heldThrough n then s.passThrough n
  else if (s.link n).mode = 1 then
    (if (s.link n).st = 3 then s.setLinkState n 0 5 else s.linkGoesDown n 5)
  else if (s.link n).st = 2 || (s.link n).st = 1 || (s.link n).levelDown then s
  else s.setLinkState n 1 (s.link n).downReason

/-- The mode of a link is set. -/
def effectLinkMode (ch : Nat) (s : State) : State :=
  s.command ch 0x0703 2 .none fun slot s =>
    let n := leAt slot 8 1
    let m := leAt slot 9 1
    if 64 ≤ n then refuse s stBadField 8
    else if 2 < m then refuse s stBadField 9
    else okWith (((s.modLink n fun l => { l with mode := BitVec.ofNat 2 m }).applyMode n).applyMode (partner n)) []
/-- LINK_MODE (R374, R375, R380, R402, R408). -/
def execLinkMode (t ch : Nat) (s : State) : Out := act (ch < 160) t s (effectLinkMode ch)

/-- A peer, or the host, reports a module ready: PEER_READY is raised with the link the message came by. -/
def effectPeerReady (ch : Nat) (s : State) : State :=
  s.command ch 0x0704 4 .none fun slot s =>
    let link := if 66 ≤ ch ∧ ch ≤ 129 then ch - 66 else 0xFF
    okWith (s.raise 0x8040 (toLe 2 (leAt slot 8 2) ++ toLe 1 link ++ toLe 1 (leAt slot 10 1) ++ toLe 1 (leAt slot 11 1))) []
/-- PEER_READY (R355, R374, R375, R380, R386, R421). -/
def execPeerReady (t ch : Nat) (s : State) : Out := act (ch < 160) t s (effectPeerReady ch)

/-! ### Upgrade (R380, R384, R420) -/

/-- What is known of a bank (false A, true B): it verifies, or it does not (R384, R420). -/
def Aon.setBank (b ok : Bool) (a : Aon) : Aon :=
  { a with bankOk := if b then (a.bankOk.1, some ok) else (some ok, a.bankOk.2) }

/-- An upgrade of the inactive bank begins: it is erased and boots no more; a whole image given by descriptor is written. -/
def effectUpgradeBegin (ch : Nat) (data : Fetched (List Byte)) (s : State) : State :=
  s.command ch 0x0800 4 .may fun slot s =>
    let go (n : Nat) (bs : List Byte) : Handled :=
      accept { s with
        aon := { s.aon with flash := Memory.write [] 0 bs }.setBank (!s.aon.bank) false
        fw := { s.fw with upgrade := some n } } ch slot {}
    if slotDesc slot then
      match data with
      | .data bs => go bs.length bs
      | .failed k => refuse s stBadDescriptor (failedDesc slot k)
    else go (leAt slot 8 4) []
/-- UPGRADE_BEGIN (R361, R374 to R376, R380, R384). -/
def execUpgradeBegin (t ch : Nat) (data : Fetched (List Byte)) (s : State) : Out :=
  act (ch < 160) t s (effectUpgradeBegin ch data)

/-- UPGRADE_BEGIN has not ended. -/
def State.beginRuns (s : State) : Bool := s.fw.upgrade.isNone || s.fw.accepted.any fun a => a.op = 0x0800

/-- Up to 48 bytes go into the inactive bank. -/
def effectUpgradeData (ch : Nat) (s : State) : State :=
  s.command ch 0x0801 4 .none fun slot s =>
    let off := leAt slot 8 4
    let n := min (slotLen slot - 4) 48
    if s.beginRuns then refuse s stBusy 0
    else if s.fw.upgrade.getD 0 < off + n then refuse s stBadField 8
    else okWith { s with aon := { s.aon with flash := s.aon.flash.write off ((slot.drop 12).take n) } } []
/-- UPGRADE_DATA (R374, R375, R380, R384). -/
def execUpgradeData (t ch : Nat) (s : State) : Out := act (ch < 160) t s (effectUpgradeData ch)

/-- The signature of the inactive bank is verified; on success that bank boots at the next D1 reset, otherwise it stays
unbootable (R380, R420). -/
def effectUpgradeCommit (ch : Nat) (sigOk : Bool) (s : State) : State :=
  s.command ch 0x0802 0 .none fun slot s =>
    if s.fw.accepted.any fun a => a.op = 0x0800 then refuse s stBusy 0
    else
      let s := { s with fw := { s.fw with upgrade := none } }
      if sigOk then accept (s.modAon fun a => { a.setBank (!a.bank) true with bootBank := !a.bank }) ch slot {}
      else accept (s.modAon fun a => a.setBank (!a.bank) false) ch slot { status := stSignature }
/-- UPGRADE_COMMIT (R374 to R376, R380, R384, R420). -/
def execUpgradeCommit (t ch : Nat) (sigOk : Bool) (s : State) : Out := act (ch < 160) t s (effectUpgradeCommit ch sigOk)

/-! ### Power profiles (R82, R380, R438 to R440) -/

/-- A power profile: leaving the full one withdraws every permit, at once where the cluster is drained or unused, else
at its next fence, and the permits that placements before it still wait for (R440). A return to the full one neither stops a
withdrawal under way (R378) nor grants a permit again (DESIGN CHOICE, log entry 74). -/
def effectPowerProfile (ch : Nat) (s : State) : State :=
  s.command ch 0x0803 1 .none fun slot s =>
    let p := leAt slot 8 1
    if 3 < p then refuse s stBadField 8
    else if profileClusters (BitVec.ofNat 2 p) < s.usedClusters.length then refuse s stBusy s.usedClusters.length
    else
      let s := s.modAon fun a => { a with profile := BitVec.ofNat 2 p }
      let s := if p = 0 then s else s.unpromise
      let s := s.each ((s.clusters.filter fun x => x.2.permit).map (·.1)) fun s c =>
        if p = 0 then s
        else if s.undrained c then s.modCluster c fun k => { k with permitGoing := true, fencePassed := false }
        else s.modCluster c fun k => { k with permit := false, permitGoing := false }
      accept s.settleProfile ch slot {} .permits
/-- POWER_PROFILE (R82, R374 to R376, R380, R438 to R440). -/
def execPowerProfile (t ch : Nat) (s : State) : Out := act (ch < 160) t s (effectPowerProfile ch)

/-- A cluster stands drained at a fence: its permit is withdrawn, if it did not go as the units passed the fence (R82,
R439). -/
def effectPermitWithdrawn (cl : Nat) (s : State) : State :=
  let c := s.cluster cl
  if c.fencePassed || (c.permitGoing && !s.undrained cl) then
    (s.modCluster cl fun k =>
      { k with permit := k.permit && !k.permitGoing, permitGoing := false, fencePassed := false }).settleProfile
  else s
/-- PERMIT_WITHDRAWN (R82, R83, R438, R439). -/
def execPermitWithdrawn (t cl : Nat) (s : State) : Out := act (cl < 832) t s (effectPermitWithdrawn cl)

/-! ### MODULE_RESET (R380, R429, R430) -/

/-- D0 is asked for a reset; the response is written before it begins. -/
def effectModuleReset (ch : Nat) (s : State) : State :=
  s.command ch 0x0804 1 .none fun slot s =>
    let d := leAt slot 8 1
    let k := leAt slot 9 1
    let asked (f : Aon → Aon) : Handled := okWith (s.modAon f) []
    if d < 1 ∨ 5 < d then refuse s stBadField 8
    else if 2 ≤ d && d ≤ 4 && slotLen slot < 2 then refuse s stBadLength 0
    else if (d = 2 ∨ d = 3) ∧ 3 < k then refuse s stBadField 9
    else if d = 4 ∧ 15 < k then refuse s stBadField 9
    else
      match d with
      | 1 => asked fun a => { a with askD1 := true }
      | 2 => asked fun a => { a with askD2 := a.askD2 ||| BitVec.ofNat 4 (2 ^ k) }
      | 3 => asked fun a => { a with askD3 := a.askD3 ||| BitVec.ofNat 4 (2 ^ k) }
      | 4 => asked fun a => { a with askD4 := a.askD4 ||| BitVec.ofNat 16 (2 ^ k) }
      | _ => asked fun a => { a with askD1 := true, askD2 := 0xF, askD3 := 0xF, askD4 := 0xFFFF }
/-- MODULE_RESET (R374, R375, R380, R429 to R431). -/
def execModuleReset (t ch : Nat) (s : State) : Out := act (ch < 160) t s (effectModuleReset ch)

end Sys2Proof.Machine
end

