-- ==== Sys2Proof/Machine/Registers.lean ====
section
/-! DEFINITION. BAR0 as a map of 32-bit registers (R351): reads with their RC and RA effects, writes by access code,
range and owner (R2, R10 to R14, R301, R302, R325, R328, R329, R349, R352, R359, R373, R433). Offsets are rounded down
to a word. -/

namespace Sys2Proof.Machine

open Sys2Proof.Config

/-- The firmware's private path to the always-on registers, identity 130 (R433, log entry 22). -/
abbrev fwPath : Nat := 130

/-- One bit of a word at position k. -/
def bitAt (k : Nat) (b : Bool) : Nat := if b then 2 ^ k else 0

/-! ### Identity and always-on (R2, R433) -/

/-- The word at an offset of the AON region. -/
def Aon.word (a : Aon) (off : Nat) : Word :=
  if 0x200 ≤ off ∧ off < 0x220 then a.cask.getD ((off - 0x200) / 4) 0
  else match off with
    | 0x000 => BitVec.ofNat 32 identWord
    | 0x004 => BitVec.ofNat 32 (a.stage.toNat + bitAt 3 a.taster + bitAt 4 a.standbyCp + bitAt 5 a.bank)
    | 0x100 => BitVec.ofNat 32 a.wdgLimit.toNat
    | 0x104 => BitVec.ofNat 32 a.beat.toNat
    | 0x108 => BitVec.ofNat 32 (a.actDomain.toNat + a.actUnit.toNat * 2 ^ 4 + a.actReason.toNat * 2 ^ 12)
    | 0x10C => BitVec.ofNat 32 (bitAt 0 a.armed + a.expiries.toNat * 2 ^ 16)
    | 0x220 => BitVec.ofNat 32 (a.count.toNat + a.total.toNat * 2 ^ 16)
    | 0x224 => BitVec.ofNat 32 (a.failCode.toNat + a.failStage.toNat * 2 ^ 16)
    | 0x228 => a.resets
    | _ => 0

/-- Reasons that WDG_ACT lists (R427). -/
def wdgReasons : List Nat := [0x001, 0x010, 0x020, 0x030, 0x040, 0x050, 0x060, 0x070]

/-- UNIT codes that a Cask code lists for a domain (R427); for D0 it lists none. -/
def actUnitOk (domain unit : Nat) : Bool :=
  match domain with
  | 1 => unit ≤ 4
  | 2 | 3 => unit % 64 ≤ 5 || unit % 64 = 0x3F
  | 4 => unit ≤ 15
  | _ => false

/-- A write over firmware's private path: WDG_CTRL, WDG_BEAT and WDG_ACT; an encoding that is not listed leaves its
field (R14, R425 to R427, R433). -/
def State.aonWrite (s : State) (off : Nat) (v : Word) : State :=
  match off with
  | 0x100 =>
    let n := field v 0 11
    if 8 ≤ n ∧ n ≤ 1024 then s.modAon fun a => { a with wdgLimit := BitVec.ofNat 11 n } else s
  | 0x104 => effectHeartbeat (BitVec.ofNat 16 v.toNat) s
  | 0x108 => s.modAon fun a =>
      { a with actDomain := if field v 0 4 ≤ 4 then BitVec.ofNat 4 (field v 0 4) else a.actDomain
               actUnit := if actUnitOk (if field v 0 4 ≤ 4 then field v 0 4 else a.actDomain.toNat) (field v 4 8) then
                   BitVec.ofNat 8 (field v 4 8)
                 else a.actUnit
               actReason := if wdgReasons.contains (field v 12 12) then BitVec.ofNat 12 (field v 12 12) else a.actReason }
  | _ => s

/-! ### Mailbox pages, MBX, DBL, MSI-X (R352, R357, R359, R366, R373) -/

/-- Word k of a channel's MBX record. -/
def Channel.word (c : Channel) (off : Nat) : Word :=
  match off with
  | 0x00 => BitVec.ofNat 32 c.inTail.toNat
  | 0x04 => BitVec.ofNat 32 c.inHead.toNat
  | 0x08 => BitVec.ofNat 32 c.outTail.toNat
  | 0x0C => BitVec.ofNat 32 c.outHead.toNat
  | 0x10 => BitVec.ofNat 32 (stopsAt 8 c.badDb + stopsAt 8 c.lockedWr * 2 ^ 8 + stopsAt 8 c.foreign * 2 ^ 16)
  | _ => 0

/-- DBL_PENDING of a channel. -/
def Channel.dblWord (c : Channel) (serving : Bool) : Word :=
  BitVec.ofNat 32 (bitAt 0 (0 < c.outFill) + bitAt 1 c.inSpace + bitAt 2 c.evtLost + bitAt 3 !serving)

/-- A host write of one word to its own page: outbound slots and committed inbound slots are locked (R359). -/
def Channel.pageWrite (off : Nat) (v : Word) (c : Channel) : Channel :=
  if 0x800 ≤ off ∨ (off / 0x40 + 32 - c.inHead.toNat % 32) % 32 < c.inFill then { c with lockedWr := c.lockedWr + 1 }
  else { c with page := c.page.write off (toLe 4 v.toNat) }

/-- A write of a word of the MSI-X table; an entry unmasked while its vector is pending sends it (log entry 21). -/
def Channel.msixWrite (i : Nat) (v : Word) (c : Channel) : Channel :=
  let v := match i % 4 with
    | 0 => putField v 0 2 0
    | 3 => BitVec.ofNat 32 (field v 0 1)
    | _ => v
  let c := { c with msix := Tab.put (if i % 4 = 3 then 1 else 0) c.msix i v }
  let n := i / 4
  if flag c.pba n && !flag (c.msixWord (4 * n + 3)) 0 then
    { c with pba := putField c.pba n 1 0, raised := Tab.put 0 c.raised n (Tab.get 0 c.raised n + 1) }
  else c

/-- The word that function fn reads in the mailbox regions: only its own page, record and views (R352). -/
def State.mailWord (s : State) (fn off : Nat) : Word :=
  let c := s.chan fn
  if off < 0x200000 then
    if (off - 0x100000) / 0x1000 = fn then BitVec.ofNat 32 (leAt (c.page.readN (off % 0x1000) 4) 0 4) else 0
  else if off < 0x201400 then if (off - 0x200000) / 0x20 = fn then c.word (off % 0x20) else 0
  else if off = 0x202000 then c.dblWord s.fw.serving
  else if 0x204000 ≤ off ∧ off < 0x204400 then c.msixWord ((off - 0x204000) / 4)
  else if off = 0x205000 then BitVec.ofNat 32 c.pba.toNat
  else if off = 0x205004 then BitVec.ofNat 32 (c.pba.toNat / 2 ^ 32)
  else 0

/-- A foreign write is counted on the writer's own channel (R352). -/
def State.foreignWrite (s : State) (fn : Nat) : State := s.modChan fn fun c => { c with foreign := c.foreign + 1 }

/-- Function fn writes in the mailbox regions. -/
def State.mailWrite (s : State) (fn off : Nat) (v : Word) : State :=
  if off < 0x1A0000 then
    if (off - 0x100000) / 0x1000 = fn then s.modChan fn (Channel.pageWrite (off % 0x1000) v) else s.foreignWrite fn
  else if off < 0x200000 then s
  else if off < 0x201400 then
    if (off - 0x200000) / 0x20 = fn then
      match off % 0x20 with
      | 0x00 => effectDoorbell fn v s
      | 0x0C => effectMbxOutHeadWrite fn v s
      | _ => s
    else s.foreignWrite fn
  else if off = 0x202000 then
    s.modChan fn fun c =>
      { c with inSpace := w1c s.now c.fresh v 1 c.inSpace, evtLost := w1c s.now c.fresh v 2 c.evtLost }
  else if 0x204000 ≤ off ∧ off < 0x204400 then s.modChan fn (Channel.msixWrite ((off - 0x204000) / 4) v)
  else s

/-! ### Locks (R369, R371, R373) -/

/-- LCK_DENIED. -/
def Locks.deniedWord (l : Locks) : Word :=
  BitVec.ofNat 32 (stopsAt 16 l.denied + l.deniedId.toNat * 2 ^ 16 + l.deniedLock.toNat * 2 ^ 24)

/-- The word at an offset of the lock region. -/
def Locks.word (l : Locks) (off : Nat) : Word :=
  if off < 0x300200 then l.value (off % 0x100 / 4) else if off = 0x300200 then l.deniedWord else 0

/-! ### Field inputs (R329) -/

/-- FIN_STAT of converter k. -/
def State.finStat (s : State) (k : Nat) : Word :=
  let c := s.conv k
  BitVec.ofNat 32 (bitAt 0 (match c.run with | some t0 => t0 ≤ s.now | none => false) + bitAt 1 c.held
    + c.fifo.length % 128 * 4 + bitAt 9 (s.convOwned k))

/-- The word at an offset of converter k's record. -/
def State.finWord (s : State) (k r : Nat) : Word :=
  let c := s.conv k
  if 0x40 ≤ r ∧ r < 0x80 then Tab.get 0 c.slots ((r - 0x40) / 4)
  else if 0x80 ≤ r ∧ r < 0xC0 then Tab.get 0 c.last ((r - 0x80) / 4)
  else match r with
    | 0x00 => c.ctrl
    | 0x04 => BitVec.ofNat 32 c.timer.toNat
    | 0x0C => s.finStat k
    | 0x10 => BitVec.ofNat 32 (stopsAt 16 c.overrun + stopsAt 8 c.fifoOvf * 2 ^ 16 + stopsAt 8 c.streamOvf * 2 ^ 24)
    | _ => 0

/-- The converter timer runs. -/
def Conv.timerOn (c : Conv) : Bool := flag c.ctrl 0 && flag c.ctrl 6

/-- The owner writes a word of a converter's record; a CHAN code that is not listed stays (R14, R310, R329). -/
def Conv.write (now r : Nat) (v : Word) (c : Conv) : Conv :=
  if 0x40 ≤ r ∧ r < 0x80 then
    let i := (r - 0x40) / 4
    let w := BitVec.ofNat 32 (field v 0 7)
    let w := if 0x18 ≤ field v 0 5 then putField w 0 5 (field (Tab.get 0 c.slots i) 0 5) else w
    { c with slots := Tab.put 0 c.slots i w }
  else match r with
    | 0x00 =>
      let d := { c with ctrl := BitVec.ofNat 32 (field v 0 19) }
      if d.timerOn && !c.timerOn then { d with timerFrom := now } else d
    | 0x04 =>
      let p := field v 0 20
      if 1 ≤ p ∧ p ≤ 1000000 then { c with timer := BitVec.ofNat 32 p, timerFrom := now } else c
    | _ => c

/-- The owner writes in the FIN region. -/
def State.finWrite (s : State) (fn off : Nat) (v : Word) : State :=
  if 0x400400 ≤ off ∧ off < 0x400440 then effectFinIncfgWrite fn ((off - 0x400400) / 4) v s
  else if off < 0x400400 then
    let k := (off - 0x400000) / 0x100
    if off % 0x100 = 0x08 then effectSoftwareTrigger fn k v s else s.modConv k (Conv.write s.now (off % 0x100) v)
  else s

/-! ### Field outputs (R349) -/

/-- FOUT_STAT.STATE. -/
def OutState.code : OutState → Nat
  | .hiz => 0
  | .safe => 1
  | .running => 2
  | .range => 3
  | .fault => 4

/-- FOUT_STAT of a channel. -/
def Fout.statWord (f : Fout) : Word :=
  BitVec.ofNat 32 (f.st.code + f.queue.length % 64 * 8 + bitAt 9 f.short + bitAt 10 f.open_ + bitAt 11 f.underflow
    + bitAt 12 f.shortSeen + bitAt 13 f.openSeen + bitAt 14 f.rbFault + bitAt 15 f.safeInvalid + bitAt 16 f.loopIdle)

/-- The word at an offset of channel n's record. -/
def Fout.word (now n r : Nat) (f : Fout) : Word :=
  match r with
  | 0x00 =>
    BitVec.ofNat 32 (f.range.toNat + f.source.toNat * 2 ^ 3 + f.clkSel.toNat * 2 ^ 5 + bitAt 7 f.enable + bitAt 8 f.forceSafe)
  | 0x04 => BitVec.ofNat 32 f.period.toNat
  | 0x0C => f.statWord
  | 0x10 => BitVec.ofNat 32 (f.atPin now).toNat
  | 0x14 => if precision n then BitVec.ofNat 32 (f.tol.toNat + f.count.toNat * 2 ^ 12) else 0
  | 0x18 => BitVec.ofNat 32 (stopsAt 16 f.underflows + stopsAt 8 f.queueDrop * 2 ^ 16 + stopsAt 8 f.clkSkip * 2 ^ 24)
  | 0x1C => BitVec.ofNat 32 (f.nvm.mv.toNat + f.nvm.ua.toNat * 2 ^ 16)
  | 0x20 => BitVec.ofNat 32 (f.nvm.range.toNat + bitAt 3 f.nvm.valid)
  | _ => 0

/-- The owner writes a register of channel n. -/
def State.foutReg (s : State) (fn n r : Nat) (v : Word) : State :=
  match r with
  | 0x00 => s.foutCfg fn n v
  | 0x04 =>
    let p := field v 0 20
    if 10 ≤ p ∧ p ≤ 1000000 then s.modFout n fun f => { f with period := BitVec.ofNat 32 p } else s
  | 0x08 => effectFoutDataWrite fn n v s
  | 0x0C => s.modFout n (Fout.beforeTick s.now (Fout.writeStat s.now v))
  | 0x14 =>
    if precision n then s.modFout n fun f =>
      { f with tol := BitVec.ofNat 12 (field v 0 12)
               count := if field v 12 8 = 0 then f.count else BitVec.ofNat 8 (field v 12 8) }
    else s
  | _ => s

/-! ### Angle timebase and scheduler (R325, R328, R329) -/

/-- ANG_STAT. -/
def Angle.statWord (a : Angle) : Word :=
  BitVec.ofNat 32 (bitAt 0 a.locked + bitAt 1 a.loss + bitAt 2 a.holdover + bitAt 3 a.reverse + bitAt 4 a.cfgErr
    + a.encErr.toNat * 2 ^ 5 + a.sclkLost.toNat * 2 ^ 12 + a.wrDenied.toNat * 2 ^ 20)

/-- The word at an offset of the ANG registers. -/
def Angle.word (now r : Nat) (a : Angle) : Word :=
  match r with
  | 0x000 => a.ctrl
  | 0x004 => a.freqSet
  | 0x008 => a.freq
  | 0x00C => a.phase
  | 0x010 => a.cycLo
  | 0x014 => BitVec.ofNat 32 a.cycHi.toNat
  | 0x018 => a.offset
  | 0x01C => a.enc
  | 0x020 => a.statWord
  | 0x024 => a.sclk.getD 0 0
  | 0x028 => a.sclk.getD 1 0
  | 0x02C => a.encTmo
  | 0x030 => a.todSeconds now
  | 0x034 => BitVec.ofNat 32 (a.todNanos now)
  | 0x038 => BitVec.ofNat 32 (bitAt 0 a.ppsLock + bitAt 1 a.ppsLoss)
  | _ => 0

/-- The word at an offset of a scheduler entry. -/
def SchedEntry.word (r : Nat) (e : SchedEntry) : Word :=
  match r with
  | 0x0 => e.angle
  | 0x4 => e.cyc
  | 0x8 => e.act
  | _ => 0

/-- The owner writes a word of a scheduler entry. Actions 0x1, 0x4 and 0x5 are firmware's: the ACT word stays and the
write is counted; a reserved action stays (R14, R324, R325). -/
def State.schedReg (s : State) (e r : Nat) (v : Word) : State :=
  let x := (s.schedEntry e).touch s.now
  match r with
  | 0x0 => s.setSched e { x with angle := v }
  | 0x4 => (s.setSched e { x with cyc := v }).schedCheck
  | 0x8 =>
    let a := field v 0 4
    if a = 1 ∨ a = 4 ∨ a = 5 then s.modAng fun g => { g with wrDenied := satInc g.wrDenied }
    else
      let w := putField v 5 3 0
      s.setSched e { x with act := if 6 < a then putField w 0 4 (field x.act 0 4) else w }
  | _ => s

/-- The owner writes an ANG register. -/
def State.angReg (s : State) (fn r : Nat) (v : Word) : State :=
  match r with
  | 0x000 => effectAngSourceWrite fn v s
  | 0x004 => if 0x28F ≤ v.toNat ∧ v.toNat ≤ 0x03E80000 then s.modAng fun a => { a with freqSet := v } else s
  | 0x018 => effectAngOffsetWrite fn v s
  | 0x01C =>
    let n := field v 0 20
    if 4 ≤ n then s.modAng fun a => { a with enc := BitVec.ofNat 32 n } else s
  | 0x020 => s.modAng fun a => { a with loss := w1c s.now a.fresh v 1 a.loss }
  | 0x024 => s.modAng fun a => { a with sclk := a.sclk.set 0 (BitVec.ofNat 32 (field v 0 13)) }
  | 0x028 => s.modAng fun a => { a with sclk := a.sclk.set 1 (BitVec.ofNat 32 (field v 0 13)) }
  | 0x02C =>
    let n := field v 0 16
    if 1 ≤ n then s.modAng fun a => { a with encTmo := BitVec.ofNat 32 n } else s
  | 0x030 => effectAngTodSecWrite fn v s
  | 0x038 => s.modAng fun a => { a with ppsLoss := w1c s.now a.ppsFresh v 1 a.ppsLoss }
  | _ => s

/-- The owner writes in the ANG region. -/
def State.angRegion (s : State) (fn off : Nat) (v : Word) : State :=
  if off < 0x421000 then s.angReg fn (off - 0x420000) v
  else if off < 0x423000 then s.schedReg ((off - 0x421000) / 0x10) (off % 0x10) v
  else s

/-! ### Field loops and profile generators (R301, R302) -/

/-- The coefficient index of an offset of a loop record: set, and place within the set with KI at 30. -/
def coefIndex (r : Nat) : Option (Nat × Nat) :=
  if 0x100 ≤ r ∧ r < 0x300 then
    let i := r % 0x80 / 4
    if i ≤ 30 then some ((r - 0x100) / 0x80, i) else none
  else none

/-- LOOP_STAT. -/
def FieldLoop.statWord (l : FieldLoop) : Word :=
  BitVec.ofNat 32 (l.set.toNat + bitAt 2 l.osc + bitAt 3 l.svStale + bitAt 4 l.cfgErr + bitAt 5 l.limOut + bitAt 6 l.limInt)

/-- The word at an offset of a loop record. -/
def FieldLoop.word (r : Nat) (l : FieldLoop) : Word :=
  match coefIndex r with
  | some x => l.coefAt x.1 x.2
  | none =>
    match r with
    | 0x000 => l.ctrl
    | 0x004 => l.src
    | 0x008 => l.period
    | 0x010 => l.imin
    | 0x014 => l.imax
    | 0x018 => l.omin
    | 0x01C => l.omax
    | 0x020 => l.b1
    | 0x024 => l.b2
    | 0x028 => l.b3
    | 0x02C => l.hyst
    | 0x030 => l.oscBand
    | 0x034 => l.oscAmp
    | 0x038 => l.injAmp
    | 0x03C => l.injF0
    | 0x040 => l.injF1
    | 0x044 => l.oscCfg
    | 0x048 => l.injCtrl
    | 0x04C => l.injLen
    | 0x050 => l.svTmo
    | 0x060 => l.statWord
    | 0x064 => l.sp
    | 0x068 => l.meas
    | 0x06C => l.err
    | 0x070 => l.intReg
    | 0x074 => l.out
    | 0x078 => l.sv
    | 0x07C => BitVec.ofNat 32 (l.satCnt.toNat + l.skipCnt.toNat * 2 ^ 16 + l.nanCnt.toNat * 2 ^ 24)
    | _ => 0

/-- A new LOOP_SRC word: an OUT code that is not listed stays (R14). -/
def FieldLoop.srcWord (v : Word) (l : FieldLoop) : Word :=
  let w := BitVec.ofNat 32 (field v 0 19)
  if 0x10 < field v 6 5 then putField w 6 5 (field l.src 6 5) else w

/-- The owner sets a plain register of a loop record; the timer of LOOP_SV_TMO starts with its write (R291; DESIGN CHOICE, log
entry 85). -/
def FieldLoop.write (now r : Nat) (v : Word) (l : FieldLoop) : FieldLoop :=
  match coefIndex r with
  | some x =>
    { l with coef := Tab.put (if x.2 < 30 ∧ x.2 % 5 = 0 then 0x40000000 else 0) l.coef (x.1 * 31 + x.2) v }
  | none =>
    match r with
    | 0x004 => { l with src := l.srcWord v }
    | 0x008 =>
      let p := field v 0 20
      if 10 ≤ p ∧ p ≤ 1000000 then { l with period := BitVec.ofNat 32 p, timerFrom := now } else l
    | 0x010 => { l with imin := v }
    | 0x014 => { l with imax := v }
    | 0x018 => { l with omin := v }
    | 0x01C => { l with omax := v }
    | 0x020 => { l with b1 := v }
    | 0x024 => { l with b2 := v }
    | 0x028 => { l with b3 := v }
    | 0x02C => { l with hyst := v }
    | 0x030 => { l with oscBand := v }
    | 0x034 => { l with oscAmp := v }
    | 0x038 => { l with injAmp := v }
    | 0x03C => { l with injF0 := v }
    | 0x040 => { l with injF1 := v }
    | 0x044 =>
      let w := BitVec.ofNat 32 (field v 0 24)
      { l with oscCfg := if field v 0 16 < 15 then putField w 0 16 (field l.oscCfg 0 16) else w }
    | 0x04C => { l with injLen := v }
    | 0x050 => { l with svTmo := BitVec.ofNat 32 (field v 0 16), scalarAt := now }
    | _ => l

/-- The owner writes in a loop record: the registers with a behaviour of their own act, the others are set, and the
configuration check and LOOP_IDLE follow (R282, R285, R292, R302, R337). -/
def State.loopReg (s : State) (fn n r : Nat) (v : Word) : State :=
  match r with
  | 0x000 => s.loopCtrl fn n v
  | 0x048 => s.injCtrl fn n v
  | 0x060 => s.loopStat fn n v
  | _ => (s.modLoop n (FieldLoop.write s.now r v)).refreshCfg.refreshIdle

/-- The word at an offset of a profile generator's record; a limit that is pending reads as written (R299). -/
def Profile.word (now r : Nat) (p : Profile) : Word :=
  match r with
  | 0x00 => BitVec.ofNat 32 (bitAt 0 p.bypass)
  | 0x04 => p.target
  | 0x08 => p.vNew.getD p.vmax
  | 0x0C => p.aNew.getD p.amax
  | 0x10 => p.jNew.getD p.jmax
  | 0x14 => p.pmin
  | 0x18 => p.pmax
  | 0x1C => p.pos
  | 0x20 => p.vel
  | 0x24 => p.acc
  | 0x28 =>
    BitVec.ofNat 32 (bitAt 0 p.moving + bitAt 1 (p.vNew.isSome || p.aNew.isSome || p.jNew.isSome) + bitAt 2 (p.overshoot now)
      + p.clamps.toNat * 2 ^ 16)
  | _ => 0

/-- The owner writes in a profile generator's record. -/
def State.prfReg (s : State) (fn n r : Nat) (v : Word) : State :=
  match r with
  | 0x00 => s.prfCtrl fn n v
  | 0x04 => s.prfTarget n v
  | 0x08 => s.modPrf n (Profile.writeLimit (s.now / cycle) 0 v)
  | 0x0C => s.modPrf n (Profile.writeLimit (s.now / cycle) 1 v)
  | 0x10 => s.modPrf n (Profile.writeLimit (s.now / cycle) 2 v)
  | 0x14 => s.modPrf n fun p => { p with pmin := v }
  | 0x18 => s.modPrf n fun p => { p with pmax := v }
  | _ => s

/-- LOOP_CAP_CTRL. -/
def LoopEng.capWord (g : LoopEng) : Word := BitVec.ofNat 32 (g.capCtrl.toNat + bitAt 0 g.armed + bitAt 20 g.done)

/-- The word at an offset of the loop region. -/
def State.loopWord (s : State) (off : Nat) : Word :=
  if off < 0x434000 then (s.fieldLoop ((off - 0x430000) / 0x400)).word (off % 0x400)
  else if off < 0x434400 then (s.prf ((off - 0x434000) / 0x40)).word s.now (off % 0x40)
  else if off = 0x434400 then s.loopEng.capWord
  else if off = 0x434404 then BitVec.ofNat 32 (s.loopEng.wrDenied.toNat + s.loopEng.capRefused.toNat * 2 ^ 16)
  else if 0x438000 ≤ off ∧ off < 0x440000 then
    let x := Tab.get (0, 0) s.loopEng.capture ((off - 0x438000) / 8)
    if off % 8 = 0 then x.1 else x.2
  else 0

/-- The owner writes in the loop region. -/
def State.loopRegion (s : State) (fn off : Nat) (v : Word) : State :=
  if off < 0x434000 then s.loopReg fn ((off - 0x430000) / 0x400) (off % 0x400) v
  else if off < 0x434400 then s.prfReg fn ((off - 0x434000) / 0x40) (off % 0x40) v
  else if off = 0x434400 then s.capCtrl fn v
  else s

/-! ### Reads -/

/-- The word that a read of a BAR0 register returns, without the read's effect. -/
def State.regWord (s : State) (fn off : Nat) : Word :=
  if off < 0x100000 then s.aon.word off
  else if off < 0x300000 then s.mailWord fn off
  else if off < 0x400000 then s.locks.word off
  else if off < 0x400400 then s.finWord ((off - 0x400000) / 0x100) (off % 0x100)
  else if off < 0x400440 then BitVec.ofNat 32 (Tab.get 0 s.incfg ((off - 0x400400) / 4)).toNat
  else if off < 0x410000 then 0
  else if off < 0x410400 then (s.fout ((off - 0x410000) / 0x40)).word s.now ((off - 0x410000) / 0x40) (off % 0x40)
  else if off = 0x410400 then BitVec.ofNat 32 s.foutDenied.toNat
  else if off < 0x420000 then 0
  else if off < 0x421000 then s.ang.word s.now (off - 0x420000)
  else if off < 0x423000 then (s.schedEntry ((off - 0x421000) / 0x10)).word (off % 0x10)
  else if off < 0x430000 then 0
  else if off < 0x440000 then s.loopWord off
  else s.counterWord off

/-- A channel after a read of its RC fields, b being the channel when the cycle began (R10, R12, R373). -/
def Channel.readLeft (b c : Channel) : Channel :=
  { c with badDb := rcLeft c.badDb b.badDb, lockedWr := rcLeft c.lockedWr b.lockedWr, foreign := rcLeft c.foreign b.foreign }

/-- LCK_DENIED after a read: ID and LOCK stay with the denials of the read's own cycle (R10, R12, R373). -/
def Locks.readLeft (b l : Locks) : Locks :=
  { l with denied := rcLeft l.denied b.denied
           deniedId := if l.denied = b.denied then 0 else l.deniedId
           deniedLock := if l.denied = b.denied then 0 else l.deniedLock }

/-- FIN_CNT after a read (R10, R12, R329). -/
def Conv.readLeft (b c : Conv) : Conv :=
  { c with overrun := rcLeft c.overrun b.overrun, fifoOvf := rcLeft c.fifoOvf b.fifoOvf
           streamOvf := rcLeft c.streamOvf b.streamOvf }

/-- FOUT_CNT after a read; a tick of the cycle that may still act again takes the read into account (R10, R12, R347, R349). -/
def Fout.readLeft (b f : Fout) : Fout :=
  { f with underflows := rcLeft f.underflows b.underflows, queueDrop := rcLeft f.queueDrop b.queueDrop
           clkSkip := rcLeft f.clkSkip b.clkSkip
           ticked := f.ticked.map fun u => { u with underflows := rcLeft u.underflows b.underflows } }

/-- The state with every RC field as it stood when the fabric cycle began, which is what a read returns (R12). -/
def State.beforeEvents (s : State) : State :=
  { s with chans := s.snap.chans, locks := { s.snap.locks with owner := s.locks.owner }, convs := s.snap.convs
           fouts := s.snap.fouts }

/-- A register with RC fields, for function fn. -/
def rcReg (fn off : Nat) : Bool :=
  off = 0x200000 + 0x20 * fn + 0x10 || off = 0x300200 || (0x400000 ≤ off && off < 0x400400 && off % 0x100 = 0x10)
    || (0x410000 ≤ off && off < 0x410400 && off % 0x40 = 0x18)

/-- The RC fields of a register after its read: what was recorded before the fabric cycle clears, an event of the cycle
itself stays for the next read (R10, R12, R329, R349, R373; log entry 73). -/
def State.clearRead (s : State) (fn off : Nat) : State :=
  if off = 0x200000 + 0x20 * fn + 0x10 then
    let b := Tab.get {} s.snap.chans fn
    { s.modChan fn (Channel.readLeft b) with snap := { s.snap with
        chans := Tab.put {} s.snap.chans fn { b with badDb := 0, lockedWr := 0, foreign := 0 } } }
  else if off = 0x300200 then
    { s with locks := Locks.readLeft s.snap.locks s.locks
             snap := { s.snap with locks := { s.snap.locks with denied := 0, deniedId := 0, deniedLock := 0 } } }
  else if 0x400000 ≤ off ∧ off < 0x400400 ∧ off % 0x100 = 0x10 then
    let k := (off - 0x400000) / 0x100
    let b := Tab.get {} s.snap.convs k
    { s.modConv k (Conv.readLeft b) with snap := { s.snap with
        convs := Tab.put {} s.snap.convs k { b with overrun := 0, fifoOvf := 0, streamOvf := 0 } } }
  else if 0x410000 ≤ off ∧ off < 0x410400 ∧ off % 0x40 = 0x18 then
    let n := (off - 0x410000) / 0x40
    let b := Tab.get {} s.snap.fouts n
    { s.modFout n (Fout.readLeft b) with snap := { s.snap with
        fouts := Tab.put {} s.snap.fouts n { b with underflows := 0, queueDrop := 0, clkSkip := 0 } } }
  else s

/-- The offsets of mailbox pages and MBX records. -/
def mailOff (off : Nat) : Bool := 0x100000 ≤ off && off < 0x201400

/-- Whether an identity reaches an offset: the AON region while D0 has power, every other one while D1 runs; the test
port reaches the locks and its own page and record, an internal unit its own page and record, firmware's private path the
AON region too (R351, R354, R356, R369, R433). -/
def State.reaches (s : State) (who off : Nat) : Bool :=
  if off < 0x100000 then s.aon.power && (who ≤ 63 || who = fwPath)
  else s.hostUp && (who ≤ 63 || mailOff off || who = 65 && 0x300000 ≤ off && off < 0x400000)

/-- A register word on a 4-byte boundary. -/
def wordOff (off : Nat) : Nat := off / 4 * 4

/-- Identities that read and write registers. -/
def regUser (who : Nat) : Bool := ringWriter who && who < 160

/-- A read of a register: it returns the word, and an RC field clears; a lock is acquired, FIN_FIFO loses an entry,
ANG_CYC_LO latches ANG_CYC_HI as their own rows say. -/
def effectRcRead (who off : Nat) (s : State) : State :=
  let o := wordOff off
  if !s.reaches who o then s
  else if 0x300000 ≤ o ∧ o < 0x300100 then effectLockRead who ((o - 0x300000) / 4) s
  else if 0x400000 ≤ o ∧ o < 0x400400 ∧ o % 0x100 = 0x14 then effectFinFifoRead who ((o - 0x400000) / 0x100) s
  else if o = 0x420010 then effectAngCycLoRead who s
  else
    let s := s.countedTo o
    let v := if rcReg who o then s.beforeEvents.regWord who o else s.regWord who o
    { s.clearRead who o with readOut := { who := who, data := toLe 4 v.toNat } }
/-- RC_READ (R2, R10, R12, R13, R140, R174, R235, R236, R302, R329, R349, R351, R352, R369, R373, R414, R433). -/
def execRcRead (t who off : Nat) (s : State) : Out := act (regUser who && off < 0x4000000) t s (effectRcRead who off)

/-! ### Writes -/

/-- A write of a register: by region, access code and owner; RO and RC registers and offsets that no region holds
ignore it. -/
def effectRegisterWrite (who off : Nat) (v : Word) (s : State) : State :=
  let o := wordOff off
  if o < 0x100000 then if s.hostUp && who = fwPath then s.aonWrite o v else s
  else if o < 0x300000 then if s.chanUp && (who ≤ 63 || mailOff o) then s.mailWrite who o v else s
  else if 130 ≤ who || !s.hostUp then s
  else if o < 0x300100 then effectLockWrite who ((o - 0x300000) / 4) v s
  else if o < 0x400000 then s
  else if o < 0x410000 then s.angWrite who fun s => s.finWrite who o v
  else if o < 0x420000 then
    s.foutWrite who fun s => if o < 0x410400 then s.foutReg who ((o - 0x410000) / 0x40) (o % 0x40) v else s
  else if o < 0x430000 then s.angWrite who fun s => s.angRegion who o v
  else if o < 0x440000 then s.loopWrite who fun s => s.loopRegion who o v
  else s
/-- REGISTER_WRITE (R10, R11, R13, R14, R301, R302, R325, R328, R329, R349, R351, R352, R359, R371, R373, R433). -/
def execRegisterWrite (t who off : Nat) (v : Word) (s : State) : Out :=
  act (regUser who && off < 0x4000000) t s (effectRegisterWrite who off v)

end Sys2Proof.Machine
end

