-- ==== Sys2Proof/Machine/Dispatch.lean ====
section
/-! DEFINITION. One arm per command: the meaning that exec gives it. -/

namespace Sys2Proof.Machine

open Sys2Proof

/-- The effect of a command on everything but the queue. -/
def exec (i : Instr) (s : State) : Host.Outcome State Fault Refusal :=
  match i with
  | .nop t u img => Sys2Proof.Machine.execNop t u img s
  | .endOp t u img => Sys2Proof.Machine.execEnd t u img s
  | .loop t u img => Sys2Proof.Machine.execLoop t u img s
  | .fence t u img => Sys2Proof.Machine.execFence t u img s
  | .waitang t u img => Sys2Proof.Machine.execWaitang t u img s
  | .event t u img => Sys2Proof.Machine.execEvent t u img s
  | .listFault t u img => Sys2Proof.Machine.execListFault t u img s
  | .feed t u img => Sys2Proof.Machine.execFeed t u img s
  | .wfill t u img => Sys2Proof.Machine.execWfill t u img s
  | .wload t u img => Sys2Proof.Machine.execWload t u img s
  | .swap t u img => Sys2Proof.Machine.execSwap t u img s
  | .rscale t u img => Sys2Proof.Machine.execRscale t u img s
  | .tile t u img => Sys2Proof.Machine.execTile t u img s
  | .reduce t u img => Sys2Proof.Machine.execReduce t u img s
  | .vAdd t u img => Sys2Proof.Machine.execVAdd t u img s
  | .vSub t u img => Sys2Proof.Machine.execVSub t u img s
  | .vMul t u img => Sys2Proof.Machine.execVMul t u img s
  | .vMax t u img => Sys2Proof.Machine.execVMax t u img s
  | .vMin t u img => Sys2Proof.Machine.execVMin t u img s
  | .vScale t u img => Sys2Proof.Machine.execVScale t u img s
  | .vAxpy t u img => Sys2Proof.Machine.execVAxpy t u img s
  | .vClamp t u img => Sys2Proof.Machine.execVClamp t u img s
  | .vCopy t u img => Sys2Proof.Machine.execVCopy t u img s
  | .vTable t u img => Sys2Proof.Machine.execVTable t u img s
  | .vExp t u img => Sys2Proof.Machine.execVExp t u img s
  | .vRecip t u img => Sys2Proof.Machine.execVRecip t u img s
  | .vRsqrt t u img => Sys2Proof.Machine.execVRsqrt t u img s
  | .vRmaxabs t u img => Sys2Proof.Machine.execVRmaxabs t u img s
  | .vRmax t u img => Sys2Proof.Machine.execVRmax t u img s
  | .vRsum t u img => Sys2Proof.Machine.execVRsum t u img s
  | .vBmaxabs t u img => Sys2Proof.Machine.execVBmaxabs t u img s
  | .vNstats t u img => Sys2Proof.Machine.execVNstats t u img s
  | .vNapply t u img => Sys2Proof.Machine.execVNapply t u img s
  | .vSmstats t u img => Sys2Proof.Machine.execVSmstats t u img s
  | .vSmapply t u img => Sys2Proof.Machine.execVSmapply t u img s
  | .vGather t u img => Sys2Proof.Machine.execVGather t u img s
  | .vEdgesum t u img => Sys2Proof.Machine.execVEdgesum t u img s
  | .vDynimg t u img => Sys2Proof.Machine.execVDynimg t u img s
  | .quantEncode t u img => Sys2Proof.Machine.execQuantEncode t u img s
  | .quantDecode t u img => Sys2Proof.Machine.execQuantDecode t u img s
  | .send t u img => Sys2Proof.Machine.execSend t u img s
  | .recv t u img => Sys2Proof.Machine.execRecv t u img s
  | .xfer t u img => Sys2Proof.Machine.execXfer t u img s
  | .fieldFill t u img => Sys2Proof.Machine.execFieldFill t u img s
  | .fieldScalar t u img => Sys2Proof.Machine.execFieldScalar t u img s
  | .fieldOutput t u img => Sys2Proof.Machine.execFieldOutput t u img s
  | .tokenInvalid t u tok => Sys2Proof.Machine.execTokenInvalid t u tok s
  | .creditReturn t stream u => Sys2Proof.Machine.execCreditReturn t stream u s
  | .handleFree t pool => Sys2Proof.Machine.execHandleFree t pool s
  | .fenceOrder t u img => Sys2Proof.Machine.execFenceOrder t u img s
  | .groupDrained t img group => Sys2Proof.Machine.execGroupDrained t img group s
  | .stall t stream => Sys2Proof.Machine.execStall t stream s
  | .stepAborted t img => Sys2Proof.Machine.execStepAborted t img s
  | .modelStepStart t img starts => Sys2Proof.Machine.execModelStepStart t img starts s
  | .coreCreditGrant t cl pos => Sys2Proof.Machine.execCoreCreditGrant t cl pos s
  | .switchGrant t cl f => Sys2Proof.Machine.execSwitchGrant t cl f s
  | .packetStart t cl f => Sys2Proof.Machine.execPacketStart t cl f s
  | .reconfigEnd t cl f => Sys2Proof.Machine.execReconfigEnd t cl f s
  | .measureEnd t cl f => Sys2Proof.Machine.execMeasureEnd t cl f s
  | .windowEnd t cl f => Sys2Proof.Machine.execWindowEnd t cl f s
  | .packetEnd t cl f => Sys2Proof.Machine.execPacketEnd t cl f s
  | .verdict t cl f => Sys2Proof.Machine.execVerdict t cl f s
  | .probePacket t cl f core wrong => Sys2Proof.Machine.execProbePacket t cl f core wrong s
  | .loadSettled t cl core => Sys2Proof.Machine.execLoadSettled t cl core s
  | .refreshDue t cl core => Sys2Proof.Machine.execRefreshDue t cl core s
  | .chainForward t cl core => Sys2Proof.Machine.execChainForward t cl core s
  | .transferIssue t e => Sys2Proof.Machine.execTransferIssue t e s
  | .transferComplete t e desc idx => Sys2Proof.Machine.execTransferComplete t e desc idx s
  | .descCompToken t e desc => Sys2Proof.Machine.execDescCompToken t e desc s
  | .hostBar2Read t addr len => Sys2Proof.Machine.execHostBar2Read t addr len s
  | .hostBar2Write t addr data => Sys2Proof.Machine.execHostBar2Write t addr data s
  | .channelMigration t stack ch => Sys2Proof.Machine.execChannelMigration t stack ch s
  | .migrationEnd t stack => Sys2Proof.Machine.execMigrationEnd t stack s
  | .innerUpdate t cl core errs => Sys2Proof.Machine.execInnerUpdate t cl core errs s
  | .outerUpdate t cl => Sys2Proof.Machine.execOuterUpdate t cl s
  | .feedforwardUpdate t cl sensors => Sys2Proof.Machine.execFeedforwardUpdate t cl sensors s
  | .quietWindowOpen t cls tens => Sys2Proof.Machine.execQuietWindowOpen t cls tens s
  | .quietClose t cl => Sys2Proof.Machine.execQuietClose t cl s
  | .rotationAdvance t cl => Sys2Proof.Machine.execRotationAdvance t cl s
  | .spareClaim t cl claims => Sys2Proof.Machine.execSpareClaim t cl claims s
  | .spareCopyDone t cl => Sys2Proof.Machine.execSpareCopyDone t cl s
  | .mirrorDone t cl => Sys2Proof.Machine.execMirrorDone t cl s
  | .handover t cl => Sys2Proof.Machine.execHandover t cl s
  | .calibrationDone t cl core vals => Sys2Proof.Machine.execCalibrationDone t cl core vals s
  | .calStarved t cl => Sys2Proof.Machine.execCalStarved t cl s
  | .profileMoveEnd t cl core ring => Sys2Proof.Machine.execProfileMoveEnd t cl core ring s
  | .wearSpareReady t cl => Sys2Proof.Machine.execWearSpareReady t cl s
  | .engineSpared t cl core row => Sys2Proof.Machine.execEngineSpared t cl core row s
  | .lineRemapped t cl line => Sys2Proof.Machine.execLineRemapped t cl line s
  | .combWorn t cl ratio => Sys2Proof.Machine.execCombWorn t cl ratio s
  | .clusterReturn t cl => Sys2Proof.Machine.execClusterReturn t cl s
  | .clusterRestartEnd t cl => Sys2Proof.Machine.execClusterRestartEnd t cl s
  | .loopUpdate t n => Sys2Proof.Machine.execLoopUpdate t n s
  | .loopTimer t n => Sys2Proof.Machine.execLoopTimer t n s
  | .svStale t n => Sys2Proof.Machine.execSvStale t n s
  | .loopEnable t fn n v => Sys2Proof.Machine.execLoopEnable t fn n v s
  | .loopDisable t fn n v => Sys2Proof.Machine.execLoopDisable t fn n v s
  | .loopHold t fn n v => Sys2Proof.Machine.execLoopHold t fn n v s
  | .loopOscRelease t fn n v => Sys2Proof.Machine.execLoopOscRelease t fn n v s
  | .injectionStart t fn n v => Sys2Proof.Machine.execInjectionStart t fn n v s
  | .injectionStop t fn n v => Sys2Proof.Machine.execInjectionStop t fn n v s
  | .captureArm t fn v => Sys2Proof.Machine.execCaptureArm t fn v s
  | .prfTargetWrite t fn n v => Sys2Proof.Machine.execPrfTargetWrite t fn n v s
  | .prfLimitWrite t fn n which v => Sys2Proof.Machine.execPrfLimitWrite t fn n which v s
  | .prfStop t fn n v => Sys2Proof.Machine.execPrfStop t fn n v s
  | .softwareTrigger t fn k v => Sys2Proof.Machine.execSoftwareTrigger t fn k v s
  | .converterTimer t k => Sys2Proof.Machine.execConverterTimer t k s
  | .triggerPinEdge t pin falling => Sys2Proof.Machine.execTriggerPinEdge t pin falling s
  | .conversionResult t k level inl => Sys2Proof.Machine.execConversionResult t k level inl s
  | .runEnd t k => Sys2Proof.Machine.execRunEnd t k s
  | .threePhaseSample t a b c => Sys2Proof.Machine.execThreePhaseSample t a b c s
  | .finFifoRead t fn k => Sys2Proof.Machine.execFinFifoRead t fn k s
  | .finIncfgWrite t fn n v => Sys2Proof.Machine.execFinIncfgWrite t fn n v s
  | .angleUpdate t => Sys2Proof.Machine.execAngleUpdate t s
  | .threePhaseLoss t => Sys2Proof.Machine.execThreePhaseLoss t s
  | .encoderLoss t => Sys2Proof.Machine.execEncoderLoss t s
  | .ppcLoss t => Sys2Proof.Machine.execPpcLoss t s
  | .sourceReacquired r => Sys2Proof.Machine.execSourceReacquired r s
  | .encoderEdge t a b z => Sys2Proof.Machine.execEncoderEdge t a b z s
  | .ppcEdge t falling => Sys2Proof.Machine.execPpcEdge t falling s
  | .ppsEdge t => Sys2Proof.Machine.execPpsEdge t s
  | .angTodSecWrite t fn v => Sys2Proof.Machine.execAngTodSecWrite t fn v s
  | .angOffsetWrite t fn v => Sys2Proof.Machine.execAngOffsetWrite t fn v s
  | .angSourceWrite t fn v => Sys2Proof.Machine.execAngSourceWrite t fn v s
  | .angCycLoRead t fn => Sys2Proof.Machine.execAngCycLoRead t fn s
  | .foutDataWrite t fn n v => Sys2Proof.Machine.execFoutDataWrite t fn n v s
  | .outputTick t n => Sys2Proof.Machine.execOutputTick t n s
  | .channelTimer t n => Sys2Proof.Machine.execChannelTimer t n s
  | .precisionCodeTake t n => Sys2Proof.Machine.execPrecisionCodeTake t n s
  | .foutRangeWrite t fn n v => Sys2Proof.Machine.execFoutRangeWrite t fn n v s
  | .rangeEnd t n => Sys2Proof.Machine.execRangeEnd t n s
  | .foutEnableWrite t fn n v => Sys2Proof.Machine.execFoutEnableWrite t fn n v s
  | .forceSafeWrite t fn n v => Sys2Proof.Machine.execForceSafeWrite t fn n v s
  | .readbackFaultRelease t fn n v => Sys2Proof.Machine.execReadbackFaultRelease t fn n v s
  | .short t n => Sys2Proof.Machine.execShort t n s
  | .safeRecordLoad t n => Sys2Proof.Machine.execSafeRecordLoad t n s
  | .doorbell t ch v => Sys2Proof.Machine.execDoorbell t ch v s
  | .mbxOutHeadWrite t ch v => Sys2Proof.Machine.execMbxOutHeadWrite t ch v s
  | .mctpMessage t m => Sys2Proof.Machine.execMctpMessage t m s
  | .lockRead t who n => Sys2Proof.Machine.execLockRead t who n s
  | .lockWrite t who n v => Sys2Proof.Machine.execLockWrite t who n v s
  | .rcRead t who off => Sys2Proof.Machine.execRcRead t who off s
  | .registerWrite t who off v => Sys2Proof.Machine.execRegisterWrite t who off v s
  | .functionLevelReset t fn => Sys2Proof.Machine.execFunctionLevelReset t fn s
  | .eventDelivery t ch => Sys2Proof.Machine.execEventDelivery t ch s
  | .badOpcode t ch => Sys2Proof.Machine.execBadOpcode t ch s
  | .identify t ch => Sys2Proof.Machine.execIdentify t ch s
  | .health t ch => Sys2Proof.Machine.execHealth t ch s
  | .clusterHealth t ch => Sys2Proof.Machine.execClusterHealth t ch s
  | .coreCounts t ch => Sys2Proof.Machine.execCoreCounts t ch s
  | .caskRead t ch => Sys2Proof.Machine.execCaskRead t ch s
  | .wearRead t ch => Sys2Proof.Machine.execWearRead t ch s
  | .memoryHealth t ch => Sys2Proof.Machine.execMemoryHealth t ch s
  | .imageLoad t ch img => Sys2Proof.Machine.execImageLoad t ch img s
  | .imageUnload t ch => Sys2Proof.Machine.execImageUnload t ch s
  | .jobPlace t ch => Sys2Proof.Machine.execJobPlace t ch s
  | .jobRemove t ch => Sys2Proof.Machine.execJobRemove t ch s
  | .stepStart t ch => Sys2Proof.Machine.execStepStart t ch s
  | .stepAbort t ch => Sys2Proof.Machine.execStepAbort t ch s
  | .stepStatus t ch => Sys2Proof.Machine.execStepStatus t ch s
  | .memWrite t ch data => Sys2Proof.Machine.execMemWrite t ch data s
  | .memRead t ch reachable => Sys2Proof.Machine.execMemRead t ch reachable s
  | .descWrite t ch => Sys2Proof.Machine.execDescWrite t ch s
  | .descArm t ch => Sys2Proof.Machine.execDescArm t ch s
  | .descReset t ch => Sys2Proof.Machine.execDescReset t ch s
  | .descStatus t ch => Sys2Proof.Machine.execDescStatus t ch s
  | .streamLimit t ch => Sys2Proof.Machine.execStreamLimit t ch s
  | .qntPolicy t ch => Sys2Proof.Machine.execQntPolicy t ch s
  | .qntCarryReset t ch => Sys2Proof.Machine.execQntCarryReset t ch s
  | .counterClear t ch => Sys2Proof.Machine.execCounterClear t ch s
  | .calSettings t ch => Sys2Proof.Machine.execCalSettings t ch s
  | .quietOpen t ch => Sys2Proof.Machine.execQuietOpen t ch s
  | .rotAdvance t ch => Sys2Proof.Machine.execRotAdvance t ch s
  | .combSwitch t ch => Sys2Proof.Machine.execCombSwitch t ch s
  | .clusterRestart t ch => Sys2Proof.Machine.execClusterRestart t ch s
  | .schedWrite t ch => Sys2Proof.Machine.execSchedWrite t ch s
  | .schedRead t ch => Sys2Proof.Machine.execSchedRead t ch s
  | .clusterGroup t ch => Sys2Proof.Machine.execClusterGroup t ch s
  | .fieldOwner t ch => Sys2Proof.Machine.execFieldOwner t ch s
  | .safeWrite t ch => Sys2Proof.Machine.execSafeWrite t ch s
  | .eventRoute t ch => Sys2Proof.Machine.execEventRoute t ch s
  | .permSet t ch => Sys2Proof.Machine.execPermSet t ch s
  | .permRead t ch => Sys2Proof.Machine.execPermRead t ch s
  | .lockRelease t ch => Sys2Proof.Machine.execLockRelease t ch s
  | .linkStatus t ch => Sys2Proof.Machine.execLinkStatus t ch s
  | .routeWrite t ch => Sys2Proof.Machine.execRouteWrite t ch s
  | .addressSet t ch => Sys2Proof.Machine.execAddressSet t ch s
  | .linkMode t ch => Sys2Proof.Machine.execLinkMode t ch s
  | .peerReady t ch => Sys2Proof.Machine.execPeerReady t ch s
  | .upgradeBegin t ch data => Sys2Proof.Machine.execUpgradeBegin t ch data s
  | .upgradeData t ch => Sys2Proof.Machine.execUpgradeData t ch s
  | .upgradeCommit t ch sigOk => Sys2Proof.Machine.execUpgradeCommit t ch sigOk s
  | .powerProfile t ch => Sys2Proof.Machine.execPowerProfile t ch s
  | .moduleReset t ch => Sys2Proof.Machine.execModuleReset t ch s
  | .commandDone t ch => Sys2Proof.Machine.execCommandDone t ch s
  | .permitWithdrawn t cl => Sys2Proof.Machine.execPermitWithdrawn t cl s
  | .headerFrame t link h => Sys2Proof.Machine.execHeaderFrame t link h s
  | .packetLanded t link payload bad => Sys2Proof.Machine.execPacketLanded t link payload bad s
  | .ackFrame t link crc src lseq lander => Sys2Proof.Machine.execAckFrame t link crc src lseq lander s
  | .creditFrame t link crc credits => Sys2Proof.Machine.execCreditFrame t link crc credits s
  | .controlFrame t link crc part => Sys2Proof.Machine.execControlFrame t link crc part s
  | .packetSend t link => Sys2Proof.Machine.execPacketSend t link s
  | .packetReplay t link lseq => Sys2Proof.Machine.execPacketReplay t link lseq s
  | .linkTimer t link => Sys2Proof.Machine.execLinkTimer t link s
  | .linkDown t link reason => Sys2Proof.Machine.execLinkDown t link reason s
  | .laneLockLoss t link lanes => Sys2Proof.Machine.execLaneLockLoss t link lanes s
  | .laneErrorRate t link lane => Sys2Proof.Machine.execLaneErrorRate t link lane s
  | .spareLaneSwitch t link => Sys2Proof.Machine.execSpareLaneSwitch t link s
  | .linkUp t link peer tlevel clevel => Sys2Proof.Machine.execLinkUp t link peer tlevel clevel s
  | .powerGood t mv => Sys2Proof.Machine.execPowerGood t mv s
  | .powerLoss t mv => Sys2Proof.Machine.execPowerLoss t mv s
  | .supplyHold t r => Sys2Proof.Machine.execSupplyHold t r s
  | .supplyHoldRelease r => Sys2Proof.Machine.execSupplyHoldRelease r s
  | .perstAssert t => Sys2Proof.Machine.execPerstAssert t s
  | .perstDeassert t => Sys2Proof.Machine.execPerstDeassert t s
  | .steepEnd t => Sys2Proof.Machine.execSteepEnd t s
  | .hbmTrainingEnd t => Sys2Proof.Machine.execHbmTrainingEnd t s
  | .kilnEnd t => Sys2Proof.Machine.execKilnEnd t s
  | .mashEnd t => Sys2Proof.Machine.execMashEnd t s
  | .stageTimer t => Sys2Proof.Machine.execStageTimer t s
  | .stageFailure t code => Sys2Proof.Machine.execStageFailure t code s
  | .backoffEnd t => Sys2Proof.Machine.execBackoffEnd t s
  | .clusterBringupFail t cl => Sys2Proof.Machine.execClusterBringupFail t cl s
  | .heartbeat t beat => Sys2Proof.Machine.execHeartbeat t beat s
  | .watchdogExpiry t => Sys2Proof.Machine.execWatchdogExpiry t s
  | .thermalTrip t die temp => Sys2Proof.Machine.execThermalTrip t die temp s
  | .domainReset t d1 d2 d3 d4 => Sys2Proof.Machine.execDomainReset t d1 d2 d3 d4 s
  | .evtPulseEnd t => Sys2Proof.Machine.execEvtPulseEnd t s
  | .resetRelease t => Sys2Proof.Machine.execResetRelease t s
  | .thermalTripRelease t temps => Sys2Proof.Machine.execThermalTripRelease t temps s
  | .tripDiodeCrossing t die temp => Sys2Proof.Machine.execTripDiodeCrossing t die temp s
  | .evtFirstEvaluation t => Sys2Proof.Machine.execEvtFirstEvaluation t s
  | .shortEnd t n => Sys2Proof.Machine.execShortEnd t n s
  | .wornCombSwitch t cl => Sys2Proof.Machine.execWornCombSwitch t cl s

end Sys2Proof.Machine
end

