-- ==== Sys2Proof/Safety.lean ====
section
/-! DEFINITION. The terms that statements about this machine use: what a command may touch (its parts of the state),
what completing means, where a command stands, and which states are legal. -/

namespace Sys2Proof.Machine

/-! ### Parts of the state -/

/-- The parts of the state: one per field of State. -/
inductive Part where
  | now | pending | free | readOut | snap | aon | fw | chans | locks | hbm | bad | wear | hbmStacks | descs | sram
  | clusters | streams | pools | progs | loops | prfs | loopEng | convs | incfg | incfgAt | ang | sched | fouts
  | foutDenied | links | linkMod
deriving DecidableEq, Repr

/-- Two states hold the same in a part. -/
def Part.same (s s' : State) : Part → Prop
  | .now => s'.now = s.now
  | .pending => s'.pending = s.pending
  | .free => s'.free = s.free
  | .readOut => s'.readOut = s.readOut
  | .snap => s'.snap = s.snap
  | .aon => s'.aon = s.aon
  | .fw => s'.fw = s.fw
  | .chans => s'.chans = s.chans
  | .locks => s'.locks = s.locks
  | .hbm => s'.hbm = s.hbm
  | .bad => s'.bad = s.bad
  | .wear => s'.wear = s.wear
  | .hbmStacks => s'.hbmStacks = s.hbmStacks
  | .descs => s'.descs = s.descs
  | .sram => s'.sram = s.sram
  | .clusters => s'.clusters = s.clusters
  | .streams => s'.streams = s.streams
  | .pools => s'.pools = s.pools
  | .progs => s'.progs = s.progs
  | .loops => s'.loops = s.loops
  | .prfs => s'.prfs = s.prfs
  | .loopEng => s'.loopEng = s.loopEng
  | .convs => s'.convs = s.convs
  | .incfg => s'.incfg = s.incfg
  | .incfgAt => s'.incfgAt = s.incfgAt
  | .ang => s'.ang = s.ang
  | .sched => s'.sched = s.sched
  | .fouts => s'.fouts = s.fouts
  | .foutDenied => s'.foutDenied = s.foutDenied
  | .links => s'.links = s.links
  | .linkMod => s'.linkMod = s.linkMod

/-- Everything outside the listed parts is the same in both states. -/
def State.Keeps (L : List Part) (s s' : State) : Prop := ∀ p, p ∉ L → Part.same s s' p

/-- The parts that a command may change, beside the clock (the manual's effects of its row). -/
def touches : Instr → List Part
  | .nop .. | .loop .. | .waitang .. | .rscale .. => [.progs]
  | .endOp .. => [.fw, .clusters, .streams, .progs]
  | .fence .. => [.streams, .progs]
  | .event .. => [.chans, .progs]
  | .listFault .. => [.fw, .chans, .progs]
  | .feed .. | .wfill .. | .tile .. | .vDynimg .. => [.clusters, .streams, .pools, .progs]
  | .wload .. | .swap .. | .groupDrained .. => [.clusters, .progs]
  | .reduce .. | .vAdd .. | .vSub .. | .vMul .. | .vMax .. | .vMin .. | .vScale .. | .vAxpy .. | .vClamp ..
  | .vCopy .. | .vTable .. | .vExp .. | .vRecip .. | .vRsqrt .. | .vRmaxabs .. | .vRmax .. | .vRsum ..
  | .vBmaxabs .. | .vNstats .. | .vNapply .. | .vSmstats .. | .vSmapply .. | .quantDecode ..
    => [.hbm, .bad, .sram, .streams, .pools, .progs]
  | .vGather .. | .vEdgesum .. => [.hbm, .bad, .sram, .clusters, .streams, .pools, .progs]
  | .quantEncode .. => [.chans, .hbm, .bad, .sram, .streams, .pools, .progs]
  | .send .. => [.streams, .pools, .progs, .links]
  | .recv .. => [.hbm, .bad, .sram, .streams, .pools, .progs, .links]
  | .xfer .. => [.fw, .chans, .hbmStacks, .descs, .progs]
  | .fieldFill .. => [.hbm, .bad, .sram, .streams, .pools, .progs, .convs]
  | .fieldScalar .. => [.streams, .pools, .progs, .loops]
  | .fieldOutput .. => [.streams, .pools, .progs, .fouts]
  | .tokenInvalid .. | .doorbell .. | .mbxOutHeadWrite .. | .mctpMessage .. | .eventDelivery .. => [.chans]
  | .creditReturn .. => [.streams]
  | .handleFree .. => [.pools]
  | .fenceOrder .. | .modelStepStart .. | .stepStart .. => [.fw, .chans, .streams, .progs]
  | .stall .. | .streamLimit .. | .qntPolicy .. | .qntCarryReset .. => [.fw, .chans, .streams]
  | .stepAborted .. | .stepAbort .. => [.fw, .chans, .descs, .clusters, .streams, .pools, .progs]
  | .coreCreditGrant .. | .chainForward .. => [.clusters, .streams]
  | .switchGrant .. => [.clusters, .streams, .pools]
  | .packetStart .. | .reconfigEnd .. | .measureEnd .. => [.clusters, .streams, .progs]
  | .windowEnd .. => [.free, .clusters, .streams]
  | .packetEnd .. | .verdict .. => [.chans, .hbm, .bad, .sram, .clusters, .streams, .pools, .progs]
  | .probePacket .. | .feedforwardUpdate .. | .quietWindowOpen .. | .calStarved .. | .combWorn ..
    => [.chans, .clusters]
  | .loadSettled .. | .refreshDue .. | .quietClose .. | .rotationAdvance .. | .spareClaim .. | .spareCopyDone ..
  | .mirrorDone .. | .profileMoveEnd .. | .permitWithdrawn .. => [.clusters]
  | .transferIssue .. => [.hbmStacks, .descs, .streams, .pools]
  | .transferComplete .. => [.free, .fw, .chans, .hbm, .bad, .hbmStacks, .descs, .sram, .streams, .pools, .progs]
  | .descCompToken .. => [.fw, .chans, .hbmStacks, .descs, .streams, .progs]
  | .hostBar2Read .. => [.free, .readOut, .bad, .hbmStacks]
  | .hostBar2Write .. => [.hbm, .bad, .hbmStacks]
  | .channelMigration .. => [.hbmStacks]
  | .migrationEnd .. => [.wear, .hbmStacks]
  | .innerUpdate .. => [.free, .fw, .chans, .clusters]
  | .outerUpdate .. => [.free, .chans, .clusters]
  | .handover .. | .calibrationDone .. | .engineSpared .. => [.chans, .wear, .clusters]
  | .wearSpareReady .. | .clusterRestartEnd .. => [.free, .chans, .wear, .clusters]
  | .lineRemapped .. => [.free, .fw, .chans, .wear, .clusters]
  | .clusterReturn .. => [.free, .fw, .clusters]
  | .loopUpdate .. => [.free, .chans, .loops, .prfs, .loopEng, .convs, .fouts]
  | .loopTimer .. => [.loops]
  | .svStale .. => [.chans, .loops]
  | .loopEnable .. | .loopDisable .. | .loopHold .. => [.loops, .prfs, .loopEng, .fouts]
  | .loopOscRelease .. => [.loops, .loopEng, .fouts]
  | .injectionStart .. | .injectionStop .. => [.free, .loops, .loopEng]
  | .captureArm .. => [.loopEng]
  | .prfTargetWrite .. | .prfLimitWrite .. => [.prfs, .loopEng]
  | .prfStop .. => [.free, .prfs, .loopEng]
  | .softwareTrigger .. | .threePhaseSample .. => [.convs, .ang]
  | .converterTimer .. | .triggerPinEdge .. | .runEnd .. => [.convs]
  | .conversionResult .. => [.loops, .convs, .fouts]
  | .finFifoRead .. => [.readOut, .snap, .convs]
  | .finIncfgWrite .. => [.incfg, .incfgAt, .ang]
  | .angleUpdate .. => [.free, .fw, .chans, .clusters, .streams, .progs, .convs, .ang, .fouts]
  | .threePhaseLoss .. | .encoderLoss .. | .ppcLoss .. | .encoderEdge .. | .ppcEdge .. => [.chans, .ang]
  | .sourceReacquired .. | .ppsEdge .. => [.free, .ang]
  | .angTodSecWrite .. | .angOffsetWrite .. => [.ang]
  | .angSourceWrite .. => [.free, .convs, .ang]
  | .angCycLoRead .. => [.readOut, .ang]
  | .foutDataWrite .. | .readbackFaultRelease .. => [.fouts, .foutDenied]
  | .outputTick .. => [.streams, .convs, .fouts]
  | .channelTimer .. | .short .. | .safeRecordLoad .. | .shortEnd .. => [.fouts]
  | .precisionCodeTake .. => [.convs, .fouts]
  | .foutRangeWrite .. | .foutEnableWrite .. | .forceSafeWrite .. => [.streams, .fouts, .foutDenied]
  | .rangeEnd .. => [.streams, .fouts]
  | .lockRead .. => [.readOut, .locks]
  | .lockWrite .. | .functionLevelReset .. => [.locks]
  | .rcRead .. => [.readOut, .snap, .chans, .locks, .clusters, .convs, .ang, .fouts, .links]
  | .registerWrite ..
    => [.free, .aon, .chans, .locks, .streams, .loops, .prfs, .loopEng, .convs, .incfg, .incfgAt, .ang, .sched,
      .fouts, .foutDenied]
  | .badOpcode .. | .identify .. | .clusterHealth .. | .coreCounts .. | .caskRead .. | .memoryHealth ..
  | .imageLoad .. | .imageUnload .. | .stepStatus .. | .descStatus .. | .schedRead .. | .clusterGroup ..
  | .fieldOwner .. | .eventRoute .. | .permSet .. | .permRead .. | .peerReady .. => [.fw, .chans]
  | .health .. | .wearRead .. => [.free, .fw, .chans]
  | .jobPlace .. | .jobRemove .. => [.fw, .chans, .descs, .clusters, .streams, .pools, .progs, .links]
  | .memWrite .. => [.fw, .chans, .hbm, .bad]
  | .memRead .. => [.free, .fw, .chans, .bad, .hbmStacks]
  | .descWrite .. | .descReset .. => [.fw, .chans, .descs]
  | .descArm .. => [.fw, .chans, .hbmStacks, .descs]
  | .counterClear ..
    => [.snap, .fw, .chans, .hbmStacks, .clusters, .streams, .pools, .loops, .prfs, .loopEng, .ang, .foutDenied,
      .links]
  | .calSettings .. | .quietOpen .. | .rotAdvance .. => [.fw, .chans, .clusters]
  | .combSwitch .. => [.free, .fw, .chans, .wear, .descs, .clusters, .streams, .pools, .progs]
  | .clusterRestart .. => [.free, .fw, .chans, .descs, .clusters, .streams, .pools, .progs]
  | .schedWrite .. => [.fw, .chans, .ang, .sched]
  | .safeWrite .. => [.fw, .chans, .fouts]
  | .lockRelease .. => [.fw, .chans, .locks]
  | .linkStatus .. => [.fw, .chans, .links]
  | .routeWrite .. | .addressSet .. => [.fw, .chans, .linkMod]
  | .linkMode .. => [.fw, .chans, .streams, .pools, .progs, .links]
  | .upgradeBegin .. | .upgradeData .. | .upgradeCommit .. | .moduleReset .. => [.aon, .fw, .chans]
  | .powerProfile .. => [.aon, .fw, .chans, .clusters]
  | .commandDone .. => [.fw, .chans, .clusters, .progs]
  | .headerFrame .. | .ackFrame .. | .packetSend .. | .packetReplay .. => [.links]
  | .packetLanded .. | .creditFrame .. => [.streams, .links]
  | .controlFrame .. | .linkUp .. => [.chans, .links]
  | .linkTimer .. | .linkDown .. | .laneLockLoss .. | .laneErrorRate .. => [.chans, .streams, .pools, .progs, .links]
  | .spareLaneSwitch .. => [.wear, .links]
  | .powerGood .. | .powerLoss ..
    => [.readOut, .snap, .aon, .fw, .chans, .locks, .hbm, .bad, .hbmStacks, .descs, .sram, .clusters, .streams,
      .pools, .progs, .loops, .prfs, .loopEng, .convs, .incfg, .incfgAt, .ang, .sched, .fouts, .foutDenied, .links,
      .linkMod]
  | .supplyHold .. | .perstAssert .. | .kilnEnd .. | .stageTimer .. | .stageFailure .. | .watchdogExpiry ..
  | .thermalTrip .. | .domainReset .. | .thermalTripRelease .. | .tripDiodeCrossing ..
    => [.aon, .fw, .chans, .locks, .hbm, .bad, .hbmStacks, .descs, .sram, .clusters, .streams, .pools, .progs, .loops,
      .prfs, .loopEng, .convs, .incfg, .incfgAt, .ang, .sched, .fouts, .links, .linkMod]
  | .supplyHoldRelease .. | .perstDeassert .. | .backoffEnd .. => [.aon, .chans, .ang]
  | .steepEnd .. => [.free, .aon, .fw, .chans, .wear, .descs, .clusters, .streams, .pools, .progs, .links]
  | .hbmTrainingEnd .. => [.aon, .wear, .hbmStacks]
  | .mashEnd ..
    => [.free, .aon, .fw, .chans, .locks, .hbm, .bad, .wear, .hbmStacks, .descs, .sram, .clusters, .streams, .pools,
      .progs, .loops, .prfs, .loopEng, .convs, .incfg, .incfgAt, .ang, .sched, .fouts, .links, .linkMod]
  | .clusterBringupFail .. => [.free, .clusters]
  | .heartbeat .. | .evtPulseEnd .. | .evtFirstEvaluation .. => [.aon]
  | .resetRelease .. => [.free, .aon, .chans, .clusters, .streams, .pools, .progs, .ang, .links]
  | .wornCombSwitch .. => [.free, .wear, .clusters]

/-- A command completes from a state in a next state of which P holds. -/
def Completes (c : Instr) (s : State) (P : State → Prop) : Prop := ∃ s', exec c s = .next s' ∧ P s'

/-! ### Where the row of a firing-list operation takes place -/

/-- At moment t unit u may begin its next operation for image img, and stands at a listed operation with this opcode
(R177, R181). -/
def State.stands (s : State) (t : Nat) (u : UnitId) (img code : Nat) : Bool :=
  unitOk u && (s.tick t).mayRun u img && opcode (s.prog u img).op = code && opListed u (s.prog u img).op

/-! ### A step that fires -/

/-- The tokens that a step of unit u takes from its input streams. -/
def State.tokensOf (s : State) (u : UnitId) (ins : List Nat) : List Dword := ins.filterMap fun i => s.dataAt i u

/-- At moment t unit u fires its operation (R145): every input shows a data token, the unit holds a credit on every
edge of its output and a free handle for it; no input token is an error token. -/
def State.fires (s : State) (t : Nat) (u : UnitId) (img code : Nat) (ins outs : List Nat) : Bool :=
  s.stands t u img code && (s.tick t).readiness u ins outs = .ready
    && ((s.tick t).tokensOf u ins).all fun k => tokType k ≠ tyError

/-- The buffer of handle h of a pool: its first address in the pool's memory. -/
def Pool.bufAt (q : Pool) (h : Nat) : Nat := (if q.inHbm then 0 else q.cluster * 0x300000) + q.base + h * q.bufSize

/-- Address x lies in the buffer of handle h of a pool. -/
def Pool.inBuf (q : Pool) (h x : Nat) : Bool := q.bufAt h ≤ x && x < q.bufAt h + q.bufSize

/-- Unit u has fired the operation it stood at, with one output stream o (R146, R160, R177, R459): it goes on to the
next entry after dur, at a shared unit its turn is over, the pool of o has given the handle it offered first, and memory
outside that handle's buffer is as it was. -/
structure State.FiredAs (s s' : State) (u : UnitId) (img o dur : Nat) : Prop where
  goesOn : s'.prog u img =
    { s.prog u img with pos := (s.prog u img).pos + 1, busyUntil := s.now + dur, fired := s.nextTurn u img }
  handle : (s'.pool (s.stream o).pool.toNat).freeList = (s.pool (s.stream o).pool.toNat).freeList.tail
  sram : ∀ x, (∀ h, s.nextHandle o = some h →
      ((s.pool (s.stream o).pool.toNat).inHbm || !(s.pool (s.stream o).pool.toNat).inBuf h x) = true) →
    s'.sram.read x = s.sram.read x
  hbm : ∀ x, hbmUsable x = true → (∀ h, s.nextHandle o = some h →
      (!(s.pool (s.stream o).pool.toNat).inHbm || !(s.pool (s.stream o).pool.toNat).inBuf h x) = true) →
    s'.hbm.read x = s.hbm.read x

/-- The buffer of the handle that stream o offered first holds these bytes (R158). -/
def State.HoldsResult (s s' : State) (o : Nat) (bytes : List Byte) : Prop :=
  ∀ h, s.nextHandle o = some h →
    let q := s.pool (s.stream o).pool.toNat
    ∀ k, k < bytes.length → k < q.bufSize → (q.inHbm = true → hbmUsable (q.bufAt h + k) = true) →
      (if q.inHbm then s'.hbm.read (q.bufAt h + k) else s'.sram.read (q.bufAt h + k)) = bytes.getD k 0

/-- The bytes in the buffer of the token that unit u takes from stream i. -/
def State.inputBytes (s : State) (u : UnitId) (i : Nat) : List Byte :=
  let p := (s.stream i).pool.toNat
  match s.dataAt i u with
  | some k => s.readBuf p (tokHandle k) 0 (s.pool p).bufSize
  | none => []

/-! ### Marks that follow from other registers -/

/-- LOOP_STAT.CFG_ERR of every loop is current: limits, cascade, boundaries or injection are out of order (R282, R285,
R292, R295). -/
def State.cfgCurrent (s : State) : Bool :=
  (List.range 16).all fun n =>
    (s.fieldLoop n).cfgErr == (s.loopStopped n || !(s.fieldLoop n).ordered || (s.fieldLoop n).injErr)

/-! ### Where a Sorilait command's row takes place -/

/-- What a command's row checks first: its channel, opcode, least LENGTH and descriptors (R361, R380). -/
structure FwRow where
  ch : Nat
  op : Nat
  least : Nat
  form : DescForm
deriving DecidableEq, Repr

/-- The rows of the Sorilait command set (R380). -/
def fwRow : Instr → Option FwRow
  | .identify _ ch => some { ch := ch, op := 0x0100, least := 0, form := .none }
  | .health _ ch => some { ch := ch, op := 0x0101, least := 0, form := .none }
  | .clusterHealth _ ch => some { ch := ch, op := 0x0102, least := 2, form := .none }
  | .coreCounts _ ch => some { ch := ch, op := 0x0103, least := 3, form := .none }
  | .caskRead _ ch => some { ch := ch, op := 0x0104, least := 0, form := .none }
  | .wearRead _ ch => some { ch := ch, op := 0x0105, least := 2, form := .none }
  | .memoryHealth _ ch => some { ch := ch, op := 0x0106, least := 1, form := .none }
  | .imageLoad _ ch _ => some { ch := ch, op := 0x0200, least := 16, form := .must }
  | .imageUnload _ ch => some { ch := ch, op := 0x0201, least := 1, form := .none }
  | .jobPlace _ ch => some { ch := ch, op := 0x0202, least := 2, form := .none }
  | .jobRemove _ ch => some { ch := ch, op := 0x0203, least := 1, form := .none }
  | .stepStart _ ch => some { ch := ch, op := 0x0204, least := 1, form := .none }
  | .stepAbort _ ch => some { ch := ch, op := 0x0205, least := 1, form := .none }
  | .stepStatus _ ch => some { ch := ch, op := 0x0206, least := 1, form := .none }
  | .memWrite _ ch _ => some { ch := ch, op := 0x0247, least := 24, form := .inPayload }
  | .memRead _ ch _ => some { ch := ch, op := 0x0248, least := 24, form := .inPayload }
  | .descWrite _ ch => some { ch := ch, op := 0x0209, least := 46, form := .none }
  | .descArm _ ch => some { ch := ch, op := 0x020A, least := 4, form := .none }
  | .descReset _ ch => some { ch := ch, op := 0x020B, least := 4, form := .none }
  | .descStatus _ ch => some { ch := ch, op := 0x020C, least := 4, form := .none }
  | .streamLimit _ ch => some { ch := ch, op := 0x020D, least := 8, form := .none }
  | .qntPolicy _ ch => some { ch := ch, op := 0x0300, least := 10, form := .none }
  | .qntCarryReset _ ch => some { ch := ch, op := 0x0301, least := 2, form := .none }
  | .counterClear _ ch => some { ch := ch, op := 0x0302, least := 4, form := .none }
  | .calSettings _ ch => some { ch := ch, op := 0x0400, least := 13, form := .none }
  | .quietOpen _ ch => some { ch := ch, op := 0x0401, least := 4, form := .none }
  | .rotAdvance _ ch => some { ch := ch, op := 0x0402, least := 1, form := .none }
  | .combSwitch _ ch => some { ch := ch, op := 0x0403, least := 2, form := .none }
  | .clusterRestart _ ch => some { ch := ch, op := 0x0404, least := 2, form := .none }
  | .schedWrite _ ch => some { ch := ch, op := 0x0500, least := 19, form := .none }
  | .schedRead _ ch => some { ch := ch, op := 0x0501, least := 2, form := .none }
  | .clusterGroup _ ch => some { ch := ch, op := 0x0502, least := 2, form := .none }
  | .fieldOwner _ ch => some { ch := ch, op := 0x0600, least := 2, form := .none }
  | .safeWrite _ ch => some { ch := ch, op := 0x0601, least := 7, form := .none }
  | .eventRoute _ ch => some { ch := ch, op := 0x0602, least := 6, form := .none }
  | .permSet _ ch => some { ch := ch, op := 0x0603, least := 2, form := .none }
  | .permRead _ ch => some { ch := ch, op := 0x0604, least := 1, form := .none }
  | .lockRelease _ ch => some { ch := ch, op := 0x0605, least := 1, form := .none }
  | .linkStatus _ ch => some { ch := ch, op := 0x0700, least := 1, form := .none }
  | .routeWrite _ ch => some { ch := ch, op := 0x0701, least := 4, form := .none }
  | .addressSet _ ch => some { ch := ch, op := 0x0702, least := 2, form := .none }
  | .linkMode _ ch => some { ch := ch, op := 0x0703, least := 2, form := .none }
  | .peerReady _ ch => some { ch := ch, op := 0x0704, least := 4, form := .none }
  | .upgradeBegin _ ch _ => some { ch := ch, op := 0x0800, least := 4, form := .may }
  | .upgradeData _ ch => some { ch := ch, op := 0x0801, least := 4, form := .none }
  | .upgradeCommit _ ch _ => some { ch := ch, op := 0x0802, least := 0, form := .none }
  | .powerProfile _ ch => some { ch := ch, op := 0x0803, least := 1, form := .none }
  | .moduleReset _ ch => some { ch := ch, op := 0x0804, least := 1, form := .none }
  | _ => none

/-- The slot that firmware takes next from a channel (R360). -/
def State.cmdSlot (s : State) (ch : Nat) : List Byte := cutSlot (s.chan ch).nextSlot

/-- It is channel ch's turn, and its next slot holds opcode op (R363, R364). -/
def State.turnOf (s : State) (ch op : Nat) : Bool :=
  ch < 160 && s.hostUp && s.fw.serving && s.nextChannel = some ch && slotOp (s.chan ch).nextSlot = op

/-- Firmware takes a command of this row: it is its turn and it passes the checks that come first (R363, R368, R375). -/
def State.takes (s : State) (ch op least : Nat) (form : DescForm := .none) : Bool :=
  s.turnOf ch op && (s.preCheck ch (s.cmdSlot ch) least form).isNone

/-- The command's slot answered OK with a RESULT. -/
def State.answers (s : State) (ch : Nat) (b result : List Byte) : State := s.respond ch b { result := result }

/-- The command's slot answered with a STATUS and DETAIL, without effect. -/
def State.refuses (s : State) (ch : Nat) (b : List Byte) (status detail : Nat) : State :=
  s.respond ch b { status := status, detail := detail }

/-- The command's slot answered ACCEPTED; COMMAND_DONE will report done once when_ has come (R376). -/
def State.accepts (s : State) (ch : Nat) (b : List Byte) (done : Reply := {}) (when_ : DoneWhen := .now) : State :=
  (s.modFw fun f => { f with accepted := f.accepted ++
    [{ ch := ch, op := BitVec.ofNat 16 (slotOp b), seq := BitVec.ofNat 16 (slotSeq b)
       status := BitVec.ofNat 16 done.status, detail := BitVec.ofNat 16 done.detail, result := done.result
       when_ := when_ }] }).respond ch b { status := 0x0001 }

/-! ### Resets and the release of D1 -/

/-- D1 to D4 have gone into reset together from state s (R346, R402, R429 to R431): the hold stands, counts and settings
of D0 stay, everything in D1, HBM and cluster SRAM is lost, every link passes light through. -/
structure State.ResetFrom (s s' : State) : Prop where
  hold : s'.aon.inReset = true ∧ s'.aon.armed = false ∧ s'.hostUp = false
  counted : s'.aon.resets = s.aon.resets + 1
  kept : s'.aon.flash = s.aon.flash ∧ s'.aon.profile = s.aon.profile ∧ s'.aon.wdgLimit = s.aon.wdgLimit ∧
    s'.aon.actReason = s.aon.actReason
  hbm : ∀ x, x < 2 ^ 40 → s'.hbm.read x = 0
  sram : ∀ x, x < 832 * 0x300000 → s'.sram.read x = 0
  mail : s'.chans = [] ∧ s'.fw = {} ∧ s'.locks = {} ∧ s'.linkMod = {}
  work : s'.streams = [] ∧ s'.pools = [] ∧ s'.progs = []
  fields : s'.loops = [] ∧ s'.prfs = [] ∧ s'.convs = [] ∧ s'.incfg = [] ∧ s'.sched = []
  clusters : ∀ c, c < 832 → (s'.cluster c).locked = false ∧ (s'.cluster c).calibrated = false
  links : ∀ n, n < 64 → (s'.link n).st = 3
  outputs : ∀ n, n < 16 → (s'.fout n).queue = [] ∧ (s'.fout n).enable = false ∧
    (s'.fout n).st = (if (s.fout n).st = .hiz then .hiz
      else if (s.fout n).source = 1 ∨ (s.fout n).st = .fault then .fault
      else if (s.fout n).st = .range then .range else .safe)

/-- D1 has left reset at this moment: Steep runs and the watchdog is armed (R415, R425). -/
def State.ReleasedAt (s' : State) (now : Nat) : Prop :=
  s'.aon.inReset = false ∧ s'.aon.d1Reset = false ∧ s'.aon.stage = 0 ∧ s'.aon.armed = true ∧ s'.aon.beatAt = now ∧
    s'.aon.stageFrom = now

/-- While D1 to D4 are held, they leave reset where no hold remains; else AON_STAGE tells the hold (R418, R433, R436). -/
def State.HeldOrReleased (s' : State) (now : Nat) (noHold : Bool) : Prop :=
  if noHold then s'.ReleasedAt now else s'.aon.inReset = true ∧ s'.aon.stage = s'.aon.heldStage

/-! ### Invariants of every step -/

/-- Every memory is in its canonical form: HBM behind usable addresses only, cluster SRAM, the inactive flash bank, the
mailbox pages (R211, R222, R357, R384). -/
structure State.Canonical (s : State) : Prop where
  hbm : s.hbm.wf = true
  usable : ∀ c ∈ s.hbm, hbmUsable c.1 = true
  sram : s.sram.wf = true
  flash : s.aon.flash.wf = true
  pages : ∀ ch, ch < 160 → (s.chan ch).page.wf = true

/-- A channel's rings hold at most 32 slots each, its list at most 256 events (R357, R359, R365). -/
def Channel.inBounds (c : Channel) : Prop :=
  c.inFill ≤ 32 ∧ c.outFill ≤ 32 ∧ (c.held.filter (·.event)).length ≤ 256

/-- What holds in every state that the module comes through: the bring-up stage agrees with the resets, the watchdog
and firmware (R415, R418, R425, R433); Cask holds eight codes (R428), four diodes read (R443); rings, held events and link
credits stay in bounds (R357, R365, R405); locks belong to functions or the test port (R356, R369); LOOP_STAT.CFG_ERR is
current (R282, R285, R292, R295). -/
structure State.Legal (s : State) : Prop where
  stage : s.aon.stage.toNat ≤ 5
  reset : (s.aon.inReset || s.aon.d1Reset) = decide (4 ≤ s.aon.stage.toNat)
  armed : s.aon.armed = decide (s.aon.stage.toNat ≤ 3)
  serving : s.fw.serving = (decide (1 ≤ s.aon.stage.toNat) && decide (s.aon.stage.toNat ≤ 3))
  power : s.aon.power = false → s.aon.inReset = true
  cask : s.aon.cask.length = 8
  diodes : s.aon.diodes.length = 4
  turn : s.fw.turn < 160
  rings : ∀ ch, ch < 160 → (s.chan ch).inBounds
  credits : ∀ n, n < 64 → (s.link n).credits ≤ 64
  locks : ∀ x ∈ s.locks.owner, 1 ≤ x.2 ∧ lockUser (x.2 - 1) = true
  cfgErr : s.cfgCurrent = true

end Sys2Proof.Machine
end

