-- ==== Sys2Proof/Certificates/Slice0/Obligations.lean ====
section
/-! DEFINITION. The statements about the HG-1. A statement about a command that has a result says that the command
answers a next state, and which one. -/

open Sys2Proof Sys2Proof.Config Sys2Proof.Machine

/-- One step takes the command at the front of the queue (the queue is the model's: it stands for the outside). -/
def Obligations.StepRunsFrontCommand : Prop :=
  ∀ (c : Instr) (rest : List Instr) (s : State), s.pending = c :: rest → step s = exec c { s with pending := rest }

/-- With no command waiting the block idles: the model's choice (log entry 4). -/
def Obligations.EmptyQueueIdles : Prop := ∀ s : State, s.pending = [] → step s = .next s

/-- A command completes exactly where its operands name units that the module has (log entry 3). -/
def Obligations.WellFormedCommandsComplete : Prop :=
  ∀ (c : Instr) (s : State),
    (c.wf = true → ∃ s', exec c s = .next s') ∧ (c.wf = false → exec c s = .fault .noSuchUnit)

/-- The clock never goes back, and it stands at or after the command's moment (log entry 1). -/
def Obligations.ClockMovesToTheCommand : Prop :=
  ∀ (c : Instr) (s s' : State), exec c s = .next s' → s'.now = max s.now c.time

/-- The frame of every command, by the parts that its row may touch. -/
def Obligations.CommandsKeepTheRest : Prop :=
  ∀ (c : Instr) (s s' : State), exec c s = .next s' → State.Keeps (.now :: .snap :: touches c) s s'

/-- NOP, LOOP, WAITANG, EVENT and LIST_FAULT (R177, R179, R181, R182, R185, R187, R459). -/
def Obligations.ListControlCompletes : Prop :=
  ∀ (s : State) (t : Nat) (u : UnitId) (img : Nat),
    let p := s.prog u img
    let o := p.op
    let level := field o 32 2
    let n := s.nextTurn u img
    (s.stands t u img opNop = true →
      exec (.nop t u img) s =
        .next ((s.tick t).setProg u img { p with pos := p.pos + 1, busyUntil := max s.now t, fired := n })) ∧
    (s.stands t u img opLoop = true → (p.ctr.getD level none).getD (field o 16 16) = 0 →
      exec (.loop t u img) s =
        .next ((s.tick t).setProg u img { p with pos := p.pos + 1, ctr := p.ctr.set level none, fired := n })) ∧
    (∀ k, s.stands t u img opLoop = true → (p.ctr.getD level none).getD (field o 16 16) = k + 1 →
      exec (.loop t u img) s =
        .next ((s.tick t).setProg u img { p with pos := field o 8 8, ctr := p.ctr.set level (some k), fired := n })) ∧
    (s.stands t u img opWaitang = true →
      exec (.waitang t u img) s =
        .next ((s.tick t).setProg u img
          { p with ang := some (BitVec.ofNat 32 (field o 8 32), field o 40 8), angAt := max s.now t, fired := n })) ∧
    (s.stands t u img opEvent = true →
      exec (.event t u img) s =
        .next (((s.tick t).raise 0x8100 (layBytes 12
          [(0, toLe 2 (field o 8 16)), (2, toLe 2 (field o 24 12)), (4, toLe 4 (s.unitOf u)),
            (8, toLe 4 (s.image img).starts.toNat)])).setProg u img
          { p with pos := p.pos + 1, busyUntil := max s.now t, fired := n })) ∧
    (unitOk u = true → (s.tick t).mayRun u img = true → opListed u o = false →
      exec (.listFault t u img) s =
        .next ((((s.tick t).setProg u img { p with phase := .faulted }).raise 0x8004
          (layBytes 5 [(0, toLe 4 (s.unitOf u)), (4, toLe 1 (min p.pos (s.listSpace u img - 1)))])).markAbort img 2 0xFFFF))

/-- The functions of R201 but those over an index buffer and DYNIMG: what makes the command, FUNC, whether the
result is always FP32, cycles for N elements, the function. -/
structure VopRow where
  make : Nat → UnitId → Nat → Instr
  func : Nat
  wide : Bool := false
  cycles : Nat → Nat := fun n => perCycle n 16
  fn : VopIn → List Word

/-- The table of R201 (log entry 10 for EXP, RECIP and RSQRT). -/
def vopTable : List VopRow :=
  [{ make := .vAdd, func := 0x00, fn := fun x => x.zip vuAdd },
   { make := .vSub, func := 0x01, fn := fun x => x.zip vuSub },
   { make := .vMul, func := 0x02, fn := fun x => x.zip vuMul },
   { make := .vMax, func := 0x03, fn := fun x => x.zip fun a b => fpMaximum (vuFlush a) (vuFlush b) },
   { make := .vMin, func := 0x04, fn := fun x => x.zip fun a b => fpMinimum (vuFlush a) (vuFlush b) },
   { make := .vScale, func := 0x05, fn := fun x => x.map fun a => vuMul a x.k },
   { make := .vAxpy, func := 0x06, fn := fun x => x.zip fun a b => vuFma a x.k b },
   { make := .vClamp, func := 0x07
     fn := fun x => x.map fun a => fpMinimum (fpMaximum (vuFlush a) (vuFlush x.k)) (vuFlush x.k2) },
   { make := .vCopy, func := 0x08, fn := fun x => x.map vuFlush },
   { make := .vTable, func := 0x09, fn := fun x => x.map (tableOf x.tbl) },
   { make := .vExp, func := 0x0A, cycles := fun n => perCycle n 8, fn := fun x => x.map vuExp },
   { make := .vRecip, func := 0x0B, cycles := fun n => perCycle n 8, fn := fun x => x.map vuRecip },
   { make := .vRsqrt, func := 0x0C, cycles := fun n => perCycle n 8, fn := fun x => x.map vuRsqrt },
   { make := .vRmaxabs, func := 0x10, fn := fun x => x.perRow fun r => [largestAbs r] },
   { make := .vRmax, func := 0x11, fn := fun x => x.perRow fun r => [largest r] },
   { make := .vRsum, func := 0x12, fn := fun x => x.perRow fun r => [laneSum r] },
   { make := .vBmaxabs, func := 0x13, fn := fun x => x.perRow fun r => (blocks32 r.length r).map largestAbs },
   { make := .vNstats, func := 0x18, wide := true, cycles := fun n => 2 * perCycle n 8
     fn := fun x => x.perRow (nstats x.k) },
   { make := .vNapply, func := 0x19, fn := fun x => x.withStats fun a m r => vuMul (vuSub a m) r },
   { make := .vSmstats, func := 0x1A, wide := true, cycles := fun n => perCycle n 16 + perCycle n 8
     fn := fun x => x.perRow smstats },
   { make := .vSmapply, func := 0x1B, cycles := fun n => perCycle n 8
     fn := fun x => x.withStats fun a m z => vuDiv (vuExp (vuSub a m)) z }]

/-- Every function of vopTable (R145, R146, R199 to R206). -/
def Obligations.VopsWriteTheirFunction : Prop :=
  ∀ r ∈ vopTable, ∀ (s : State) (t : Nat) (u : UnitId) (img : Nat),
    let o := (s.prog u img).op
    let out := field o 40 12
    s.fires t u img opVop (opInputs o) [out] = true → vopFunc o = r.func →
      Completes (r.make t u img) s fun s' =>
        let x := s.vopIn (s.prog u img) o ((s.tick t).tokensOf u (opInputs o))
        (s.tick t).FiredAs s' u img out ((24 + r.cycles (x.rows * x.cols)) * 4) ∧
          (s.tick t).HoldsResult s' out (vopBytes o r.wide (r.fn x))

/-- REDUCE (R145, R146, R195 to R198). -/
def Obligations.ReduceWritesTreeSums : Prop :=
  ∀ (s : State) (t : Nat) (u : UnitId) (img : Nat),
    let o := (s.prog u img).op
    let out := field o 26 12
    let ext := field o 38 12
    let plan := (s.prog u img).plans.getD (field o 8 6) 0
    s.fires t u img opReduce (opInputs o) [out] = true →
      Completes (.reduce t u img) s fun s' =>
        let xs := if ext = 0xFFF then none else some (wordsOf ((s.tick t).inputBytes u ext))
        let ys := reduceElems plan (wordsOf ((s.tick t).inputBytes u (field o 14 12))) xs
        (s.tick t).FiredAs s' u img out (reduceCycles plan xs.isSome * 4) ∧
          (s.tick t).HoldsResult s' out (if flag o 50 then bytesOfHalves (ys.map bfRound) else bytesOfWords ys)

/-- GATHER and EDGESUM (R205, R206). -/
def Obligations.GatherAndEdgesum : Prop :=
  ∀ (s : State) (t cl pos img : Nat),
    let u := UnitId.vu cl pos
    let o := (s.prog u img).op
    let out := field o 40 12
    let x := s.vopIn (s.prog u img) o ((s.tick t).tokensOf u (opInputs o))
    let k := (s.cluster cl).phys pos
    s.fires t u img opVop (opInputs o) [out] = true →
      (vopFunc o = 0x20 → Completes (.vGather t u img) s fun s' =>
        (s.tick t).FiredAs s' u img out ((24 + perCycle (x.rows * x.cols) 16 + (x.count 2).1) * 4) ∧
          (s.tick t).HoldsResult s' out (vopBytes o false (gatherRows x).1.flatten) ∧
          (s'.core cl k).gatherRange = satAdd (s.core cl k).gatherRange (gatherRows x).2) ∧
      (vopFunc o = 0x21 → Completes (.vEdgesum t u img) s fun s' =>
        (s.tick t).FiredAs s' u img out ((24 + perCycle (x.rows * x.cols) 16 + (x.count 4).1) * 4) ∧
          (s.tick t).HoldsResult s' out (vopBytes o false (edgeRows x).1.flatten) ∧
          (s'.core cl k).gatherRange = satAdd (s.core cl k).gatherRange (edgeRows x).2)

/-- DYNIMG (R60, R189, R206). -/
def Obligations.DynimgFillsItsSlot : Prop :=
  ∀ (s : State) (t cl pos img : Nat),
    let u := UnitId.vu cl pos
    let o := (s.prog u img).op
    let out := field o 40 12
    let x := s.vopIn (s.prog u img) o ((s.tick t).tokensOf u (opInputs o))
    let rows := (List.range 8).map fun r => dynRow ((x.a.drop (64 * r)).take 64)
    let k := (s.cluster cl).phys pos
    let slot := field o 52 6 % 32
    s.fires t u img opVop (opInputs o) [out] = true → vopFunc o = 0x30 →
      ((s.core cl k).slotHeld slot = true → exec (.vDynimg t u img) s = .next (s.tick t)) ∧
      ((s.core cl k).slotHeld slot = false → Completes (.vDynimg t u img) s fun s' =>
        (s.tick t).FiredAs s' u img out ((24 + 2 * perCycle 512 8) * 4) ∧
          (s'.core cl k).slotAt slot =
            { code := rows.flatMap fun r => r.2.1.flatMap fun c => toLe 1 (wrapTo 8 c), trailer := dynTrailer rows } ∧
          (s'.core cl k).dynimgSpecial =
            satAdd (s.core cl k).dynimgSpecial ((rows.map (·.2.2.1)).foldl (· + ·) 0) ∧
          s'.hbm = s.hbm ∧ s'.sram = s.sram)

/-- QUANT both ways (R110 to R125, R132, R207). -/
def Obligations.QuantEncodesAndDecodes : Prop :=
  ∀ (s : State) (t : Nat) (u : UnitId) (img : Nat),
    let o := (s.prog u img).op
    let i := field o 8 12
    let out := field o 20 12
    let f := field o 32 2
    let tok := ((s.tick t).tokensOf u [i]).getD 0 0
    let m := s.stream out
    let bs := (tensorBlocks m.rowLen (s.tileElems i m.elems (flag o 35) tok)).map (encodeBlock f)
    let ps := packPairs f m.pseq bs
    let n := s.stream i
    let pairs := (((s.pool n.pool.toNat).pairs.find? fun x => x.1 = tokHandle tok).map (·.2)).getD []
    let bad := (pairs.filter fun p => (decodePair f p).isNone).length
    let y := unblock n.rowLen n.elems (pairs.flatMap (pairBlocks f))
    s.fires t u img opQuant [i] [out] = true →
      (flag o 34 = false → Completes (.quantEncode t u img) s fun s' =>
        (s.tick t).FiredAs s' u img out 0 ∧
          (s.tick t).HoldsResult s' out (pairBytes ps) ∧
          (∀ h, s.nextHandle out = some h → tokHandle tok ≠ h → (h, ps) ∈ (s'.pool m.pool.toNat).pairs) ∧
          (s'.stream out).pseq = m.pseq + BitVec.ofNat 16 ps.length ∧
          (s'.stream out).qnt.satCodes = satAdd m.qnt.satCodes ((bs.map (·.sat)).foldl (· + ·) 0) ∧
          (s'.stream out).qnt.zeroBlocks = satAdd m.qnt.zeroBlocks (bs.filter (·.zero)).length) ∧
      (flag o 34 = true → bad = 0 → Completes (.quantDecode t u img) s fun s' =>
        (s.tick t).FiredAs s' u img out 0 ∧
          (s.tick t).HoldsResult s' out
            (if flag o 35 then bytesOfWords y.1 else bytesOfHalves (y.1.map bfRound)) ∧
          (s'.stream i).qnt.rxReserved = satAdd n.qnt.rxReserved y.2) ∧
      (flag o 34 = true → 0 < bad → Completes (.quantDecode t u img) s fun s' =>
        (s.tick t).FiredAs s' u img out 0 ∧
          (s'.stream i).qnt.pairMismatch = satAdd n.qnt.pairMismatch bad ∧
          (s'.stream i).qnt.rxReserved = satAdd n.qnt.rxReserved y.2) ∧
      (flag o 34 = true → exec (.quantEncode t u img) s = .next (s.tick t)) ∧
      (flag o 34 = false → exec (.quantDecode t u img) s = .next (s.tick t))

/-- END (R171, R177, R181, R184, R459). -/
def Obligations.EndClosesTheStep : Prop :=
  ∀ (s : State) (t : Nat) (u : UnitId) (img : Nat),
    let p := { s.prog u img with phase := .ended, fired := s.nextTurn u img }
    let s1 := (s.tick t).setProg u img p
    let r := s.image img
    s.stands t u img opEnd = true →
      ((r.running && s1.allEnded img) = false → exec (.endOp t u img) s = .next s1) ∧
      ((r.running && s1.allEnded img) = true → Completes (.endOp t u img) s fun s' =>
        s'.prog u img = p ∧
          s'.image img = { r with running := false, completed := r.completed + 1, abort := none
                                  lastUs := BitVec.ofNat 32 ((max s.now t - r.startedAt) / us) } ∧
          (∀ i, i ∈ s.streamsOf img →
            s'.stream i = { ((s.stream i).endWait (max s.now t)).endGuard (max s.now t) with hq := 0 }) ∧
          ∀ i, i ∉ s.streamsOf img → s'.stream i = s.stream i)

/-- FENCE (R161, R162, R165, R183). -/
def Obligations.FencePassesThroughAUnit : Prop :=
  ∀ (s : State) (t : Nat) (u : UnitId) (img : Nat),
    let g := field (s.prog u img).op 8 12
    let v := s.tick t
    let grp := s.groupOf img g
    let ins := s.groupInputs img grp u
    let outs := s.fenceOutputs img grp u
    let fences := ins.all fun i => v.fenceAt i u
    let credits := outs.all fun o => (s.stream o).hasCredit ((s.stream o).fencePays u grp)
    s.stands t u img opFence = true →
      ((s.prog u img).drained = some g → exec (.fence t u img) s = .next v) ∧
      ((s.prog u img).drained ≠ some g →
        (s.layerDone u img = false → exec (.fence t u img) s = .next v) ∧
        (s.layerDone u img = true → fences = false → exec (.fence t u img) s = .next (v.markAll outs .input)) ∧
        (s.layerDone u img = true → fences = true → credits = false →
          exec (.fence t u img) s = .next
            (v.markAll outs .credit (v.owing outs fun o => (v.stream o).fencePays u grp))) ∧
        (s.layerDone u img = true → fences = true → credits = true →
          exec (.fence t u img) s = .next
            ((((v.each ins fun s i => s.takeHead u i).each outs fun s o => s.sendFence u grp o).each outs
              fun s o => s.modStream o fun m => { m.endWait s.now with hq := 6 }).modProg u img
                fun p => { p with drained := some g, fired := s.nextTurn u img })))

/-- SEND (R157, R167, R208, R403, R404). -/
def Obligations.SendHandsPairsToItsLink : Prop :=
  ∀ (s : State) (t : Nat) (u : UnitId) (img : Nat) (tok : Dword),
    let o := (s.prog u img).op
    let i := field o 8 12
    let dest := field o 20 16
    let v := s.tick t
    let gone (x : State) : State :=
      (((x.takeHead u i).releaseTok i tok x.now).modStream i (Stream.endGuard x.now)).finish u img x.now
    let pairs := (((s.pool (s.stream i).pool.toNat).pairs.find? fun x => x.1 = tokHandle tok).map (·.2)).getD []
    let now := max s.now t
    let waits := v.modStream i fun m => { m with
      guard := some { m.guard.getD { since := now, limit := m.limit.toNat } with met := none } }
    s.stands t u img opSend = true → v.dataAt i u = some tok →
      (tokType tok = tyError → exec (.send t u img) s = .next (gone v)) ∧
      (tokType tok ≠ tyError → s.routeLink dest = none → exec (.send t u img) s = .next waits) ∧
      (∀ n, tokType tok ≠ tyError → s.routeLink dest = some n →
        ((s.link n).st ≠ 2 → exec (.send t u img) s = .next (gone v)) ∧
        ((s.link n).st = 2 → (s.link n).credits = 0 → exec (.send t u img) s = .next
          (waits.modLink n fun l => { l with
            timer := if l.waits (!(v.sendsOver n).isEmpty) then some (l.timer.getD now) else some now })) ∧
        ((s.link n).st = 2 → (s.link n).credits ≠ 0 → exec (.send t u img) s = .next
          (gone (v.modLink n fun l =>
            { l with queue := l.queue ++ pairs.flatMap (pairPackets s.linkMod.portAddr.toNat dest (field o 36 12)) }))))

/-- RECV (R110, R118, R120, R208, R405, R408). -/
def Obligations.RecvGathersATile : Prop :=
  ∀ (s : State) (t : Nat) (u : UnitId) (img : Nat),
    let o := (s.prog u img).op
    let out := field o 8 12
    let m := s.stream out
    (∀ ps, s.fires t u img opRecv [] [out] = true → m.peerLost = false → s.recvPairs img o = some ps →
      Completes (.recv t u img) s fun s' =>
        (s.tick t).FiredAs s' u img out 0 ∧
          (s.tick t).HoldsResult s' out (pairBytes ps) ∧
          (∀ h, s.nextHandle out = some h → (h, ps) ∈ (s'.pool m.pool.toNat).pairs) ∧
          (s'.stream out).pseq = m.pseq + BitVec.ofNat 16 ps.length) ∧
    (s.stands t u img opRecv = true → m.peerLost = false → s.recvPairs img o = none →
      exec (.recv t u img) s = .next ((s.tick t).markAll [out] .input)) ∧
    (s.stands t u img opRecv = true → m.peerLost = true → m.hasCredit = true →
      exec (.recv t u img) s =
        .next (((s.tick t).sendError u [out] { err := some ecPeerLost } (m.seqOf u)).finish u img (max s.now t))) ∧
    (s.stands t u img opRecv = true → m.peerLost = true → m.hasCredit = false →
      exec (.recv t u img) s = .next ((s.tick t).markAll [out] .credit))

/-- XFER (R161, R208, R225, R227). -/
def Obligations.XferArmsItsDescriptor : Prop :=
  ∀ (s : State) (t e img : Nat),
    let u := UnitId.engine e
    let d := field (s.prog u img).op 8 13
    let k := s.desc e d
    let busy := k.st = .armed ∨ k.st = .active ∨ k.st = .draining
    let ignored := busy ∧ k.shadow.isSome = true ∧ k.fwFirst (max s.now t) = none
    s.stands t u img opXfer = true →
      ((k.st = .error ∨ ignored) →
        exec (.xfer t u img) s = .next (((s.tick t).xferArm e d img).finish u img (max s.now t))) ∧
      (k.st ≠ .error → ¬ignored → exec (.xfer t u img) s = .next
        ((((s.tick t).modProg u img fun p => { p with armed := p.armed ++ [d] }).xferArm e d img).finish u img
          (max s.now t)))

/-- An arm, in every state of the descriptor (R223 to R226, R228). -/
def Obligations.ArmingADescriptor : Prop :=
  ∀ (s : State) (e d : Nat) (by_ : Option Nat),
    let k := s.desc e d
    let s' := s.arm e d by_
    let w := padTo 64 k.store
    let c := s.descCheck e w
    let busy := k.st = .armed ∨ k.st = .active ∨ k.st = .draining
    let fault := s'.stack e = { s.stack e with errDesc := BitVec.ofNat 13 d, errCode := BitVec.ofNat 4 c }
    (∀ e' d', e' * 8192 + d' ≠ e * 8192 + d → s'.desc e' d' = s.desc e' d') ∧
    ((k.st = .idle ∨ k.st = .done) → c = 0 →
      s'.desc e d = { k with st := .armed, work := w, issued := 0, finished := [], sent := 0, byImg := by_ } ∧
        s'.stack e = s.stack e) ∧
    ((k.st = .idle ∨ k.st = .done) → c ≠ 0 →
      s'.desc e d = { k with st := .error, work := w, issued := 0, finished := [], sent := 0, byImg := by_
                             shadow := none, shadowImg := none, lastErr := BitVec.ofNat 4 c, aborted := false
                             outstanding := k.outstanding.map fun x => { x with dead := true } } ∧ fault) ∧
    (busy → k.shadow = none → c = 0 →
      s'.desc e d = { k with shadow := some w, shadowImg := by_, shadowAt := s.now / Config.cycle + 1 } ∧
        s'.stack e = s.stack e) ∧
    (busy → k.shadow = none → c ≠ 0 → s.completes e d = false →
      s'.desc e d = { k with st := .error, shadow := none, shadowImg := none, lastErr := BitVec.ofNat 4 c
                             aborted := false
                             outstanding := k.outstanding.map fun x => { x with dead := true } } ∧ fault) ∧
    (busy → k.shadow = none → c ≠ 0 → s.completes e d = true →
      s'.desc e d =
        { k with late := some { at_ := s.now / Config.cycle, img := by_, data := w, failing := true } } ∧
        s'.stack e = s.stack e) ∧
    (busy → k.shadow ≠ none →
      (s'.desc e d).st = k.st ∧ (s'.desc e d).work = k.work ∧ (s'.desc e d).shadow = k.shadow ∧
        s'.stack e = { s.stack e with rearmOverrun := satInc (s.stack e).rearmOverrun
                                      overrunDesc := BitVec.ofNat 13 d }) ∧
    (k.st = .error →
      s'.desc e d = k ∧ s'.stack e = { s.stack e with armRefused := satInc (s.stack e).armRefused })

/-- WFILL, WLOAD, SWAP, RSCALE (R36, R42, R44, R45, R48, R61, R189 to R192, R231). -/
def Obligations.WeightsMoveIntoTheCore : Prop :=
  ∀ (s : State) (t cl pos img : Nat),
    let u := UnitId.core cl pos
    let p := s.prog u img
    let o := p.op
    let k := (s.cluster cl).phys pos
    let c := s.core cl k
    let v := s.tick t
    let now := max s.now t
    (∀ tok, s.stands t u img opWfill = true → c.slotHeld (field o 20 5) = false → flag o 25 = false →
      v.dataAt (field o 8 12) u = some tok → tokType tok ≠ tyError →
        Completes (.wfill t u img) s fun s' =>
          let w := if tokHandle tok = 0xFFFF then c.slotAt (field o 20 5)
            else imageOf (s.readBuf (s.stream (field o 8 12)).pool.toNat (tokHandle tok) 0 576)
          (s'.core cl k).slotAt (field o 20 5) = { w with filling := false } ∧
            (∀ x, x ≠ field o 20 5 → (s'.core cl k).slotAt x = c.slotAt x) ∧
            (s'.core cl k).active = c.active ∧ (s'.core cl k).shadow = c.shadow ∧
            s'.prog u img = { p with pos := p.pos + 1
                                     busyUntil := if tokHandle tok = 0xFFFF
                                       then max now (((v.head (field o 8 12) u).map (·.due)).getD now + 6 * ns)
                                       else now + 6 * ns }) ∧
    (s.stands t u img opWfill = true → (c.slotHeld (field o 20 5) = true ∨ v.dataAt (field o 8 12) u = none) →
      exec (.wfill t u img) s = .next v) ∧
    ((unitOk u && v.mayLoad u img && opcode o = opWload && opListed u o) = true →
      (c.loading = true → exec (.wload t u img) s = .next v) ∧
      (c.loading = false → exec (.wload t u img) s = .next
        ((v.modCore cl k fun c => { c with
          shadow := some { slot := field o 8 5, image := c.slotAt (field o 8 5)
                           drive := c.driveCodes (s.calBase cl k) (c.slotAt (field o 8 5)), start := now
                           byList := true, refresh := false } }).finish u img (max now p.busyUntil)))) ∧
    (s.stands t u img opSwap = true →
      ((c.tile.isSome || c.run.isSome) = true → exec (.swap t u img) s = .next v) ∧
      (∀ h n, (c.tile.isSome || c.run.isSome) = false → c.rescued now = some (h, n) → exec (.swap t u img) s = .next
        ((v.modCore cl k fun c => { c.swapIn h with prefetch := none, prefetchDiscard := n }).finish u img
          (symbolEdge now + 1 * ns))) ∧
      ((c.tile.isSome || c.run.isSome) = false → c.rescued now = none → c.prefetch.isSome = true →
        exec (.swap t u img) s = .next v) ∧
      ((c.tile.isSome || c.run.isSome || c.prefetch.isSome) = false → c.rescued now = none →
        (∀ h, c.shadow = some h → h.byList = true → h.usable = true → exec (.swap t u img) s = .next
          ((v.modCore cl k (Core.swapIn h)).finish u img (symbolEdge now + 1 * ns))) ∧
        (∀ h, c.shadow = some h → h.byList = true → h.usable = false → exec (.swap t u img) s = .next v) ∧
        ((∀ h, c.shadow = some h → h.byList = false) → exec (.swap t u img) s = .next (v.finish u img now)))) ∧
    (s.stands t u img opRscale = true → exec (.rscale t u img) s = .next (v.setProg u img
      { p with pos := p.pos + 1, busyUntil := now, rowMask := BitVec.ofNat 8 (field o 8 8), raw := flag o 16 }))

/-- LOAD_SETTLED, REFRESH_DUE, CHAIN_FORWARD (R42 to R44, R46 to R48, R231, R232). -/
def Obligations.ImagesSettleAndRefresh : Prop :=
  ∀ (s : State) (t cl k : Nat), cl < 832 → k < 34 →
    let c := s.core cl k
    let v := s.tick t
    let now := max s.now t
    let b := s.calBase cl k
    let lit := (s.packetOn cl k).isSome
    let e := v.boundary cl k now
    (∀ h, c.shadow = some h → h.start + 72 * ns ≤ now →
      ((h.refresh && !lit) = false → exec (.loadSettled t cl k) s =
        .next (v.modCore cl k fun c => { c with shadow := some { h with usable := true } })) ∧
      ((h.refresh && !lit) = true → c.prefetch = none →
        exec (.loadSettled t cl k) s = .next ((v.modCore cl k fun c =>
          { c with active := some { h with usable := true, byList := false, refresh := false }, shadow := none
                   swapUntil := e + 1 * ns, cut := none }).holdProbe cl k e)) ∧
      (∀ slot byList, (h.refresh && !lit) = true → c.prefetch = some (slot, byList) →
        Completes (.loadSettled t cl k) s fun s' =>
          (s'.core cl k).active = some { h with usable := true, byList := false, refresh := false } ∧
            (s'.core cl k).shadow = some { slot := slot, image := c.slotAt slot, drive := c.driveCodes b (c.slotAt slot)
                                           start := e, byList := byList, refresh := false } ∧
            (s'.core cl k).prefetch = none ∧ (s'.core cl k).swapUntil = e + 1 * ns)) ∧
    (lit = false → v.probeOn cl k = none → e = symbolEdge now) ∧
    (∀ f x, v.probeOn cl k = some (f, x) → e < x → ((v.holdProbe cl k e).feeder cl f).probe = some (k, x + 1 * ns)) ∧
    ((∀ h, c.shadow = some h → now < h.start + 72 * ns) →
      Completes (.loadSettled t cl k) s fun s' => s'.core cl k = c) ∧
    (∀ a, c.active = some a → a.start + 7800 * ns ≤ now → (∀ h, c.shadow = some h → h.refresh = false) →
      v.swapAsked cl k = false →
      Completes (.refreshDue t cl k) s fun s' =>
        (s'.core cl k).shadow = some { slot := a.slot, image := a.image, drive := c.driveCodes b a.image
                                       start := v.boundary cl k (now + 72 * ns) - 72 * ns
                                       byList := false, refresh := true } ∧
          (s'.core cl k).active = some a ∧
          (∀ h, c.shadow = some h → (s'.core cl k).prefetch = some (h.slot, h.byList) ∧
            (s'.core cl k).prefetchDiscard = satInc c.prefetchDiscard) ∧
          (c.shadow = none → (s'.core cl k).prefetch = c.prefetch ∧
            (s'.core cl k).prefetchDiscard = c.prefetchDiscard)) ∧
    ((∀ a, c.active = some a →
        (now < a.start + 7800 * ns ∨ (∃ h, c.shadow = some h ∧ h.refresh = true) ∨ v.swapAsked cl k = true)) →
      exec (.refreshDue t cl k) s = .next v) ∧
    (∀ x pos, v.nextForward c = some x → (s.cluster cl).posOf k = some pos →
      exec (.chainForward t cl k) s = .next
        ((v.forwardImage (.core cl pos) cl ((s.stream x.stream).img.getD 0) x.stream (c.slotAt x.slot) x.tok
          x.last).modCore cl k fun y =>
            { y.setSlot x.slot { c.slotAt x.slot with filling := false } with forward := y.forward.erase x })) ∧
    (v.nextForward c = none → exec (.chainForward t cl k) s = .next v)

/-- TOKEN_INVALID, CREDIT_RETURN, HANDLE_FREE (R142, R143, R148, R152 to R154, R160, R172). -/
def Obligations.TokensCreditsAndHandlesReturn : Prop :=
  ∀ (s : State) (t i : Nat) (u : UnitId), i < 4096 → unitOk u = true →
    let v := s.tick t
    let m := s.stream i
    (∀ tok : Dword, 5 ≤ tokType tok → exec (.tokenInvalid t u tok) s =
      .next (v.raise 0x8006 (layBytes 8 [(0, toLe 2 (tokStream tok)), (4, toLe 4 (s.unitOf u))]))) ∧
    (∀ tok : Dword, tokType tok < 5 → exec (.tokenInvalid t u tok) s = .next v) ∧
    (∀ c, m.edge u = some c → 0 < c.owed → Completes (.creditReturn t i u) s fun s' =>
      (s'.stream i).lastCredited = c.owedSeq ∧ (s'.stream i).pool = m.pool ∧ (s'.stream i).seq = m.seq ∧
        (s'.stream i).consumers = m.consumers.map fun d =>
          if d.unit = u then
            { d with credits := min (d.credits + min c.owed 64) d.c, owed := d.owed - min c.owed 64
                     creditAt := if d.credits = 0 then max s.now t else d.creditAt }
          else d) ∧
    ((∀ c, m.edge u = some c → c.owed = 0) → Completes (.creditReturn t i u) s fun s' => s'.stream i = m) ∧
    exec (.handleFree t i) s = .next (v.setPool i { s.pool i with
      freeList := (s.pool i).freeList ++ ((s.pool i).back.filter fun b => b.2 ≤ max s.now t).map (·.1)
      offeredAt := if (s.pool i).freeList.isEmpty && (s.pool i).back.any (fun b => b.2 ≤ max s.now t) then max s.now t
        else (s.pool i).offeredAt
      back := (s.pool i).back.filter fun b => max s.now t < b.2 })

/-- FENCE_ORDER and GROUP_DRAINED (R82, R163 to R165). -/
def Obligations.FencesOutOfOrderAndDrain : Prop :=
  ∀ (s : State) (t : Nat) (u : UnitId) (img g : Nat), unitOk u = true → img < 256 → g < 4096 →
    let v := s.tick t
    let done := ((s.prog u img).orderSent).getD []
    let open_ (outs : List Nat) := outs.filter fun o => !done.contains o && v.creditOn img o
    let send (x : State) (outs : List Nat) : State :=
      x.each outs fun s o => s.sendError u [o] { err := some ecFenceOrder } ((s.stream o).seqOf u)
    let noted (x : State) (i : Nat) (outs : List Nat) : State :=
      (x.markAll outs (.fence i)).modProg u img fun p => { p with orderSent := some (done ++ open_ outs) }
    (v.fenceFound u img = none → exec (.fenceOrder t u img) s = .next v) ∧
    (∀ i outs, v.fenceFound u img = some (i, outs) → (s.prog u img).orderSent = none →
      exec (.fenceOrder t u img) s =
        .next (noted (send ((v.raise 0x8003 (toLe 2 i)).markAbort img 3 i) (open_ outs)) i outs)) ∧
    (∀ i outs, v.fenceFound u img = some (i, outs) → (s.prog u img).orderSent ≠ none →
      exec (.fenceOrder t u img) s = .next (noted (send v (open_ outs)) i outs)) ∧
    (((s.image img).running && v.groupIsDrained img g) = true → Completes (.groupDrained t img g) s fun s' =>
      (∀ w ∈ s.groupOf img g, s'.prog w img = { s.prog w img with drained := none, pos := (s.prog w img).pos + 1 }) ∧
        (∀ w, unitOk w = true → (∀ x ∈ s.groupOf img g, unitWord x ≠ unitWord w) → s'.prog w img = s.prog w img) ∧
        ∀ w ∈ s.groupOf img g, ∀ c, unitCluster w = some c →
          s'.cluster c = if (s.cluster c).permitGoing && !s.undrained c then
            { s.cluster c with permit := false, permitGoing := false, fencePassed := true } else s.cluster c) ∧
    (((s.image img).running && v.groupIsDrained img g) = false → exec (.groupDrained t img g) s = .next v)

/-- STALL (R167 to R172). -/
def Obligations.StallsAreReportedOnce : Prop :=
  ∀ (s : State) (t i : Nat), i < 4096 →
    let v := s.tick t
    let a := v.withArrivals
    let m := a.stream i
    let expired (w : CreditWait) := w.since / us + w.limit + 1 ≤ a.now / us
    let due (w : CreditWait) := expired w ∧ m.stalled = false ∧ a.waitMet w = false
    let dueGuard (w : CreditWait) := expired w ∧ m.guardStalled = false ∧ w.met.any w.inTick = false
    let lower (w : CreditWait) := ∃ p ∈ s.streams, p.1 < i ∧
      (a.stallDue p.1).map (·.1) = some (w.since / us + w.limit + 1)
    let said (w : CreditWait) (guarded : Bool) :=
      let lack := a.stillLacks w
      (v.raise 0x8002 (layBytes 12
        [(0, toLe 2 i), (2, [if !guarded && lack.1.isEmpty then 1 else 0]),
          (4, stallNames lack guarded)])).modStream i fun m =>
           { m with stalled := m.stalled || !guarded, guardStalled := m.guardStalled || guarded
                    stalls := satInc m.stalls }
    (∀ w, m.wait = some w → due w → ¬lower w →
      ((s.stream i).img = none → exec (.stall t i) s = .next (said w false)) ∧
      (∀ img, (s.stream i).img = some img → exec (.stall t i) s = .next ((said w false).markAbort img 1 i))) ∧
    (∀ w, m.wait = none → m.guard = some w → dueGuard w → ¬lower w →
      ((s.stream i).img = none → exec (.stall t i) s = .next (said w true)) ∧
      (∀ img, (s.stream i).img = some img → exec (.stall t i) s = .next ((said w true).markAbort img 1 i))) ∧
    (∀ w, m.wait = some w → due w → lower w → exec (.stall t i) s = .next v) ∧
    ((∀ w, m.wait = some w → ¬due w) → (∀ w, m.guard = some w → ¬dueGuard w) → exec (.stall t i) s = .next v)

/-- STEP_ABORTED (R171, R182, R192, R229). -/
def Obligations.AbortedStepsEnd : Prop :=
  ∀ (s : State) (t img : Nat), img < 256 →
    let r := s.image img
    (r.abort ≠ none → r.running = true → Completes (.stepAborted t img) s fun s' =>
      s'.image img = { r with running := false, abort := none } ∧ s'.hbm = s.hbm ∧ s'.sram = s.sram ∧
        (∀ i ∈ s.streamsOf img, (s'.stream i).hq = 7 ∧ (s'.stream i).wait = none ∧ (s'.stream i).rx = [] ∧
          (s'.stream i).sink = mkTok tyError i 0xFFFF ((s.stream i).seqOf ((s.stream i).producers.headD .field))
            { err := some ecAborted } ∧
          ∀ c ∈ (s'.stream i).consumers, c.queue = [] ∧ c.credits = c.c ∧ c.owed = 0) ∧
        (∀ p ∈ s.poolsOf img, (s'.pool p).counts = [] ∧ (s'.pool p).back = [] ∧ (s'.pool p).pairs = []) ∧
        (∀ e d, d < 8192 → s.descImg (s.desc e d).work = some img → (s.desc e d).outstanding = [] →
          ((s.desc e d).st = .armed ∨ (s.desc e d).st = .active ∨ (s.desc e d).st = .draining) →
            (s'.desc e d).st = .idle ∧ (s'.desc e d).shadow = none) ∧
        (∀ u ∈ s.unitsOf img, (s'.prog u img).phase = .idle ∧ (s'.prog u img).pos = 0)) ∧
    ((r.abort = none ∨ r.running = false) → exec (.stepAborted t img) s = .next (s.tick t))

/-- MODEL_STEP_START (R142, R151, R177, R178, R182, R192). -/
def Obligations.StartsOfAModelStep : Prop :=
  ∀ (s : State) (t img : Nat), img < 256 →
    let r := s.image img
    let v := s.tick t
    let drop (x : State) : State :=
      (x.modImage img fun r => { r with overrun := r.overrun + 1 }).raise 0x8005
        (layBytes 8 [(0, toLe 1 img), (4, toLe 4 ((r.overrun + 1).toNat))])
    exec (.modelStepStart t img 0) s = .next v ∧
    (∀ n, (r.placed = none ∨ r.waiting = true ∨ s.jobInReset img = true) → exec (.modelStepStart t img n) s = .next v) ∧
    (r.placed ≠ none → r.waiting = false → s.jobInReset img = false → r.running = true →
      exec (.modelStepStart t img 1) s = .next (drop v)) ∧
    (r.placed ≠ none → r.waiting = false → s.jobInReset img = false → r.running = false →
      Completes (.modelStepStart t img 1) s (fun s' =>
        s'.image img = { r with running := true, starts := r.starts + 1, startedAt := max s.now t, abort := none } ∧
          (∀ u ∈ s.unitsOf img, s'.prog u img = (s.prog u img).start) ∧
          (∀ i ∈ s.streamsOf img, (s'.stream i).seq = [] ∧ (s'.stream i).hq = 2 ∧ (s'.stream i).wait = none ∧
            (s'.stream i).consumers = (s.stream i).consumers.map (Consumer.start (s.stream i).chain)) ∧
          exec (.modelStepStart t img 2) s = .next (drop s')))

/-- FEED (R83, R95 to R97, R105, R157, R167, R188). -/
def Obligations.FeedBuildsItsPacket : Prop :=
  ∀ (s : State) (t cl f img : Nat),
    let u := UnitId.feeder cl f
    let o := (s.prog u img).op
    let i := field o 8 12
    let h := feedHeader (s.prog u img) (s.cluster cl).permit o
    let v := s.tick t
    let built := if (s.feeder cl f).packet.isSome then v
      else v.modFeeder cl f fun k => { k with packet := some { hdr := h, img := img, stream := i } }
    let noted := built.noteReady cl f
    let waits := ∀ p, (s.feeder cl f).packet = some p → p.phase = .waiting
    s.stands t u img opFeed = true →
      (waits → hdrInvalid h = false →
        ((∀ k, noted.packetTok cl f = some k → tokType k ≠ tyError) → exec (.feed t u img) s = .next noted) ∧
        (noted.coresReady cl f = false → exec (.feed t u img) s = .next noted) ∧
        (∀ k, noted.packetTok cl f = some k → tokType k = tyError → noted.coresReady cl f = true →
          exec (.feed t u img) s = .next (noted.feedNoLight cl f img h k i (tokCode k) true))) ∧
      (waits → hdrInvalid h = true →
        (v.dataAt i u = none → exec (.feed t u img) s = .next v) ∧
        (∀ k, v.dataAt i u = some k →
          (tokType k = tyError → exec (.feed t u img) s = .next (v.feedNoLight cl f img h k i (tokCode k) true)) ∧
          (tokType k ≠ tyError → exec (.feed t u img) s = .next (v.feedNoLight cl f img h k i ecInvalid false)))) ∧
      (∀ p, (s.feeder cl f).packet = some p → p.phase ≠ .waiting → exec (.feed t u img) s = .next v)

/-- TILE (R96, R145 to R147, R155, R193, R194). -/
def Obligations.TilePreparesItsCore : Prop :=
  ∀ (s : State) (t cl pos img : Nat),
    let u := UnitId.core cl pos
    let p := s.prog u img
    let o := p.op
    let k := (s.cluster cl).phys pos
    let c := s.core cl k
    let out := field o 23 12
    let v := s.tick t
    let run : TileRun :=
      { img := img, pos := pos, slot := field o 8 5, win := BitVec.ofNat 3 (field o 13 3)
        width := BitVec.ofNat 3 (field o 16 3), range := BitVec.ofNat 2 (field o 19 2), feeder := field o 21 2
        out := out, handle := 0xFFFF, count := field o 35 16 + 1, slice := field o 51 5
        rowMask := p.rowMask, raw := p.raw, tokFlags := mkTok 0 0 0 0 { last := p.lastFor out } }
    s.stands t u img opTile = true →
      (c.tile = none → Completes (.tile t u img) s fun s' =>
        s'.core cl k = { c with tile := some run } ∧
        s'.prog u img = p ∧ s'.pools = s.pools ∧
        ∀ i, (s'.stream i).consumers = (s.stream i).consumers ∧ (s'.stream i).seq = (s.stream i).seq ∧
          (s'.stream i).tiles = (s.stream i).tiles) ∧
      (∀ r, c.tile = some r → r.noLight = none → exec (.tile t u img) s = .next v) ∧
      (∀ r x, c.tile = some r → r.noLight = some x → r.pos = pos → r.img = img →
        let m := s.stream r.out
        let q := m.seqOf u
        let lack := s.tileLack [(r.out, q)] r.out
        (m.begunTile q = none → lack ≠ .ready →
          exec (.tile t u img) s =
            .next (v.modStream r.out (Stream.mark v.now lack (v.tileOwing [(r.out, q)] r.out) (v.poolsFor [r.out])))) ∧
        ((m.begunTile q ≠ none ∨ lack = .ready) → Completes (.tile t u img) s fun s' =>
          (s'.core cl k).tile = none ∧ (s'.prog u img).pos = p.pos + 1 ∧ (s'.stream r.out).seqOf u = q + 1 ∧
            (m.begunTile q = none → (s'.pool m.pool.toNat).freeList = (s.pool m.pool.toNat).freeList.tail) ∧
            (m.begunTile q ≠ none → s'.pools = s.pools)))

/-- CORE_CREDIT_GRANT and SWITCH_GRANT (R93, R98, R100, R103, R104, R107, R146, R155, R193). -/
def Obligations.PacketsAreGrantedCores : Prop :=
  ∀ (s : State) (t cl f pos : Nat), cl < 832 → f < 4 → pos < 32 →
    let k := (s.cluster cl).phys pos
    let c := s.core cl k
    let n := ((s.tick t).each (List.range 4) fun s g => s.noteReady cl g).modCluster cl (Cluster.entryFor f)
    let cluster := s.cluster cl
    (∀ r, c.tile = some r → c.grant = none → cluster.tileOver k = true → r.pos = pos → r.noLight = none →
      c.activeFrom r.slot = true → c.st = .inService → c.ready ≤ max s.now t → cluster.restart = none →
      cluster.works = true →
        exec (.coreCreditGrant t cl pos) s =
          .next (((s.tick t).modCore cl k fun c => { c with grant := some r.feeder }).noteReady cl r.feeder)) ∧
    (c.tile = none → exec (.coreCreditGrant t cl pos) s = .next (s.tick t)) ∧
    (∀ p, n.grantable cl f = true → (n.feeder cl f).packet = some p →
      (∀ g, g < 4 → g ≠ f → n.grantable cl g = true →
        (n.cluster cl).readySymbol f < (n.cluster cl).readySymbol g ∨
          ((n.cluster cl).readySymbol f = (n.cluster cl).readySymbol g ∧ f < g)) →
        Completes (.switchGrant t cl f) s fun s' =>
          let ps := (n.cluster cl).lights (max s.now t) f p.hdr
          (s'.feeder cl f).packet = some { p with phase := .granted, phys := ps } ∧
            (s'.feeder cl f).route = (n.feeder cl f).route ∧
            (∀ g, g < 4 → g ≠ f → (s'.feeder cl g) =
              if (n.feeder cl g).route.any fun r => r.any ps.contains then (n.feeder cl g).clearRoute
              else n.feeder cl g) ∧
            (∀ k ∈ cluster.named p.hdr, ∀ r, (s.core cl k).tile = some r →
              ∃ h q, (s'.core cl k).tile = some { r with handle := h, seq := q }) ∧
            ∀ k r h, cluster.named p.hdr = [k] → (s.core cl k).tile = some r →
              let m := s.stream r.out
              let q := m.seqOf (.core cl r.pos)
              m.begunTile q = none → s.nextHandle r.out = some h →
                (s'.core cl k).tile = some { r with handle := h, seq := q } ∧
                (s'.pool m.pool.toNat).freeList = (s.pool m.pool.toNat).freeList.tail ∧
                (s'.stream r.out).consumers = m.consumers.map fun c => { c with credits := c.credits - 1 }) ∧
    (n.grantable cl f = false → exec (.switchGrant t cl f) s = .next n)

/-- PACKET_START, RECONFIG_END, MEASURE_END (R97, R99 to R102, R128, R129). -/
def Obligations.PacketsStartTheirTiles : Prop :=
  ∀ (s : State) (t cl f : Nat) (p : Packet), cl < 832 → f < 4 → (s.feeder cl f).packet = some p →
    let v := s.tick t
    let now := max s.now t
    let u := UnitId.feeder cl f
    let tok := (v.dataAt p.stream u).getD 0
    let q := (s.stream p.stream).qnt
    let x := (v.takeHead u p.stream).modStream p.stream fun m => { m with qnt := (q.mode cl).2 }
    let begun (ph : PacketPhase) : Packet :=
      { p with handle := some (tokHandle tok), tok := tok, measured := (q.mode cl).1.isNone, exp := (q.mode cl).1.getD 0
               policy := q.policy, satThresh := q.satThresh, underThresh := q.underThresh, phase := ph }
    let put (y : State) (p : Packet) : State := y.modFeeder cl f fun k => { k with packet := some p }
    (p.phase = .granted → (s.cluster cl).retired = false → (s.feeder cl f).route ≠ some p.phys →
      exec (.packetStart t cl f) s = .next (put x (begun (.reconfig (symbolEdge now + 2 * ns))))) ∧
    (p.phase = .granted → (s.cluster cl).retired = false → (s.feeder cl f).route = some p.phys →
      exec (.packetStart t cl f) s = .next ((put x (begun .granted)).lightAt cl f (symbolEdge now))) ∧
    ((p.phase ≠ .granted ∨ (s.cluster cl).retired = true) → exec (.packetStart t cl f) s = .next v) ∧
    (∀ e, p.phase = .reconfig e → e ≤ now →
      (p.measured = true → exec (.reconfigEnd t cl f) s = .next (put v { p with phase := .measuring (e + 40 * ns) })) ∧
      (p.measured = false → exec (.reconfigEnd t cl f) s = .next (v.beginWindows cl f e))) ∧
    (∀ e, p.phase = .reconfig e → now < e → exec (.reconfigEnd t cl f) s = .next v) ∧
    (∀ e, p.phase = .measuring e → now < e → exec (.measureEnd t cl f) s = .next v) ∧
    (∀ e, p.phase = .measuring e → e ≤ now → p.replay = false → Completes (.measureEnd t cl f) s fun s' =>
      (s'.feeder cl f).route = (if p.unrouted then none else some p.phys) ∧
        (s'.feeder cl f).packet = some { p with
          phase := .running, winEnd := (p.phys.map fun k => (s.core cl k).swapUntil).foldl max e + packetWindow p.hdr } ∧
        ∀ k ∈ p.phys, k ∈ (s.cluster cl).named p.hdr → ∀ r, (s.core cl k).tile = some r → r.feeder = f →
          (s'.core cl k).tile = none ∧ ∃ run, (s'.core cl k).run = some run ∧ run.codes = startCodes p.hdr r ∧
            run.handle = r.handle ∧ run.seq = r.seq ∧ run.count = r.count ∧ run.rowMask = r.rowMask)

/-- WINDOW_END completes, and what its window leaves (R26, R28, R44, R50 to R54, R57, R63, R87, R126, R127, R131, R192, R194). -/
def Obligations.WindowsScaleEveryRow : Prop :=
  ∀ (s : State) (t cl f : Nat) (p : Packet), cl < 832 → f < 4 → (s.feeder cl f).packet = some p →
    let now := max s.now t
    let vs := halvesOf (s.readBuf (s.stream p.stream).pool.toNat (p.handle.getD 0) (128 * p.win) 128)
    let x := convert p.hdr (if p.measured then none else some p.exp) vs
    let last := p.win + 1 = hdrCount p.hdr
    let swaps := p.phys.any fun k => (s.core cl k).refreshDone p.winEnd
    (p.phase = .running → p.winEnd ≤ now → (s.cluster cl).retired = false → ∃ s', exec (.windowEnd t cl f) s = .next s' ∧
      s' = effectWindowEnd cl f (s.tick t) ∧
      (s'.feeder cl f).packet = some { p with
          win := p.win + 1, sat := p.sat + x.sat, under := p.under + if x.under then 1 else 0
          maxMag := BitVec.ofNat 16 (max p.maxMag.toNat x.mag.toNat), nanIn := p.nanIn || 0 < x.nans
          phase := if last then .ended p.winEnd else .running
          winEnd := if last then p.winEnd else p.winEnd + (if swaps then 1 * ns else 0) + packetWindow p.hdr } ∧
        (s'.stream p.stream).qnt = (s.stream p.stream).qnt.countVec x ∧
        (p.phys.Nodup → ∀ k ∈ p.phys,
          ((s.core cl k).refreshDone p.winEnd = true → (s'.core cl k).swapUntil = p.winEnd + 1 * ns) ∧
          ((∀ e, runOk (Tab.get (0, 0) (s.core cl k).noise e) = true) →
            ∀ e, runOk (Tab.get (0, 0) (s'.core cl k).noise e) = true) ∧
          ∀ r, (s.core cl k).run = some r → ∃ ys codes b b' x x',
            ys.length = (bitsOf r.rowMask).length ∧
              (s'.core cl k).run = some { r with res := if p.win < r.count then r.res ++ ys else r.res
                                                 codes := r.codes ++ codes, unsettled := b, suspect := b'
                                                 eb := x, ebIn := x' })) ∧
    ((p.phase ≠ .running ∨ now < p.winEnd ∨ (s.cluster cl).retired = true) →
      exec (.windowEnd t cl f) s = .next (s.tick t))

/-- PACKET_END and VERDICT (R99, R129, R130, R134 to R138, R194). -/
def Obligations.PacketsEndOrAreReplayed : Prop :=
  ∀ (s : State) (t cl f e : Nat) (p : Packet), cl < 832 → f < 4 →
    (s.feeder cl f).packet = some p → p.phase = .ended e →
    let v := s.tick t
    let now := max s.now t
    let u := UnitId.feeder cl f
    let replays := p.policy = 1 ∨ p.policy = 2
    let beyond := exceeds p.sat p.satThresh || exceeds p.under p.underThresh
    (e ≤ now → ¬ replays → exec (.packetEnd t cl f) s = .next (v.closePacket cl f e p)) ∧
    ((now < e ∨ replays) → exec (.packetEnd t cl f) s = .next v) ∧
    (e + 4 * ns ≤ now → replays → (beyond = false ∨ p.measured = true) →
      exec (.verdict t cl f) s = .next (v.closePacket cl f e p)) ∧
    (e + 4 * ns ≤ now → replays → beyond = true → p.measured = false → Completes (.verdict t cl f) s fun s' =>
      (s'.feeder cl f).packet = some { p with
          replay := true, measured := true, sat := 0, under := 0, maxMag := 0, win := 0, nanIn := false
          phase := .measuring (symbolEdge (e + 4 * ns) + 40 * ns) } ∧
        (s'.stream p.stream).qnt.replays = satInc (s.stream p.stream).qnt.replays ∧
        (∀ k ∈ p.phys, (s'.core cl k).run = (s.core cl k).run.map (TileRun.again p.hdr)) ∧
        s'.hbm = s.hbm ∧ s'.sram = s.sram) ∧
    ((now < e + 4 * ns ∨ ¬ replays) → exec (.verdict t cl f) s = .next v) ∧
    (∀ x : State, x.feeder cl f = s.feeder cl f →
      let y := x.closePacket cl f e p
      (y.feeder cl f).packet = none ∧ (y.prog u p.img).pos = (x.prog u p.img).pos + 1 ∧
        ∀ k ∈ p.phys, (y.core cl k).run = none ∧
          (y.core cl k).grant = (x.core cl k).grant ∧ (y.core cl k).tile = (x.core cl k).tile)

/-- HOST_BAR2_READ and HOST_BAR2_WRITE (R210 to R214). -/
def Obligations.HostReadsAndWritesMemory : Prop :=
  ∀ (s : State) (t a n : Nat) (d : List Byte),
    let seen := (List.range n).map fun i => if hbmUsable (a + i) then s.hbm.read (a + i) else 0xFF
    let oor (s' : State) (n : Nat) : Prop := (s'.stack (awStack a)).hostOor =
      if hbmAll a n = true then (s.stack (awStack a)).hostOor else satInc (s.stack (awStack a)).hostOor
    (a + n ≤ 2 ^ 40 → s.hostUp = true → Completes (.hostBar2Read t a n) s fun s' =>
      s'.readOut = { who := 0, data := seen, poisoned := (s.readHbm a n).badIn a n } ∧
        (s.badIn a n = true → s'.readOut.poisoned = true) ∧ s'.hbm = s.hbm ∧ oor s' n) ∧
    (a + d.length ≤ 2 ^ 40 → s.hostUp = true → Completes (.hostBar2Write t a d) s fun s' =>
      (∀ x, hbmUsable x = true → s'.hbm.read x =
          if (a ≤ x ∧ x < a + d.length) then d.getD (x - a) 0 else s.hbm.read x) ∧
        (∀ l, l ∈ s'.bad ↔ l ∈ s.bad ∧ ¬ (a ≤ 64 * l ∧ 64 * l + 64 ≤ a + d.length)) ∧ oor s' d.length ∧
        ∀ t' b, (∀ i, i < d.length → hbmUsable (a + i) = true) → s'.hostUp = true →
          exec (.hostBar2Read t' a d.length) s' = .next b → b.readOut.data = d) ∧
    (s.hostUp = false → a + n ≤ 2 ^ 40 → exec (.hostBar2Read t a n) s = .next (s.tick t)) ∧
    (s.hostUp = false → a + d.length ≤ 2 ^ 40 → exec (.hostBar2Write t a d) s = .next (s.tick t))

/-- TRANSFER_ISSUE (R216 to R219, R222, R223). -/
def Obligations.TransfersIssueInTurn : Prop :=
  ∀ (s : State) (t e : Nat), e < 16 →
    let v := s.tick t
    let now := max s.now t
    let m := s.stack e
    let ds := (s.turnOrder e).filter fun d => (s.desc e d).issues && !s.listFaulted e (s.desc e d)
    let free := m.busyUntil < (now + 1) * engineUnit
    (∀ d, free → s.outstanding e < 512 → d < 8192 →
      ds.find? (fun d => v.descReady e (s.desc e d).work = .ready) = some d →
      awSpace (dSrc (s.desc e d).work) ≠ 2 → awSpace (dDst (s.desc e d).work) ≠ 2 →
        Completes (.transferIssue t e) s fun s' =>
          let k := s.desc e d
          let x : Flight := { idx := k.issued, at_ := now, size := dSize k.work }
          s'.desc e d = { k with issued := k.issued + 1, outstanding := k.outstanding ++ [x]
                                 st := if k.issued + 1 = dTotal k.work then .draining else .active } ∧
            s'.stack e = { m with
              turn := (d + 1) % 8192
              busyUntil := max m.busyUntil (now * engineUnit) + occupancy (dSize k.work) m.migrating.isSome
              short := if dSize k.work < 2048 then satInc m.short else m.short } ∧
            ∀ d', d' < 8192 → d' ≠ d → s'.desc e d' = s.desc e d') ∧
    ((¬ free ∨ 512 ≤ s.outstanding e) → exec (.transferIssue t e) s = .next v) ∧
    (ds.find? (fun d => v.descReady e (s.desc e d).work = .ready) = none →
      Completes (.transferIssue t e) s fun s' => s'.descs = s.descs ∧ s'.hbmStacks = s.hbmStacks)

/-- TRANSFER_COMPLETE and DESC_COMP_TOKEN (R171, R213, R214, R217, R219, R221, R223, R225, R227 to R229, R460). -/
def Obligations.TransfersLandTheirBytes : Prop :=
  ∀ (s : State) (t e d i : Nat), e < 16 → d < 8192 →
    let v := s.tick t
    let now := max s.now t
    let k := s.desc e d
    let w := k.work
    let sa := sideAddr (dSrc w) (dSrcStride w) (dCount w) i
    let da := sideAddr (dDst w) (dDstStride w) (dCount w) i
    let o := dComp w
    let m := s.stream o
    let q := m.seqOf (.engine e)
    let tok := mkTok tyCompletion o 0xFFFF q {}
    (∀ x, k.outstanding.find? (fun x => x.idx = i) = some x → Completes (.transferComplete t e d i) s fun s' =>
      (s'.stack e).units = (s.stack e).units + BitVec.ofNat 48 (x.size / 64) ∧
      (s'.stack e).maxLat = BitVec.ofNat 16 (max (s.stack e).maxLat.toNat (min ((now - x.at_) / ns) 0xFFFF)) ∧
      (x.dead = true → s'.hbm = s.hbm ∧ s'.sram = s.sram) ∧
      (x.dead = false → awSpace (dSrc w) ≠ 2 → awSpace (dDst w) ≠ 2 →
        let bad := awSpace (dSrc w) = 0 ∧ (v.readHbm sa x.size).badIn sa x.size = true
        let y := v.sideWrite (dDst w) da (s.sideRead (dSrc w) sa (dSize w))
        (bad → s'.hbm = s.hbm ∧ s'.sram = s.sram ∧
          (s'.desc e d).st = .error ∧ (s'.desc e d).lastErr = BitVec.ofNat 4 4 ∧
          (k.late = none → s'.desc e d =
            { k with st := .error, shadow := none, shadowImg := none, lastErr := BitVec.ofNat 4 4, aborted := false
                     outstanding := (k.outstanding.erase x).map fun x => { x with dead := true } })) ∧
        (¬ bad → s'.hbm = y.hbm ∧ s'.sram = y.sram))) ∧
    (k.outstanding.find? (fun x => x.idx = i) = none →
      exec (.transferComplete t e d i) s = .next (v.settleLate e d)) ∧
    (k.st = .draining → k.aborted = false → k.sent = dTotal w → o ≠ 0xFFF → m.hq ≠ 7 → s.listFaulted e k = false →
      (m.hasCredit = true → Completes (.descCompToken t e d) s fun s' =>
        s' = ((((v.markAll [o] .ready).modStream o fun m => (m.spend).setSeq (.engine e) (q + 1)).sendOn
          (.engine e) o tok now).descDone e d).settleLate e d ∧
        (s'.stream o).seqOf (.engine e) = q + 1 ∧
        (s'.stream o).consumers = m.consumers.map (fun c =>
          Consumer.enter (.engine e) m.writers tok now (tokSeq tok) { c with credits := c.credits - 1 }) ∧
        (k.shadow = none → k.late = none → dControl w 3 = false → s'.desc e d = { k with st := .done })) ∧
      (m.hasCredit = false → exec (.descCompToken t e d) s = .next ((v.markAll [o] .credit).settleLate e d))) ∧
    ((k.st ≠ .draining ∨ k.aborted = true ∨ k.sent ≠ dTotal w ∨ o = 0xFFF ∨ m.hq = 7 ∨ s.listFaulted e k = true) →
      exec (.descCompToken t e d) s = .next (v.settleLate e d)) ∧
    (k.late = none → v.settleLate e d = v)

/-- CHANNEL_MIGRATION and MIGRATION_END (R22, R215). -/
def Obligations.ReserveChannelMigrates : Prop :=
  ∀ (s : State) (t k ch : Nat), k < 16 → ch < 31 →
    let m := s.stack k
    (m.reserveUsed = false → m.migrating = none → exec (.channelMigration t k ch) s =
      .next ((s.tick t).setStack k { m with migrating := some (ch, max s.now t) })) ∧
    ((m.reserveUsed = true ∨ m.migrating ≠ none) → exec (.channelMigration t k ch) s =
      .next ((s.tick t).setStack k { m with degraded := true })) ∧
    (∀ c z, m.migrating = some (c, z) → exec (.migrationEnd t k) s = .next (((s.tick t).wears 6).setStack k
      { m with migrating := none, reserveFor := BitVec.ofNat 5 c, reserveUsed := true })) ∧
    (m.migrating = none → exec (.migrationEnd t k) s = .next (s.tick t))

/-- ROTATION_ADVANCE, MIRROR_DONE, HANDOVER, CALIBRATION_DONE, CAL_STARVED (R22, R94, R252 to R257, R266). -/
def Obligations.RotationsCalibrateACore : Prop :=
  ∀ (s : State) (t cl : Nat), cl < 832 →
    let v := s.tick t
    let now := max s.now t
    let c := s.cluster cl
    let busy := c.rotationHeld
    (c.up = true → s.scheduled cl = false → c.rotFrom + c.rotMs.toNat * ms ≤ now →
      (busy = true → c.advHeld = false → exec (.rotationAdvance t cl) s =
        .next (v.setCluster cl { c with rotFrom := now, advHeld := true })) ∧
      (busy = true → c.advHeld = true → exec (.rotationAdvance t cl) s =
        .next (v.setCluster cl { c with rotFrom := now, rotOverrun := satInc c.rotOverrun })) ∧
      (∀ k sp, busy = false → c.turn = some k → c.readySpare = some sp → Completes (.rotationAdvance t cl) s fun s' =>
        let d := s'.cluster cl
        d.spareCore = sp ∧ d.rotFrom = now ∧
        ((c.core k).st ≠ .spareReady → d.cores = c.cores ∧ d.spareFor = some (k, .calibration) ∧
          d.slot = some { core := k, step := .mirror, selfCal := false, startedAt := now, stepEnd := now + ms }) ∧
        ((c.core k).st = .spareReady → (d.core k).st = .calibrating ∧
          d.slot = some { core := k, step := .calibrate, selfCal := true, startedAt := now, stepEnd := now + ms }))) ∧
    (∀ x, c.slot = some x → x.pausedAt = none →
      (c.recov = none → x.recFrom = none → x.step = .mirror → x.stepEnd ≤ now → Completes (.mirrorDone t cl) s fun s' =>
        (s'.core cl c.spareCore).slots = (s.core cl x.core).slots ∧
          (s'.cluster cl).slot = some { x with step := .handover }) ∧
      (∀ p, c.spareNext = none → x.selfCal = false → x.step = .handover → c.posOf x.core = some p → x.core ≠ c.spareCore →
        c.atBoundary x.core = true → (s.core cl c.spareCore).st = .spareReady → (s.core cl x.core).st ≠ .leaving →
        Completes (.handover t cl) s fun s' =>
          (s'.cluster cl).phys p = c.spareCore ∧ (∀ q, q ≠ p → (s'.cluster cl).phys q = c.phys q) ∧
            (s'.core cl c.spareCore).slots = (s.core cl x.core).slots ∧
            (s'.core cl c.spareCore).st = (s.core cl c.spareCore).serviceState ∧
            (s'.core cl x.core).st = .calibrating ∧ (s'.core cl x.core).home = some p ∧
            (∀ f, f < 4 → (s'.feeder cl f).listener = some x.core) ∧
            (s'.cluster cl).slot = some { x with step := .calibrate }) ∧
      (∀ vals, x.step = .calibrate → 2 ^ 16 ≤ x.light → x.ready ≤ now → s.lineChecked cl x = true → x.core < 34 →
        let y := s.core cl x.core
        let bad := ((failedEngines vals).filter fun e => y.engines.contains e).eraseDups
        (bad = [] → x.selfCal = false → Completes (.calibrationDone t cl x.core vals) s fun s' =>
          (s'.core cl x.core).calNew = some vals ∧
            (s'.cluster cl).slot = some { x with step := .mirrorBack, stepEnd := now + ms }) ∧
        (∀ es, bad ≠ [] → Core.spareEngine { y with engFailed := y.engFailed ++ bad } = some es →
          Completes (.calibrationDone t cl x.core vals) s fun s' =>
            (s'.core cl x.core).engines = es ∧ (s'.core cl x.core).engFailed = y.engFailed ++ bad ∧
              (s'.cluster cl).slot = some { x with ready := now + 150 * ms })) ∧
      (x.step = .calibrate → x.light < 2 ^ 16 → x.recFrom = none → x.startedAt + 200 * ms ≤ now → x.selfCal = false →
        Completes (.calStarved t cl) s fun s' =>
          (s'.cluster cl).calStarved = satInc c.calStarved ∧ (s'.core cl x.core).calNew = none ∧
            (s'.cluster cl).slot = some { x with step := .mirrorBack, stepEnd := now + ms }))

/-- Claims, spares, probes, engine sparing, moves and restarts (R22, R25, R100, R109, R247, R260 to R264, R270, R274). -/
def Obligations.SparesServeClaims : Prop :=
  ∀ (s : State) (t cl k : Nat), cl < 832 → k < 34 →
    let v := s.tick t
    let now := max s.now t
    let c := s.cluster cl
    let y := s.core cl k
    (y.st = .leaving → y.cause = some .mislock → c.spareFor = none → c.spareNext = none → c.slot = none →
      c.waiting.any (fun x => x.1 = k) = false →
      (∀ sp, c.readySpare = some sp → exec (.spareClaim t cl [(k, .mislock)]) s = .next (v.setCluster cl
        { c with spareCore := sp, spareFor := some (k, .mislock), spareNext := none, copyEnd := some (now + 192 * ns) })) ∧
      (c.readySpare = none → Completes (.spareClaim t cl [(k, .mislock)]) s fun s' =>
        (s'.cluster cl).waiting = c.waiting ++ [(k, .mislock)] ∧
          (s'.cluster cl).wearWarm = (c.callWear now).wearWarm ∧ (s'.cluster cl).cores = c.cores)) ∧
    (∀ e x, c.copyEnd = some e → c.spareFor = some x → e ≤ now → Completes (.spareCopyDone t cl) s fun s' =>
      s'.core cl c.spareCore =
          { s.core cl c.spareCore with slots := (s.core cl x.1).slots, ready := e + 72 * ns } ∧
        (s'.cluster cl).copyEnd = none) ∧
    (∀ e w, c.wearWarm = some e → c.wear = some w → c.up = true → e ≤ now →
      (c.waiting = [] → c.advHeld = false → (s.core cl w).st = .cold →
        ramped c.wearLim c.lockDraw cl (e - 250 * ms) now = true → Completes (.wearSpareReady t cl) s fun s' =>
          (s'.core cl w).calibrated = true ∧ (s'.core cl w).st ≠ .cold) ∧
      ((s.core cl w).st = .spareReady → (s.core cl w).ready ≤ now →
        (c.waiting = [] → c.advHeld = false → c.spareFor = none → (s.core cl c.spareCore).st ≠ .spareReady →
          Completes (.wearSpareReady t cl) s fun s' =>
            (s'.cluster cl).spareCore = w ∧ (s'.cluster cl).wear = none ∧
              (s'.cluster cl).spareFor = none ∧ (s'.core cl w).st = .spareReady) ∧
        (∀ x p, c.nextClaim = some x → c.posOf x.1 = some p → c.tilesDone x.1 = true → x.1 ≠ w → c.slot = none →
          Completes (.wearSpareReady t cl) s fun s' =>
            (s'.cluster cl).phys p = w ∧ (s'.cluster cl).wear = none ∧
              (s'.core cl w).slots = (s.core cl x.1).slots ∧ (s'.core cl w).st = (s.core cl w).serviceState))) ∧
    (∀ f seen, f < 4 → seen.all (fun x => x.1 < 576 && x.2 ≤ 64) = true → v.mayProbe cl f k = true →
        Completes (.probePacket t cl f k seen) s fun s' =>
          let route := ((c.feeder f).listen (some k)).route
          let e := max (symbolEdge now + if route = some [k] then 0 else 2 * ns) y.swapUntil + 512 * ns
          (s'.feeder cl f).probe = some (k, e) ∧ (s'.feeder cl f).notBefore = e ∧
            (y.st = .spareReady → probePassed seen = true → (s'.feeder cl f).listener = some k ∧
              (s'.core cl k).active.map (·.image) = some testImage ∧
              (s'.core cl k).lastGood = ((s.ang.todSeconds now).toNat, s.ang.todNanos now, s.ang.cycLo.toNat)) ∧
            (y.st = .spareReady → probeWrong seen ≠ [] → (s'.core cl k).st = .recovering ∧
              (s'.cluster cl).mislocks = satAdd c.mislocks (probeWrong seen).length)) ∧
    (∀ row, row < 8 → c.up = true → (y.st = .inService ∨ y.st = .unsettled) → Completes (.engineSpared t cl k row) s fun s' =>
      let z := s'.core cl k
      let e := y.engines.getD row 0
      z.st = .leaving ∧ z.cause = some .engineFault ∧ e ∈ z.engFailed ∧ (∀ x ∈ y.engFailed, x ∈ z.engFailed) ∧
        (∀ r, z.run = some r → r.suspect = true) ∧ (y.grant.isSome = true → ∀ r, z.tile = some r → r.suspect = true) ∧
        ∀ x, c.slot = some x → k = c.spareCore → x.carried = true →
          (s'.cluster cl).slot = some { x with step := .handBack } ∧
            (s'.cluster cl).repeatTurn = c.repeatTurn ++ [x.core]) ∧
    (∀ r goal e, r < 576 → (y.ring r).moving = some (goal, e) → e ≤ now → (c.restart = none ∨ c.remap = true) →
      Completes (.profileMoveEnd t cl k r) s fun s' => (s'.core cl k).goodRun = 0 ∧ (s'.core cl k).ring r =
        { y.ring r with prof := goal, moving := none, resumeAt := e + 1998 * us, good := false, found := false }) ∧
    (∀ b, c.bandSince = some b → c.parkedHeat = true → c.up = true → b + sec ≤ now →
      Completes (.clusterReturn t cl) s fun s' =>
        let d := s'.cluster cl
        d.restart = some (now + 300 * ms) ∧ d.slot = none ∧ d.recov = none ∧ d.quiet = none ∧ d.advHeld = false ∧
          d.cores = c.cores ∧ ∀ f, f < 4 → (d.feeder f).route = none ∧ (d.feeder f).listener = none) ∧
    (∀ e, c.restart = some e → e ≤ now → c.retired = false →
      (c.remap = true → c.movesOver now = true) → (c.remap = false → e - 300 * ms + v.restartTu cl ≤ now) →
      Completes (.clusterRestartEnd t cl) s fun s' =>
        let d := s'.cluster cl
        d.restart = none ∧ d.locked = true ∧ d.calibrated = true ∧ d.taster = false ∧
          (s.aon.profile = 0 → d.parked = false) ∧ d.parkedHeat = false ∧ d.spareFor = none ∧
          (∀ k, k < 34 → (c.core k).warm = true → (d.core k).calibrated = true) ∧
          ∀ p, d.phys p = c.phys p ∨ (d.core (c.phys p)).st = .retired)

/-- Ring updates, quiet windows, lines and combs (R73, R74, R76, R77, R240 to R243, R248, R271 to R273). -/
def Obligations.RingLoopsAndQuietWindows : Prop :=
  ∀ (s : State) (t cl : Nat), cl < 832 → (s.cluster cl).up = true →
    let v := s.tick t
    let now := max s.now t
    let c := s.cluster cl
    (∀ k xs, k < 34 → (c.core k).warm = true →
      let v' := v.modCore cl k (Core.sample now xs)
      let due := c.quiet = none ∧ c.innerOff ≤ now ∧ (c.core k).lastInner + 999 * us ≤ now ∧
        (v'.core cl k).recordFull = true
      (¬ due → exec (.innerUpdate t cl k xs) s = .next v') ∧
      (due → Completes (.innerUpdate t cl k xs) s fun s' =>
        (s'.core cl k).lastInner = now ∧
          ∀ r ∈ (c.core k).active8, ((c.core k).ring r).moving = none → ((c.core k).ring r).resumeAt ≤ now →
            ((c.core k).ring r).slope.getD ((s.calBase cl k).slope r) ≠ 0 →
            let err := v'.lockErrOf cl k r
            ((s'.core cl k).ring r).lockErr = err ∧
              ((s'.core cl k).ring r).good = decide (err.natAbs ≤ c.settleThresh.toNat * 65536))) ∧
    (c.lastOuter + 10 * ms ≤ now →
      (c.quiet ≠ none → exec (.outerUpdate t cl) s = .next (v.setCluster cl { c with lastOuter := now })) ∧
      (c.quiet = none → Completes (.outerUpdate t cl) s fun s' =>
        (s'.cluster cl).lastOuter = now ∧ (s'.cluster cl).settleThresh = c.settleNext ∧
          (s'.cluster cl).mislockFrac = c.fracNext)) ∧
    (∀ xs : List Int, xs.length = 4 → c.lastFf + 100 * us ≤ now → Completes (.feedforwardUpdate t cl xs) s fun s' =>
      (s'.cluster cl).sensors = xs ∧ (s'.cluster cl).lastFf = now ∧
        ∀ k, k < 34 → (c.core k).warm = true → (s'.core cl k).ff = (c.core k).ff +
          clampInt (-(((c.core k).kff : Int) * (xs.sum - (c.core k).tCal)) - (c.core k).ff) (-160000) 160000) ∧
    (∀ n, ((c.quiet ≠ none ∨ ∃ e, c.quietClosed = some e ∧ now < e + 9 * ms) →
        exec (.quietWindowOpen t [cl] n) s =
          .next ((v.setCluster cl { c with quietRefused := satInc c.quietRefused }).raise 0x8029 (toLe 2 cl))) ∧
      (c.quiet = none → (∀ e, c.quietClosed = some e → e + 9 * ms ≤ now) → exec (.quietWindowOpen t [cl] n) s =
        .next (v.setCluster cl { c with
          quiet := some { openedAt := now, len := max 1 (min n 100) * 10 * us, base := c.sensors }
          quietClip := if 100 < n then satInc c.quietClip else c.quietClip
          slot := c.slot.map fun x => { x with pausedAt := some now } }))) ∧
    (∀ q, c.quiet = some q → q.openedAt + q.len ≤ now → c.advHeld = false → Completes (.quietClose t cl) s fun s' =>
      (s'.cluster cl).quiet = none ∧ (s'.cluster cl).quietClosed = some (q.openedAt + q.len) ∧
        (s'.cluster cl).innerOff = q.openedAt + q.len + 2 * ms ∧
        (s'.cluster cl).quietLast = some (q.openedAt, q.openedAt + q.len)) ∧
    (∀ line, line < 68 → c.usedLines.contains line = false → exec (.lineRemapped t cl line) s = .next v) ∧
    (∀ line, line < 68 → c.usedLines.contains line = true → Completes (.lineRemapped t cl line) s fun s' =>
      let d := s'.cluster cl
      (c.spareLines ≠ 0 → d.spareLines = c.spareLines - 1 ∧ d.lineShift = c.lineShift ++ [line] ∧ d.comb = c.comb ∧
        d.restart = some (now + 300 * ms)) ∧
      (c.spareLines = 0 → c.comb = 0 → d.comb = 1 ∧ d.spareLines = 4 ∧ d.restart = some (now + 300 * ms)) ∧
      (c.spareLines = 0 → c.comb ≠ 0 → d.retired = true ∧ d.permit = false ∧ d.restart = c.restart)) ∧
    (∀ n, n < 65536 → c.combCheck + 10 * sec ≤ now →
      let d := v.setCluster cl { c with
        combCheck := now, combRatio := BitVec.ofNat 16 n, combWorn := c.combWorn || 1600 < n }
      (1600 < n → c.combWorn = false → exec (.combWorn t cl n) s = .next (d.ringEvent 0x8025 cl 0 0 n)) ∧
      ((n ≤ 1600 ∨ c.combWorn = true) → exec (.combWorn t cl n) s = .next d)) ∧
    (c.combWorn = true → c.comb = 0 → s.inUse cl = false → c.idleSince + 300 * ms ≤ now →
      Completes (.wornCombSwitch t cl) s fun s' =>
        (s'.cluster cl).comb = 1 ∧ (s'.cluster cl).combWorn = false ∧ (s'.cluster cl).spareLines = 4 ∧
          (s'.cluster cl).restart = some (now + 300 * ms))

/-- R282: a loop with limits out of order. -/
def Obligations.BadLimitsHoldTheLoop : Prop :=
  ∀ (s : State) (t n : Nat), n < 16 →
    let bad (l : FieldLoop) : Prop := l.imax.toInt < l.imin.toInt ∨ l.omax.toInt < l.omin.toInt
    (s.cfgCurrent = true → bad (s.fieldLoop n) → flag (s.fieldLoop n).statWord 4 = true) ∧
    (bad (s.fieldLoop n) → ∀ k, k < 16 → Completes (.loopUpdate t k) s fun s' =>
      let l := s.fieldLoop n
      let l' := s'.fieldLoop n
      l'.out = l.out ∧ l'.int = l.int ∧ l'.sec = l.sec ∧ l'.sp = l.sp ∧ l'.meas = l.meas ∧ l'.err = l.err ∧
        l'.last = l.last ∧ l'.cfgErr = l.cfgErr) ∧
    (∀ fn v r, s.hostUp = true → s.fw.loopOwner = some fn → writer fn = true → r ∈ [0x010, 0x014, 0x018, 0x01C] →
      Completes (.registerWrite t fn (0x430000 + 0x400 * n + r) v) s fun s' =>
        (bad (s'.fieldLoop n) → flag (s'.fieldLoop n).statWord 4 = true) ∧
          (¬ bad (s'.fieldLoop n) → s'.chainBad n = false → (s'.fieldLoop n).ordered = true →
            (s'.fieldLoop n).injErr = false → flag (s'.fieldLoop n).statWord 4 = false))

/-- LOOP_UPDATE, LOOP_TIMER, SV_STALE (R172, R278 to R286, R289, R291, R327). -/
def Obligations.LoopsUpdateInOrder : Prop :=
  ∀ (s : State) (t n : Nat), n < 16 →
    let v := s.tick t
    let now := max s.now t
    let l := s.fieldLoop n
    let p := s.prf n
    let g := if p.moving then p.target else p.pos
    let base := (match s.outersOf n with | [k] => (s.fieldLoop k).out.toInt | _ => g.toInt)
    let e := base - s.slotValue (field l.src 0 6)
    let c := cascade (l.bank l.useSet) l.sec e
    let d := (toQ ((l.coefAt l.useSet 30).toInt * c.1)).1
    let r := controlLaw l.limits c.1 d l.int.toInt 0
    let period := field l.period 0 20 * us
    let due := l.scalarAt / ms + field l.svTmo 0 16 + 1
    (v.loopFirst n = true → (p.moving = true → planTime p.plan ≤ p.clock now) → flag l.injCtrl 0 = false → field l.oscCfg 16 8 = 0 →
      qMin ≤ e → e ≤ qMax → Completes (.loopUpdate t n) s fun s' =>
        let l' := s'.fieldLoop n
        l'.sp = BitVec.ofInt 32 base ∧ l'.meas = BitVec.ofInt 32 (s.slotValue (field l.src 0 6)) ∧
          l'.err = BitVec.ofInt 32 e ∧ l'.sec = c.2.1 ∧ l'.int = BitVec.ofInt 32 r.1 ∧
          l'.out = BitVec.ofInt 32 (s.unipolarLimit l r.2) ∧ l'.satCnt = satAdd l.satCnt c.2.2 ∧
          l'.set = BitVec.ofNat 2 l.useSet ∧ l'.due = false ∧ l'.last = some now ∧ (s'.prf n).pos = g ∧
          (s'.prf n).moving = false) ∧
    ((flag l.ctrl 0 = true → flag l.ctrl 8 = true → flag l.ctrl 9 = false → l.timerFrom + period ≤ now →
        exec (.loopTimer t n) s = .next ((v.setLoop n { l with timerFrom := l.timerFrom + period }).loopDue n 4)) ∧
      ((flag l.ctrl 0 = false ∨ flag l.ctrl 8 = false ∨ flag l.ctrl 9 = true ∨ now < l.timerFrom + period) →
        exec (.loopTimer t n) s = .next v)) ∧
    (∀ late, late = v.withScalars.scalarLate n →
      (s.hostUp = true → field l.svTmo 0 16 ≠ 0 → l.svStale = false → due ≤ now / ms → late = true →
        exec (.svStale t n) s = .next ((v.setLoop n
          (if flag l.ctrl 5 then { l with svStale := true } else { l with svStale := true, set := 0, setNext := 0 })).raise
            0x8031 [BitVec.ofNat 8 n])) ∧
      ((s.hostUp = false ∨ field l.svTmo 0 16 = 0 ∨ l.svStale = true ∨ now / ms < due ∨ late = false) →
        exec (.svStale t n) s = .next v))

/-- Writes to the loop engine (R287, R294 to R302). -/
def Obligations.LoopEngineWrites : Prop :=
  ∀ (s : State) (t fn n : Nat) (w : Word), s.hostUp = true → writer fn = true → n < 16 →
    let v := s.tick t
    let now := max s.now t
    let l := s.fieldLoop n
    let p := s.prf n
    let g := s.loopEng
    let ctrl := BitVec.ofNat 32 (field w 0 24)
    let inj := BitVec.ofNat 32 (field w 0 15)
    let cap := BitVec.ofNat 32 (field w 1 19 * 2)
    let plain : Prop := field w 1 2 ≠ 3 ∧ field w 3 2 ≠ 3
    let x := clampInt w.toInt p.pmin.toInt p.pmax.toInt
    (s.fw.loopOwner ≠ some fn → ∀ c : Instr, (c = .loopHold t fn n w ∨ (flag w 0 = true ∧ c = .loopEnable t fn n w) ∨
        (flag w 0 = false ∧ c = .loopDisable t fn n w) ∨ c = .loopOscRelease t fn n w ∨
        (flag w 0 = true ∧ c = .injectionStart t fn n w) ∨ (flag w 0 = false ∧ c = .injectionStop t fn n w) ∨
        c = .captureArm t fn w ∨ c = .prfTargetWrite t fn n w ∨ c = .prfLimitWrite t fn n 0 w ∨
        (flag w 1 = true ∧ c = .prfStop t fn n w)) →
      exec c s = .next { v with loopEng := { g with wrDenied := satInc g.wrDenied } }) ∧
    (s.fw.loopOwner = some fn →
      (flag w 0 = true → field w 2 3 ≤ 5 → flag l.ctrl 0 = false → Completes (.loopEnable t fn n w) s fun s' =>
        let l' := s'.fieldLoop n
        let ch := field l.src 6 5
        let u := codeToLoop (s.fout ch).range.toNat (usedCode ch ((s.fout ch).atPin now))
        let m := BitVec.ofInt 32 (s.slotValue (field l.src 0 6))
        l'.ctrl = ctrl ∧ l'.sec = [] ∧
          l'.int = BitVec.ofInt 32 (if ch < 16 then clampInt u l.imin.toInt l.imax.toInt else 0) ∧
          l'.out = l.out ∧ l'.due = false ∧ (s'.prf n).pos = m ∧ (s'.prf n).target = m ∧
          (s'.prf n).moving = false ∧ (s'.prf n).vel = 0 ∧ (s'.prf n).acc = 0) ∧
      (flag w 0 = false → field w 2 3 ≤ 5 → Completes (.loopDisable t fn n w) s fun s' =>
        let l' := s'.fieldLoop n
        l'.ctrl = ctrl ∧ l'.due = false ∧ l'.out = l.out ∧ l'.int = l.int ∧ l'.sec = l.sec) ∧
      (flag w 1 = true → flag w 0 = flag l.ctrl 0 → field w 2 3 ≤ 5 → Completes (.loopHold t fn n w) s fun s' =>
        let l' := s'.fieldLoop n
        l'.ctrl = ctrl ∧ l'.due = false ∧ l'.out = l.out ∧ l'.int = l.int ∧ l'.sec = l.sec ∧
          (p.heldAt = none → ∀ x, (s'.prf n).motion x = p.motion now)) ∧
      (w1c now l.fresh w 2 true = false → l.osc = true → Completes (.loopOscRelease t fn n w) s fun s' =>
        let l' := s'.fieldLoop n
        l'.osc = false ∧ l'.set = 0 ∧ l'.setNext = 0 ∧ l'.schedHold = true ∧ l'.out = l.out ∧ l'.int = l.int ∧
          l'.sec = l.sec) ∧
      (flag w 0 = true → plain → flag l.injCtrl 0 = false → Completes (.injectionStart t fn n w) s fun s' =>
        let l' := s'.fieldLoop n
        (l.freqsOk (field w 1 2) (s.ratePeriod 4 n) = true → l'.injCtrl = inj ∧ l'.injErr = false ∧ l'.injIdx = 0) ∧
          (l.freqsOk (field w 1 2) (s.ratePeriod 4 n) = false → flag l'.injCtrl 0 = false ∧ l'.cfgErr = true)) ∧
      (flag w 0 = false → plain → exec (.injectionStop t fn n w) s = .next (v.setLoop n { l with injCtrl := inj })) ∧
      (flag w 0 = true → flag w 20 = false → field w 6 3 ≤ 5 → field w 9 3 ≤ 5 →
        (g.armed = false → Completes (.captureArm t fn w) s fun s' =>
          s'.loopEng = { g with capCtrl := cap, armed := true, capRunning := !flag cap 1, capCount := 0, capSkip := 0 }) ∧
        (g.armed = true → exec (.captureArm t fn w) s =
          .next { v with loopEng := { g with capCtrl := cap, capRefused := satInc g.capRefused } })) ∧
      Completes (.prfTargetWrite t fn n w) s (fun s' =>
        (s'.prf n).target = BitVec.ofInt 32 x ∧ (s'.prf n).pos = p.pos ∧
          (s'.prf n).clamps = (if x = w.toInt then p.clamps else satInc p.clamps) ∧
          (s'.prf n).start = p.motion now ∧ (s'.prf n).vmax = p.vNew.getD p.vmax ∧
          (p.bypass = true → (s'.prf n).moving = true ∧ (s'.prf n).plan = [])) ∧
      (limitOk w = true → p.targetAt ≠ some (now / cycle) →
        exec (.prfLimitWrite t fn n 0 w) s = .next (v.setPrf n { p with vNew := some w }) ∧
          exec (.prfLimitWrite t fn n 1 w) s = .next (v.setPrf n { p with aNew := some w }) ∧
          exec (.prfLimitWrite t fn n 2 w) s = .next (v.setPrf n { p with jNew := some w })) ∧
      (limitOk w = false → ∀ which, which < 3 → exec (.prfLimitWrite t fn n which w) s = .next (v.setPrf n p)) ∧
      (flag w 1 = true → Completes (.prfStop t fn n w) s fun s' =>
        let g := (p.motion now).toVel (limitOf p.amax) (limitOf p.jmax) 0
        let x := roundEven g.2.pos (2 ^ 68)
        (s'.prf n).pos = p.pos ∧ (s'.prf n).bypass = flag w 0 ∧ (s'.prf n).plan = g.1 ∧
          (qMin ≤ x → x ≤ qMax → (s'.prf n).target = BitVec.ofInt 32 x) ∧
          (p.moving = false → (s'.prf n).target = p.pos ∧ (s'.prf n).moving = false)))

/-- FIELD_FILL, FIELD_SCALAR, FIELD_OUTPUT (R145, R157, R167, R209, R290, R291, R315, R332, R333). -/
def Obligations.FieldOperations : Prop :=
  ∀ (s : State) (t img : Nat),
    let u := UnitId.field
    let p := s.prog u img
    let o := p.op
    let i := field o 8 12
    let n := field o 22 8
    let v := s.tick t
    let now := max s.now t
    let size := (s.pool (s.stream i).pool.toNat).bufSize
    let xs := (s.conv n).staging.take ((size - 16) / 4)
    let f := s.fout n
    let room := 32 - f.queue.length
    let done := { p with pos := p.pos + 1, busyUntil := now, fired := v.nextTurn u img, left := [], held := none }
    let unticked : Prop := ∀ x, f.ticked = some x → x.at_ / cycle ≠ now / cycle
    let moved (h : Nat × Nat) (ws : List Word) (s' : State) : Prop :=
      (f.source = 1 → unticked →
        (s'.fout n).queue = f.queue ++ (ws.take room).map (fun w => BitVec.ofNat 24 w.toNat) ∧
          s'.prog u img = if ws.drop room = [] then done else { p with left := ws.drop room, held := some h }) ∧
      (f.source ≠ 1 → (s'.fout n).queue = f.queue ∧ s'.prog u img = done)
    (s.fires t u img opField [] [i] = true → field o 20 2 = 0 → (s.conv n).staging ≠ [] →
      Completes (.fieldFill t u img) s fun s' =>
        v.FiredAs s' u img i 0 ∧ (s'.conv n).staging = (s.conv n).staging.drop ((size - 16) / 4) ∧
          v.HoldsResult s' i ((match xs with | x :: _ => x.header | [] => []) ++ bytesOfWords (xs.map (·.word)))) ∧
    (s.stands t u img opField = true → field o 20 2 = 0 → (s.conv n).staging = [] →
      exec (.fieldFill t u img) s = .next (v.markAll [i] .input)) ∧
    (s.fires t u img opField [i] [] = true → field o 20 2 = 1 → Completes (.fieldScalar t u img) s fun s' =>
      let w := BitVec.ofNat 32
        (leAt (s.readBuf (s.stream i).pool.toNat (tokHandle ((v.tokensOf u [i]).headD 0)) 0 4) 0 4)
      (fpIsNaN w = true → s'.fieldLoop n = { s.fieldLoop n with nanCnt := satInc (s.fieldLoop n).nanCnt }) ∧
        (fpIsNaN w = false →
          let l := s.fieldLoop n
          let l' := { l with scalar := BitVec.ofInt 32 (toQ428 w), scalarAt := now, svStale := false }
          let used := field l.src 11 2 = 2 ∧ l.last.isSome = true ∧ now / cycle ≤ l.startAt / cycle ∧ l.osc = false
          (¬ used → s'.fieldLoop n = l') ∧
          (used → s'.fieldLoop n = { l' with
            sv := l'.scalar
            setNext := BitVec.ofNat 2 ({ l' with schedHold := l.schedSkip }.nextSet l.set.toNat (some (toQ428 w))) })) ∧
        s'.prog u img = { p with pos := p.pos + 1, busyUntil := now, fired := v.nextTurn u img } ∧ s'.hbm = s.hbm ∧ s'.sram = s.sram) ∧
    (s.stands t u img opField = true → field o 20 2 = 2 →
      (∀ j h, p.held = some (j, h) → Completes (.fieldOutput t u img) s fun s' =>
        moved (j, h) p.left s' ∧ (s'.fout n).queueDrop =
          if f.source = 1 then f.queueDrop else f.queueDrop + p.left.length) ∧
      (∀ k, p.held = none → v.dataAt i u = some k →
        (tokType k = tyError → exec (.fieldOutput t u img) s =
          .next (((v.takeHead u i).releaseTok i k now).finish u img now)) ∧
        (tokType k ≠ tyError → Completes (.fieldOutput t u img) s fun s' =>
          let c := handleCodes size (s.readBuf (s.stream i).pool.toNat (tokHandle k) 0 size)
          let drop := if c.2 then f.queueDrop + 1 else f.queueDrop
          moved (i, tokHandle k) c.1 s' ∧
            (s'.fout n).queueDrop = if f.source = 1 then drop else drop + c.1.length)))

/-- Field converters (R303, R306, R309 to R315, R327 to R329). -/
def Obligations.ConvertersRunSequences : Prop :=
  ∀ (s : State) (t fn k : Nat) (w : Word), k < 4 → writer fn = true → s.hostUp = true →
    let v := s.tick t
    let now := max s.now t
    let c := s.conv k
    (∀ x : Conv, flag x.ctrl 0 = true → x.lastTrig ≠ some (now / cycle) →
      (x.run = none → x.readNow = none → (∀ e, x.ended = some e → e / cycle ≠ now / cycle) → Conv.trigger now x =
        { x with lastTrig := some (now / cycle), run := some (now + 20 * ns), slot := 0, runs := x.runs + 1 }) ∧
      (∀ e, x.run = none → x.ended = some e → e / cycle = now / cycle → Conv.trigger now x =
        { x with lastTrig := some (now / cycle), run := some e, slot := 0, runs := x.runs + 1 }) ∧
      (∀ z, x.run = some z → x.ended ≠ some z → x.held = false →
        Conv.trigger now x = { x with lastTrig := some (now / cycle), held := true }) ∧
      (∀ z, x.run = some z → x.ended ≠ some z → x.held = true → now / cycle < (z + x.size * us) / cycle →
        Conv.trigger now x = { x with lastTrig := some (now / cycle), overrun := x.overrun + 1 })) ∧
    (s.convOwned k = false →
      (s.fw.ioOwner = some fn → flag w 0 = true → flag c.ctrl 5 = true →
        exec (.softwareTrigger t fn k w) s = .next (v.setConv k (c.trigger now))) ∧
      (flag c.ctrl 0 = true → flag c.ctrl 6 = true → c.timerFrom + c.timer.toNat * us ≤ now →
        Completes (.converterTimer t k) s fun s' =>
          s'.conv k = Conv.trigger now { c with timerFrom := c.timerFrom + c.timer.toNat * us }) ∧
      (∀ pin falling, pin < 4 → Completes (.triggerPinEdge t pin falling) s fun s' =>
        s'.conv k = if flag c.ctrl 10 && field c.ctrl 11 2 = pin && flag c.ctrl 13 == falling then c.trigger now else c) ∧
      (∀ z lvl d, c.readNow = none → c.run = some z → c.slot < c.size → z + (c.slot + 1) * us ≤ now →
        Completes (.conversionResult t k lvl d) s fun s' =>
          let cfg := Tab.get (0 : Word) c.slots c.slot
          let settling := s.settling (field cfg 0 5) (z + c.slot * us + 150 * ns)
          let word := resultWord (resultCode lvl d) c.slot k (beyondSpan lvl) settling c.runs
          let c' := s'.conv k
          Tab.get 0 c'.last c.slot = word ∧ c'.slot = c.slot + 1 ∧
            c'.fifo = (if flag cfg 5 = true ∧ c.fifo.length < 64 then c.fifo ++ [word] else c.fifo) ∧
            c'.fifoOvf = if flag cfg 5 = true ∧ 64 ≤ c.fifo.length then c.fifoOvf + 1 else c.fifoOvf)) ∧
    (s.fw.ioOwner ≠ some fn → exec (.softwareTrigger t fn k w) s =
      .next { v with ang := { s.ang with wrDenied := satInc s.ang.wrDenied } }) ∧
    (∀ n z lvl d, s.convOwned k = false → c.readNow = some (n, z) → z + us ≤ now →
      exec (.conversionResult t k lvl d) s = .next ((v.modFout n (Fout.beforeTick now
        (Fout.compare now (z + 150 * ns) (resultCode lvl d).toNat))).modConv k (Conv.boundary (z + us)))) ∧
    (∀ z, c.run = some z → c.size ≤ c.slot → z + c.slot * us ≤ now → exec (.runEnd t k) s = .next (v.setConv k
      (if c.held then { c with run := some (z + c.slot * us), slot := 0, held := false, runs := c.runs + 1
                               ended := some (z + c.slot * us) }
        else { c with run := none, slot := 0, ended := some (z + c.slot * us) }))) ∧
    (∀ x y z, s.convOwned 0 = true → s.ang.lastThree + 20 * us ≤ now → exec (.threePhaseSample t x y z) s =
      .next (({ v with ang := { s.ang with lastThree := now } }).modConv 0
        fun k => { k with runs := k.runs + 1, three := some (now, 0), threeIn := [x, y, z] })) ∧
    (∀ z j lvl d, s.convOwned k = true → c.three = some (z, j) → j ≤ 2 →
      (z + j * us + 850 * ns ≤ now → Completes (.conversionResult t k lvl d) s fun s' =>
        let x := c.threeIn.getD j 0
        Tab.get 0 (s'.conv k).last j =
            resultWord (resultCode x d) j 0 (beyondSpan x) (s.settling j (z + j * us)) c.runs ∧
          (s'.conv k).three = if j < 2 then some (z, j + 1) else none) ∧
      (now < z + j * us + 850 * ns → exec (.conversionResult t k lvl d) s = .next v)) ∧
    (∀ lvl d : Int, beyondSpan lvl = (decide (lvl < 0) || decide (4095 < lvl)) ∧
      (lvl < 0 → resultCode lvl d = 0x000) ∧ (4095 < lvl → resultCode lvl d = 0xFFF) ∧
      (0 ≤ lvl → lvl ≤ 4095 → (((resultCode lvl d).toNat : Int) - lvl).natAbs ≤ 2 ∧
        (d = 0 → ((resultCode lvl d).toNat : Int) = lvl))) ∧
    Completes (.finFifoRead t fn k) s (fun s' =>
      let b := if s.now / cycle < now / cycle then c else Tab.get {} s.snap.convs k
      s'.readOut = { who := fn, data := toLe 4 (b.fifo.headD 0).toNat } ∧
        s'.conv k = (if b.fifo = [] then c else { c with fifo := c.fifo.tail }) ∧
        (Tab.get {} s'.snap.convs k).fifo = b.fifo.tail) ∧
    (∀ n, n < 16 → s.fw.ioOwner = some fn → exec (.finIncfgWrite t fn n w) s = .next { v with
      incfg := if field w 0 2 = 3 then s.incfg else Tab.put 0 s.incfg n (BitVec.ofNat 2 (field w 0 2))
      incfgAt := Tab.put [] s.incfgAt n (((Tab.get [] s.incfgAt n).filter fun w => now < w + 30 * us) ++ [now]) })

/-- The angle timebase and the time of day (R185, R316 to R320, R322, R326 to R329). -/
def Obligations.AngleTimebaseMoves : Prop :=
  ∀ (s : State) (t fn : Nat) (w : Word), writer fn = true → s.hostUp = true →
    let v := s.tick t
    let now := max s.now t
    let a := s.ang
    let inc := a.freqSet.toNat * 65536 / 1000000
    let lost := ({ v with ang := { a with
      lost := true, lostAt := now, loss := true, fresh := freshen now 2 a.fresh, holdover := true, locked := false, pull := none
      goodCycles := 0 } }).raise 0x8033
        (layBytes 8 [(0, toLe 1 a.source), (4, toLe 4 a.freq.toNat)])
    let denied := { v with ang := { a with wrDenied := satInc a.wrDenied } }
    (a.lastUpdate + us ≤ now → a.source = 0 → a.reverse = false → a.pull = none → s.sched = [] →
      a.freqSet.toNat * 65536 % 1000000 = 0 → Completes (.angleUpdate t) s fun s' =>
        s'.ang.lastUpdate = now ∧ s'.ang.freq = a.freqSet ∧ s'.ang.phase = BitVec.ofNat 32 (a.phase.toNat + inc) ∧
          s'.ang.cycles = a.cycles + BitVec.ofNat 48 ((a.phase.toNat + inc) / 2 ^ 32) ∧
          s'.fw.groupsNext = [] ∧ ∀ u img, s'.prog u img = (s.prog u img).crossed now a.unwrapped s'.ang.unwrapped) ∧
    (now < a.lastUpdate + us → exec (.angleUpdate t) s = .next v) ∧
    (a.lost = false →
      (a.source = 1 → exec (.threePhaseLoss t) s = .next lost) ∧
      (a.source = 2 → a.encAt / ms + field a.encTmo 0 16 + 1 ≤ now / ms → exec (.encoderLoss t) s = .next lost) ∧
      (a.source = 3 → 3 * sec * 65536 ≤ 2 * ((now / us - (a.ppcAt / us + 1)) * us) * a.freq.toNat →
        exec (.ppcLoss t) s = .next lost) ∧
      (∀ b, a.source = 3 → flag a.ctrl 8 = b →
        let y := { v with ang := { a with ppcAt := now, ppcSeen := true, goodCycles := 0 } }
        (a.ppcSeen = false ∨ offBand (now - a.ppcAt) = false → exec (.ppcEdge t b) s = .next y) ∧
        (a.ppcSeen = true → offBand (now - a.ppcAt) = true → exec (.ppcEdge t b) s = .next y.loseSource))) ∧
    (∀ c d, a.lost = true → (a.source = 2 → 256 ≤ a.goodCycles) → (a.source = 3 → 2 ≤ a.goodCycles) →
      (a.source ≠ 2 ∧ a.source ≠ 3 → offBand c = false ∧ offBand d = false ∧ a.lostAt + c + d ≤ now) →
      Completes (.sourceReacquired ⟨t, c, d⟩) s fun s' =>
        s'.ang.lost = false ∧ (∃ e : Int, s'.ang.pull = some (50 * e)) ∧ s'.ang.holdover = true ∧ s'.ang.locked = false ∧
          s'.ang.phase = a.phase) ∧
    (∀ x y z, Completes (.encoderEdge t x y z) s fun s' =>
      let d := (quadrant x y + 4 - quadrant a.encAB.1 a.encAB.2) % 4
      s'.ang.encAB = (x, y) ∧ (d = 1 → s'.ang.encPos = a.encPos + 1) ∧ (d = 3 → s'.ang.encPos = a.encPos - 1) ∧
        (d ≠ 1 ∧ d ≠ 3 → s'.ang.encPos = a.encPos) ∧
        s'.ang.encErr = (if d = 2 then satInc a.encErr else a.encErr) ∧ s'.ang.encAt = (if d = 0 then a.encAt else now) ∧
        s'.ang.encZ = (if z then some s'.ang.encPos else a.encZ) ∧
        (s'.ang.lost = true ↔ a.lost = true ∨ s'.ang.encTop ≠ a.encTop ∧ field a.enc 0 20 ≤ a.encTurn.1 + 1 ∧
          offBand (now - a.encTurn.2) = true ∧ a.source = 2) ∧
        ((d = 1 ∨ d = 3) → (s'.ang.reverse = true ↔ a.source = 2 ∧ s'.ang.encPos < s'.ang.encTop))) ∧
    (∀ x, a.todPending = some x → Completes (.ppsEdge t) s fun s' =>
      s'.ang.todSec = x ∧ s'.ang.todPending = none ∧ s'.ang.todBase = now ∧ s'.ang.todPull = 0 ∧ s'.ang.ppsLock = true ∧
        s'.ang.todSeconds now = x ∧ s'.ang.todNanos now = 0) ∧
    (s.fw.ioOwner = some fn →
      exec (.angTodSecWrite t fn w) s = .next { v with ang := { a with todPending := some w } } ∧
      (w = a.offset → exec (.angOffsetWrite t fn w) s = .next v) ∧
      (w ≠ a.offset → exec (.angOffsetWrite t fn w) s = .next { v with ang := { a with
        offset := w, pull := some (50 * shortWay (a.pull.getD 0 / 50 + w.toNat - a.offset.toNat)), holdover := true
        locked := false } }) ∧
      (field (a.ctrlWord w) 0 2 = a.source → exec (.angSourceWrite t fn w) s =
        .next { v with ang := { a with ctrl := a.ctrlWord w } }) ∧
      (field (a.ctrlWord w) 0 2 ≠ a.source → Completes (.angSourceWrite t fn w) s fun s' =>
        s'.ang.ctrl = a.ctrlWord w ∧ s'.ang.lost = false ∧ s'.ang.ppcSeen = false ∧ s'.ang.pull ≠ none ∧ s'.ang.phase = a.phase ∧
          s'.ang.cycles = a.cycles)) ∧
    (s.fw.ioOwner ≠ some fn → exec (.angTodSecWrite t fn w) s = .next denied ∧
      exec (.angOffsetWrite t fn w) s = .next denied ∧ exec (.angSourceWrite t fn w) s = .next denied) ∧
    exec (.angCycLoRead t fn) s = .next { v with
      ang := { a with cycHi := BitVec.ofNat 16 (a.cycles.toNat / 2 ^ 32) }
      readOut := { who := fn, data := toLe 4 a.cycLo.toNat } }

/-- Codes, ticks, supervision and safe records of a channel (R312, R332 to R337, R339, R343, R344). -/
def Obligations.OutputsTakeTheirCodes : Prop :=
  ∀ (s : State) (t fn n : Nat) (w : Word), n < 16 → writer fn = true →
    let v := s.tick t
    let now := max s.now t
    let f := s.fout n
    let gap := if precision n then 20 * us else 10 * us
    let unticked : Prop := ∀ x, f.ticked = some x → x.at_ / cycle ≠ now / cycle
    let held : Prop := f.safeAt = some (now / cycle)
    (s.hostUp = true → s.fw.ioOwner ≠ some fn →
      exec (.foutDataWrite t fn n w) s = .next { v with foutDenied := satInc s.foutDenied }) ∧
    (s.hostUp = true → s.fw.ioOwner = some fn →
      (unticked → f.source = 0 → f.queue.length < 32 → Completes (.foutDataWrite t fn n w) s fun s' =>
        (s'.fout n).queue = f.queue ++ [BitVec.ofNat 24 w.toNat] ∧ (s'.fout n).queueDrop = f.queueDrop ∧
          (s'.fout n).out = f.out ∧ (s'.fout n).st = f.st) ∧
      (unticked → (f.source ≠ 0 ∨ 32 ≤ f.queue.length) → exec (.foutDataWrite t fn n w) s =
        .next (v.setFout n { f with queueDrop := f.queueDrop + 1 })) ∧
      (∀ x, f.ticked = some x → x.at_ / cycle = now / cycle → exec (.foutDataWrite t fn n w) s =
        .next (v.setFout n ((Fout.hostCode now w { f with
          queue := x.queue, out := x.out, past := x.past, st := x.st, underflow := x.underflow
          underflows := x.underflows }).tick now)))) ∧
    (f.enable = true → f.clkSel = 0 → f.source ≠ 2 → f.timerFrom + f.period.toNat * us ≤ now →
      Completes (.channelTimer t n) s fun s' =>
        let f' := s'.fout n
        f'.timerFrom = f.timerFrom + f.period.toNat * us ∧ f'.queue = f.queue ∧ f'.out = f.out ∧
          (f.st = .range → f'.tickWait = f.tickWait ∧ f'.clkSkip = f.clkSkip) ∧
          (f.st ≠ .range → (∀ z, f.lastTick = some z → z + gap ≤ now) → f'.tickWait = true ∧ f'.lastTick = some now) ∧
          (∀ z, f.st ≠ .range → f.lastTick = some z → now < z + gap →
            f'.clkSkip = f.clkSkip + 1 ∧ f'.tickWait = f.tickWait)) ∧
    (f.tickWait = true → f.source ≠ 2 → Completes (.outputTick t n) s fun s' =>
      let f' := s'.fout n
      f'.tickWait = false ∧
        (held → f'.out = f.out ∧ f'.st = f.st ∧ f'.queue = f.queue) ∧
        (∀ c q, ¬ held → f.queue = c :: q → (f.st = .running ∨ (f.st = .safe ∧ f.enable = true)) →
          f'.out = c ∧ f'.queue = q ∧ f'.st = .running) ∧
        (¬ held → f.queue = [] → f.st = .running → f'.out = f.out ∧ f'.st = .running ∧ f'.underflow = true ∧
          f'.underflows = f.underflows + 1) ∧
        (f.st ≠ .running → (f.st = .safe → f.enable = false) → f'.out = f.out ∧ f'.st = f.st ∧ f'.queue = f.queue)) ∧
    (∀ z c, precision n = true → f.source = 2 → f.lastTake + 20 * us ≤ now →
      f.loopCode.find? (fun x => x.1 ≤ now) = some (z, c) →
      Completes (.precisionCodeTake t n) s fun s' =>
        (s'.fout n).lastTake = now ∧ (f.st = .running → (s'.fout n).out = c) ∧
          (f.st = .safe → f.enable = true → (s'.fout n).out = c ∧ (s'.fout n).st = .running)) ∧
    (precision n = false → f.drives = true →
      (rangeCurrent f.range.toNat = false → exec (.short t n) s =
        .next (v.setFout n { f with short := true, shortSeen := true, fresh := freshen now (2 ^ 12) f.fresh })) ∧
      (rangeCurrent f.range.toNat = true → exec (.short t n) s =
        .next (v.setFout n { f with open_ := true, openSeen := true, fresh := freshen now (2 ^ 13) f.fresh }))) ∧
    ((precision n = true ∨ f.drives = false) → exec (.short t n) s = .next v) ∧
    exec (.shortEnd t n) s = .next (v.setFout n { f with short := false, open_ := false }) ∧
    (s.aon.power = true → f.st = .hiz →
      (f.nvm.valid = false → exec (.safeRecordLoad t n) s = .next (v.setFout n { f with safeInvalid := true })) ∧
      (f.nvm.valid = true → f.forceSafe = false → Completes (.safeRecordLoad t n) s fun s' =>
        (s'.fout n).st = .safe ∧ (s'.fout n).range = f.nvm.range ∧ (s'.fout n).out = f.nvm.code f.nvm.range.toNat ∧
          (s'.fout n).safeInvalid = false))

/-- Writes of FOUT_CFG and FOUT_STAT, and RANGE_END (R331, R334, R342, R343, R345, R347 to R349). -/
def Obligations.OutputConfigurationWrites : Prop :=
  ∀ (s : State) (t fn n : Nat) (w : Word), n < 16 → writer fn = true → s.hostUp = true →
    let v := s.tick t
    let now := max s.now t
    let f := s.fout n
    let r := BitVec.ofNat 3 (field w 0 3)
    let loop := if field w 3 2 = 3 then f.source = 2 else field w 3 2 = 2
    let q := if (f.source = 2) = loop then f.queue else []
    let unticked : Prop := ∀ x, f.ticked = some x → x.at_ / cycle ≠ now / cycle
    (s.fw.ioOwner ≠ some fn → ∀ c : Instr,
      ((c = .foutRangeWrite t fn n w ∧ field w 0 3 ≠ f.range.toNat) ∨ c = .foutEnableWrite t fn n w ∨
        (c = .forceSafeWrite t fn n w ∧ flag w 8 = true) ∨ (c = .readbackFaultRelease t fn n w ∧ flag w 14 = true)) →
      exec c s = .next { v with foutDenied := satInc s.foutDenied }) ∧
    (∀ x, s.fw.ioOwner = some fn → f.ticked = some x → x.at_ / cycle = now / cycle →
      let old := { f with queue := x.queue, out := x.out, past := x.past, st := x.st, underflow := x.underflow
                          underflows := x.underflows }
      (∀ c : Instr, ((c = .foutRangeWrite t fn n w ∧ field w 0 3 ≠ f.range.toNat) ∨ c = .foutEnableWrite t fn n w ∨
          (c = .forceSafeWrite t fn n w ∧ flag w 8 = true)) → Completes c s fun s' =>
        ∃ b, s'.fout n = { Fout.tick now (Fout.writeCfg now w old) with loopIdle := b }) ∧
      (flag w 14 = true → Completes (.readbackFaultRelease t fn n w) s fun s' =>
        s'.fout n = Fout.tick now (Fout.writeStat now w old))) ∧
    (s.fw.ioOwner = some fn → unticked →
      (field w 0 3 ≠ f.range.toNat → field w 0 3 ≠ 7 → flag w 7 = true → flag w 8 = false →
        Completes (.foutRangeWrite t fn n w) s fun s' =>
          let f' := s'.fout n
          (f.st = .safe → f.freed = some (now / cycle, .fault) →
            f'.st = .safe ∧ f'.range = r ∧ f'.out = f.nvm.code r.toNat) ∧
          ((f.st = .safe ∧ (∀ x, f.freed ≠ some (now / cycle, x)) ∨ f.st = .running ∨ f.st = .range) →
            f'.st = .range ∧ f'.range = r ∧ f'.rangeEnd = some (now + 60 * us)) ∧
          (f.st = .fault → f'.st = .fault ∧ f'.range = r ∧ f'.rangeEnd = some (now + 60 * us)) ∧
          (f.st = .hiz → f'.st = .hiz ∧ f'.range = f.range) ∧ f'.queue = q ∧ (f.st ≠ .safe → f'.out = f.out)) ∧
      (flag w 7 = false → flag w 8 = false → r = f.range → Completes (.foutEnableWrite t fn n w) s fun s' =>
        let f' := s'.fout n
        (f.entered.1 ≠ now / cycle + 1 → f'.queue = []) ∧
          (f.entered.1 = now / cycle + 1 → f'.queue = q.drop (q.length - f.entered.2)) ∧
          f'.enable = false ∧ (f.st = .running → f'.st = .safe ∧ f'.out = f.nvm.code f.range.toNat) ∧
          (f.st ≠ .running → f'.st = f.st ∧ f'.out = f.out)) ∧
      (flag w 8 = true → flag w 7 = true → r = f.range → Completes (.forceSafeWrite t fn n w) s fun s' =>
        let f' := s'.fout n
        f'.forceSafe = true ∧
          ((f.st = .safe ∨ f.st = .running) → f'.st = .fault ∧ f'.out = f.nvm.code f.range.toNat) ∧
          (f.st = .range → f'.st = .fault ∧ f'.rangeEnd = f.rangeEnd) ∧ (f.st = .hiz → f'.st = .hiz)) ∧
      (w1c now f.fresh w 14 true = false → f.st = .fault → Completes (.readbackFaultRelease t fn n w) s fun s' =>
        let f' := s'.fout n
        f'.rbFault = false ∧
          (f.forceSafe = false → f'.st = .safe ∧ f'.out = f.nvm.code f.range.toNat) ∧
          (f.forceSafe = true → f'.st = .fault ∧ f'.out = f.out))) ∧
    (∀ e, f.rangeEnd = some e → e ≤ now → Completes (.rangeEnd t n) s fun s' =>
      let f' := s'.fout n
      f'.rangeEnd = none ∧
        (∀ c q, f.st = .range → f.queue = c :: q → f.enable = true → f.source ≠ 2 →
          f'.st = .running ∧ f'.out = c ∧ f'.queue = q) ∧
        (f.st = .range → (f.queue = [] ∨ f.enable = false ∨ f.source = 2) →
          f'.st = .safe ∧ f'.out = f.nvm.code f.range.toNat) ∧
        (f.st = .fault → f'.st = .fault ∧ f'.out = f.nvm.code f.range.toNat)) ∧
    (∀ e, f.rangeEnd = some e → now < e → exec (.rangeEnd t n) s = .next v)

/-- R369: reads of the lock registers. -/
def Obligations.LocksGoToTheirReader : Prop :=
  ∀ (s : State) (t who n : Nat) (c : Instr), (who ≤ 63 ∨ who = 65) → n < 64 → s.hostUp = true →
    (c = .lockRead t who n ∨ c = .rcRead t who (0x300000 + 4 * n)) →
    ((s.tick t).inCycle.all fun i => (readsLock n i).isNone && (writesLock n i).isNone) = true →
    let owner (x : State) (k : Nat) := Tab.get 0 x.locks.owner k
    Completes c s fun s' =>
      (owner s n = 0 → owner s' n = who + 1 ∧ s'.readOut = { who := who, data := [0, 0, 0, 0] }) ∧
        (∀ k, owner s n = k + 1 → owner s' n = k + 1 ∧
          s'.readOut = { who := who, data := toLe 4 (0x80000000 ||| BitVec.ofNat 32 k : Word).toNat }) ∧
        ∀ m, m ≠ n → owner s' m = owner s m

/-- Mailboxes and locks (R354, R356, R359, R362, R365 to R367, R370 to R372, R385; what arrives in one cycle is log entry
28). -/
def Obligations.MailboxesAndLocks : Prop :=
  ∀ (s : State) (t ch : Nat) (w : Word), ch < 160 → s.hostUp = true →
    let v := s.tick t
    let c := s.chan ch
    let tail := BitVec.ofNat 16 w.toNat
    let d := (tail - c.inTail).toNat
    let head := BitVec.ofNat 16 w.toNat
    (d = 0 → Completes (.doorbell t ch w) s fun s' => s'.chan ch = c) ∧
    (ringWriter ch = false → exec (.doorbell t ch w) s = .next v ∧ exec (.mbxOutHeadWrite t ch w) s = .next v) ∧
    (ringWriter ch = true → d ≠ 0 → d ≤ 32 → (tail - c.inHead).toNat ≤ 32 → Completes (.doorbell t ch w) s fun s' =>
      (s'.chan ch).inTail = tail ∧ (s'.chan ch).inHead = c.inHead ∧ (s'.chan ch).badDb = c.badDb ∧
        ∀ i, i < d → (s'.chan ch).page.read (0x40 * ((c.inTail.toNat + i) % 32) + 7) = BitVec.ofNat 8 ch) ∧
    (ringWriter ch = true → (32 < d ∨ (d ≠ 0 ∧ 32 < (tail - c.inHead).toNat)) → exec (.doorbell t ch w) s =
      .next (v.setChan ch { c with badDb := c.badDb + 1 })) ∧
    (∀ (kind : Byte) (vendor : Half) (slot : List Byte), slot.length ≤ 64 →
      ((kind ≠ 0x7E ∨ vendor ≠ 0x1F7A) → exec (.mctpMessage t ⟨kind, vendor, slot⟩) s = .next v) ∧
      ((s.chan 64).inFill < 32 → Completes (.mctpMessage t ⟨0x7E, 0x1F7A, slot⟩) s fun s' =>
        (s'.chan 64).inTail = (s.chan 64).inTail + 1 ∧
          ∀ k, k < 64 → (s'.chan 64).page.read (0x40 * ((s.chan 64).inTail.toNat % 32) + k) =
            if k = 7 then 64 else (padTo 64 slot).getD k 0) ∧
      (32 ≤ (s.chan 64).inFill → exec (.mctpMessage t ⟨0x7E, 0x1F7A, slot⟩) s =
        .next (v.setChan 64 { s.chan 64 with badDb := (s.chan 64).badDb + 1 }))) ∧
    (ringWriter ch = true → c.outFill < (head - c.outHead).toNat → exec (.mbxOutHeadWrite t ch w) s =
      .next (v.setChan ch { c with badDb := c.badDb + 1 })) ∧
    (ringWriter ch = true → (head - c.outHead).toNat ≤ c.outFill →
      let e := { c with outHead := head }
      exec (.mbxOutHeadWrite t ch w) s =
        .next (v.setChan ch (if ch ≤ 63 && 0 < e.outFill && c.outTail = (Tab.get {} v.snap.chans ch).outTail
          then e.raiseVector 0 else e))) ∧
    (∀ heads m, c.outFill < 32 → ch ≤ 63 →
      let x := c.writeOut heads ch m
      let y := heads.foldl Channel.moveHead { c with outTail := c.outTail + 1 }
      let rung := if heads = [] then c.outFill = 0 else 0 < y.outFill
      x.outTail = c.outTail + 1 ∧ x.outHead = c.outHead ∧
        (flag (c.msixWord (4 * m.vector + 3)) 0 = false →
          Tab.get 0 x.raised m.vector = Tab.get 0 c.raised m.vector + if rung then 1 else 0)) ∧
    (∀ m r, s.fw.serving = true → c.held = m :: r →
      (c.outFill < 32 → exec (.eventDelivery t ch) s =
        .next (v.setChan ch (({ c with held := r }).writeOut (v.headsDue ch) ch m))) ∧
      (32 ≤ c.outFill → Completes (.eventDelivery t ch) s fun s' => s'.chan ch = c)) ∧
    (∀ who n, (who ≤ 63 ∨ who = 65) → n < 64 →
      ((n, who) ∈ v.releasesAhead → Completes (.lockWrite t who n w) s fun s' =>
        s'.locks.owner = s.locks.owner ∧ s'.locks.denied = s.locks.denied ∧
          s'.releasesAhead = v.releasesAhead.erase (n, who)) ∧
      ((n, who) ∉ v.releasesAhead → Tab.get 0 s.locks.owner n = who + 1 → exec (.lockWrite t who n w) s =
        .next { v with locks := { s.locks with owner := Tab.put 0 s.locks.owner n 0 } }) ∧
      ((n, who) ∉ v.releasesAhead → Tab.get 0 s.locks.owner n ≠ who + 1 →
        exec (.lockWrite t who n w) s = .next { v with locks := { s.locks with
          denied := s.locks.denied + 1, deniedId := BitVec.ofNat 8 who, deniedLock := BitVec.ofNat 6 n } }) ∧
      let readers := v.inCycle.filterMap (readsLock n)
      let leaves (k : Nat) := k ∈ v.inCycle.filterMap (writesLock n) ∧ (n, k) ∉ v.releasesAhead
      let seen (k : Nat) : ReadOut := { who := who, data := toLe 4 (0x80000000 ||| BitVec.ofNat 32 k : Word).toNat }
      ((Tab.get 0 s.locks.owner n = 0 ∨ ∃ k, Tab.get 0 s.locks.owner n = k + 1 ∧ leaves k) →
        ((∀ k ∈ readers, who ≤ k) → Completes (.lockRead t who n) s fun s' =>
          Tab.get 0 s'.locks.owner n = who + 1 ∧ s'.readOut = { who := who, data := [0, 0, 0, 0] } ∧
            (∀ k, Tab.get 0 s.locks.owner n = k + 1 → (n, k) ∈ s'.releasesAhead)) ∧
        (∀ k ∈ readers, k < who → (∀ j ∈ readers, k ≤ j) → exec (.lockRead t who n) s = .next { v with readOut := seen k })) ∧
      (∀ k, Tab.get 0 s.locks.owner n = k + 1 → ¬ leaves k →
        exec (.lockRead t who n) s = .next { v with readOut := seen k })) ∧
    (∀ fn, fn ≤ 63 → exec (.functionLevelReset t fn) s = .next { v with
      locks := { s.locks with owner := s.locks.owner.filter fun p => p.2 ≠ fn + 1 } })

/-- RC_READ and REGISTER_WRITE (R10, R12, R13, R14, R349, R351, R352, R359, R373, R433). -/
def Obligations.RegistersReadAndWrite : Prop :=
  ∀ (s : State) (t fn : Nat) (w : Word), fn ≤ 63 →
    let v := s.tick t
    let c := s.chan fn
    let answer (x : Word) : ReadOut := { who := fn, data := toLe 4 x.toNat }
    let mine := 0x200000 + 0x20 * fn
    let new := s.now / cycle < max s.now t / cycle
    (s.hostUp = true →
      (∀ off, off < 0x4000000 → off % 4 = 0 → ¬ (0x300000 ≤ off ∧ off < 0x300100) →
        ¬ (0x400000 ≤ off ∧ off < 0x400400 ∧ off % 0x100 = 0x14) → off ≠ 0x420010 → (off < 0x100000 → s.aon.power = true) →
          let y := v.countedTo off
          exec (.rcRead t fn off) s = .next { y.clearRead fn off with
            readOut := answer ((if rcReg fn off then y.beforeEvents else y).regWord fn off) }) ∧
      Completes (.rcRead t fn (mine + 0x10)) s (fun s' =>
        let b := if new then c else Tab.get {} s.snap.chans fn
        s'.readOut = answer (BitVec.ofNat 32 (stopsAt 8 b.badDb + stopsAt 8 b.lockedWr * 2 ^ 8 + stopsAt 8 b.foreign * 2 ^ 16)) ∧
          (new → s'.chan fn = { c with badDb := 0, lockedWr := 0, foreign := 0 }) ∧
          s'.chan fn = { c with badDb := rcLeft c.badDb b.badDb, lockedWr := rcLeft c.lockedWr b.lockedWr
                                foreign := rcLeft c.foreign b.foreign } ∧
          (Tab.get {} s'.snap.chans fn).badDb = 0 ∧ (Tab.get {} s'.snap.chans fn).lockedWr = 0 ∧
          (Tab.get {} s'.snap.chans fn).foreign = 0) ∧
      Completes (.rcRead t fn 0x300200) s (fun s' =>
        let b := if new then s.locks else s.snap.locks
        s'.readOut = answer b.deniedWord ∧ s'.locks.denied = rcLeft s.locks.denied b.denied ∧
          s'.locks.owner = s.locks.owner ∧ s'.snap.locks.denied = 0 ∧
          (new → s'.locks = { s.locks with denied := 0, deniedId := 0, deniedLock := 0 })) ∧
      (∀ n, n < 16 → Completes (.rcRead t fn (0x410000 + 0x40 * n + 0x18)) s fun s' =>
        let f := s.fout n
        let b := if new then f else Tab.get {} s.snap.fouts n
        s'.readOut = answer (BitVec.ofNat 32
            (stopsAt 16 b.underflows + stopsAt 8 b.queueDrop * 2 ^ 16 + stopsAt 8 b.clkSkip * 2 ^ 24)) ∧
          s'.fout n = { f with
            underflows := rcLeft f.underflows b.underflows, queueDrop := rcLeft f.queueDrop b.queueDrop
            clkSkip := rcLeft f.clkSkip b.clkSkip
            ticked := f.ticked.map fun u => { u with underflows := rcLeft u.underflows b.underflows } }) ∧
      (∀ k off, k < 160 → k ≠ fn → off < 0x1000 → off % 4 = 0 →
        Completes (.rcRead t fn (0x100000 + 0x1000 * k + off)) s (fun s' => s'.readOut = answer 0) ∧
          exec (.registerWrite t fn (0x100000 + 0x1000 * k + off) w) s =
            .next (v.setChan fn { c with foreign := c.foreign + 1 })) ∧
      (∀ off, off < 0x1000 → off % 4 = 0 →
        let held := 0x800 ≤ off ∨ (off / 0x40 + 32 - c.inHead.toNat % 32) % 32 < c.inFill
        (held → exec (.registerWrite t fn (0x100000 + 0x1000 * fn + off) w) s =
          .next (v.setChan fn { c with lockedWr := c.lockedWr + 1 })) ∧
        (¬ held → Completes (.registerWrite t fn (0x100000 + 0x1000 * fn + off) w) s fun s' =>
          ∀ k, k < 4 → (s'.chan fn).page.read (off + k) = (toLe 4 w.toNat).getD k 0)) ∧
      (∀ off, (off < 0x100000 ∨ off = mine + 4 ∨ off = 0x300200) → exec (.registerWrite t fn off w) s = .next v)) ∧
    (s.hostUp = false → ∀ off, 0x100000 ≤ off → off < 0x4000000 → exec (.rcRead t fn off) s = .next v ∧
      ((0x300000 ≤ off ∨ s.chanUp = false) → exec (.registerWrite t fn off w) s = .next v))

/-- Turns, first checks, responses, BAD_OPCODE, COMMAND_DONE (R358, R360 to R368, R374 to R376, R386). -/
def Obligations.CommandsAreCheckedFirst : Prop :=
  ∀ (s : State) (t ch : Nat), ch < 160 →
    let v := s.tick t
    let b := s.cmdSlot ch
    let raw := (s.chan ch).nextSlot
    (∀ (c : Instr) (r : FwRow), fwRow c = some r → c.time = t → r.ch = ch →
      (v.turnOf ch r.op = false → exec c s = .next v) ∧
      (∀ x, v.turnOf ch r.op = true → s.preCheck ch b r.least r.form = some x → exec c s = .next (v.respond ch b x))) ∧
    (s.hostUp = true → s.fw.serving = true → s.nextChannel = some ch → fwOpcodes.contains (slotOp raw) = false →
      exec (.badOpcode t ch) s = .next (v.refuses ch b (if 56 < slotLen raw then 0x0021 else 0x0020) 0)) ∧
    (∀ x : Reply, let s' := s.respond ch b x
      s'.fw.turn = (ch + 1) % 160 ∧ (s'.chan ch).inHead = (s.chan ch).inHead + 1 ∧
        ((s.chan ch).inFill = 32 → (s'.chan ch).inSpace = true) ∧
        ((s.chan ch).inFill ≠ 32 → (s.chan ch).outFill < 32 → (s.chan ch).held.all (·.event) = true →
          s'.chan ch = ({ s.chan ch with inHead := (s.chan ch).inHead + 1 }).writeOut (s.headsDue ch) ch
            { slot := responseSlot b x })) ∧
    (∀ a, s.fw.serving = true → v.fw.accepted.find? (fun a => a.ch = ch && v.ended a) = some a →
      let x := v.modFw fun f => { f with accepted := f.accepted.erase a }
      let y := match a.when_ with | .placed i => if (s.image i).waiting then x.finishPlace i else x | _ => x
      exec (.commandDone t ch) s = .next (y.postKept ch
        { slot := eventSlot y 0x8000 (toLe 2 a.op.toNat ++ toLe 2 a.seq.toNat ++ toLe 2 a.status.toNat
            ++ toLe 2 a.detail.toNat ++ padTo 36 a.result)
          vector := (y.fw.route ch 0x8000).2 })) ∧
    ((s.fw.serving = false ∨ v.fw.accepted.find? (fun a => a.ch = ch && v.ended a) = none) →
      exec (.commandDone t ch) s = .next v)

/-- The commands that read (R2, R31, R178, R223, R235, R276, R329, R368, R380, R381, R414, R433). -/
def Obligations.FirmwareReadsAnswer : Prop :=
  ∀ (s : State) (t ch : Nat),
    let v := s.tick t
    let b := s.cmdSlot ch
    let n := leAt b 8 2
    let k := leAt b 10 1
    let e := leAt b 8 1
    let bad (off : Nat) : Out := .next (v.refuses ch b 0x0022 off)
    (v.takes ch 0x0100 0 = true → exec (.identify t ch) s = .next (v.answers ch b s.identity)) ∧
    (v.takes ch 0x0101 0 = true → exec (.health t ch) s = .next (v.draw.answers ch b s.health)) ∧
    (v.takes ch 0x0102 2 = true → exec (.clusterHealth t ch) s =
      if 832 ≤ n then bad 8 else .next (v.answers ch b (s.cluster n).health)) ∧
    (v.takes ch 0x0103 3 = true → exec (.coreCounts t ch) s =
      if 832 ≤ n then bad 8 else if 34 ≤ k then bad 10 else .next (v.answers ch b (s.core n k).counts)) ∧
    (v.takes ch 0x0104 0 = true → exec (.caskRead t ch) s = .next (v.answers ch b
      ((List.range 8).flatMap (fun i => toLe 4 (s.aon.cask.getD i 0).toNat) ++ toLe 4 s.aon.count.toNat))) ∧
    (v.takes ch 0x0105 2 = true → exec (.wearRead t ch) s =
      if 832 ≤ n then bad 8 else .next (v.draw.answers ch b (s.wearRecord (s.cluster n)))) ∧
    (v.takes ch 0x0106 1 = true → exec (.memoryHealth t ch) s =
      if 16 ≤ e then bad 8 else .next (v.answers ch b
        ((List.range 9).flatMap (fun i => toLe 4 (v.strWord e i).toNat)
          ++ toLe 2 (min 0xFFFF (Config.reported (100 + e) + Tab.get 0 s.wear.rows e))
          ++ toLe 2 (min 0xFFFF (Config.repairRows e - Tab.get 0 s.wear.rows e))))) ∧
    (v.takes ch 0x0206 1 = true →
      (s.imageRefusal ch e = none → exec (.stepStatus t ch) s = .next (v.answers ch b (s.image e).status)) ∧
      (∀ r, s.imageRefusal ch e = some r → exec (.stepStatus t ch) s = .next (v.respond ch b r))) ∧
    (v.takes ch 0x020C 4 = true →
      (s.descRefused ch e (leAt b 10 2) = none →
        exec (.descStatus t ch) s = .next (v.answers ch b (s.desc e (leAt b 10 2)).status)) ∧
      (∀ r, s.descRefused ch e (leAt b 10 2) = some r → exec (.descStatus t ch) s = .next (v.respond ch b r))) ∧
    (v.takes ch 0x0501 2 = true → exec (.schedRead t ch) s =
      if 512 ≤ n then bad 8 else .next (v.answers ch b (let x := s.schedEntry n
        toLe 4 x.angle.toNat ++ toLe 4 x.cyc.toNat ++ toLe 1 (field x.act 0 4) ++ toLe 1 (field x.act 4 1) ++ [0, 0]
          ++ toLe 3 (field x.act 8 24)))) ∧
    (v.takes ch 0x0604 1 = true → exec (.permRead t ch) s =
      if 160 ≤ e then bad 8 else .next (v.answers ch b (toLe 1 (s.classOf e)))) ∧
    (v.takes ch 0x0700 1 = true → exec (.linkStatus t ch) s =
      if 64 ≤ e then bad 8 else
        let y := v.countCodewords e
        .next (y.answers ch b (y.linkStatus e)))

/-- Images, jobs and model steps (R84, R150, R171, R178, R180, R361, R376, R377, R380, R382, R383, R439). -/
def Obligations.FirmwareRunsImagesAndJobs : Prop :=
  ∀ (s : State) (t ch : Nat),
    let v := s.tick t
    let b := s.cmdSlot ch
    let i := leAt b 8 1
    let r := s.image i
    let im := r.img
    let tap := s.aon.stage = 3
    let no (status detail : Nat) : Out := .next (v.refuses ch b status detail)
    let cls := (s.choose im none).getD []
    let need := (s.permitsNeeded im cls).length
    let base := (s.streamBase im).getD 0
    let first := base + (im.streams.map (·.id)).foldl min ((im.streams.map (·.id)).headD 0)
    let placed := v.setImage i (r.renumber base ((s.poolBase im).getD 0))
    (v.takes ch 0x0200 16 .must = true →
      (∀ k, exec (.imageLoad t ch (.failed k)) s = no 0x0023 (min k (slotLen b / 16 - 1))) ∧
      (∀ x, s.freeImage = none → exec (.imageLoad t ch (.data x)) s = no 0x0030 0x0C) ∧
      (∀ x k, s.freeImage = some k → exec (.imageLoad t ch (.data x)) s = .next
        ((v.setImage k { loaded := true, img := x, owner := ch }).accepts ch b
          { result := toLe 1 k ++ toLe 1 x.level }))) ∧
    (v.takes ch 0x0201 1 = true → s.imageRefusal ch i = none → exec (.imageUnload t ch) s =
      if r.placed.isSome then no 0x0040 1 else .next ((v.setImage i {}).answers ch b [])) ∧
    (∀ x, v.takes ch 0x0201 1 = true → s.imageRefusal ch i = some x →
      exec (.imageUnload t ch) s = .next (v.respond ch b x)) ∧
    (v.takes ch 0x0202 2 = true → flag (b.getD 9 0) 1 = false →
      (s.aon.stage ≠ 3 → s.aon.taster = false → exec (.jobPlace t ch) s = no 0x0041 s.stageByte) ∧
      (tap → s.imageRefusal ch i = none →
        (r.placed ≠ none → exec (.jobPlace t ch) s = no 0x0040 1) ∧
        (r.placed = none → exec (.jobPlace t ch) s =
          if Image.reason im ≠ 0 then no 0x0033 (Image.reason im)
          else if s.linkMod.clevel.toNat < im.level then no 0x0032 s.linkMod.clevel.toNat
          else if s.resourceReason im none ≠ 0 then no 0x0030 (s.resourceReason im none)
          else if s.permitsFree < need then no 0x0031 s.permitsFree
          else .next ((placed.placeJob i cls (flag (b.getD 9 0) 0)).accepts ch b
            { result := toLe 2 cls.length ++ toLe 2 first ++ toLe 2 need } (.placed i))))) ∧
    (v.takes ch 0x0203 1 = true → s.jobRefusal ch i = none →
      exec (.jobRemove t ch) s = .next ((v.removeJob i).accepts ch b)) ∧
    (∀ x, v.takes ch 0x0203 1 = true → s.jobRefusal ch i = some x →
      exec (.jobRemove t ch) s = .next (v.respond ch b x)) ∧
    (v.takes ch 0x0204 1 = true →
      (s.aon.stage ≠ 3 → s.aon.taster = false → exec (.stepStart t ch) s = no 0x0041 s.stageByte) ∧
      (tap → s.jobRefusal ch i = none →
        (r.waiting = true → exec (.stepStart t ch) s = no 0x0042 8) ∧
        (r.waiting = false → s.jobInReset i = true → exec (.stepStart t ch) s = no 0x0041 s.stageByte) ∧
        (r.waiting = false → s.jobInReset i = false → r.running = true →
          exec (.stepStart t ch) s = .next ((v.dropStart i).refuses ch b 0x0040 (if r.abort.isSome then 2 else 1))) ∧
        (r.waiting = false → s.jobInReset i = false → r.running = false → exec (.stepStart t ch) s = .next
          (((v.startStep i).modImage i fun x =>
            { x with cmdStart := some (max s.now t / cycle, ch, (s.chan ch).nextPlace) }).answers ch b
              (toLe 4 (r.starts + 1).toNat))))) ∧
    (v.takes ch 0x0205 1 = true → s.jobRefusal ch i = none →
      (r.running = true → exec (.stepAbort t ch) s = .next ((v.abortStep i 7 0xFFFF).answers ch b [])) ∧
      (r.running = false → exec (.stepAbort t ch) s = no 0x0042 8))

/-- Memory, descriptors, streams, counters (R130, R133, R134, R168, R213, R214, R221, R223, R361, R368, R380). -/
def Obligations.FirmwareMovesDataAndClears : Prop :=
  ∀ (s : State) (t ch : Nat),
    let v := s.tick t
    let b := s.cmdSlot ch
    let a := leAt b 8 8
    let n := leAt b 24 4
    let e := leAt b 8 1
    let d := leAt b 10 2
    let i := leAt b 8 2
    let no (status detail : Nat) : Out := .next (v.refuses ch b status detail)
    let behind (r : Option Reply) (x : Out) : Out := match r with | some y => .next (v.respond ch b y) | none => x
    (∀ bs, v.takes ch 0x0207 24 .inPayload = true → exec (.memWrite t ch (some bs)) s =
      behind (s.rangeRefusal ch a n) (.next ((v.writeHbm a (padTo n bs)).accepts ch b))) ∧
    (v.takes ch 0x0207 24 .inPayload = true → exec (.memWrite t ch none) s =
      behind (s.rangeRefusal ch a n) (no 0x0023 0)) ∧
    (v.takes ch 0x0208 24 .inPayload = true →
      exec (.memRead t ch false) s = behind (s.rangeRefusal ch a n) (no 0x0023 0) ∧
      exec (.memRead t ch true) s = behind (s.rangeRefusal ch a n)
        (let y := v.readHbm a n
        if y.badIn a n then .next (y.accepts ch b { status := 0x0023 })
          else .next ((y.modFw fun f => { f with dmaOut := s.hbm.readN a n }).accepts ch b))) ∧
    (v.takes ch 0x0209 46 = true → exec (.descWrite t ch) s = behind (s.descRefused ch e d)
      (let x := padTo 64 ((b.drop 12).take 42)
        let kept := if (s.desc e d).kept.isEmpty then [] else x
        .next ((v.setDesc e d { s.desc e d with store := x, kept := kept }).answers ch b []))) ∧
    (v.takes ch 0x020A 4 = true → exec (.descArm t ch) s = behind (s.descRefused ch e d)
      (.next ((v.fwArm e d).answers ch b (toLe 1 ((v.fwArm e d).desc e d).st.code)))) ∧
    (v.takes ch 0x020B 4 = true → s.descRefused ch e d = none →
      (((s.desc e d).st = .armed ∨ (s.desc e d).st = .active ∨ (s.desc e d).st = .draining) →
        exec (.descReset t ch) s = no 0x0040 (s.desc e d).st.code) ∧
      (((s.desc e d).st = .idle ∨ (s.desc e d).st = .done ∨ (s.desc e d).st = .error) → exec (.descReset t ch) s = .next
        ((v.setDesc e d { s.desc e d with st := .idle, shadow := none, shadowImg := none }).answers ch b []))) ∧
    (v.takes ch 0x020D 8 = true → exec (.streamLimit t ch) s = behind (s.streamRefusal ch i)
      (if leAt b 12 4 < 1 ∨ 1000000 < leAt b 12 4 then no 0x0022 12
        else if (s.stream i).img.isNone then no 0x0042 8
        else .next ((v.setStream i { s.stream i with limit := BitVec.ofNat 20 (leAt b 12 4) }).answers ch b []))) ∧
    (v.takes ch 0x0300 10 = true → exec (.qntPolicy t ch) s = behind (s.streamRefusal ch i)
      (if 1 < leAt b 10 1 then no 0x0022 10 else if 3 < leAt b 11 1 then no 0x0022 11
        else if 2 < leAt b 12 1 then no 0x0022 12
        else .next ((v.setStream i { s.stream i with qnt := { (s.stream i).qnt with
          carried := leAt b 10 1 = 1, headroom := BitVec.ofNat 2 (leAt b 11 1), policy := BitVec.ofNat 2 (leAt b 12 1)
          satThresh := BitVec.ofNat 16 (leAt b 14 2)
          underThresh := BitVec.ofNat 16 (leAt b 16 2) } }).answers ch b []))) ∧
    (v.takes ch 0x0301 2 = true → exec (.qntCarryReset t ch) s = behind (s.streamRefusal ch i)
      (.next ((v.setStream i { s.stream i with qnt := { (s.stream i).qnt with carry := none } }).answers ch b []))) ∧
    (v.takes ch 0x0302 4 = true →
      (scopeEnd e = none → exec (.counterClear t ch) s = no 0x0022 8) ∧
      (∀ top, scopeEnd e = some top → exec (.counterClear t ch) s =
        if top < d then no 0x0022 10
        else behind (s.scopeRefusal ch e d) (.next ((v.clearScope e d).answers ch b []))))

/-- Calibration, combs, restarts, schedule, groups, profiles, resets (R73, R171, R253, R275, R323, R325, R380, R429). -/
def Obligations.FirmwareCalibratesAndResets : Prop :=
  ∀ (s : State) (t ch : Nat),
    let v := s.tick t
    let b := s.cmdSlot ch
    let n := leAt b 8 2
    let g := leAt b 8 1
    let k := leAt b 9 1
    let no (status detail : Nat) : Out := .next (v.refuses ch b status detail)
    let cls := s.groupClusters g
    let shut := (cls.filter fun c =>
      (s.cluster c).quiet.isSome || (s.cluster c).quietClosed.any fun e => max s.now t < e + 9 * ms).length
    let rs := (List.range k).map fun i => (leAt b (12 + 4 * i) 2, leAt b (14 + 4 * i) 2)
    let entry : SchedEntry :=
      { (s.schedEntry n).touch (max s.now t) with
        angle := BitVec.ofNat 32 (leAt b 12 4), cyc := BitVec.ofNat 32 (leAt b 16 4)
        act := BitVec.ofNat 32 (leAt b 20 1 + leAt b 21 1 * 16 + leAt b 24 3 * 256) }
    let x := v.modAon fun a => { a with profile := BitVec.ofNat 2 g }
    let w := (if g = 0 then x else x.unpromise).each
      ((v.clusters.filter fun x => x.2.permit).map (·.1)) fun s c =>
        if g = 0 then s
        else if s.undrained c then s.modCluster c fun k => { k with permitGoing := true, fencePassed := false }
        else s.modCluster c fun k => { k with permit := false, permitGoing := false }
    let asks (f : Aon → Aon) : Out := .next ((v.modAon f).answers ch b [])
    (v.takes ch 0x0400 13 = true →
      (clustersNamed n = none → exec (.calSettings t ch) s = no 0x0022 8) ∧
      (∀ cl, clustersNamed n = some cl →
        (∀ off, badSetting b = some off → exec (.calSettings t ch) s = no 0x0022 off) ∧
        (badSetting b = none → exec (.calSettings t ch) s =
          .next ((v.each cl fun s c => s.modCluster c (Cluster.settings b)).answers ch b [])))) ∧
    (v.takes ch 0x0401 4 = true → exec (.quietOpen t ch) s =
      .next ((v.openQuiet cls (leAt b 10 2)).answers ch b (toLe 2 (cls.length - shut) ++ toLe 2 shut))) ∧
    (v.takes ch 0x0402 1 = true → exec (.rotAdvance t ch) s = .next ((v.each cls State.advance).answers ch b [])) ∧
    (v.takes ch 0x0403 2 = true →
      (clustersNamed n = none → exec (.combSwitch t ch) s = no 0x0022 8) ∧
      (∀ cl, clustersNamed n = some cl →
        let live := cl.filter fun c => !(s.cluster c).retired
        exec (.combSwitch t ch) s =
          if (cl.any fun c => (s.cluster c).comb ≠ 0) then no 0x0040 1
          else if live.isEmpty then no 0x0040 2
          else .next (((v.restartClusters live).each live fun s c => (s.wears 4).modCluster c Cluster.switchComb).accepts ch b {}
            (.restart live)))) ∧
    (v.takes ch 0x0404 2 = true →
      (clustersNamed n = none → exec (.clusterRestart t ch) s = no 0x0022 8) ∧
      (∀ cl, clustersNamed n = some cl →
        let live := cl.filter fun c => !(s.cluster c).retired
        exec (.clusterRestart t ch) s =
          if live.isEmpty then no 0x0040 2 else .next ((v.restartClusters live).accepts ch b {} (.restart live)))) ∧
    (v.takes ch 0x0500 19 = true → exec (.schedWrite t ch) s =
      if 512 ≤ n then no 0x0022 8
      else if 6 < leAt b 20 1 then no 0x0022 20
      else if 1 < leAt b 21 1 then no 0x0022 21
      else if leAt b 20 1 = 1 ∧ (s.image (leAt b 24 1)).placed.isNone then no 0x0042 24
      else .next ((v.setSched n entry).schedCheck.answers ch b [])) ∧
    (v.takes ch 0x0502 2 = true →
      (g = 255 → exec (.clusterGroup t ch) s = no 0x0022 8) ∧
      (g ≠ 255 → k < 1 ∨ 11 < k → exec (.clusterGroup t ch) s = no 0x0022 9) ∧
      (g ≠ 255 → 1 ≤ k → k ≤ 11 → slotLen b < 4 + 4 * k → exec (.clusterGroup t ch) s = no 0x0021 0) ∧
      (g ≠ 255 → 1 ≤ k → k ≤ 11 → 4 + 4 * k ≤ slotLen b →
        (∀ i, (rs.findIdx? fun r => r.2 < r.1 || 832 ≤ r.2) = some i →
          exec (.clusterGroup t ch) s = no 0x0022 (12 + 4 * i)) ∧
        ((rs.all fun r => r.1 ≤ r.2 && r.2 < 832) = true → exec (.clusterGroup t ch) s =
          .next ((v.modFw fun f => { f with groupsNext := f.groupsNext ++ [(g, rs)] }).answers ch b [])))) ∧
    (v.takes ch 0x0803 1 = true → exec (.powerProfile t ch) s =
      if 3 < g then no 0x0022 8
      else if profileClusters (BitVec.ofNat 2 g) < s.usedClusters.length then no 0x0040 s.usedClusters.length
      else .next (w.settleProfile.accepts ch b {} .permits)) ∧
    (∀ cl, cl < 832 → exec (.permitWithdrawn t cl) s = .next
      (if (s.cluster cl).fencePassed || ((s.cluster cl).permitGoing && !s.undrained cl) then
        (v.modCluster cl fun k => { k with
          permit := k.permit && !k.permitGoing, permitGoing := false, fencePassed := false }).settleProfile
      else v)) ∧
    ((s.clusters.all fun x => !x.2.permitGoing) = true → profileClusters s.aon.profile < s.unparked.length →
      s.settleProfile.unparked = s.unparked.filter fun c =>
        !(((s.unparked.reverse.filter fun c => !s.usedClusters.contains c).take
          (s.unparked.length - profileClusters s.aon.profile)).contains c)) ∧
    (v.takes ch 0x0804 1 = true →
      (g < 1 ∨ 5 < g → exec (.moduleReset t ch) s = no 0x0022 8) ∧
      (2 ≤ g → g ≤ 4 → slotLen b < 2 → exec (.moduleReset t ch) s = no 0x0021 0) ∧
      ((g = 2 ∨ g = 3) → 2 ≤ slotLen b → 3 < k → exec (.moduleReset t ch) s = no 0x0022 9) ∧
      (g = 4 → 2 ≤ slotLen b → 15 < k → exec (.moduleReset t ch) s = no 0x0022 9) ∧
      (g = 1 → exec (.moduleReset t ch) s = asks fun a => { a with askD1 := true }) ∧
      (g = 2 → 2 ≤ slotLen b → k ≤ 3 →
        exec (.moduleReset t ch) s = asks fun a => { a with askD2 := a.askD2 ||| BitVec.ofNat 4 (2 ^ k) }) ∧
      (g = 3 → 2 ≤ slotLen b → k ≤ 3 →
        exec (.moduleReset t ch) s = asks fun a => { a with askD3 := a.askD3 ||| BitVec.ofNat 4 (2 ^ k) }) ∧
      (g = 4 → 2 ≤ slotLen b → k ≤ 15 →
        exec (.moduleReset t ch) s = asks fun a => { a with askD4 := a.askD4 ||| BitVec.ofNat 16 (2 ^ k) }) ∧
      (g = 5 → exec (.moduleReset t ch) s =
        asks fun a => { a with askD1 := true, askD2 := 0xF, askD3 := 0xF, askD4 := 0xFFFF }))

/-- Ownership, safe records, events, permissions, locks, routes, links, upgrade (R301, R328, R341, R366, R368, R380). -/
def Obligations.FirmwareSetsFieldsLinksAndBank : Prop :=
  ∀ (s : State) (t ch : Nat),
    let v := s.tick t
    let b := s.cmdSlot ch
    let n := leAt b 8 1
    let k := leAt b 9 1
    let no (status detail : Nat) : Out := .next (v.refuses ch b status detail)
    let who := if k = 0xFF then none else some k
    let mv := sleAt b 10 2
    let rec_ : SafeRec :=
      { mv := BitVec.ofNat 16 (leAt b 10 2), ua := BitVec.ofNat 16 (leAt b 12 2), range := BitVec.ofNat 3 (leAt b 14 1)
        valid := true }
    let i := leAt b 8 2
    let m := leAt b 10 1
    let lastOwner := match Tab.get 0 s.locks.owner n with | 0 => 0xFF | o + 1 => o
    let via := if 66 ≤ ch ∧ ch ≤ 129 then ch - 66 else 0xFF
    let opened (size : Nat) (bs : List Byte) : State :=
      ({ v with
         aon := Aon.setBank (!v.aon.bank) false { v.aon with flash := Memory.write [] 0 bs }
         fw := { v.fw with upgrade := some size } }).accepts ch b
    let closed := v.modFw fun f => { f with upgrade := none }
    let len := min (slotLen b - 4) 48
    (v.takes ch 0x0600 2 = true →
      (1 < n → exec (.fieldOwner t ch) s = no 0x0022 8) ∧
      (n ≤ 1 → 63 < k → k ≠ 0xFF → exec (.fieldOwner t ch) s = no 0x0022 9) ∧
      (k ≤ 63 ∨ k = 0xFF →
        (n = 0 → exec (.fieldOwner t ch) s = .next ((v.modFw fun f => { f with ioOwner := who }).answers ch b [])) ∧
        (n = 1 → exec (.fieldOwner t ch) s = .next ((v.modFw fun f => { f with loopOwner := who }).answers ch b [])))) ∧
    (v.takes ch 0x0601 7 = true → exec (.safeWrite t ch) s =
      if 16 ≤ n then no 0x0022 8
      else if mv < -10000 ∨ 10000 < mv then no 0x0022 10
      else if 24000 < leAt b 12 2 then no 0x0022 12
      else if 6 < leAt b 14 1 then no 0x0022 14
      else .next ((v.modFout n (Fout.writeSafe (max s.now t) rec_)).accepts ch b)) ∧
    (v.takes ch 0x0602 6 = true → exec (.eventRoute t ch) s =
      if 63 < n then no 0x0022 8
      else if 1 < leAt b 12 1 then no 0x0022 12
      else if leAt b 13 1 = 1 ∨ 63 < leAt b 13 1 then no 0x0022 13
      else .next ((v.modFw fun f => f.route' n (leAt b 10 2) (leAt b 12 1 = 1) (leAt b 13 1)).answers ch b [])) ∧
    (v.takes ch 0x0603 2 = true → exec (.permSet t ch) s =
      if n < 1 ∨ 63 < n then no 0x0022 8
      else if 1 < k then no 0x0022 9
      else .next ((v.modFw fun f => { f with classes := Tab.put clsTenant f.classes n k }).answers ch b [])) ∧
    (v.takes ch 0x0605 1 = true → exec (.lockRelease t ch) s =
      if 64 ≤ n then no 0x0022 8
      else .next (({ v with locks := { v.locks with owner := Tab.put 0 v.locks.owner n 0 } }).answers ch b
        (toLe 1 lastOwner))) ∧
    (v.takes ch 0x0701 4 = true → exec (.routeWrite t ch) s =
      if m < 1 ∨ 26 < m then no 0x0022 10
      else if 4096 < i + m then no 0x0022 8
      else if slotLen b < 4 + 2 * m then no 0x0021 0
      else .next (({ v with linkMod := { v.linkMod with
        routes := (List.range m).foldl (fun r j => Tab.put 0 r (i + j) (BitVec.ofNat 16 (leAt b (12 + 2 * j) 1)))
          v.linkMod.routes } }).answers ch b [])) ∧
    (v.takes ch 0x0702 2 = true → exec (.addressSet t ch) s =
      if (s.fw.images.any fun x => x.2.running) then no 0x0040 1
      else .next (({ v with linkMod := { v.linkMod with
        addr := BitVec.ofNat 16 i, portAddr := BitVec.ofNat 16 i } }).answers ch b [])) ∧
    (v.takes ch 0x0703 2 = true → exec (.linkMode t ch) s =
      if 64 ≤ n then no 0x0022 8
      else if 2 < k then no 0x0022 9
      else .next (((v.modLink n fun l => { l with mode := BitVec.ofNat 2 k }).applyMode n).applyMode (partner n)
        |>.answers ch b [])) ∧
    (v.takes ch 0x0704 4 = true → exec (.peerReady t ch) s = .next ((v.raise 0x8040
      (toLe 2 i ++ toLe 1 via ++ toLe 1 (leAt b 10 1) ++ toLe 1 (leAt b 11 1))).answers ch b [])) ∧
    (v.takes ch 0x0800 4 .may = true →
      (slotDesc b = false → ∀ d, exec (.upgradeBegin t ch d) s = .next (opened (leAt b 8 4) [])) ∧
      (slotDesc b = true → ∀ bs, exec (.upgradeBegin t ch (.data bs)) s = .next (opened bs.length bs)) ∧
      (slotDesc b = true → ∀ k,
        exec (.upgradeBegin t ch (.failed k)) s = no 0x0023 (min k (slotLen b / 16 - 1)))) ∧
    (v.takes ch 0x0801 4 = true → exec (.upgradeData t ch) s =
      if s.fw.upgrade = none ∨ (s.fw.accepted.any fun a => a.op = 0x0800) = true then no 0x0040 0
      else if s.fw.upgrade.getD 0 < leAt b 8 4 + len then no 0x0022 8
      else .next ((v.modAon fun a =>
        { a with flash := a.flash.write (leAt b 8 4) ((b.drop 12).take len) }).answers ch b [])) ∧
    (v.takes ch 0x0802 0 = true → ∀ ok, exec (.upgradeCommit t ch ok) s =
      if (s.fw.accepted.any fun a => a.op = 0x0800) = true then no 0x0040 0
      else if ok then .next ((closed.modAon fun a => { a.setBank (!a.bank) true with bootBank := !a.bank }).accepts ch b)
      else .next ((closed.modAon fun a => a.setBank (!a.bank) false).accepts ch b { status := 0x0034 }))

/-- Header frames, landing, acks, credits, control frames, sending, replay, link states (R393 to R412). -/
def Obligations.LinksCarryPackets : Prop :=
  ∀ (s : State) (t n : Nat), n < 64 →
    let v := s.tick t
    let now := max s.now t
    let l := s.link n
    let up := l.st = 2
    let clear := l.busyUntil < (now + leadTu + 1) * fine
    let bad : Out := .next (v.modLink n fun l => { l with cwUncorr := satInc l.cwUncorr })
    let pn := partner n
    let own := s.linkMod.portAddr
    let down (reason : BitVec 3) : Out := .next (v.linkGoesDown n reason)
    -- headers
    (∀ h : HeaderFrame,
      let e := Tab.get (0 : Half) s.linkMod.routes (h.dest.toNat / 16)
      let p := s.link pn
      let early := v.modLink pn (Link.unsend now)
      let lead := (now + 44 * ns - 8 * ns * (3 - h.bypassLeft.toNat)) * fine
      let intact := h.crc = crc16 (headerBits h)
      let packet := intact ∧ h.kind.toNat < 2
      let here := h.dest = own
      let through := flag e 7 = true ∧ flag e 6 = true ∧ field e 0 6 = partner n ∧ h.bypassLeft ≠ 0
      let shut (p : Link) := (∃ x ∈ p.busy, lead < x.2 ∧ x.1 < lead + packetTime h) ∨ p.credits = 0
        ∨ (16 ≤ p.bypassRun ∧ p.queue ≠ [])
      let blocked := shut p ∧ shut (p.unsend now)
      let onTo (g : Option Nat) (l : Link) : Link := { l with expect := l.expect ++ [(h, g)] }
      let goes (s : State) : Out := .next ((s.modPort pn fun l => Link.announce now lead (packetTime h)
          { l with credits := l.credits - 1
                   bypassed := satInc l.bypassed
                   bypassRun := if l.queue = [] then 0 else l.bypassRun + 1
                   outHdr := some (sealHeader { h with bypassLeft := h.bypassLeft - 1 }) }).modLink n
        fun l => { l with outCredit := l.outCredit + 1 })
      (¬ up → exec (.headerFrame t n h) s = .next v) ∧
      (up → ¬ intact → exec (.headerFrame t n h) s = bad) ∧
      (up → intact → 6 ≤ h.kind.toNat →
        exec (.headerFrame t n h) s = .next (v.modLink n fun l => { l with drops := satInc l.drops })) ∧
      (up → intact → 2 ≤ h.kind.toNat → h.kind.toNat < 6 → exec (.headerFrame t n h) s = .next v) ∧
      (up → packet → here → own ≠ 0 → exec (.headerFrame t n h) s = .next (v.modLink n (onTo none))) ∧
      (up → packet → ¬ here → flag e 7 = true → ¬ through → own ≠ 0 →
        exec (.headerFrame t n h) s = .next (v.modLink n (onTo (some (field e 0 6))))) ∧
      (up → packet → ¬ here → through → blocked → own ≠ 0 → exec (.headerFrame t n h) s =
        .next ((v.modLink pn fun l => { l with fallback := satInc l.fallback }).modLink n (onTo (some pn)))) ∧
      (up → packet → ¬ here → through → ¬ shut (p.unsend now) → exec (.headerFrame t n h) s = goes early) ∧
      (up → packet → ¬ here → through → shut (p.unsend now) → ¬ shut p → exec (.headerFrame t n h) s = goes v) ∧
      (∀ u, p.sent = some u → u.at_ / cycle = now / cycle →
        let q := { p with outHdr := u.outHdr, bypassRun := u.bypassRun, busy := u.busy, timer := u.timer, sent := none }
        (u.replays = none → p.unsend now = { q with
          queue := u.packet :: p.queue, unacked := p.unacked.dropLast, credits := min (p.credits + 1) 64
          lseq := p.lseq - 1 }) ∧
        (∀ r, u.replays = some r → p.unsend now = { q with
          replays := r
          unacked := p.unacked.map fun x => if x.hdr.lseq = u.packet.hdr.lseq then u.packet else x })) ∧
      ((∀ u, p.sent = some u → u.at_ / cycle ≠ now / cycle) → p.unsend now = p) ∧
      (up → packet → (¬ here ∧ flag e 7 = false) ∨ (own = 0 ∧ (here ∨ ¬ through ∨ blocked)) →
        exec (.headerFrame t n h) s =
          .next (v.modLink n fun l => { l with drops := satInc l.drops, outCredit := l.outCredit + 1 }))) ∧
    (∀ h : HeaderFrame, headerIntact (sealHeader h) = true ∧ (sealHeader h).dest = h.dest ∧
      (sealHeader h).stream = h.stream ∧ (sealHeader h).lseq = h.lseq) ∧
    -- payloads
    (∀ payload b,
      (l.expect = [] → exec (.packetLanded t n payload b) s = .next v) ∧
      (∀ h g r, l.expect = (h, g) :: r →
        let w := v.modLink n fun l => { l with expect := r }
        let d := padTo (headerSize h) payload
        let ackOf (s : State) : State := s.modLink n fun l => { l with outAck := some (h.src, h.lseq, own) }
        let i := h.stream.toNat
        (b = true → exec (.packetLanded t n payload b) s =
          .next (w.modLink n fun l => { l with cwUncorr := satInc l.cwUncorr })) ∧
        (∀ m, b = false → g = some m → l.passed.any (sameHeader h) = true →
          exec (.packetLanded t n payload b) s = .next (ackOf w)) ∧
        (∀ m, b = false → g = some m → l.passed.any (sameHeader h) = false → exec (.packetLanded t n payload b) s =
          .next (((ackOf w).enqueue m { hdr := { h with bypassLeft := 3 }, payload := d }).modLink n
            fun l => Link.notePassed h { l with outCredit := l.outCredit + 1 })) ∧
        (b = false → g = none →
          ((h.pseq, decide (h.kind = 1)) ∈ (s.stream i).taken →
            exec (.packetLanded t n payload b) s = .next (ackOf w)) ∧
          ((h.pseq, decide (h.kind = 1)) ∉ (s.stream i).taken → exec (.packetLanded t n payload b) s =
            .next (((ackOf w).modLink n fun l =>
              { l with landing := l.landing ++ [{ hdr := h, payload := d, sentAt := now }] }).modStream i fun m =>
                { m with rx := addPair m.rx h d, taken := newest 64 (m.taken ++ [(h.pseq, decide (h.kind = 1))]) }))))) ∧
    -- acks, credits, control frames
    (∀ crc src lseq lander,
      let good := crc = ackCrc src lseq lander
      let mine (p : LinkPacket) : Bool := p.hdr.src = src && p.hdr.lseq = lseq
      (¬ up → exec (.ackFrame t n crc src lseq lander) s = .next v) ∧
      (up → ¬ good → exec (.ackFrame t n crc src lseq lander) s = bad) ∧
      (up → good → l.unacked.any mine = true → exec (.ackFrame t n crc src lseq lander) s = .next (v.modLink n fun l =>
        Link.restartTimer now (s.asked n) { l with unacked := l.unacked.filter fun p => !mine p })) ∧
      (up → good → l.unacked.any mine = false → src = own ∨ s.routeLink src.toNat = none →
        exec (.ackFrame t n crc src lseq lander) s = .next v) ∧
      (∀ m, up → good → l.unacked.any mine = false → src ≠ own → s.routeLink src.toNat = some m →
        exec (.ackFrame t n crc src lseq lander) s =
          .next (v.modLink m fun l => { l with outAck := some (src, lseq, lander) }))) ∧
    (∀ crc k, 1 ≤ k → k ≤ 64 →
      (¬ up → exec (.creditFrame t n crc k) s = .next v) ∧
      (up → crc ≠ creditCrc k → exec (.creditFrame t n crc k) s = bad) ∧
      (up → crc = creditCrc k → exec (.creditFrame t n crc k) s =
        .next ((v.each (s.sendsOver n) fun s x => s.modStream x.2.2.1 (Stream.meetGuard now)).modLink n fun l =>
          Link.restartTimer now (s.asked n) { l with credits := min (l.credits + k) 64 }))) ∧
    (∀ crc part, let bs := (s.chan (66 + n)).part ++ padTo 12 part
      let good := crc = controlCrc part
      (¬ up ∨ (good ∧ s.chanUp = false) → exec (.controlFrame t n crc part) s = .next v) ∧
      (up → ¬ good → exec (.controlFrame t n crc part) s = bad) ∧
      (up → good → s.chanUp = true → bs.length < 72 → exec (.controlFrame t n crc part) s =
        .next (v.modChan (66 + n) fun c => { c with part := bs })) ∧
      (up → good → s.chanUp = true → 72 ≤ bs.length → exec (.controlFrame t n crc part) s =
        .next (v.modChan (66 + n) fun c => ({ c with part := [] }).commitSlot (66 + n) (bs.take 64)))) ∧
    -- sending and replay
    (l.queue = [] → exec (.packetSend t n) s = .next v) ∧
    (¬ (up ∧ 0 < l.credits ∧ clear ∧ l.unacked.length < 64) → exec (.packetSend t n) s = .next v) ∧
    (∀ p r, l.queue = p :: r → up → 0 < l.credits → clear → l.unacked.length < 64 →
      let h := sealHeader { p.hdr with bypassLeft := 3, lseq := l.lseq }
      exec (.packetSend t n) s = .next (v.modPort n fun l =>
        Link.announce now (max l.busyUntil ((now + 40 * ns) * fine)) (packetTime h) { l with
          queue := r
          unacked := l.unacked ++ [{ p with hdr := h, sentAt := now }]
          credits := l.credits - 1
          lseq := l.lseq + 1
          outHdr := some h
          bypassRun := 0
          sent := some { at_ := now, packet := p, busy := l.busy, outHdr := l.outHdr, bypassRun := l.bypassRun
                         timer := l.timer } })) ∧
    (∀ q,
      let late := l.unacked.find? fun p => p.hdr.lseq = q && p.sentAt + 10 * us ≤ now
      (late = none ∨ ¬ (up ∧ clear) → exec (.packetReplay t n q) s = .next v) ∧
      (∀ p, late = some p → up → clear → exec (.packetReplay t n q) s = .next (v.setLink n { l.resend now p with
        sent := some { at_ := now, packet := p, replays := some l.replays, busy := l.busy, outHdr := l.outHdr
                       bypassRun := l.bypassRun, timer := l.timer } }))) ∧
    -- link states
    (∀ r, (l.st = 3 → exec (.linkDown t n r) s = .next v) ∧ (l.st ≠ 3 → exec (.linkDown t n r) s = down r)) ∧
    (∀ r, let l' := (v.linkGoesDown n r).link n
      (l.st = 0 → v.linkGoesDown n r = v.modLink n fun l => { l with downReason := r }) ∧
      (l.st ≠ 0 → l'.st = (if r = 5 ∨ r = 4 then 0 else 1) ∧ l'.downReason = r ∧ l'.unacked = [] ∧ l'.queue = [] ∧
        l'.landing = [] ∧ l'.expect = [] ∧ l'.credits = 0 ∧ l'.timer = none ∧
        ∀ k, k ≠ n → (v.linkGoesDown n r).link k = s.link k)) ∧
    (exec (.linkTimer t n) s = if v.timerOut n = true ∧ (v.linkArrivals n).timerOut n = true then down 3 else .next v) ∧
    (v.timerOut n = true ↔ ∃ t0, l.timer = some t0 ∧ up ∧ (t0 / us + l.limit.toNat + 1) * us ≤ now ∧
      (((l.queue ≠ [] ∨ s.asked n = true) ∧ l.credits = 0) ∨ l.unacked ≠ [])) ∧
    (v.inCycle = [] → v.linkArrivals n = v) ∧
    (exec (.laneLockLoss t n []) s = .next v) ∧
    (∀ i j r, i < 10 → j < 10 → r.all (· < 10) = true →
      exec (.laneLockLoss t n (i :: j :: r)) s = if up then down 1 else .next v) ∧
    (∀ k, k < 10 → ∀ c ∈ [Instr.laneLockLoss t n [k], Instr.laneErrorRate t n k],
      (¬ up → exec c s = .next v) ∧
      (up → l.spareUsed = true → exec c s = if k ≤ 8 ∧ l.spareFor.toNat ≠ k then down 2 else .next v) ∧
      (up → l.spareUsed = false → 8 ≤ k → exec c s = .next v) ∧
      (up → l.spareUsed = false → k ≤ 7 →
        (l.failedLane = none → exec c s = .next (v.modLink n fun l => { l with failedLane := some k })) ∧
        (∀ j, l.failedLane = some j → exec c s = if j = k then .next v else down 2))) ∧
    (l.failedLane = none → exec (.spareLaneSwitch t n) s = .next v) ∧
    (∀ k, l.failedLane = some k → exec (.spareLaneSwitch t n) s = .next ((v.wears 5).setLink n
      (l.unacked.foldl (Link.resend now) { l with failedLane := none, spareUsed := true, spareFor := BitVec.ofNat 3 k }))) ∧
    (∀ peer tl cl,
      let held := s.heldThrough n = true ∨ l.mode = 1 ∨ up
      let near := s.linkMod.tlevel.toNat ≤ tl.toNat + 1 ∧ tl.toNat ≤ s.linkMod.tlevel.toNat + 1
      (held → exec (.linkUp t n peer tl cl) s = .next v) ∧
      (¬ held → Completes (.linkUp t n peer tl cl) s fun s' =>
        let l' := s'.link n
        l'.peer = peer ∧ l'.tlevel = tl ∧ l'.clevel = cl ∧ l'.spareUsed = false ∧
          (near → l'.st = 2 ∧ l'.downReason = 0 ∧ l'.credits = 64 ∧ l'.unacked = [] ∧ l'.timer = none) ∧
          (¬ near → l'.st = 0 ∧ l'.downReason = 4)))

/-- Power, supply hold, PERST#, trips, back-off, domain resets (R346, R402, R415, R418, R419, R425, R429 to R431, R436). -/
def Obligations.HoldsAndResetsTakeDomains : Prop :=
  ∀ (s : State) (t : Nat),
    let v := s.tick t
    let now := max s.now t
    let a := s.aon
    let same : Out := .next v
    let running := a.inReset = false ∧ a.d1Reset = false
    let free (p h th : Bool) (b r : Option Nat) : Bool := a.power && !p && !h && !th && b.isNone && r.isNone
    -- supply
    (∀ mv, a.power = false → 44000 < mv → Completes (.powerGood t mv) s fun s' =>
      s'.aon.power = true ∧ s'.aon.goodAt = now ∧ s'.aon.count = 0 ∧ s'.aon.cask = State.reset.aon.cask ∧
        s'.aon.perst = a.perst ∧ s'.aon.flash = a.flash ∧ s'.aon.bootBank = a.bootBank ∧ s'.aon.bankOk = a.bankOk ∧
        s'.hbm = [] ∧ s'.sram = [] ∧
        (∀ n, (s'.fout n).nvm = (s.fout n).nvm ∧ (s'.fout n).st = .hiz ∧
          (s'.fout n).range = (s.fout n).nvm.range) ∧ s'.HeldOrReleased now (!a.perst)) ∧
    (∀ mv, a.power = true ∨ mv ≤ 44000 → exec (.powerGood t mv) s = same) ∧
    (∀ mv, a.power = true → mv < 38000 → Completes (.powerLoss t mv) s fun s' =>
      s'.aon.power = false ∧ s'.aon.inReset = true ∧ s'.aon.armed = false ∧ s'.aon.cask = State.reset.aon.cask ∧
        s'.hbm = [] ∧ s'.sram = [] ∧ s'.chans = [] ∧ s'.clusters = [] ∧ s'.fw = {} ∧
        ∀ n, (s'.fout n).nvm = (s.fout n).nvm ∧ (s'.fout n).st = .hiz) ∧
    (∀ mv, a.power = false ∨ 38000 ≤ mv → exec (.powerLoss t mv) s = same) ∧
    (∀ mv since, a.power = true → 38000 ≤ mv → (mv < 40000 ∨ mv < 46000 ∧ since + ms ≤ now) →
      Completes (.supplyHold t ⟨mv, since⟩) s fun s' =>
      s'.aon.supplyHold = true ∧ s'.aon.supplyFrom = now ∧ s'.aon.stage = 5 ∧ (running → s.ResetFrom s')) ∧
    (∀ mv since, a.power = false ∨ mv < 38000 ∨ 46000 ≤ mv ∨ (40000 ≤ mv ∧ now < since + ms) →
      exec (.supplyHold t ⟨mv, since⟩) s = same) ∧
    (∀ mv since, a.power = true → a.supplyHold = true → 47500 < mv → max since a.supplyFrom + 100 * ms ≤ now →
      a.inReset = true → Completes (.supplyHoldRelease ⟨t, mv, since⟩) s fun s' => s'.aon.supplyHold = false ∧
        s'.HeldOrReleased now (free a.perst false a.thermalHold a.backoff a.resetHold)) ∧
    (∀ mv since, a.power = false ∨ a.supplyHold = false ∨ mv ≤ 47500 ∨ now < max since a.supplyFrom + 100 * ms →
      exec (.supplyHoldRelease ⟨t, mv, since⟩) s = same) ∧
    -- PERST#
    (a.power = true → Completes (.perstAssert t) s fun s' => s'.aon.perst = true ∧ s'.aon.backoff = none ∧
      s'.aon.resetHold = none ∧ s'.aon.stage = 5 ∧ (running → s.ResetFrom s')) ∧
    (a.power = false → exec (.perstAssert t) s = .next (v.modAon fun a => { a with perst := true })) ∧
    (a.inReset = true → Completes (.perstDeassert t) s fun s' => s'.aon.perst = false ∧
      s'.HeldOrReleased now (free false a.supplyHold a.thermalHold a.backoff a.resetHold)) ∧
    (a.inReset = false → exec (.perstDeassert t) s = .next (v.modAon fun a => { a with perst := false })) ∧
    -- trip diodes
    (∀ die x, die < 4 → ∀ temps : List Int, temps.length = 4 →
      ∀ (c : Instr) (xs : List Int), ((c = .thermalTrip t die x ∨ c = .tripDiodeCrossing t die x) ∧ xs = a.diodes.set die x) ∨
        (c = .thermalTripRelease t temps ∧ xs = temps) →
      let hot := xs.any fun y => 100 < y
      let cool := xs.all fun y => y ≤ 80
      (a.power = true → hot = true → a.thermalHold = false → sameCycle a.retryAt now = false →
        Completes c s fun s' => s'.aon.diodes = xs ∧ s'.aon.thermalHold = true ∧ s'.aon.count = satInc a.count ∧
          s'.aon.total = satInc a.total ∧ s'.aon.retryAt = some now ∧ s'.aon.evt2Until = some (now + 10 * ms) ∧
          s'.aon.backoff = (if a.perst then none else some (now + backoffTu (satInc a.count).toNat)) ∧
          (running → s.ResetFrom s')) ∧
      (a.power = true → hot = false → a.thermalHold = true → cool = true → a.inReset = true →
        Completes c s fun s' => s'.aon.diodes = xs ∧ s'.aon.thermalHold = false ∧
          s'.HeldOrReleased now (free a.perst a.supplyHold false a.backoff a.resetHold)) ∧
      (a.power = false ∨ (hot = true ∧ a.thermalHold = true) ∨ (hot = false ∧ (a.thermalHold = false ∨ cool = false)) →
        exec c s = .next (v.modAon fun a => { a with diodes := xs }))) ∧
    -- the back-off wait and the 10 ms hold
    (∀ e, a.backoff = some e → e ≤ now → a.inReset = true → Completes (.backoffEnd t) s fun s' =>
      s'.aon.backoff = none ∧ s'.HeldOrReleased now (free a.perst a.supplyHold a.thermalHold none a.resetHold)) ∧
    (a.backoff.all (now < ·) = true → exec (.backoffEnd t) s = same) ∧
    (∀ e, a.resetHold = some e → e ≤ now → Completes (.resetRelease t) s fun s' => s'.aon.resetHold = none ∧
      (a.inReset = true → s'.HeldOrReleased now (free a.perst a.supplyHold a.thermalHold a.backoff none)) ∧
      (a.inReset = false → a.d1Reset = true → s'.ReleasedAt now) ∧
      (running → s'.aon.d4Reset = 0 ∧ s'.aon.inReset = false ∧
        s'.aon.d2Reset = 0 ∧ s'.aon.recover2 = a.recover2 ||| a.d2Reset ∧
        (s'.aon.stage = if a.d2Reset ≠ 0 ∧ a.stage ≠ 0 then 1 else a.stage) ∧
        (a.d2Reset ≠ 0 → a.stage ≠ 0 → s'.aon.taster = false))) ∧
    (a.resetHold.all (now < ·) = true → exec (.resetRelease t) s = same) ∧
    -- MODULE_RESET's domains
    (∀ d1 d2 d3 d4,
      let asked := (d1 = true → a.askD1 = true) ∧ d2 &&& ~~~a.askD2 = 0 ∧ d3 &&& ~~~a.askD3 = 0 ∧ d4 &&& ~~~a.askD4 = 0
      let some_ := d1 = true ∨ d2 ≠ 0 ∨ d3 ≠ 0 ∨ d4 ≠ 0
      let all := d1 = true ∧ d3 = 0xF ∧ d4 = 0xFFFF
      (¬ (a.power = true ∧ a.inReset = false ∧ asked ∧ some_) → exec (.domainReset t d1 d2 d3 d4) s = same) ∧
      (a.power = true → running → a.resetHold = none → asked → some_ →
        Completes (.domainReset t d1 d2 d3 d4) s fun s' => s'.aon.resetHold = some (now + 10 * ms) ∧
          (all → s.ResetFrom s') ∧
          (¬ all →
            (s'.aon.askD1 = (a.askD1 && !d1) ∧ s'.aon.askD2 = a.askD2 &&& ~~~d2 ∧ s'.aon.askD3 = a.askD3 &&& ~~~d3 ∧
              s'.aon.askD4 = a.askD4 &&& ~~~d4) ∧
            (∀ x, x < 2 ^ 40 → s'.hbm.read x = if flag d3 (x / 2 ^ 36 / 4) then 0 else s.hbm.read x) ∧
            (∀ x, x < 832 * 0x300000 →
              s'.sram.read x = if flag (d2 ||| d3) (x / 0x300000 / 208) then 0 else s.sram.read x) ∧
            (∀ c, c < 832 → flag (d2 ||| d3) (c / 208) = true →
              (s'.cluster c).locked = false ∧ (s'.cluster c).calibrated = false) ∧
            (∀ n, n < 64 → flag d4 (n / 4) = true → (s'.link n).st = 3) ∧
            (d1 = true → s'.aon.resets = a.resets + 1 ∧ s'.aon.stage = 5 ∧ s'.aon.armed = false ∧ s'.chans = [] ∧
              s'.fw = {} ∧ s'.locks = {} ∧ s'.loops = [] ∧ s'.sched = []) ∧
            (d1 = false → s'.aon.resets = a.resets ∧ s'.aon.stage = a.stage ∧ s'.aon.armed = a.armed ∧
              s'.loops = s.loops ∧ s'.locks = s.locks))))

/-- Stages, retries, heartbeat, watchdog, event outputs (R26, R172, R415 to R418, R420 to R428, R448). -/
def Obligations.StagesWatchdogAndEventOutputs : Prop :=
  ∀ (s : State) (t : Nat),
    let v := s.tick t
    let now := max s.now t
    let a := s.aon
    let same : Out := .next v
    let running := a.inReset = false ∧ a.d1Reset = false
    let calm := (List.range 832).all fun c => (s.cluster c).restart.isNone
    let ready := a.resetHold.isNone && s.allLocked && calm
    let expired := a.inReset = true ∧ sameCycle a.expiryAt now = true ∧ sameCycle a.retryAt now = false
    let counted (s' : State) (code : Half) : Prop := s'.aon.failCode = code ∧ s'.aon.failStage = a.expiryStage.1 ∧
      s'.aon.count = satInc a.count ∧ s'.aon.total = satInc a.total ∧ s'.aon.resets = a.resets
    let retried (s' : State) (code : Half) : Prop :=
      s'.aon.failCode = code ∧ s'.aon.failStage = a.stage ∧ s'.aon.count = satInc a.count ∧
        s'.aon.total = satInc a.total ∧ s'.aon.retryAt = some now ∧ s'.aon.evt2Until = some (now + 10 * ms) ∧
        s'.aon.backoff = (if a.perst then none else some (now + backoffTu (satInc a.count).toNat)) ∧
        (running → s.ResetFrom s')
    let code := BitVec.ofNat 32 (a.actDomain.toNat * 2 ^ 28 + a.actUnit.toNat * 2 ^ 20
      + (if a.actReason = 0 then 1 else a.actReason.toNat) * 2 ^ 8 + (a.resets + 1).toNat % 256)
    -- stages that end
    (∀ k, a.boots = some k → a.stage = 0 → a.power = true → a.inReset = false → Completes (.steepEnd t) s fun s' =>
      s'.fw.serving = true ∧ s'.aon.bank = k ∧
        s'.aon.stage = (if s.allLocked = false then 1 else if s.allCalibrated = false then 2 else 3)) ∧
    ((a.boots = none ∨ ¬ (a.stage = 0 ∧ a.power = true ∧ a.inReset = false)) → exec (.steepEnd t) s = same) ∧
    (exec (.hbmTrainingEnd t) s =
      if a.stage = 1 then .next ((v.each (List.range 16) State.repairRows).modAon fun a => { a with hbmTrained := true })
      else same) ∧
    (∀ k, k < 16 →
      let used := Tab.get 0 s.wear.rows k
      ((s.repairRows k).stack k).rowFails = 0 ∧ Tab.get 0 (s.repairRows k).wear.rows k
        = used + min (s.stack k).rowFails (Config.repairRows k - used)) ∧
    (∀ b, a.boots = some b ↔ (a.verifies b = true ∧ (a.bootBank = b ∨ a.verifies a.bootBank = false))) ∧
    (a.stage = 1 → a.hbmTrained = true → v.kilnRamped = true → calm = true → s.deadDie = true →
      Completes (.kilnEnd t) s fun s' => retried s' 0x0202) ∧
    (a.stage = 2 → ready = true → s.deadDie = true → Completes (.mashEnd t) s fun s' => retried s' 0x0301) ∧
    (a.stage = 1 → a.hbmTrained = true → v.kilnRamped = true → calm = true → s.deadDie = false →
      Completes (.kilnEnd t) s fun s' =>
      s'.aon.stage = 2 ∧ s'.aon.stageFrom = now ∧ s'.aon.taster = true ∧ s'.allLocked = true ∧
        ∀ c, c < 832 → (s.cluster c).retired = false → (s.cluster c).locked = false →
          (s'.cluster c).locked = true ∧ (s'.cluster c).calibrated = false ∧ (s'.cluster c).taster = true) ∧
    (¬ (a.stage = 1 ∧ a.hbmTrained = true ∧ v.kilnRamped = true ∧ calm = true) → exec (.kilnEnd t) s = same) ∧
    (a.stage = 2 → ready = true → s.deadDie = false → Completes (.mashEnd t) s fun s' =>
      s'.aon.stage = 3 ∧ s'.aon.stageFrom = now ∧ s'.aon.count = 0 ∧ s'.aon.taster = false ∧ s'.aon.linksHeld = false ∧
        s'.aon.recover2 = 0 ∧ ∀ c, c < 832 → (s.cluster c).retired = false →
          (s.excluded c = false → (s'.cluster c).calibrated = true) ∧
            (s.excluded c = true → (s.cluster c).calibrated = false → (s'.cluster c).rotates = true)) ∧
    (¬ (a.stage = 2 ∧ ready = true) → exec (.mashEnd t) s = same) ∧
    -- stages that fail
    (∀ st n code, (st, n, code) ∈ [((0 : BitVec 3), 2000, (0x0103 : Half)), (1, 10000, 0x0203), (2, 15000, 0x0302)] →
      a.stage = st →
        (a.power = true → a.inReset = false → a.stageFrom / ms + n + 1 ≤ now / ms →
          Completes (.stageTimer t) s fun s' => retried s' code) ∧
        (a.power = false ∨ a.inReset = true ∨ now / ms ≤ a.stageFrom / ms + n → exec (.stageTimer t) s = same)) ∧
    (∀ n code, 3 ≤ a.stage.toNat → stageLimit a.expiryStage.1 = some (n, code) → timedOut n a.expiryStage.2 now = true →
      expired → Completes (.stageTimer t) s fun s' => counted s' code) ∧
    (3 ≤ a.stage.toNat → (¬ expired ∨ stageLimit a.expiryStage.1 = none) → exec (.stageTimer t) s = same) ∧
    (∀ st code, (st, code) ∈ [((0 : BitVec 3), (0x0101 : Half)), (0, 0x0102), (1, 0x0201), (1, 0x0202), (2, 0x0301)] →
      (a.power = true → a.inReset = false → a.stage = st → Completes (.stageFailure t code) s fun s' => retried s' code) ∧
      (a.inReset = false → (a.power = false ∨ a.stage ≠ st) → exec (.stageFailure t code) s = same) ∧
      (expired → a.expiryStage.1 = st → Completes (.stageFailure t code) s fun s' => counted s' code) ∧
      (a.inReset = true → (¬ expired ∨ a.expiryStage.1 ≠ st) → exec (.stageFailure t code) s = same)) ∧
    (∀ c, c < 832 →
      let k := s.cluster c
      let fails := ((a.stage = 1 ∧ k.locked = false) ∨ (a.stage = 2 ∧ k.calibrated = false)) ∧ k.retired = false
      (¬ fails → exec (.clusterBringupFail t c) s = same) ∧
      (fails → Completes (.clusterBringupFail t c) s fun s' => let k' := s'.cluster c
        (k.failures = 0 → k'.failures = 1 ∧ k'.restart = some (now + 300 * ms) ∧ k'.retired = false) ∧
          (k.failures ≠ 0 → k'.retired = true ∧ k'.restart = none ∧ k'.permit = false) ∧
          ∀ j, j ≠ c → s'.cluster j = s.cluster j)) ∧
    -- heartbeat and watchdog
    (∀ beat, exec (.heartbeat t beat) s =
      if a.armed = true ∧ beat ≠ a.beat then
        .next (v.modAon fun a => { a with beat := beat, beatAt := now, wdgNow := a.wdgLimit.toNat }) else same) ∧
    (a.armed = true → a.beatAt / ms + a.wdgNow + 1 ≤ now / ms → running → Completes (.watchdogExpiry t) s fun s' =>
      s'.aon.cask = (code :: a.cask).take 8 ∧ s'.aon.expiries = satInc a.expiries ∧ s'.aon.stage = 5 ∧
        s'.aon.resetHold = some (now + 10 * ms) ∧ s'.aon.evt2Until = some (now + 10 * ms) ∧ s'.aon.count = a.count ∧
        s'.aon.expiryStage = (a.stage, a.stageFrom) ∧ s.ResetFrom s') ∧
    (now / ms ≤ a.beatAt / ms + a.wdgNow → exec (.watchdogExpiry t) s = same) ∧
    (a.armed = false → (sameCycle a.retryAt now = false ∨ a.retryArmed = false) → exec (.watchdogExpiry t) s = same) ∧
    -- event outputs
    (∀ e, a.evt2Until = some e → exec (.evtPulseEnd t) s =
      if e ≤ now then .next (v.modAon fun a => { a with evt2Until := none }) else same) ∧
    (a.evt2Until = none → exec (.evtPulseEnd t) s = same) ∧
    (exec (.evtFirstEvaluation t) s =
      if a.power = true ∧ a.goodAt + ms ≤ now then .next (v.modAon fun a => { a with evtOn := true }) else same)

/-- Every step keeps the memories canonical (R211, R212, R222, R357, R384). -/
def Obligations.MemoryStaysCanonical : Prop :=
  ∀ s s' : State, s.Canonical → step s = .next s' → s'.Canonical

/-- Every step keeps a legal state legal (R282, R285, R357, R365, R369, R405, R415, R425, R428, R433). -/
def Obligations.LegalKept : Prop :=
  ∀ s s' : State, s.Legal → step s = .next s' → s'.Legal

/-- The reset state is legal and holds the tables' reset values (R15, R302, R329, R343, R349, R373, R414, R415, R433). -/
def Obligations.ResetIsLegalWithItsValues : Prop :=
  let s := State.reset
  s.Legal ∧ s.Canonical ∧ s.pending = [] ∧ s.hbm = [] ∧ s.sram = [] ∧ s.aon.power = true ∧ s.aon.inReset = true ∧
    (∀ n, (s.fout n).st = .hiz ∧ (s.link n).st = 3 ∧ s.locks.value n = 0 ∧ (s.chan n).inFill = 0 ∧
      (s.chan n).outFill = 0 ∧ (s.link n).limit = 0xC8 ∧ s.linkWord n 7 = 0x8000) ∧
    (∀ x ∈ [(0x004, 5), (0x100, 0x20), (0x104, 0), (0x108, 0x1001), (0x10C, 0), (0x200, 0), (0x21C, 0), (0x220, 0),
        (0x224, 0), (0x228, 0), (0x420000, 0x28), (0x300200, 0)],
      s.regWord 0 x.1 = BitVec.ofNat 32 x.2) ∧
    (∀ n, n < 4 → s.regWord 0 (0x400000 + 0x100 * n + 4) = 0x3E8) ∧
    (∀ n, n < 16 → s.regWord 0 (0x410000 + 0x40 * n + 4) = 0x64) ∧
    (∀ n, n < 16 → ∀ x ∈ [(0x004, 0x1C00), (0x008, 0x2710), (0x010, 0x80000000), (0x014, 0x7FFFFFFF), (0x018, 0x80000000),
        (0x01C, 0x7FFFFFFF), (0x030, 0x00800000), (0x034, 0x01000000), (0x044, 0x001003FF), (0x100, 0x40000000)],
      s.regWord 0 (0x430000 + 0x400 * n + x.1) = BitVec.ofNat 32 x.2) ∧
    (∀ n, n < 16 → s.regWord 0 (0x434000 + 0x40 * n + 0x14) = 0x80000000 ∧
      s.regWord 0 (0x434000 + 0x40 * n + 0x18) = 0x7FFFFFFF)
end

