-- ==== Sys2Proof/Laws/Frames.lean ====
section
/-! SUPPORT. FRAMES: for every operation of the model, the parts of the state that it may change. -/

set_option linter.unusedTactic false
set_option linter.unreachableTactic false

namespace Sys2Proof.Machine

open State

theorem State.Keeps.rfl {L : List Part} {s : State} : Keeps L s s := by
  intro p _; cases p <;> exact Eq.refl _

theorem State.Keeps.into {L M : List Part} {s x y : State} (h : Keeps M x y) (m : M ⊆ L)
    (g : Keeps L s x) : Keeps L s y := by
  intro p hp
  have a := g p hp
  have b := h p fun q => hp (m q)
  cases p <;> exact b.trans a

theorem State.Keeps.ite {L : List Part} {s a b : State} {c : Prop} [Decidable c] (ha : c → Keeps L s a)
    (hb : ¬c → Keeps L s b) : Keeps L s (if c then a else b) := by
  split <;> rename_i h
  · exact ha h
  · exact hb h

theorem State.Keeps.ite1 {α : Type} {L : List Part} {s : State} {a b : State × α} {c : Prop} [Decidable c]
    (ha : c → Keeps L s a.1) (hb : ¬c → Keeps L s b.1) : Keeps L s (if c then a else b).1 := by
  split <;> rename_i h
  · exact ha h
  · exact hb h

theorem State.Keeps.each {α : Type} {L : List Part} {s x : State} {xs : List α} {f : State → α → State}
    (h : ∀ t a, Keeps L t (f t a)) (g : Keeps L s x) : Keeps L s (x.each xs f) := by
  induction xs generalizing x with
  | nil => exact g
  | cons a xs ih => exact ih (.into (h x a) (fun _ m => m) g)

theorem State.Keeps.onOp {L : List Part} {s x : State} {u : UnitId} {img code : Nat} {f : State → Dword → State}
    (h : ∀ t o, Keeps L t (f t o)) (g : Keeps L s x) : Keeps L s (x.onOp u img code f) := by
  unfold State.onOp
  exact .ite (fun _ => .into (h x _) (fun _ m => m) g) fun _ => g

theorem State.Keeps.now {L : List Part} {s x : State} {v} (m : Part.now ∈ L) (g : Keeps L s x) :
    Keeps L s { x with now := v } := by
  intro p hp; cases p <;> first | exact g _ hp | exact absurd m hp

theorem State.Keeps.pending {L : List Part} {s x : State} {v} (m : Part.pending ∈ L) (g : Keeps L s x) :
    Keeps L s { x with pending := v } := by
  intro p hp; cases p <;> first | exact g _ hp | exact absurd m hp

theorem State.Keeps.free {L : List Part} {s x : State} {v} (m : Part.free ∈ L) (g : Keeps L s x) :
    Keeps L s { x with free := v } := by
  intro p hp; cases p <;> first | exact g _ hp | exact absurd m hp

theorem State.Keeps.readOut {L : List Part} {s x : State} {v} (m : Part.readOut ∈ L) (g : Keeps L s x) :
    Keeps L s { x with readOut := v } := by
  intro p hp; cases p <;> first | exact g _ hp | exact absurd m hp

theorem State.Keeps.snap {L : List Part} {s x : State} {v} (m : Part.snap ∈ L) (g : Keeps L s x) :
    Keeps L s { x with snap := v } := by
  intro p hp; cases p <;> first | exact g _ hp | exact absurd m hp

theorem State.Keeps.aon {L : List Part} {s x : State} {v} (m : Part.aon ∈ L) (g : Keeps L s x) :
    Keeps L s { x with aon := v } := by
  intro p hp; cases p <;> first | exact g _ hp | exact absurd m hp

theorem State.Keeps.fw {L : List Part} {s x : State} {v} (m : Part.fw ∈ L) (g : Keeps L s x) :
    Keeps L s { x with fw := v } := by
  intro p hp; cases p <;> first | exact g _ hp | exact absurd m hp

theorem State.Keeps.chans {L : List Part} {s x : State} {v} (m : Part.chans ∈ L) (g : Keeps L s x) :
    Keeps L s { x with chans := v } := by
  intro p hp; cases p <;> first | exact g _ hp | exact absurd m hp

theorem State.Keeps.locks {L : List Part} {s x : State} {v} (m : Part.locks ∈ L) (g : Keeps L s x) :
    Keeps L s { x with locks := v } := by
  intro p hp; cases p <;> first | exact g _ hp | exact absurd m hp

theorem State.Keeps.hbm {L : List Part} {s x : State} {v} (m : Part.hbm ∈ L) (g : Keeps L s x) :
    Keeps L s { x with hbm := v } := by
  intro p hp; cases p <;> first | exact g _ hp | exact absurd m hp

theorem State.Keeps.bad {L : List Part} {s x : State} {v} (m : Part.bad ∈ L) (g : Keeps L s x) :
    Keeps L s { x with bad := v } := by
  intro p hp; cases p <;> first | exact g _ hp | exact absurd m hp

theorem State.Keeps.wear {L : List Part} {s x : State} {v} (m : Part.wear ∈ L) (g : Keeps L s x) :
    Keeps L s { x with wear := v } := by
  intro p hp; cases p <;> first | exact g _ hp | exact absurd m hp

theorem State.Keeps.hbmStacks {L : List Part} {s x : State} {v} (m : Part.hbmStacks ∈ L) (g : Keeps L s x) :
    Keeps L s { x with hbmStacks := v } := by
  intro p hp; cases p <;> first | exact g _ hp | exact absurd m hp

theorem State.Keeps.descs {L : List Part} {s x : State} {v} (m : Part.descs ∈ L) (g : Keeps L s x) :
    Keeps L s { x with descs := v } := by
  intro p hp; cases p <;> first | exact g _ hp | exact absurd m hp

theorem State.Keeps.sram {L : List Part} {s x : State} {v} (m : Part.sram ∈ L) (g : Keeps L s x) :
    Keeps L s { x with sram := v } := by
  intro p hp; cases p <;> first | exact g _ hp | exact absurd m hp

theorem State.Keeps.clusters {L : List Part} {s x : State} {v} (m : Part.clusters ∈ L) (g : Keeps L s x) :
    Keeps L s { x with clusters := v } := by
  intro p hp; cases p <;> first | exact g _ hp | exact absurd m hp

theorem State.Keeps.streams {L : List Part} {s x : State} {v} (m : Part.streams ∈ L) (g : Keeps L s x) :
    Keeps L s { x with streams := v } := by
  intro p hp; cases p <;> first | exact g _ hp | exact absurd m hp

theorem State.Keeps.pools {L : List Part} {s x : State} {v} (m : Part.pools ∈ L) (g : Keeps L s x) :
    Keeps L s { x with pools := v } := by
  intro p hp; cases p <;> first | exact g _ hp | exact absurd m hp

theorem State.Keeps.progs {L : List Part} {s x : State} {v} (m : Part.progs ∈ L) (g : Keeps L s x) :
    Keeps L s { x with progs := v } := by
  intro p hp; cases p <;> first | exact g _ hp | exact absurd m hp

theorem State.Keeps.loops {L : List Part} {s x : State} {v} (m : Part.loops ∈ L) (g : Keeps L s x) :
    Keeps L s { x with loops := v } := by
  intro p hp; cases p <;> first | exact g _ hp | exact absurd m hp

theorem State.Keeps.prfs {L : List Part} {s x : State} {v} (m : Part.prfs ∈ L) (g : Keeps L s x) :
    Keeps L s { x with prfs := v } := by
  intro p hp; cases p <;> first | exact g _ hp | exact absurd m hp

theorem State.Keeps.loopEng {L : List Part} {s x : State} {v} (m : Part.loopEng ∈ L) (g : Keeps L s x) :
    Keeps L s { x with loopEng := v } := by
  intro p hp; cases p <;> first | exact g _ hp | exact absurd m hp

theorem State.Keeps.convs {L : List Part} {s x : State} {v} (m : Part.convs ∈ L) (g : Keeps L s x) :
    Keeps L s { x with convs := v } := by
  intro p hp; cases p <;> first | exact g _ hp | exact absurd m hp

theorem State.Keeps.incfg {L : List Part} {s x : State} {v} (m : Part.incfg ∈ L) (g : Keeps L s x) :
    Keeps L s { x with incfg := v } := by
  intro p hp; cases p <;> first | exact g _ hp | exact absurd m hp

theorem State.Keeps.incfgAt {L : List Part} {s x : State} {v} (m : Part.incfgAt ∈ L) (g : Keeps L s x) :
    Keeps L s { x with incfgAt := v } := by
  intro p hp; cases p <;> first | exact g _ hp | exact absurd m hp

theorem State.Keeps.ang {L : List Part} {s x : State} {v} (m : Part.ang ∈ L) (g : Keeps L s x) :
    Keeps L s { x with ang := v } := by
  intro p hp; cases p <;> first | exact g _ hp | exact absurd m hp

theorem State.Keeps.sched {L : List Part} {s x : State} {v} (m : Part.sched ∈ L) (g : Keeps L s x) :
    Keeps L s { x with sched := v } := by
  intro p hp; cases p <;> first | exact g _ hp | exact absurd m hp

theorem State.Keeps.fouts {L : List Part} {s x : State} {v} (m : Part.fouts ∈ L) (g : Keeps L s x) :
    Keeps L s { x with fouts := v } := by
  intro p hp; cases p <;> first | exact g _ hp | exact absurd m hp

theorem State.Keeps.foutDenied {L : List Part} {s x : State} {v} (m : Part.foutDenied ∈ L) (g : Keeps L s x) :
    Keeps L s { x with foutDenied := v } := by
  intro p hp; cases p <;> first | exact g _ hp | exact absurd m hp

theorem State.Keeps.links {L : List Part} {s x : State} {v} (m : Part.links ∈ L) (g : Keeps L s x) :
    Keeps L s { x with links := v } := by
  intro p hp; cases p <;> first | exact g _ hp | exact absurd m hp

theorem State.Keeps.linkMod {L : List Part} {s x : State} {v} (m : Part.linkMod ∈ L) (g : Keeps L s x) :
    Keeps L s { x with linkMod := v } := by
  intro p hp; cases p <;> first | exact g _ hp | exact absurd m hp

variable {s : State}
  {cl n img ch k fn e d i f off r c p h a o code stream w who mv : Nat}
  {u : UnitId}
  {v : Word}
  {x : CalSlot}
  {tok : Dword}
  {slot : List Byte}
  {cls : List Nat}

theorem State.tick_keeps {t : Nat} : Keeps [.now, .snap] s (State.tick s t) := by
  unfold State.tick
  intro p hp; cases p <;> first | exact Eq.refl _ | exact absurd (by decide) hp

theorem State.draw_keeps : Keeps [.free] s (State.draw s) := by
  unfold State.draw
  with_reducible repeat' first
    | exact Keeps.rfl | apply Keeps.ite | intro _ | split | (dsimp only; split) | (apply Keeps.free; decide)

theorem State.setCluster_keeps {v : Cluster} : Keeps [.clusters] s (State.setCluster s c v) := by
  unfold State.setCluster
  with_reducible repeat' first
    | exact Keeps.rfl | apply Keeps.ite | intro _ | split | (dsimp only; split) | (apply Keeps.clusters; decide)

theorem State.modCluster_keeps {f : Cluster → Cluster} : Keeps [.clusters] s (State.modCluster s c f) := by
  unfold State.modCluster
  with_reducible repeat' first
    | exact Keeps.rfl | (apply Keeps.into setCluster_keeps; decide) | apply Keeps.ite | intro _ | split
    | (dsimp only; split)

theorem State.wears_keeps {kind : Nat} : Keeps [.wear] s (State.wears s kind) := by
  unfold State.wears
  with_reducible repeat' first
    | exact Keeps.rfl | apply Keeps.ite | intro _ | split | (dsimp only; split) | (apply Keeps.wear; decide)

theorem State.wearsWhen_keeps {inService : Bool} {kind : Nat} : Keeps [.wear] s (State.wearsWhen s inService kind) := by
  unfold State.wearsWhen
  with_reducible repeat' first
    | exact Keeps.rfl | (apply Keeps.into wears_keeps; decide) | apply Keeps.ite | intro _ | split
    | (dsimp only; split) | (apply Keeps.wear; decide)

theorem State.modCore_keeps {f : Core → Core} : Keeps [.clusters] s (State.modCore s c k f) := by
  unfold State.modCore
  with_reducible repeat' first
    | exact Keeps.rfl | (apply Keeps.into modCluster_keeps; decide) | apply Keeps.ite | intro _ | split
    | (dsimp only; split)

theorem State.modFeeder_keeps {g : Feeder → Feeder} : Keeps [.clusters] s (State.modFeeder s c f g) := by
  unfold State.modFeeder
  with_reducible repeat' first
    | exact Keeps.rfl | (apply Keeps.into modCluster_keeps; decide) | apply Keeps.ite | intro _ | split
    | (dsimp only; split)

theorem State.setStream_keeps {v : Stream} : Keeps [.streams] s (State.setStream s i v) := by
  unfold State.setStream
  with_reducible repeat' first
    | exact Keeps.rfl | apply Keeps.ite | intro _ | split | (dsimp only; split) | (apply Keeps.streams; decide)

theorem State.modStream_keeps {f : Stream → Stream} : Keeps [.streams] s (State.modStream s i f) := by
  unfold State.modStream
  with_reducible repeat' first
    | exact Keeps.rfl | (apply Keeps.into setStream_keeps; decide) | apply Keeps.ite | intro _ | split
    | (dsimp only; split)

theorem State.setPool_keeps {v : Pool} : Keeps [.pools] s (State.setPool s i v) := by
  unfold State.setPool
  with_reducible repeat' first
    | exact Keeps.rfl | apply Keeps.ite | intro _ | split | (dsimp only; split) | (apply Keeps.pools; decide)

theorem State.modPool_keeps {f : Pool → Pool} : Keeps [.pools] s (State.modPool s i f) := by
  unfold State.modPool
  with_reducible repeat' first
    | exact Keeps.rfl | (apply Keeps.into setPool_keeps; decide) | apply Keeps.ite | intro _ | split
    | (dsimp only; split)

theorem State.setStack_keeps {v : Stack} : Keeps [.hbmStacks] s (State.setStack s e v) := by
  unfold State.setStack
  with_reducible repeat' first
    | exact Keeps.rfl | apply Keeps.ite | intro _ | split | (dsimp only; split) | (apply Keeps.hbmStacks; decide)

theorem State.modStack_keeps {f : Stack → Stack} : Keeps [.hbmStacks] s (State.modStack s e f) := by
  unfold State.modStack
  with_reducible repeat' first
    | exact Keeps.rfl | (apply Keeps.into setStack_keeps; decide) | apply Keeps.ite | intro _ | split
    | (dsimp only; split)

theorem State.setDesc_keeps {v : Desc} : Keeps [.descs] s (State.setDesc s e d v) := by
  unfold State.setDesc
  with_reducible repeat' first
    | exact Keeps.rfl | apply Keeps.ite | intro _ | split | (dsimp only; split) | (apply Keeps.descs; decide)

theorem State.modDesc_keeps {f : Desc → Desc} : Keeps [.descs] s (State.modDesc s e d f) := by
  unfold State.modDesc
  with_reducible repeat' first
    | exact Keeps.rfl | (apply Keeps.into setDesc_keeps; decide) | apply Keeps.ite | intro _ | split
    | (dsimp only; split)

theorem State.setLoop_keeps {v : FieldLoop} : Keeps [.loops] s (State.setLoop s n v) := by
  unfold State.setLoop
  with_reducible repeat' first
    | exact Keeps.rfl | apply Keeps.ite | intro _ | split | (dsimp only; split) | (apply Keeps.loops; decide)

theorem State.modLoop_keeps {f : FieldLoop → FieldLoop} : Keeps [.loops] s (State.modLoop s n f) := by
  unfold State.modLoop
  with_reducible repeat' first
    | exact Keeps.rfl | (apply Keeps.into setLoop_keeps; decide) | apply Keeps.ite | intro _ | split
    | (dsimp only; split)

theorem State.setPrf_keeps {v : Profile} : Keeps [.prfs] s (State.setPrf s n v) := by
  unfold State.setPrf
  with_reducible repeat' first
    | exact Keeps.rfl | apply Keeps.ite | intro _ | split | (dsimp only; split) | (apply Keeps.prfs; decide)

theorem State.modPrf_keeps {f : Profile → Profile} : Keeps [.prfs] s (State.modPrf s n f) := by
  unfold State.modPrf
  with_reducible repeat' first
    | exact Keeps.rfl | (apply Keeps.into setPrf_keeps; decide) | apply Keeps.ite | intro _ | split
    | (dsimp only; split)

theorem State.setConv_keeps {v : Conv} : Keeps [.convs] s (State.setConv s k v) := by
  unfold State.setConv
  with_reducible repeat' first
    | exact Keeps.rfl | apply Keeps.ite | intro _ | split | (dsimp only; split) | (apply Keeps.convs; decide)

theorem State.modConv_keeps {f : Conv → Conv} : Keeps [.convs] s (State.modConv s k f) := by
  unfold State.modConv
  with_reducible repeat' first
    | exact Keeps.rfl | (apply Keeps.into setConv_keeps; decide) | apply Keeps.ite | intro _ | split
    | (dsimp only; split)

theorem State.setSched_keeps {v : SchedEntry} : Keeps [.sched] s (State.setSched s e v) := by
  unfold State.setSched
  with_reducible repeat' first
    | exact Keeps.rfl | apply Keeps.ite | intro _ | split | (dsimp only; split) | (apply Keeps.sched; decide)

theorem State.setFout_keeps {v : Fout} : Keeps [.fouts] s (State.setFout s n v) := by
  unfold State.setFout
  with_reducible repeat' first
    | exact Keeps.rfl | apply Keeps.ite | intro _ | split | (dsimp only; split) | (apply Keeps.fouts; decide)

theorem State.modFout_keeps {f : Fout → Fout} : Keeps [.fouts] s (State.modFout s n f) := by
  unfold State.modFout
  with_reducible repeat' first
    | exact Keeps.rfl | (apply Keeps.into setFout_keeps; decide) | apply Keeps.ite | intro _ | split
    | (dsimp only; split)

theorem State.setChan_keeps {v : Channel} : Keeps [.chans] s (State.setChan s c v) := by
  unfold State.setChan
  with_reducible repeat' first
    | exact Keeps.rfl | apply Keeps.ite | intro _ | split | (dsimp only; split) | (apply Keeps.chans; decide)

theorem State.modChan_keeps {f : Channel → Channel} : Keeps [.chans] s (State.modChan s c f) := by
  unfold State.modChan
  with_reducible repeat' first
    | exact Keeps.rfl | (apply Keeps.into setChan_keeps; decide) | apply Keeps.ite | intro _ | split
    | (dsimp only; split)

theorem State.setLink_keeps {v : Link} : Keeps [.links] s (State.setLink s n v) := by
  unfold State.setLink
  with_reducible repeat' first
    | exact Keeps.rfl | apply Keeps.ite | intro _ | split | (dsimp only; split) | (apply Keeps.links; decide)

theorem State.modLink_keeps {f : Link → Link} : Keeps [.links] s (State.modLink s n f) := by
  unfold State.modLink
  with_reducible repeat' first
    | exact Keeps.rfl | (apply Keeps.into setLink_keeps; decide) | apply Keeps.ite | intro _ | split
    | (dsimp only; split)

theorem State.setImage_keeps {v : ImgRec} : Keeps [.fw] s (State.setImage s i v) := by
  unfold State.setImage
  with_reducible repeat' first
    | exact Keeps.rfl | apply Keeps.ite | intro _ | split | (dsimp only; split) | (apply Keeps.fw; decide)

theorem State.modImage_keeps {f : ImgRec → ImgRec} : Keeps [.fw] s (State.modImage s i f) := by
  unfold State.modImage
  with_reducible repeat' first
    | exact Keeps.rfl | (apply Keeps.into setImage_keeps; decide) | apply Keeps.ite | intro _ | split
    | (dsimp only; split)

theorem State.setProg_keeps {v : Prog} : Keeps [.progs] s (State.setProg s u img v) := by
  unfold State.setProg
  with_reducible repeat' first
    | exact Keeps.rfl | apply Keeps.ite | intro _ | split | (dsimp only; split) | (apply Keeps.progs; decide)

theorem State.modProg_keeps {f : Prog → Prog} : Keeps [.progs] s (State.modProg s u img f) := by
  unfold State.modProg
  with_reducible repeat' first
    | exact Keeps.rfl | (apply Keeps.into setProg_keeps; decide) | apply Keeps.ite | intro _ | split
    | (dsimp only; split)

theorem State.modAon_keeps {f : Aon → Aon} : Keeps [.aon] s (State.modAon s f) := by
  unfold State.modAon
  with_reducible repeat' first
    | exact Keeps.rfl | apply Keeps.ite | intro _ | split | (dsimp only; split) | (apply Keeps.aon; decide)

theorem State.modAng_keeps {f : Angle → Angle} : Keeps [.ang] s (State.modAng s f) := by
  unfold State.modAng
  with_reducible repeat' first
    | exact Keeps.rfl | apply Keeps.ite | intro _ | split | (dsimp only; split) | (apply Keeps.ang; decide)

theorem State.modFw_keeps {f : Fw → Fw} : Keeps [.fw] s (State.modFw s f) := by
  unfold State.modFw
  with_reducible repeat' first
    | exact Keeps.rfl | apply Keeps.ite | intro _ | split | (dsimp only; split) | (apply Keeps.fw; decide)

theorem State.writeHbm_keeps {bs : List Byte} : Keeps [.hbm, .bad] s (State.writeHbm s a bs) := by
  intro p hp; cases p <;> first | exact Eq.refl _ | exact absurd (by decide) hp

theorem State.writeBuf_keeps {bs : List Byte} : Keeps [.hbm, .bad, .sram] s (State.writeBuf s p h off bs) := by
  unfold State.writeBuf
  dsimp only
  split
  · exact Keeps.into writeHbm_keeps (by decide) Keeps.rfl
  · exact Keeps.sram (by decide) Keeps.rfl

theorem State.postKept_keeps {m : OutMsg} : Keeps [.chans] s (State.postKept s ch m) := by
  unfold State.postKept
  with_reducible repeat' first
    | exact Keeps.rfl | (apply Keeps.into modChan_keeps; decide) | apply Keeps.ite | intro _ | split
    | (dsimp only; split)

theorem State.raise_keeps {body : List Byte} : Keeps [.chans] s (State.raise s code body) := by
  unfold State.raise
  with_reducible repeat' first
    | exact Keeps.rfl | apply Keeps.each | (apply Keeps.into modChan_keeps; decide) | apply Keeps.ite | intro _
    | split | (dsimp only; split)

theorem State.takeHead_keeps : Keeps [.streams] s (State.takeHead s u i) := by
  unfold State.takeHead
  with_reducible repeat' first
    | exact Keeps.rfl | (apply Keeps.into modStream_keeps; decide) | apply Keeps.ite | intro _ | split
    | (dsimp only; split)

theorem State.releaseTok_keeps : Keeps [.pools] s (State.releaseTok s i tok e) := by
  unfold State.releaseTok
  with_reducible repeat' first
    | exact Keeps.rfl | (apply Keeps.into modPool_keeps; decide) | apply Keeps.ite | intro _ | split
    | (dsimp only; split)

theorem State.takeHandle_keeps : Keeps [.pools] s (State.takeHandle s o) := by
  unfold State.takeHandle
  with_reducible repeat' first
    | exact Keeps.rfl | (apply Keeps.into modPool_keeps; decide) | apply Keeps.ite | intro _ | split
    | (dsimp only; split)

theorem State.markAll_keeps {os : List Nat} {r : Ready} {owing : List (Nat × UnitId × Nat)} {ps : List Nat} :
    Keeps [.streams] s (State.markAll s os r owing ps) := by
  unfold State.markAll
  with_reducible repeat' first
    | exact Keeps.rfl | apply Keeps.each | (apply Keeps.into modStream_keeps; decide) | apply Keeps.ite | intro _
    | split | (dsimp only; split)

theorem State.sendOn_keeps {due : Nat} {keep : Consumer → Bool} {tile : Half} :
    Keeps [.streams] s (State.sendOn s u o tok due keep tile) := by
  unfold State.sendOn
  with_reducible repeat' first
    | exact Keeps.rfl | (apply Keeps.into modStream_keeps; decide) | apply Keeps.ite | intro _ | split
    | (dsimp only; split)

theorem State.finish_keeps : Keeps [.progs] s (State.finish s u img e) := by
  unfold State.finish
  with_reducible repeat' first
    | exact Keeps.rfl | (apply Keeps.into modProg_keeps; decide) | apply Keeps.ite | intro _ | split
    | (dsimp only; split)

theorem State.sendError_keeps {outs : List Nat} {f : TokFlags} {seq : Half} :
    Keeps [.streams] s (State.sendError s u outs f seq) := by
  unfold State.sendError
  with_reducible repeat' first
    | exact Keeps.rfl | (apply Keeps.into sendOn_keeps; decide) | apply Keeps.each
    | (apply Keeps.into modStream_keeps; decide) | apply Keeps.ite | intro _ | split | (dsimp only; split)

theorem State.dropHandle_keeps : Keeps [.pools] s (State.dropHandle s o h e) := by
  unfold State.dropHandle
  with_reducible repeat' first
    | exact Keeps.rfl | (apply Keeps.into modPool_keeps; decide) | apply Keeps.ite | intro _ | split
    | (dsimp only; split)

theorem State.sendOutputs_keeps {toks : List Dword} {outs : List (Nat × Nat)} {code : Option Nat} {asError : Bool} :
    Keeps [.streams, .pools] s (State.sendOutputs s u img toks outs code asError e) := by
  unfold State.sendOutputs
  with_reducible repeat' first
    | exact Keeps.rfl | (apply Keeps.into dropHandle_keeps; decide) | (apply Keeps.into sendOn_keeps; decide)
    | apply Keeps.each | (apply Keeps.into modStream_keeps; decide) | apply Keeps.ite | intro _ | split
    | (dsimp only; split)

theorem State.Keeps.fire {L : List Part} {x : State} {ins outs : List Nat}
    {work : State → List Dword → List (Nat × Nat) → Work} (hL : [.streams, .pools, .progs] ⊆ L)
    (h : ∀ t ks hs, Keeps L t (work t ks hs).st) (g : Keeps L s x) :
    Keeps L s (x.fire u img ins outs work) := by
  have mS : [Part.streams] ⊆ L := fun _ m => hL (by simp_all)
  have mP : [Part.pools] ⊆ L := fun _ m => hL (by simp_all)
  have mG : [Part.progs] ⊆ L := fun _ m => hL (by simp_all)
  have mO : [Part.streams, Part.pools] ⊆ L := fun _ m => hL (by simp_all; rcases m with rfl | rfl <;> simp)
  unfold State.fire
  with_reducible repeat' first
    | exact Keeps.rfl
    | exact g
    | apply Keeps.into finish_keeps mG
    | apply Keeps.into sendOutputs_keeps mO
    | apply Keeps.into sendError_keeps mS
    | apply Keeps.into markAll_keeps mS
    | apply Keeps.into takeHead_keeps mS
    | apply Keeps.into modStream_keeps mS
    | apply Keeps.into takeHandle_keeps mP
    | apply Keeps.into releaseTok_keeps mP
    | apply Keeps.each
    | apply Keeps.into (h _ _ _) (List.Subset.refl _)
    | apply Keeps.ite
    | intro _
    | split
    | (dsimp only; split)

theorem State.settleProfile_keeps : Keeps [.clusters] s (State.settleProfile s) := by
  unfold State.settleProfile
  with_reducible repeat' first
    | exact Keeps.rfl | apply Keeps.each | (apply Keeps.into modCluster_keeps; decide) | apply Keeps.ite | intro _
    | split | (dsimp only; split)

theorem State.dropStart_keeps : Keeps [.fw, .chans] s (State.dropStart s img) := by
  unfold State.dropStart
  with_reducible repeat' first
    | exact Keeps.rfl | (apply Keeps.into raise_keeps; decide) | (apply Keeps.into modImage_keeps; decide)
    | apply Keeps.ite | intro _ | split | (dsimp only; split)

theorem State.startStep_keeps : Keeps [.fw, .chans, .streams, .progs] s (State.startStep s img) := by
  unfold State.startStep
  with_reducible repeat' first
    | exact Keeps.rfl | (apply Keeps.into dropStart_keeps; decide) | apply Keeps.each
    | (apply Keeps.into modProg_keeps; decide) | (apply Keeps.into modImage_keeps; decide)
    | (apply Keeps.into modStream_keeps; decide) | apply Keeps.ite | intro _ | split | (dsimp only; split)

theorem State.closeStep_keeps : Keeps [.fw, .clusters, .streams] s (State.closeStep s img) := by
  unfold State.closeStep
  with_reducible repeat' first
    | exact Keeps.rfl | apply Keeps.each | (apply Keeps.into modImage_keeps; decide)
    | (apply Keeps.into modStream_keeps; decide) | (apply Keeps.into modCluster_keeps; decide) | apply Keeps.ite
    | intro _ | split | (dsimp only; split)

theorem effectNop_keeps : Keeps [.progs] s (effectNop u img s) := by
  unfold effectNop
  with_reducible repeat' first
    | exact Keeps.rfl | apply Keeps.onOp | (apply Keeps.into finish_keeps; decide) | apply Keeps.ite | intro _
    | split | (dsimp only; split)

theorem effectEnd_keeps : Keeps [.fw, .clusters, .streams, .progs] s (effectEnd u img s) := by
  unfold effectEnd
  with_reducible repeat' first
    | exact Keeps.rfl | (apply Keeps.into closeStep_keeps; decide) | apply Keeps.onOp
    | (apply Keeps.into modProg_keeps; decide) | apply Keeps.ite | intro _ | split | (dsimp only; split)

theorem effectLoop_keeps : Keeps [.progs] s (effectLoop u img s) := by
  unfold effectLoop
  with_reducible repeat' first
    | exact Keeps.rfl | apply Keeps.onOp | (apply Keeps.into modProg_keeps; decide) | apply Keeps.ite | intro _
    | split | (dsimp only; split)

theorem effectWaitang_keeps : Keeps [.progs] s (effectWaitang u img s) := by
  unfold effectWaitang
  with_reducible repeat' first
    | exact Keeps.rfl | apply Keeps.onOp | (apply Keeps.into modProg_keeps; decide) | apply Keeps.ite | intro _
    | split | (dsimp only; split)

theorem effectEvent_keeps : Keeps [.chans, .progs] s (effectEvent u img s) := by
  unfold effectEvent
  with_reducible repeat' first
    | exact Keeps.rfl | apply Keeps.onOp | (apply Keeps.into finish_keeps; decide)
    | (apply Keeps.into raise_keeps; decide) | apply Keeps.ite | intro _ | split | (dsimp only; split)

theorem State.markAbort_keeps {cause : Nat} : Keeps [.fw] s (State.markAbort s img cause stream) := by
  unfold State.markAbort
  with_reducible repeat' first
    | exact Keeps.rfl | (apply Keeps.into modImage_keeps; decide) | apply Keeps.ite | intro _ | split
    | (dsimp only; split)

theorem effectListFault_keeps : Keeps [.fw, .chans, .progs] s (effectListFault u img s) := by
  unfold effectListFault
  with_reducible repeat' first
    | exact Keeps.rfl | (apply Keeps.into markAbort_keeps; decide) | (apply Keeps.into raise_keeps; decide)
    | (apply Keeps.into modProg_keeps; decide) | apply Keeps.ite | intro _ | split | (dsimp only; split)

theorem State.sendFence_keeps {grp : List UnitId} : Keeps [.streams] s (State.sendFence s u grp o) := by
  unfold State.sendFence
  with_reducible repeat' first
    | exact Keeps.rfl | (apply Keeps.into sendOn_keeps; decide) | (apply Keeps.into modStream_keeps; decide)
    | apply Keeps.ite | intro _ | split | (dsimp only; split)

theorem effectFence_keeps : Keeps [.streams, .progs] s (effectFence u img s) := by
  unfold effectFence
  with_reducible repeat' first
    | exact Keeps.rfl | (apply Keeps.into sendFence_keeps; decide) | apply Keeps.onOp
    | (apply Keeps.into markAll_keeps; decide) | (apply Keeps.into takeHead_keeps; decide) | apply Keeps.each
    | (apply Keeps.into modProg_keeps; decide) | (apply Keeps.into modStream_keeps; decide) | apply Keeps.ite
    | intro _ | split | (dsimp only; split)

theorem State.countOor_keeps : Keeps [.hbmStacks] s (State.countOor s a n) := by
  unfold State.countOor
  with_reducible repeat' first
    | exact Keeps.rfl | (apply Keeps.into modStack_keeps; decide) | apply Keeps.ite | intro _ | split
    | (dsimp only; split)

theorem State.readHbm_keeps : Keeps [.free, .bad, .hbmStacks] s (State.readHbm s a n) := by
  unfold State.readHbm
  with_reducible repeat' first
    | exact Keeps.rfl | (apply Keeps.into modStack_keeps; decide) | (apply Keeps.into draw_keeps; decide)
    | apply Keeps.ite | intro _ | split | (dsimp only; split) | (apply Keeps.bad; decide)

theorem effectHostBar2Read_keeps {addr : Nat} {len : Nat} :
    Keeps [.free, .readOut, .bad, .hbmStacks] s (effectHostBar2Read addr len s) := by
  unfold effectHostBar2Read
  with_reducible repeat' first
    | exact Keeps.rfl | (apply Keeps.into readHbm_keeps; decide) | (apply Keeps.into countOor_keeps; decide)
    | apply Keeps.ite | intro _ | split | (dsimp only; split) | (apply Keeps.readOut; decide)

theorem effectHostBar2Write_keeps {addr : Nat} {data : List Byte} :
    Keeps [.hbm, .bad, .hbmStacks] s (effectHostBar2Write addr data s) := by
  unfold effectHostBar2Write
  with_reducible repeat' first
    | exact Keeps.rfl | (apply Keeps.into countOor_keeps; decide) | (apply Keeps.into writeHbm_keeps; decide)
    | apply Keeps.ite | intro _ | split | (dsimp only; split)

theorem effectChannelMigration_keeps : Keeps [.hbmStacks] s (effectChannelMigration k ch s) := by
  unfold effectChannelMigration
  with_reducible repeat' first
    | exact Keeps.rfl | (apply Keeps.into modStack_keeps; decide) | apply Keeps.ite | intro _ | split
    | (dsimp only; split)

theorem effectMigrationEnd_keeps : Keeps [.wear, .hbmStacks] s (effectMigrationEnd k s) := by
  unfold effectMigrationEnd
  with_reducible repeat' first
    | exact Keeps.rfl | (apply Keeps.into modStack_keeps; decide) | (apply Keeps.into wears_keeps; decide)
    | apply Keeps.ite | intro _ | split | (dsimp only; split)

theorem State.descError_keeps {w : List Byte} :
    Keeps [.fw, .chans, .hbmStacks, .descs] s (State.descError s e d code w) := by
  unfold State.descError
  with_reducible repeat' first
    | exact Keeps.rfl | (apply Keeps.into markAbort_keeps; decide) | (apply Keeps.into raise_keeps; decide)
    | (apply Keeps.into setDesc_keeps; decide) | (apply Keeps.into modStack_keeps; decide) | apply Keeps.ite
    | intro _ | split | (dsimp only; split)

theorem State.armWith_keeps {w : List Byte} {byImg : Option Nat} :
    Keeps [.fw, .chans, .hbmStacks, .descs] s (State.armWith s e d w byImg) := by
  unfold State.armWith
  with_reducible repeat' first
    | exact Keeps.rfl | (apply Keeps.into descError_keeps; decide) | (apply Keeps.into setDesc_keeps; decide)
    | (apply Keeps.into modStack_keeps; decide) | apply Keeps.ite | intro _ | split | (dsimp only; split)

theorem State.arm_keeps {byImg : Option Nat} : Keeps [.fw, .chans, .hbmStacks, .descs] s (State.arm s e d byImg) := by
  unfold State.arm
  with_reducible repeat' first
    | exact Keeps.rfl | (apply Keeps.into armWith_keeps; decide) | apply Keeps.ite | intro _ | split
    | (dsimp only; split)

theorem State.fwArm_keeps : Keeps [.fw, .chans, .hbmStacks, .descs] s (State.fwArm s e d) := by
  unfold State.fwArm
  with_reducible repeat' first
    | exact Keeps.rfl | (apply Keeps.into arm_keeps; decide) | (apply Keeps.into modDesc_keeps; decide)
    | apply Keeps.ite | intro _ | split | (dsimp only; split)

theorem State.xferArm_keeps : Keeps [.fw, .chans, .hbmStacks, .descs] s (State.xferArm s e d img) := by
  unfold State.xferArm
  with_reducible repeat' first
    | exact Keeps.rfl | (apply Keeps.into arm_keeps; decide) | (apply Keeps.into modDesc_keeps; decide)
    | apply Keeps.ite | intro _ | split | (dsimp only; split)

theorem State.xferDone_keeps {byImg : Option Nat} : Keeps [.progs] s (State.xferDone s e d byImg) := by
  unfold State.xferDone
  with_reducible repeat' first
    | exact Keeps.rfl | (apply Keeps.into modProg_keeps; decide) | apply Keeps.ite | intro _ | split
    | (dsimp only; split)

theorem State.takeLate_keeps {late : Option LateArm} :
    Keeps [.fw, .chans, .hbmStacks, .descs] s (State.takeLate s e d late) := by
  unfold State.takeLate
  with_reducible repeat' first
    | exact Keeps.rfl | (apply Keeps.into armWith_keeps; decide) | (apply Keeps.into modDesc_keeps; decide)
    | (apply Keeps.into modStack_keeps; decide) | apply Keeps.ite | intro _ | split | (dsimp only; split)

theorem State.settleLate_keeps : Keeps [.fw, .chans, .hbmStacks, .descs] s (State.settleLate s e d) := by
  unfold State.settleLate
  with_reducible repeat' first
    | exact Keeps.rfl | (apply Keeps.into armWith_keeps; decide) | (apply Keeps.into modDesc_keeps; decide)
    | apply Keeps.ite | intro _ | split | (dsimp only; split)

theorem State.descDone_keeps : Keeps [.fw, .chans, .hbmStacks, .descs, .progs] s (State.descDone s e d) := by
  unfold State.descDone
  with_reducible repeat' first
    | exact Keeps.rfl | (apply Keeps.into takeLate_keeps; decide) | (apply Keeps.into xferDone_keeps; decide)
    | (apply Keeps.into arm_keeps; decide) | (apply Keeps.into armWith_keeps; decide)
    | (apply Keeps.into raise_keeps; decide) | (apply Keeps.into modDesc_keeps; decide) | apply Keeps.ite | intro _
    | split | (dsimp only; split)

theorem State.sideWrite_keeps {addr : Nat} {bs : List Byte} :
    Keeps [.hbm, .bad, .sram] s (State.sideWrite s a addr bs) := by
  unfold State.sideWrite
  with_reducible repeat' first
    | exact Keeps.rfl | (apply Keeps.into writeHbm_keeps; decide) | apply Keeps.ite | intro _ | split
    | (dsimp only; split) | (apply Keeps.sram; decide)

theorem State.issue_keeps : Keeps [.hbmStacks, .descs, .streams, .pools] s (State.issue s e d) := by
  unfold State.issue
  with_reducible repeat' first
    | exact Keeps.rfl | (apply Keeps.into markAll_keeps; decide) | (apply Keeps.into takeHandle_keeps; decide)
    | (apply Keeps.into releaseTok_keeps; decide) | (apply Keeps.into takeHead_keeps; decide)
    | (apply Keeps.into modDesc_keeps; decide) | (apply Keeps.into modStack_keeps; decide)
    | (apply Keeps.into modStream_keeps; decide) | apply Keeps.ite | intro _ | split | (dsimp only; split)

theorem effectTransferIssue_keeps : Keeps [.hbmStacks, .descs, .streams, .pools] s (effectTransferIssue e s) := by
  unfold effectTransferIssue
  with_reducible repeat' first
    | exact Keeps.rfl | (apply Keeps.into issue_keeps; decide) | (apply Keeps.into markAll_keeps; decide)
    | apply Keeps.each | apply Keeps.ite | intro _ | split | (dsimp only; split)

theorem State.emitTransfer_keeps : Keeps [.streams] s (State.emitTransfer s e d i h) := by
  unfold State.emitTransfer
  with_reducible repeat' first
    | exact Keeps.rfl | (apply Keeps.into sendOn_keeps; decide) | (apply Keeps.into modStream_keeps; decide)
    | apply Keeps.ite | intro _ | split | (dsimp only; split)

theorem State.emitInOrder_keeps {y : Nat} : Keeps [.descs, .streams] s (State.emitInOrder s e d y) := by
  induction y generalizing s with
  | zero => exact Keeps.rfl
  | succ n ih =>
    unfold State.emitInOrder
    with_reducible repeat' first
      | exact Keeps.rfl | (apply Keeps.into ih; decide) | (apply Keeps.into modDesc_keeps; decide)
      | (apply Keeps.into emitTransfer_keeps; decide) | apply Keeps.ite | intro _ | split | (dsimp only; split)

theorem State.moveBytes_keeps {w : List Byte} : Keeps [.hbm, .bad, .sram] s (State.moveBytes s w i h) := by
  unfold State.moveBytes
  with_reducible repeat' first
    | exact Keeps.rfl | (apply Keeps.into sideWrite_keeps; decide) | (apply Keeps.into writeBuf_keeps; decide)
    | apply Keeps.ite | intro _ | split | (dsimp only; split)

theorem State.emptied_keeps {x : Flight} : Keeps [.pools] s (State.emptied s x) := by
  unfold State.emptied
  with_reducible repeat' first
    | exact Keeps.rfl | (apply Keeps.into modPool_keeps; decide) | apply Keeps.ite | intro _ | split
    | (dsimp only; split)

theorem State.discard_keeps {x : Flight} : Keeps [.pools] s (State.discard s x) := by
  unfold State.discard
  with_reducible repeat' first
    | exact Keeps.rfl | (apply Keeps.into emptied_keeps; decide) | (apply Keeps.into dropHandle_keeps; decide)
    | apply Keeps.ite | intro _ | split | (dsimp only; split)

theorem State.endAbort_keeps : Keeps [.fw, .chans, .hbmStacks, .descs] s (State.endAbort s e d) := by
  unfold State.endAbort
  with_reducible repeat' first
    | exact Keeps.rfl | (apply Keeps.into armWith_keeps; decide) | (apply Keeps.into setDesc_keeps; decide)
    | apply Keeps.ite | intro _ | split | (dsimp only; split)

theorem State.transferOver_keeps {idx : Nat} :
    Keeps [.free, .fw, .chans, .hbm, .bad, .hbmStacks, .descs, .sram, .streams, .pools, .progs]
      s (State.transferOver s e d idx) := by
  unfold State.transferOver
  with_reducible repeat' first
    | exact Keeps.rfl | (apply Keeps.into endAbort_keeps; decide) | (apply Keeps.into discard_keeps; decide)
    | (apply Keeps.into emptied_keeps; decide) | (apply Keeps.into moveBytes_keeps; decide)
    | (apply Keeps.into emitInOrder_keeps; decide) | (apply Keeps.into descDone_keeps; decide)
    | (apply Keeps.into descError_keeps; decide) | (apply Keeps.into readHbm_keeps; decide)
    | (apply Keeps.into modDesc_keeps; decide) | (apply Keeps.into setDesc_keeps; decide)
    | (apply Keeps.into modStack_keeps; decide) | apply Keeps.ite | intro _ | split | (dsimp only; split)

theorem effectTransferComplete_keeps {idx : Nat} :
    Keeps [.free, .fw, .chans, .hbm, .bad, .hbmStacks, .descs, .sram, .streams, .pools, .progs]
      s (effectTransferComplete e d idx s) := by
  unfold effectTransferComplete
  with_reducible repeat' first
    | exact Keeps.rfl | (apply Keeps.into transferOver_keeps; decide) | (apply Keeps.into settleLate_keeps; decide)
    | apply Keeps.ite | intro _ | split | (dsimp only; split)

theorem State.completionToken_keeps :
    Keeps [.fw, .chans, .hbmStacks, .descs, .streams, .progs] s (State.completionToken s e d) := by
  unfold State.completionToken
  with_reducible repeat' first
    | exact Keeps.rfl | (apply Keeps.into descDone_keeps; decide) | (apply Keeps.into sendOn_keeps; decide)
    | (apply Keeps.into markAll_keeps; decide) | (apply Keeps.into modStream_keeps; decide) | apply Keeps.ite
    | intro _ | split | (dsimp only; split)

theorem effectDescCompToken_keeps :
    Keeps [.fw, .chans, .hbmStacks, .descs, .streams, .progs] s (effectDescCompToken e d s) := by
  unfold effectDescCompToken
  with_reducible repeat' first
    | exact Keeps.rfl | (apply Keeps.into completionToken_keeps; decide)
    | (apply Keeps.into settleLate_keeps; decide) | apply Keeps.ite | intro _ | split | (dsimp only; split)

theorem effectXfer_keeps : Keeps [.fw, .chans, .hbmStacks, .descs, .progs] s (effectXfer u img s) := by
  unfold effectXfer
  with_reducible repeat' first
    | exact Keeps.rfl | (apply Keeps.into xferArm_keeps; decide) | apply Keeps.onOp
    | (apply Keeps.into finish_keeps; decide) | (apply Keeps.into modProg_keeps; decide) | apply Keeps.ite | intro _
    | split | (dsimp only; split)

theorem effectTokenInvalid_keeps : Keeps [.chans] s (effectTokenInvalid u tok s) := by
  unfold effectTokenInvalid
  with_reducible repeat' first
    | exact Keeps.rfl | (apply Keeps.into raise_keeps; decide) | apply Keeps.ite | intro _ | split
    | (dsimp only; split)

theorem effectCreditReturn_keeps : Keeps [.streams] s (effectCreditReturn i u s) := by
  unfold effectCreditReturn
  with_reducible repeat' first
    | exact Keeps.rfl | (apply Keeps.into modStream_keeps; decide) | apply Keeps.ite | intro _ | split
    | (dsimp only; split)

theorem effectHandleFree_keeps : Keeps [.pools] s (effectHandleFree i s) := by
  unfold effectHandleFree
  with_reducible repeat' first
    | exact Keeps.rfl | (apply Keeps.into modPool_keeps; decide) | apply Keeps.ite | intro _ | split
    | (dsimp only; split)

theorem effectFenceOrder_keeps : Keeps [.fw, .chans, .streams, .progs] s (effectFenceOrder u img s) := by
  unfold effectFenceOrder
  with_reducible repeat' first
    | exact Keeps.rfl | (apply Keeps.into markAbort_keeps; decide) | (apply Keeps.into sendError_keeps; decide)
    | (apply Keeps.into markAll_keeps; decide) | (apply Keeps.into raise_keeps; decide) | apply Keeps.each
    | (apply Keeps.into modProg_keeps; decide) | apply Keeps.ite | intro _ | split | (dsimp only; split)

theorem State.passFence_keeps : Keeps [.clusters] s (State.passFence s u) := by
  unfold State.passFence
  with_reducible repeat' first
    | exact Keeps.rfl | (apply Keeps.into modCluster_keeps; decide) | apply Keeps.ite | intro _ | split
    | (dsimp only; split)

theorem effectGroupDrained_keeps {g : Nat} : Keeps [.clusters, .progs] s (effectGroupDrained img g s) := by
  unfold effectGroupDrained
  with_reducible repeat' first
    | exact Keeps.rfl | (apply Keeps.into passFence_keeps; decide) | apply Keeps.each
    | (apply Keeps.into modProg_keeps; decide) | apply Keeps.ite | intro _ | split | (dsimp only; split)

theorem State.abortUnit_keeps : Keeps [.clusters, .progs] s (State.abortUnit s img u) := by
  unfold State.abortUnit
  with_reducible repeat' first
    | exact Keeps.rfl | (apply Keeps.into modProg_keeps; decide) | (apply Keeps.into modFeeder_keeps; decide)
    | (apply Keeps.into modCore_keeps; decide) | (apply Keeps.into modCluster_keeps; decide) | apply Keeps.ite
    | intro _ | split | (dsimp only; split)

theorem State.abortStep_keeps {cause : Nat} :
    Keeps [.fw, .chans, .descs, .clusters, .streams, .pools, .progs] s (State.abortStep s img cause stream) := by
  unfold State.abortStep
  with_reducible repeat' first
    | exact Keeps.rfl | (apply Keeps.into abortUnit_keeps; decide) | (apply Keeps.into raise_keeps; decide)
    | apply Keeps.each | (apply Keeps.into modImage_keeps; decide) | (apply Keeps.into modDesc_keeps; decide)
    | (apply Keeps.into modPool_keeps; decide) | (apply Keeps.into modStream_keeps; decide)
    | (apply Keeps.into modCluster_keeps; decide) | apply Keeps.ite | intro _ | split | (dsimp only; split)

theorem effectStepAborted_keeps :
    Keeps [.fw, .chans, .descs, .clusters, .streams, .pools, .progs] s (effectStepAborted img s) := by
  unfold effectStepAborted
  with_reducible repeat' first
    | exact Keeps.rfl | (apply Keeps.into abortStep_keeps; decide) | apply Keeps.ite | intro _ | split
    | (dsimp only; split)

theorem State.startSteps_keeps {y : Nat} : Keeps [.fw, .chans, .streams, .progs] s (State.startSteps s img y) := by
  induction y generalizing s with
  | zero => exact Keeps.rfl
  | succ n ih => exact Keeps.into ih (by decide) startStep_keeps

theorem effectModelStepStart_keeps {starts : Nat} :
    Keeps [.fw, .chans, .streams, .progs] s (effectModelStepStart img starts s) := by
  unfold effectModelStepStart
  with_reducible repeat' first
    | exact Keeps.rfl | (apply Keeps.into startSteps_keeps; decide) | apply Keeps.ite | intro _ | split
    | (dsimp only; split)

theorem State.markTiles_keeps {ts : List (Nat × Half)} : Keeps [.streams] s (State.markTiles s ts) := by
  unfold State.markTiles
  with_reducible repeat' first
    | exact Keeps.rfl | apply Keeps.each | (apply Keeps.into modStream_keeps; decide) | apply Keeps.ite | intro _
    | split | (dsimp only; split)

theorem State.starve_keeps {p : Packet} : Keeps [.clusters, .streams] s (State.starve s cl f p) := by
  unfold State.starve
  with_reducible repeat' first
    | exact Keeps.rfl | (apply Keeps.into modStream_keeps; decide) | (apply Keeps.into modFeeder_keeps; decide)
    | (apply Keeps.into modCluster_keeps; decide) | apply Keeps.ite | intro _ | split | (dsimp only; split)

theorem State.noteReady_keeps : Keeps [.clusters, .streams] s (State.noteReady s cl f) := by
  unfold State.noteReady
  with_reducible repeat' first
    | exact Keeps.rfl | (apply Keeps.into starve_keeps; decide) | (apply Keeps.into markTiles_keeps; decide)
    | (apply Keeps.into modStream_keeps; decide) | (apply Keeps.into modFeeder_keeps; decide) | apply Keeps.ite
    | intro _ | split | (dsimp only; split)

theorem State.fireTile_keeps : Keeps [.clusters, .streams, .pools] s (State.fireTile s cl k) := by
  unfold State.fireTile
  with_reducible repeat' first
    | exact Keeps.rfl | (apply Keeps.into markAll_keeps; decide) | (apply Keeps.into takeHandle_keeps; decide)
    | (apply Keeps.into modStream_keeps; decide) | (apply Keeps.into modCore_keeps; decide) | apply Keeps.ite
    | intro _ | split | (dsimp only; split)

theorem State.tileNoLight_keeps : Keeps [.clusters, .streams, .pools, .progs] s (State.tileNoLight s cl k) := by
  unfold State.tileNoLight
  with_reducible repeat' first
    | exact Keeps.rfl | (apply Keeps.into fireTile_keeps; decide) | (apply Keeps.into finish_keeps; decide)
    | (apply Keeps.into sendOn_keeps; decide) | (apply Keeps.into modStream_keeps; decide)
    | (apply Keeps.into modCore_keeps; decide) | apply Keeps.ite | intro _ | split | (dsimp only; split)

theorem State.feedNoLight_keeps {h : Dword} {asError : Bool} :
    Keeps [.clusters, .streams, .pools, .progs] s (State.feedNoLight s cl f img h tok stream code asError) := by
  unfold State.feedNoLight
  with_reducible repeat' first
    | exact Keeps.rfl | (apply Keeps.into tileNoLight_keeps; decide) | (apply Keeps.into finish_keeps; decide)
    | (apply Keeps.into releaseTok_keeps; decide) | (apply Keeps.into takeHead_keeps; decide) | apply Keeps.each
    | (apply Keeps.into modStream_keeps; decide) | (apply Keeps.into modFeeder_keeps; decide)
    | (apply Keeps.into modCore_keeps; decide) | (apply Keeps.into modCluster_keeps; decide) | apply Keeps.ite
    | intro _ | split | (dsimp only; split)

theorem effectFeed_keeps : Keeps [.clusters, .streams, .pools, .progs] s (effectFeed u img s) := by
  unfold effectFeed
  with_reducible repeat' first
    | exact Keeps.rfl | (apply Keeps.into feedNoLight_keeps; decide) | (apply Keeps.into noteReady_keeps; decide)
    | apply Keeps.onOp | (apply Keeps.into modFeeder_keeps; decide) | apply Keeps.ite | intro _ | split
    | (dsimp only; split)

theorem effectTile_keeps : Keeps [.clusters, .streams, .pools, .progs] s (effectTile u img s) := by
  unfold effectTile
  with_reducible repeat' first
    | exact Keeps.rfl | (apply Keeps.into tileNoLight_keeps; decide) | apply Keeps.onOp
    | (apply Keeps.into modStream_keeps; decide) | (apply Keeps.into modCore_keeps; decide) | apply Keeps.ite
    | intro _ | split | (dsimp only; split)

theorem effectCoreCreditGrant_keeps {pos : Nat} : Keeps [.clusters, .streams] s (effectCoreCreditGrant cl pos s) := by
  unfold effectCoreCreditGrant
  with_reducible repeat' first
    | exact Keeps.rfl | (apply Keeps.into noteReady_keeps; decide) | (apply Keeps.into modCore_keeps; decide)
    | apply Keeps.ite | intro _ | split | (dsimp only; split)

theorem effectSwitchGrant_keeps : Keeps [.clusters, .streams, .pools] s (effectSwitchGrant cl f s) := by
  unfold effectSwitchGrant
  with_reducible repeat' first
    | exact Keeps.rfl | (apply Keeps.into fireTile_keeps; decide) | (apply Keeps.into noteReady_keeps; decide)
    | apply Keeps.each | (apply Keeps.into modFeeder_keeps; decide) | (apply Keeps.into modCluster_keeps; decide)
    | apply Keeps.ite | intro _ | split | (dsimp only; split)

theorem State.startTile_keeps {p : Packet} : Keeps [.clusters, .streams, .progs] s (State.startTile s cl f p k) := by
  unfold State.startTile
  with_reducible repeat' first
    | exact Keeps.rfl | (apply Keeps.into finish_keeps; decide) | (apply Keeps.into modStream_keeps; decide)
    | (apply Keeps.into modCore_keeps; decide) | apply Keeps.ite | intro _ | split | (dsimp only; split)

theorem State.beginWindows_keeps : Keeps [.clusters, .streams, .progs] s (State.beginWindows s cl f e) := by
  unfold State.beginWindows
  with_reducible repeat' first
    | exact Keeps.rfl | (apply Keeps.into startTile_keeps; decide) | apply Keeps.each
    | (apply Keeps.into modFeeder_keeps; decide) | apply Keeps.ite | intro _ | split | (dsimp only; split)

theorem State.lightAt_keeps : Keeps [.clusters, .streams, .progs] s (State.lightAt s cl f e) := by
  unfold State.lightAt
  with_reducible repeat' first
    | exact Keeps.rfl | (apply Keeps.into beginWindows_keeps; decide) | (apply Keeps.into modFeeder_keeps; decide)
    | apply Keeps.ite | intro _ | split | (dsimp only; split)

theorem effectPacketStart_keeps : Keeps [.clusters, .streams, .progs] s (effectPacketStart cl f s) := by
  unfold effectPacketStart
  with_reducible repeat' first
    | exact Keeps.rfl | (apply Keeps.into lightAt_keeps; decide) | (apply Keeps.into takeHead_keeps; decide)
    | (apply Keeps.into modStream_keeps; decide) | (apply Keeps.into modFeeder_keeps; decide) | apply Keeps.ite
    | intro _ | split | (dsimp only; split)

theorem effectReconfigEnd_keeps : Keeps [.clusters, .streams, .progs] s (effectReconfigEnd cl f s) := by
  unfold effectReconfigEnd
  with_reducible repeat' first
    | exact Keeps.rfl | (apply Keeps.into lightAt_keeps; decide) | apply Keeps.ite | intro _ | split
    | (dsimp only; split)

theorem effectMeasureEnd_keeps : Keeps [.clusters, .streams, .progs] s (effectMeasureEnd cl f s) := by
  unfold effectMeasureEnd
  with_reducible repeat' first
    | exact Keeps.rfl | (apply Keeps.into beginWindows_keeps; decide) | apply Keeps.ite | intro _ | split
    | (dsimp only; split)

theorem State.coreWindow_keeps {p : Packet} {v : VecOut} {kc : Nat} :
    Keeps [.free, .clusters, .streams] s (State.coreWindow s cl p v kc) := by
  have rows : ∀ (b : CalBase) (c : Core) (r : TileRun) (ks : List Nat) (a : RowsOut), Keeps [.free] s a.st →
      Keeps [.free] s (ks.foldl (RowsOut.row b c r p.hdr v) a).st := by
    intro b c r ks
    induction ks with
    | nil => exact fun _ g => g
    | cons k ks ih => exact fun a g => ih _ (Keeps.into (State.draw_keeps (s := a.st)) (by decide) g)
  unfold State.coreWindow
  dsimp only
  split
  · exact Keeps.rfl
  · exact Keeps.into modStream_keeps (by decide) (Keeps.into modCore_keeps (by decide)
      (Keeps.into (rows _ _ _ _ _ Keeps.rfl) (by decide) Keeps.rfl))

theorem effectWindowEnd_keeps : Keeps [.free, .clusters, .streams] s (effectWindowEnd cl f s) := by
  unfold effectWindowEnd
  with_reducible repeat' first
    | exact Keeps.rfl | (apply Keeps.into coreWindow_keeps; decide) | apply Keeps.each
    | (apply Keeps.into modStream_keeps; decide) | (apply Keeps.into modFeeder_keeps; decide)
    | (apply Keeps.into modCore_keeps; decide) | (apply Keeps.into modCluster_keeps; decide) | apply Keeps.ite
    | intro _ | split | (dsimp only; split)

theorem State.raiseQnt_keeps {seq : Half} {sat : Nat} {under : Nat} {satT : Half} {underT : Half} {replayed : Bool} :
    Keeps [.chans] s (State.raiseQnt s stream seq sat under satT underT replayed) := by
  unfold State.raiseQnt
  with_reducible repeat' first
    | exact Keeps.rfl | (apply Keeps.into raise_keeps; decide) | apply Keeps.ite | intro _ | split
    | (dsimp only; split)

theorem State.deliver_keeps {p : Packet} :
    Keeps [.hbm, .bad, .sram, .clusters, .streams] s (State.deliver s cl p e k) := by
  unfold State.deliver
  with_reducible repeat' first
    | exact Keeps.rfl | (apply Keeps.into sendOn_keeps; decide) | (apply Keeps.into writeBuf_keeps; decide)
    | (apply Keeps.into modCore_keeps; decide) | (apply Keeps.into modCluster_keeps; decide) | apply Keeps.ite
    | intro _ | split | (dsimp only; split)

theorem State.closePacket_keeps {p : Packet} :
    Keeps [.chans, .hbm, .bad, .sram, .clusters, .streams, .pools, .progs] s (State.closePacket s cl f e p) := by
  unfold State.closePacket
  with_reducible repeat' first
    | exact Keeps.rfl | (apply Keeps.into deliver_keeps; decide) | (apply Keeps.into raiseQnt_keeps; decide)
    | (apply Keeps.into finish_keeps; decide) | (apply Keeps.into releaseTok_keeps; decide) | apply Keeps.each
    | (apply Keeps.into modStream_keeps; decide) | (apply Keeps.into modFeeder_keeps; decide) | apply Keeps.ite
    | intro _ | split | (dsimp only; split)

theorem effectPacketEnd_keeps :
    Keeps [.chans, .hbm, .bad, .sram, .clusters, .streams, .pools, .progs] s (effectPacketEnd cl f s) := by
  unfold effectPacketEnd
  with_reducible repeat' first
    | exact Keeps.rfl | (apply Keeps.into closePacket_keeps; decide) | apply Keeps.ite | intro _ | split
    | (dsimp only; split)

theorem State.replayPacket_keeps {p : Packet} :
    Keeps [.chans, .clusters, .streams] s (State.replayPacket s cl f e p) := by
  unfold State.replayPacket
  with_reducible repeat' first
    | exact Keeps.rfl | (apply Keeps.into raiseQnt_keeps; decide) | apply Keeps.each
    | (apply Keeps.into modStream_keeps; decide) | (apply Keeps.into modFeeder_keeps; decide)
    | (apply Keeps.into modCore_keeps; decide) | apply Keeps.ite | intro _ | split | (dsimp only; split)

theorem effectVerdict_keeps :
    Keeps [.chans, .hbm, .bad, .sram, .clusters, .streams, .pools, .progs] s (effectVerdict cl f s) := by
  unfold effectVerdict
  with_reducible repeat' first
    | exact Keeps.rfl | (apply Keeps.into replayPacket_keeps; decide) | (apply Keeps.into closePacket_keeps; decide)
    | apply Keeps.ite | intro _ | split | (dsimp only; split)

theorem State.forwardImage_keeps {w : WImage} {last : Bool} :
    Keeps [.clusters, .streams] s (State.forwardImage s u cl img o w tok last) := by
  unfold State.forwardImage
  with_reducible repeat' first
    | exact Keeps.rfl | (apply Keeps.into sendOn_keeps; decide) | apply Keeps.each
    | (apply Keeps.into modStream_keeps; decide) | (apply Keeps.into modCore_keeps; decide) | apply Keeps.ite
    | intro _ | split | (dsimp only; split)

theorem effectWfill_keeps : Keeps [.clusters, .streams, .pools, .progs] s (effectWfill u img s) := by
  unfold effectWfill
  with_reducible repeat' first
    | exact Keeps.rfl | (apply Keeps.into forwardImage_keeps; decide) | apply Keeps.onOp
    | (apply Keeps.into finish_keeps; decide) | (apply Keeps.into sendOn_keeps; decide)
    | (apply Keeps.into markAll_keeps; decide) | (apply Keeps.into releaseTok_keeps; decide)
    | (apply Keeps.into takeHead_keeps; decide) | (apply Keeps.into modStream_keeps; decide)
    | (apply Keeps.into modCore_keeps; decide) | apply Keeps.ite | intro _ | split | (dsimp only; split)

theorem effectChainForward_keeps : Keeps [.clusters, .streams] s (effectChainForward cl k s) := by
  unfold effectChainForward
  with_reducible repeat' first
    | exact Keeps.rfl | (apply Keeps.into forwardImage_keeps; decide) | (apply Keeps.into modCore_keeps; decide)
    | apply Keeps.ite | intro _ | split | (dsimp only; split)

theorem effectWload_keeps : Keeps [.clusters, .progs] s (effectWload u img s) := by
  unfold effectWload
  with_reducible repeat' first
    | exact Keeps.rfl | (apply Keeps.into finish_keeps; decide) | (apply Keeps.into modCore_keeps; decide)
    | apply Keeps.ite | intro _ | split | (dsimp only; split)

theorem State.holdProbe_keeps : Keeps [.clusters] s (State.holdProbe s cl k e) := by
  unfold State.holdProbe
  with_reducible repeat' first
    | exact Keeps.rfl | (apply Keeps.into modFeeder_keeps; decide) | apply Keeps.ite | intro _ | split
    | (dsimp only; split)

theorem effectLoadSettled_keeps : Keeps [.clusters] s (effectLoadSettled cl k s) := by
  unfold effectLoadSettled
  with_reducible repeat' first
    | exact Keeps.rfl | (apply Keeps.into holdProbe_keeps; decide) | (apply Keeps.into modCore_keeps; decide)
    | apply Keeps.ite | intro _ | split | (dsimp only; split)

theorem effectSwap_keeps : Keeps [.clusters, .progs] s (effectSwap u img s) := by
  unfold effectSwap
  with_reducible repeat' first
    | exact Keeps.rfl | apply Keeps.onOp | (apply Keeps.into finish_keeps; decide)
    | (apply Keeps.into modCore_keeps; decide) | apply Keeps.ite | intro _ | split | (dsimp only; split)

theorem effectRefreshDue_keeps : Keeps [.clusters] s (effectRefreshDue cl k s) := by
  unfold effectRefreshDue
  with_reducible repeat' first
    | exact Keeps.rfl | (apply Keeps.into modCore_keeps; decide) | apply Keeps.ite | intro _ | split
    | (dsimp only; split)

theorem effectRscale_keeps : Keeps [.progs] s (effectRscale u img s) := by
  unfold effectRscale
  with_reducible repeat' first
    | exact Keeps.rfl | apply Keeps.onOp | (apply Keeps.into finish_keeps; decide)
    | (apply Keeps.into modProg_keeps; decide) | apply Keeps.ite | intro _ | split | (dsimp only; split)

theorem effectReduce_keeps : Keeps [.hbm, .bad, .sram, .streams, .pools, .progs] s (effectReduce u img s) := by
  unfold effectReduce
  with_reducible repeat' first
    | exact Keeps.rfl | (apply Keeps.fire; decide) | apply Keeps.onOp | (apply Keeps.into writeBuf_keeps; decide)
    | apply Keeps.each | apply Keeps.ite | intro _ | split | (dsimp only; split)

theorem State.vop_keeps {func : Nat} {wide : Bool} {cycles : Nat → Nat} {f : VopIn → List Word} :
    Keeps [.hbm, .bad, .sram, .streams, .pools, .progs] s (State.vop s u img func wide cycles f) := by
  unfold State.vop
  with_reducible repeat' first
    | exact Keeps.rfl | (apply Keeps.fire; decide) | apply Keeps.onOp | (apply Keeps.into writeBuf_keeps; decide)
    | apply Keeps.each | apply Keeps.ite | intro _ | split | (dsimp only; split)

theorem effectVAdd_keeps : Keeps [.hbm, .bad, .sram, .streams, .pools, .progs] s (effectVAdd u img s) := by
  unfold effectVAdd
  with_reducible repeat' first
    | exact Keeps.rfl | (apply Keeps.into vop_keeps; decide) | apply Keeps.ite | intro _ | split
    | (dsimp only; split)

theorem effectVSub_keeps : Keeps [.hbm, .bad, .sram, .streams, .pools, .progs] s (effectVSub u img s) := by
  unfold effectVSub
  with_reducible repeat' first
    | exact Keeps.rfl | (apply Keeps.into vop_keeps; decide) | apply Keeps.ite | intro _ | split
    | (dsimp only; split)

theorem effectVMul_keeps : Keeps [.hbm, .bad, .sram, .streams, .pools, .progs] s (effectVMul u img s) := by
  unfold effectVMul
  with_reducible repeat' first
    | exact Keeps.rfl | (apply Keeps.into vop_keeps; decide) | apply Keeps.ite | intro _ | split
    | (dsimp only; split)

theorem effectVMax_keeps : Keeps [.hbm, .bad, .sram, .streams, .pools, .progs] s (effectVMax u img s) := by
  unfold effectVMax
  with_reducible repeat' first
    | exact Keeps.rfl | (apply Keeps.into vop_keeps; decide) | apply Keeps.ite | intro _ | split
    | (dsimp only; split)

theorem effectVMin_keeps : Keeps [.hbm, .bad, .sram, .streams, .pools, .progs] s (effectVMin u img s) := by
  unfold effectVMin
  with_reducible repeat' first
    | exact Keeps.rfl | (apply Keeps.into vop_keeps; decide) | apply Keeps.ite | intro _ | split
    | (dsimp only; split)

theorem effectVScale_keeps : Keeps [.hbm, .bad, .sram, .streams, .pools, .progs] s (effectVScale u img s) := by
  unfold effectVScale
  with_reducible repeat' first
    | exact Keeps.rfl | (apply Keeps.into vop_keeps; decide) | apply Keeps.ite | intro _ | split
    | (dsimp only; split)

theorem effectVAxpy_keeps : Keeps [.hbm, .bad, .sram, .streams, .pools, .progs] s (effectVAxpy u img s) := by
  unfold effectVAxpy
  with_reducible repeat' first
    | exact Keeps.rfl | (apply Keeps.into vop_keeps; decide) | apply Keeps.ite | intro _ | split
    | (dsimp only; split)

theorem effectVClamp_keeps : Keeps [.hbm, .bad, .sram, .streams, .pools, .progs] s (effectVClamp u img s) := by
  unfold effectVClamp
  with_reducible repeat' first
    | exact Keeps.rfl | (apply Keeps.into vop_keeps; decide) | apply Keeps.ite | intro _ | split
    | (dsimp only; split)

theorem effectVCopy_keeps : Keeps [.hbm, .bad, .sram, .streams, .pools, .progs] s (effectVCopy u img s) := by
  unfold effectVCopy
  with_reducible repeat' first
    | exact Keeps.rfl | (apply Keeps.into vop_keeps; decide) | apply Keeps.ite | intro _ | split
    | (dsimp only; split)

theorem effectVTable_keeps : Keeps [.hbm, .bad, .sram, .streams, .pools, .progs] s (effectVTable u img s) := by
  unfold effectVTable
  with_reducible repeat' first
    | exact Keeps.rfl | (apply Keeps.into vop_keeps; decide) | apply Keeps.ite | intro _ | split
    | (dsimp only; split)

theorem effectVExp_keeps : Keeps [.hbm, .bad, .sram, .streams, .pools, .progs] s (effectVExp u img s) := by
  unfold effectVExp
  with_reducible repeat' first
    | exact Keeps.rfl | (apply Keeps.into vop_keeps; decide) | apply Keeps.ite | intro _ | split
    | (dsimp only; split)

theorem effectVRecip_keeps : Keeps [.hbm, .bad, .sram, .streams, .pools, .progs] s (effectVRecip u img s) := by
  unfold effectVRecip
  with_reducible repeat' first
    | exact Keeps.rfl | (apply Keeps.into vop_keeps; decide) | apply Keeps.ite | intro _ | split
    | (dsimp only; split)

theorem effectVRsqrt_keeps : Keeps [.hbm, .bad, .sram, .streams, .pools, .progs] s (effectVRsqrt u img s) := by
  unfold effectVRsqrt
  with_reducible repeat' first
    | exact Keeps.rfl | (apply Keeps.into vop_keeps; decide) | apply Keeps.ite | intro _ | split
    | (dsimp only; split)

theorem effectVRmaxabs_keeps : Keeps [.hbm, .bad, .sram, .streams, .pools, .progs] s (effectVRmaxabs u img s) := by
  unfold effectVRmaxabs
  with_reducible repeat' first
    | exact Keeps.rfl | (apply Keeps.into vop_keeps; decide) | apply Keeps.ite | intro _ | split
    | (dsimp only; split)

theorem effectVRmax_keeps : Keeps [.hbm, .bad, .sram, .streams, .pools, .progs] s (effectVRmax u img s) := by
  unfold effectVRmax
  with_reducible repeat' first
    | exact Keeps.rfl | (apply Keeps.into vop_keeps; decide) | apply Keeps.ite | intro _ | split
    | (dsimp only; split)

theorem effectVRsum_keeps : Keeps [.hbm, .bad, .sram, .streams, .pools, .progs] s (effectVRsum u img s) := by
  unfold effectVRsum
  with_reducible repeat' first
    | exact Keeps.rfl | (apply Keeps.into vop_keeps; decide) | apply Keeps.ite | intro _ | split
    | (dsimp only; split)

theorem effectVBmaxabs_keeps : Keeps [.hbm, .bad, .sram, .streams, .pools, .progs] s (effectVBmaxabs u img s) := by
  unfold effectVBmaxabs
  with_reducible repeat' first
    | exact Keeps.rfl | (apply Keeps.into vop_keeps; decide) | apply Keeps.ite | intro _ | split
    | (dsimp only; split)

theorem effectVNstats_keeps : Keeps [.hbm, .bad, .sram, .streams, .pools, .progs] s (effectVNstats u img s) := by
  unfold effectVNstats
  with_reducible repeat' first
    | exact Keeps.rfl | (apply Keeps.into vop_keeps; decide) | apply Keeps.ite | intro _ | split
    | (dsimp only; split)

theorem effectVNapply_keeps : Keeps [.hbm, .bad, .sram, .streams, .pools, .progs] s (effectVNapply u img s) := by
  unfold effectVNapply
  with_reducible repeat' first
    | exact Keeps.rfl | (apply Keeps.into vop_keeps; decide) | apply Keeps.ite | intro _ | split
    | (dsimp only; split)

theorem effectVSmstats_keeps : Keeps [.hbm, .bad, .sram, .streams, .pools, .progs] s (effectVSmstats u img s) := by
  unfold effectVSmstats
  with_reducible repeat' first
    | exact Keeps.rfl | (apply Keeps.into vop_keeps; decide) | apply Keeps.ite | intro _ | split
    | (dsimp only; split)

theorem effectVSmapply_keeps : Keeps [.hbm, .bad, .sram, .streams, .pools, .progs] s (effectVSmapply u img s) := by
  unfold effectVSmapply
  with_reducible repeat' first
    | exact Keeps.rfl | (apply Keeps.into vop_keeps; decide) | apply Keeps.ite | intro _ | split
    | (dsimp only; split)

theorem State.vopIndexed_keeps {func : Nat} {f : VopIn → List (List Word) × Nat} :
    Keeps [.hbm, .bad, .sram, .clusters, .streams, .pools, .progs] s (State.vopIndexed s u img func w f) := by
  unfold State.vopIndexed
  with_reducible repeat' first
    | exact Keeps.rfl | (apply Keeps.fire; decide) | apply Keeps.onOp | (apply Keeps.into writeBuf_keeps; decide)
    | apply Keeps.each | (apply Keeps.into modCore_keeps; decide) | apply Keeps.ite | intro _ | split
    | (dsimp only; split)

theorem effectVGather_keeps :
    Keeps [.hbm, .bad, .sram, .clusters, .streams, .pools, .progs] s (effectVGather u img s) := by
  unfold effectVGather
  with_reducible repeat' first
    | exact Keeps.rfl | (apply Keeps.into vopIndexed_keeps; decide) | apply Keeps.ite | intro _ | split
    | (dsimp only; split)

theorem effectVEdgesum_keeps :
    Keeps [.hbm, .bad, .sram, .clusters, .streams, .pools, .progs] s (effectVEdgesum u img s) := by
  unfold effectVEdgesum
  with_reducible repeat' first
    | exact Keeps.rfl | (apply Keeps.into vopIndexed_keeps; decide) | apply Keeps.ite | intro _ | split
    | (dsimp only; split)

theorem effectVDynimg_keeps : Keeps [.clusters, .streams, .pools, .progs] s (effectVDynimg u img s) := by
  unfold effectVDynimg
  with_reducible repeat' first
    | exact Keeps.rfl | (apply Keeps.fire; decide) | apply Keeps.onOp | (apply Keeps.into modCore_keeps; decide)
    | apply Keeps.ite | intro _ | split | (dsimp only; split)

theorem State.storePairs_keeps {ps : List Pair} : Keeps [.hbm, .bad, .sram, .pools] s (State.storePairs s p h ps) := by
  unfold State.storePairs
  with_reducible repeat' first
    | exact Keeps.rfl | (apply Keeps.into writeBuf_keeps; decide) | (apply Keeps.into modPool_keeps; decide)
    | apply Keeps.ite | intro _ | split | (dsimp only; split)

theorem effectQuantEncode_keeps :
    Keeps [.chans, .hbm, .bad, .sram, .streams, .pools, .progs] s (effectQuantEncode u img s) := by
  unfold effectQuantEncode
  with_reducible repeat' first
    | exact Keeps.rfl | (apply Keeps.into storePairs_keeps; decide) | (apply Keeps.into raiseQnt_keeps; decide)
    | (apply Keeps.fire; decide) | apply Keeps.onOp | apply Keeps.each | (apply Keeps.into setStream_keeps; decide)
    | apply Keeps.ite | intro _ | split | (dsimp only; split)

theorem effectQuantDecode_keeps :
    Keeps [.hbm, .bad, .sram, .streams, .pools, .progs] s (effectQuantDecode u img s) := by
  unfold effectQuantDecode
  with_reducible repeat' first
    | exact Keeps.rfl | (apply Keeps.fire; decide) | apply Keeps.onOp | (apply Keeps.into writeBuf_keeps; decide)
    | apply Keeps.each | (apply Keeps.into modStream_keeps; decide) | apply Keeps.ite | intro _ | split
    | (dsimp only; split)

theorem State.sendDone_keeps : Keeps [.streams, .pools, .progs] s (State.sendDone s u img i tok) := by
  unfold State.sendDone
  with_reducible repeat' first
    | exact Keeps.rfl | (apply Keeps.into finish_keeps; decide) | (apply Keeps.into releaseTok_keeps; decide)
    | (apply Keeps.into takeHead_keeps; decide) | (apply Keeps.into modStream_keeps; decide) | apply Keeps.ite
    | intro _ | split | (dsimp only; split)

theorem effectSend_keeps : Keeps [.streams, .pools, .progs, .links] s (effectSend u img s) := by
  unfold effectSend
  with_reducible repeat' first
    | exact Keeps.rfl | (apply Keeps.into sendDone_keeps; decide) | apply Keeps.onOp
    | (apply Keeps.into modLink_keeps; decide) | (apply Keeps.into modStream_keeps; decide) | apply Keeps.ite
    | intro _ | split | (dsimp only; split)

theorem State.freeLanding_keeps {ids : List Nat} : Keeps [.links] s (State.freeLanding s ids) := by
  unfold State.freeLanding
  with_reducible repeat' first
    | exact Keeps.rfl | apply Keeps.ite | intro _ | split | (dsimp only; split) | (apply Keeps.links; decide)

theorem effectRecv_keeps : Keeps [.hbm, .bad, .sram, .streams, .pools, .progs, .links] s (effectRecv u img s) := by
  unfold effectRecv
  with_reducible repeat' first
    | exact Keeps.rfl | (apply Keeps.into storePairs_keeps; decide) | (apply Keeps.fire; decide)
    | (apply Keeps.into sendError_keeps; decide) | apply Keeps.onOp | (apply Keeps.into finish_keeps; decide)
    | (apply Keeps.into markAll_keeps; decide) | apply Keeps.each | (apply Keeps.into modLink_keeps; decide)
    | (apply Keeps.into modStream_keeps; decide) | apply Keeps.ite | intro _ | split | (dsimp only; split)

theorem effectDoorbell_keeps : Keeps [.chans] s (effectDoorbell ch v s) := by
  unfold effectDoorbell
  with_reducible repeat' first
    | exact Keeps.rfl | (apply Keeps.into modChan_keeps; decide) | apply Keeps.ite | intro _ | split
    | (dsimp only; split)

theorem effectMctpMessage_keeps {kind : Byte} {vendor : Half} :
    Keeps [.chans] s (effectMctpMessage kind vendor slot s) := by
  unfold effectMctpMessage
  with_reducible repeat' first
    | exact Keeps.rfl | (apply Keeps.into modChan_keeps; decide) | apply Keeps.ite | intro _ | split
    | (dsimp only; split)

theorem effectMbxOutHeadWrite_keeps : Keeps [.chans] s (effectMbxOutHeadWrite ch v s) := by
  unfold effectMbxOutHeadWrite
  with_reducible repeat' first
    | exact Keeps.rfl | (apply Keeps.into modChan_keeps; decide) | apply Keeps.ite | intro _ | split
    | (dsimp only; split)

theorem effectEventDelivery_keeps : Keeps [.chans] s (effectEventDelivery ch s) := by
  unfold effectEventDelivery
  with_reducible repeat' first
    | exact Keeps.rfl | (apply Keeps.into modChan_keeps; decide) | apply Keeps.ite | intro _ | split
    | (dsimp only; split)

theorem effectLockRead_keeps : Keeps [.readOut, .locks] s (effectLockRead who n s) := by
  unfold effectLockRead
  split
  · split
    · dsimp only
      split <;> (intro p hp; cases p <;> first | exact Eq.refl _ | exact absurd (by decide) hp)
    · intro p hp; cases p <;> first | exact Eq.refl _ | exact absurd (by decide) hp
  · exact Keeps.rfl

theorem effectLockWrite_keeps {_v : Word} : Keeps [.locks] s (effectLockWrite who n _v s) := by
  unfold effectLockWrite
  with_reducible repeat' first
    | exact Keeps.rfl | apply Keeps.ite | intro _ | split | (dsimp only; split) | (apply Keeps.locks; decide)

theorem effectFunctionLevelReset_keeps : Keeps [.locks] s (effectFunctionLevelReset fn s) := by
  unfold effectFunctionLevelReset
  with_reducible repeat' first
    | exact Keeps.rfl | apply Keeps.ite | intro _ | split | (dsimp only; split) | (apply Keeps.locks; decide)

theorem State.modPort_keeps {f : Link → Link} : Keeps [.links] s (State.modPort s n f) := by
  unfold State.modPort
  with_reducible repeat' first
    | exact Keeps.rfl | (apply Keeps.into modLink_keeps; decide) | apply Keeps.ite | intro _ | split
    | (dsimp only; split)

theorem State.bypass_keeps {h : HeaderFrame} : Keeps [.links] s (State.bypass s n h) := by
  unfold State.bypass
  with_reducible repeat' first
    | exact Keeps.rfl | (apply Keeps.into modPort_keeps; decide) | (apply Keeps.into modLink_keeps; decide)
    | apply Keeps.ite | intro _ | split | (dsimp only; split)

theorem State.decodeHeader_keeps {h : HeaderFrame} : Keeps [.links] s (State.decodeHeader s n h) := by
  unfold State.decodeHeader
  with_reducible repeat' first
    | exact Keeps.rfl | (apply Keeps.into bypass_keeps; decide) | (apply Keeps.into modLink_keeps; decide)
    | apply Keeps.ite | intro _ | split | (dsimp only; split)

theorem State.decodeFrame_keeps {h : HeaderFrame} : Keeps [.links] s (State.decodeFrame s n h) := by
  unfold State.decodeFrame
  with_reducible repeat' first
    | exact Keeps.rfl | (apply Keeps.into decodeHeader_keeps; decide) | (apply Keeps.into modLink_keeps; decide)
    | apply Keeps.ite | intro _ | split | (dsimp only; split)

theorem effectHeaderFrame_keeps {h : HeaderFrame} : Keeps [.links] s (effectHeaderFrame n h s) := by
  unfold effectHeaderFrame
  with_reducible repeat' first
    | exact Keeps.rfl | (apply Keeps.into decodeFrame_keeps; decide) | (apply Keeps.into modLink_keeps; decide)
    | apply Keeps.ite | intro _ | split | (dsimp only; split)

theorem State.ack_keeps {h : HeaderFrame} : Keeps [.links] s (State.ack s n h) := by
  unfold State.ack
  with_reducible repeat' first
    | exact Keeps.rfl | (apply Keeps.into modLink_keeps; decide) | apply Keeps.ite | intro _ | split
    | (dsimp only; split)

theorem State.enqueue_keeps {p : LinkPacket} : Keeps [.links] s (State.enqueue s n p) := by
  unfold State.enqueue
  with_reducible repeat' first
    | exact Keeps.rfl | (apply Keeps.into modPort_keeps; decide) | apply Keeps.ite | intro _ | split
    | (dsimp only; split)

theorem effectPacketLanded_keeps {payload : List Byte} {bad : Bool} :
    Keeps [.streams, .links] s (effectPacketLanded n payload bad s) := by
  unfold effectPacketLanded
  with_reducible repeat' first
    | exact Keeps.rfl | (apply Keeps.into enqueue_keeps; decide) | (apply Keeps.into ack_keeps; decide)
    | (apply Keeps.into modLink_keeps; decide) | (apply Keeps.into modStream_keeps; decide) | apply Keeps.ite
    | intro _ | split | (dsimp only; split)

theorem State.takeAck_keeps {src : Half} {lseq : Half} {lander : Half} :
    Keeps [.links] s (State.takeAck s n src lseq lander) := by
  unfold State.takeAck
  with_reducible repeat' first
    | exact Keeps.rfl | (apply Keeps.into modLink_keeps; decide) | apply Keeps.ite | intro _ | split
    | (dsimp only; split)

theorem effectAckFrame_keeps {crc : Half} {src : Half} {lseq : Half} {lander : Half} :
    Keeps [.links] s (effectAckFrame n crc src lseq lander s) := by
  unfold effectAckFrame
  with_reducible repeat' first
    | exact Keeps.rfl | (apply Keeps.into takeAck_keeps; decide) | (apply Keeps.into modLink_keeps; decide)
    | apply Keeps.ite | intro _ | split | (dsimp only; split)

theorem State.takeCredits_keeps : Keeps [.streams, .links] s (State.takeCredits s n k) := by
  unfold State.takeCredits
  with_reducible repeat' first
    | exact Keeps.rfl | apply Keeps.each | (apply Keeps.into modLink_keeps; decide)
    | (apply Keeps.into modStream_keeps; decide) | apply Keeps.ite | intro _ | split | (dsimp only; split)

theorem effectCreditFrame_keeps {crc : Half} : Keeps [.streams, .links] s (effectCreditFrame n crc k s) := by
  unfold effectCreditFrame
  with_reducible repeat' first
    | exact Keeps.rfl | (apply Keeps.into takeCredits_keeps; decide) | (apply Keeps.into modLink_keeps; decide)
    | apply Keeps.ite | intro _ | split | (dsimp only; split)

theorem State.takePart_keeps {part : List Byte} : Keeps [.chans] s (State.takePart s n part) := by
  unfold State.takePart
  with_reducible repeat' first
    | exact Keeps.rfl | (apply Keeps.into modChan_keeps; decide) | apply Keeps.ite | intro _ | split
    | (dsimp only; split)

theorem effectControlFrame_keeps {crc : Half} {part : List Byte} :
    Keeps [.chans, .links] s (effectControlFrame n crc part s) := by
  unfold effectControlFrame
  with_reducible repeat' first
    | exact Keeps.rfl | (apply Keeps.into takePart_keeps; decide) | (apply Keeps.into modLink_keeps; decide)
    | apply Keeps.ite | intro _ | split | (dsimp only; split)

theorem effectPacketSend_keeps : Keeps [.links] s (effectPacketSend n s) := by
  unfold effectPacketSend
  with_reducible repeat' first
    | exact Keeps.rfl | (apply Keeps.into modPort_keeps; decide) | apply Keeps.ite | intro _ | split
    | (dsimp only; split)

theorem effectPacketReplay_keeps {lseq : Half} : Keeps [.links] s (effectPacketReplay n lseq s) := by
  unfold effectPacketReplay
  with_reducible repeat' first
    | exact Keeps.rfl | (apply Keeps.into setLink_keeps; decide) | apply Keeps.ite | intro _ | split
    | (dsimp only; split)

theorem State.countCodewords_keeps : Keeps [.links] s (State.countCodewords s n) := by
  unfold State.countCodewords
  with_reducible repeat' first
    | exact Keeps.rfl | (apply Keeps.into modLink_keeps; decide) | apply Keeps.ite | intro _ | split
    | (dsimp only; split)

theorem State.setLinkState_keeps {st : BitVec 2} {reason : BitVec 3} :
    Keeps [.chans, .links] s (State.setLinkState s n st reason) := by
  unfold State.setLinkState
  with_reducible repeat' first
    | exact Keeps.rfl | (apply Keeps.into countCodewords_keeps; decide) | (apply Keeps.into raise_keeps; decide)
    | (apply Keeps.into modLink_keeps; decide) | apply Keeps.ite | intro _ | split | (dsimp only; split)

theorem State.loseLink_keeps : Keeps [.streams, .pools, .progs, .links] s (State.loseLink s n) := by
  unfold State.loseLink
  with_reducible repeat' first
    | exact Keeps.rfl | (apply Keeps.into sendDone_keeps; decide) | apply Keeps.each
    | (apply Keeps.into modLink_keeps; decide) | (apply Keeps.into modStream_keeps; decide) | apply Keeps.ite
    | intro _ | split | (dsimp only; split)

theorem State.linkGoesDown_keeps {reason : BitVec 3} :
    Keeps [.chans, .streams, .pools, .progs, .links] s (State.linkGoesDown s n reason) := by
  unfold State.linkGoesDown
  with_reducible repeat' first
    | exact Keeps.rfl | (apply Keeps.into loseLink_keeps; decide) | (apply Keeps.into setLinkState_keeps; decide)
    | (apply Keeps.into modLink_keeps; decide) | apply Keeps.ite | intro _ | split | (dsimp only; split)

theorem State.passThrough_keeps : Keeps [.chans, .streams, .pools, .progs, .links] s (State.passThrough s n) := by
  unfold State.passThrough
  with_reducible repeat' first
    | exact Keeps.rfl | (apply Keeps.into loseLink_keeps; decide) | (apply Keeps.into setLinkState_keeps; decide)
    | apply Keeps.ite | intro _ | split | (dsimp only; split)

theorem effectLinkDown_keeps {reason : BitVec 3} :
    Keeps [.chans, .streams, .pools, .progs, .links] s (effectLinkDown n reason s) := by
  unfold effectLinkDown
  with_reducible repeat' first
    | exact Keeps.rfl | (apply Keeps.into linkGoesDown_keeps; decide) | apply Keeps.ite | intro _ | split
    | (dsimp only; split)

theorem effectLinkTimer_keeps : Keeps [.chans, .streams, .pools, .progs, .links] s (effectLinkTimer n s) := by
  unfold effectLinkTimer
  with_reducible repeat' first
    | exact Keeps.rfl | (apply Keeps.into linkGoesDown_keeps; decide) | apply Keeps.ite | intro _ | split
    | (dsimp only; split)

theorem State.laneFails_keeps {lane : Nat} :
    Keeps [.chans, .streams, .pools, .progs, .links] s (State.laneFails s n lane) := by
  unfold State.laneFails
  with_reducible repeat' first
    | exact Keeps.rfl | (apply Keeps.into linkGoesDown_keeps; decide) | (apply Keeps.into setLink_keeps; decide)
    | apply Keeps.ite | intro _ | split | (dsimp only; split)

theorem effectLaneLockLoss_keeps {lanes : List Nat} :
    Keeps [.chans, .streams, .pools, .progs, .links] s (effectLaneLockLoss n lanes s) := by
  unfold effectLaneLockLoss
  with_reducible repeat' first
    | exact Keeps.rfl | (apply Keeps.into laneFails_keeps; decide) | (apply Keeps.into linkGoesDown_keeps; decide)
    | apply Keeps.ite | intro _ | split | (dsimp only; split)

theorem effectLaneErrorRate_keeps {lane : Nat} :
    Keeps [.chans, .streams, .pools, .progs, .links] s (effectLaneErrorRate n lane s) := by
  unfold effectLaneErrorRate
  with_reducible repeat' first
    | exact Keeps.rfl | (apply Keeps.into laneFails_keeps; decide) | apply Keeps.ite | intro _ | split
    | (dsimp only; split)

theorem effectSpareLaneSwitch_keeps : Keeps [.wear, .links] s (effectSpareLaneSwitch n s) := by
  unfold effectSpareLaneSwitch
  with_reducible repeat' first
    | exact Keeps.rfl | (apply Keeps.into setLink_keeps; decide) | (apply Keeps.into wears_keeps; decide)
    | apply Keeps.ite | intro _ | split | (dsimp only; split)

theorem State.sendPeerReady_keeps : Keeps [.chans] s (State.sendPeerReady s n) := by
  unfold State.sendPeerReady
  with_reducible repeat' first
    | exact Keeps.rfl | (apply Keeps.into postKept_keeps; decide) | apply Keeps.ite | intro _ | split
    | (dsimp only; split)

theorem effectLinkUp_keeps {peer : Half} {tl : BitVec 8} {cl : BitVec 8} :
    Keeps [.chans, .links] s (effectLinkUp n peer tl cl s) := by
  unfold effectLinkUp
  with_reducible repeat' first
    | exact Keeps.rfl | (apply Keeps.into sendPeerReady_keeps; decide)
    | (apply Keeps.into setLinkState_keeps; decide) | (apply Keeps.into modLink_keeps; decide) | apply Keeps.ite
    | intro _ | split | (dsimp only; split)

theorem State.Keeps.foutWrite {L : List Part} {x : State} {fn : Nat} {f : State → State} (hL : [.foutDenied] ⊆ L)
    (h : ∀ t, Keeps L t (f t)) (g : Keeps L s x) : Keeps L s (x.foutWrite fn f) := by
  unfold State.foutWrite
  refine Keeps.ite (fun _ => g) (fun _ => Keeps.ite (fun _ => ?_) (fun _ => ?_))
  · exact Keeps.into (h _) (List.Subset.refl _) g
  · exact Keeps.foutDenied (hL (by simp)) g

theorem effectFoutDataWrite_keeps : Keeps [.fouts, .foutDenied] s (effectFoutDataWrite fn n v s) := by
  unfold effectFoutDataWrite
  with_reducible repeat' first
    | exact Keeps.rfl | (apply Keeps.foutWrite; decide) | (apply Keeps.into modFout_keeps; decide) | apply Keeps.ite
    | intro _ | split | (dsimp only; split)

theorem State.askReadBack_keeps : Keeps [.convs] s (State.askReadBack s n) := by
  unfold State.askReadBack
  with_reducible repeat' first
    | exact Keeps.rfl | (apply Keeps.into modConv_keeps; decide) | apply Keeps.ite | intro _ | split
    | (dsimp only; split)

theorem effectChannelTimer_keeps : Keeps [.fouts] s (effectChannelTimer n s) := by
  unfold effectChannelTimer
  with_reducible repeat' first
    | exact Keeps.rfl | (apply Keeps.into modFout_keeps; decide) | apply Keeps.ite | intro _ | split
    | (dsimp only; split)

theorem State.roomFrees_keeps : Keeps [.streams] s (State.roomFrees s n) := by
  unfold State.roomFrees
  with_reducible repeat' first
    | exact Keeps.rfl | apply Keeps.each | (apply Keeps.into modStream_keeps; decide) | apply Keeps.ite | intro _
    | split | (dsimp only; split)

theorem effectOutputTick_keeps : Keeps [.streams, .convs, .fouts] s (effectOutputTick n s) := by
  unfold effectOutputTick
  with_reducible repeat' first
    | exact Keeps.rfl | (apply Keeps.into roomFrees_keeps; decide) | (apply Keeps.into askReadBack_keeps; decide)
    | (apply Keeps.into modFout_keeps; decide) | apply Keeps.ite | intro _ | split | (dsimp only; split)

theorem State.loopOutput_keeps {u : ℤ} : Keeps [.fouts] s (State.loopOutput s n u e) := by
  unfold State.loopOutput
  with_reducible repeat' first
    | exact Keeps.rfl | (apply Keeps.into modFout_keeps; decide) | apply Keeps.ite | intro _ | split
    | (dsimp only; split)

theorem effectPrecisionCodeTake_keeps : Keeps [.convs, .fouts] s (effectPrecisionCodeTake n s) := by
  unfold effectPrecisionCodeTake
  with_reducible repeat' first
    | exact Keeps.rfl | (apply Keeps.into askReadBack_keeps; decide) | (apply Keeps.into modFout_keeps; decide)
    | apply Keeps.ite | intro _ | split | (dsimp only; split)

theorem State.refreshIdle_keeps : Keeps [.fouts] s (State.refreshIdle s) := by
  unfold State.refreshIdle
  with_reducible repeat' first
    | exact Keeps.rfl | apply Keeps.each | (apply Keeps.into modFout_keeps; decide) | apply Keeps.ite | intro _
    | split | (dsimp only; split)

theorem State.foutCfg_keeps : Keeps [.streams, .fouts, .foutDenied] s (State.foutCfg s fn n v) := by
  unfold State.foutCfg
  with_reducible repeat' first
    | exact Keeps.rfl | (apply Keeps.into refreshIdle_keeps; decide) | (apply Keeps.into roomFrees_keeps; decide)
    | (apply Keeps.foutWrite; decide) | (apply Keeps.into modFout_keeps; decide) | apply Keeps.ite | intro _ | split
    | (dsimp only; split)

theorem effectFoutRangeWrite_keeps : Keeps [.streams, .fouts, .foutDenied] s (effectFoutRangeWrite fn n v s) := by
  unfold effectFoutRangeWrite
  with_reducible repeat' first
    | exact Keeps.rfl | (apply Keeps.into foutCfg_keeps; decide) | apply Keeps.ite | intro _ | split
    | (dsimp only; split)

theorem effectRangeEnd_keeps : Keeps [.streams, .fouts] s (effectRangeEnd n s) := by
  unfold effectRangeEnd
  with_reducible repeat' first
    | exact Keeps.rfl | (apply Keeps.into roomFrees_keeps; decide) | (apply Keeps.into modFout_keeps; decide)
    | apply Keeps.ite | intro _ | split | (dsimp only; split)

theorem effectFoutEnableWrite_keeps : Keeps [.streams, .fouts, .foutDenied] s (effectFoutEnableWrite fn n v s) := by
  unfold effectFoutEnableWrite
  with_reducible repeat' first
    | exact Keeps.rfl | (apply Keeps.into foutCfg_keeps; decide) | apply Keeps.ite | intro _ | split
    | (dsimp only; split)

theorem effectForceSafeWrite_keeps : Keeps [.streams, .fouts, .foutDenied] s (effectForceSafeWrite fn n v s) := by
  unfold effectForceSafeWrite
  with_reducible repeat' first
    | exact Keeps.rfl | (apply Keeps.into foutCfg_keeps; decide) | apply Keeps.ite | intro _ | split
    | (dsimp only; split)

theorem effectReadbackFaultRelease_keeps : Keeps [.fouts, .foutDenied] s (effectReadbackFaultRelease fn n v s) := by
  unfold effectReadbackFaultRelease
  with_reducible repeat' first
    | exact Keeps.rfl | (apply Keeps.foutWrite; decide) | (apply Keeps.into modFout_keeps; decide) | apply Keeps.ite
    | intro _ | split | (dsimp only; split)

theorem effectShort_keeps : Keeps [.fouts] s (effectShort n s) := by
  unfold effectShort
  with_reducible repeat' first
    | exact Keeps.rfl | (apply Keeps.into modFout_keeps; decide) | apply Keeps.ite | intro _ | split
    | (dsimp only; split)

theorem effectShortEnd_keeps : Keeps [.fouts] s (effectShortEnd n s) := by
  unfold effectShortEnd
  with_reducible repeat' first
    | exact Keeps.rfl | (apply Keeps.into modFout_keeps; decide) | apply Keeps.ite | intro _ | split
    | (dsimp only; split)

theorem effectSafeRecordLoad_keeps : Keeps [.fouts] s (effectSafeRecordLoad n s) := by
  unfold effectSafeRecordLoad
  with_reducible repeat' first
    | exact Keeps.rfl | (apply Keeps.into modFout_keeps; decide) | apply Keeps.ite | intro _ | split
    | (dsimp only; split)

theorem State.queueCodes_keeps {ws : List Word} : Keeps [.fouts] s (State.queueCodes s n ws).1 := by
  unfold State.queueCodes
  with_reducible repeat' first
    | exact Keeps.rfl | (apply Keeps.into modFout_keeps; decide) | apply Keeps.ite | apply Keeps.ite1 | intro _
    | split | (dsimp only; split)

theorem State.fieldMoved_keeps {ws : List Word} :
    Keeps [.streams, .pools, .progs, .fouts] s (State.fieldMoved s img i h n ws) := by
  unfold State.fieldMoved
  with_reducible repeat' first
    | exact Keeps.rfl | (apply Keeps.into queueCodes_keeps; decide) | (apply Keeps.into finish_keeps; decide)
    | (apply Keeps.into releaseTok_keeps; decide) | (apply Keeps.into modProg_keeps; decide)
    | (apply Keeps.into modStream_keeps; decide) | apply Keeps.ite | intro _ | split | (dsimp only; split)

theorem effectFieldOutput_keeps : Keeps [.streams, .pools, .progs, .fouts] s (effectFieldOutput u img s) := by
  unfold effectFieldOutput
  with_reducible repeat' first
    | exact Keeps.rfl | (apply Keeps.into fieldMoved_keeps; decide) | apply Keeps.onOp
    | (apply Keeps.into finish_keeps; decide) | (apply Keeps.into releaseTok_keeps; decide)
    | (apply Keeps.into takeHead_keeps; decide) | (apply Keeps.into modFout_keeps; decide) | apply Keeps.ite
    | intro _ | split | (dsimp only; split)

theorem State.arrive_keeps {y : Instr} :
    Keeps [.now, .snap, .clusters, .streams, .pools, .convs, .fouts] s (State.arrive s y) := by
  unfold State.arrive
  with_reducible repeat' first
    | exact Keeps.rfl | (apply Keeps.into effectRangeEnd_keeps; decide)
    | (apply Keeps.into effectOutputTick_keeps; decide) | (apply Keeps.into effectCoreCreditGrant_keeps; decide)
    | (apply Keeps.into effectHandleFree_keeps; decide) | (apply Keeps.into effectCreditReturn_keeps; decide)
    | (apply Keeps.into tick_keeps; decide) | apply Keeps.ite | intro _ | split | (dsimp only; split)

theorem effectStall_keeps : Keeps [.fw, .chans, .streams] s (effectStall i s) := by
  unfold effectStall
  with_reducible repeat' first
    | exact Keeps.rfl | (apply Keeps.into markAbort_keeps; decide) | (apply Keeps.into raise_keeps; decide)
    | (apply Keeps.into modStream_keeps; decide) | apply Keeps.ite | intro _ | split | (dsimp only; split)

theorem State.triggerConvs_keeps {keep : Nat → Conv → Bool} : Keeps [.convs] s (State.triggerConvs s keep) := by
  unfold State.triggerConvs
  with_reducible repeat' first
    | exact Keeps.rfl | apply Keeps.each | (apply Keeps.into modConv_keeps; decide) | apply Keeps.ite | intro _
    | split | (dsimp only; split)

theorem State.loopDue_keeps {y : Nat} : Keeps [.loops] s (State.loopDue s n y) := by
  induction y generalizing s n with
  | zero => exact Keeps.rfl
  | succ m ih =>
    unfold State.loopDue
    with_reducible repeat' first
      | exact Keeps.rfl | (apply Keeps.into ih; decide) | (apply Keeps.into modLoop_keeps; decide) | apply Keeps.ite
      | intro _ | split | (dsimp only; split)

theorem State.loopResult_keeps {j : Nat} : Keeps [.loops] s (State.loopResult s k j) := by
  unfold State.loopResult
  with_reducible repeat' first
    | exact Keeps.rfl | (apply Keeps.into loopDue_keeps; decide) | apply Keeps.each
    | (apply Keeps.into modLoop_keeps; decide) | apply Keeps.ite | intro _ | split | (dsimp only; split)

theorem State.Keeps.angWrite {L : List Part} {x : State} {fn : Nat} {f : State → State} (hL : [.ang] ⊆ L)
    (h : ∀ t, Keeps L t (f t)) (g : Keeps L s x) : Keeps L s (x.angWrite fn f) := by
  unfold State.angWrite
  refine Keeps.ite (fun _ => g) (fun _ => Keeps.ite (fun _ => ?_) (fun _ => ?_))
  · exact Keeps.into (h _) (List.Subset.refl _) g
  · exact Keeps.ang (hL (by simp)) g

theorem effectSoftwareTrigger_keeps : Keeps [.convs, .ang] s (effectSoftwareTrigger fn k v s) := by
  unfold effectSoftwareTrigger
  with_reducible repeat' first
    | exact Keeps.rfl | (apply Keeps.angWrite; decide) | (apply Keeps.into triggerConvs_keeps; decide)
    | apply Keeps.ite | intro _ | split | (dsimp only; split)

theorem effectConverterTimer_keeps : Keeps [.convs] s (effectConverterTimer k s) := by
  unfold effectConverterTimer
  with_reducible repeat' first
    | exact Keeps.rfl | (apply Keeps.into triggerConvs_keeps; decide) | (apply Keeps.into modConv_keeps; decide)
    | apply Keeps.ite | intro _ | split | (dsimp only; split)

theorem effectTriggerPinEdge_keeps {pin : Nat} {falling : Bool} :
    Keeps [.convs] s (effectTriggerPinEdge pin falling s) := by
  unfold effectTriggerPinEdge
  with_reducible repeat' first
    | exact Keeps.rfl | (apply Keeps.into triggerConvs_keeps; decide) | apply Keeps.ite | intro _ | split
    | (dsimp only; split)

theorem State.seqResult_keeps {slot sample chan : Nat} {code : BitVec 12} {ovr fifo stream : Bool} :
    Keeps [.loops, .convs]
      s (State.seqResult s k slot sample code ovr fifo stream chan) := by
  unfold State.seqResult
  with_reducible repeat' first
    | exact Keeps.rfl | (apply Keeps.into loopResult_keeps; decide) | (apply Keeps.into modConv_keeps; decide)
    | apply Keeps.ite | intro _ | split | (dsimp only; split)

theorem State.threeResult_keeps {t0 : Nat} {j : Nat} {v : ℤ} {d : ℤ} :
    Keeps [.loops, .convs] s (State.threeResult s t0 j v d) := by
  unfold State.threeResult
  with_reducible repeat' first
    | exact Keeps.rfl | (apply Keeps.into seqResult_keeps; decide) | (apply Keeps.into modConv_keeps; decide)
    | apply Keeps.ite | intro _ | split | (dsimp only; split)

theorem effectConversionResult_keeps {v : ℤ} {d : ℤ} :
    Keeps [.loops, .convs, .fouts] s (effectConversionResult k v d s) := by
  unfold effectConversionResult
  with_reducible repeat' first
    | exact Keeps.rfl | (apply Keeps.into threeResult_keeps; decide) | (apply Keeps.into seqResult_keeps; decide)
    | (apply Keeps.into modFout_keeps; decide) | (apply Keeps.into modConv_keeps; decide) | apply Keeps.ite | intro _
    | split | (dsimp only; split)

theorem effectRunEnd_keeps : Keeps [.convs] s (effectRunEnd k s) := by
  unfold effectRunEnd
  with_reducible repeat' first
    | exact Keeps.rfl | (apply Keeps.into modConv_keeps; decide) | apply Keeps.ite | intro _ | split
    | (dsimp only; split)

theorem effectThreePhaseSample_keeps {a : ℤ} {b : ℤ} {c : ℤ} :
    Keeps [.convs, .ang] s (effectThreePhaseSample a b c s) := by
  unfold effectThreePhaseSample
  with_reducible repeat' first
    | exact Keeps.rfl | (apply Keeps.into modConv_keeps; decide) | apply Keeps.ite | intro _ | split
    | (dsimp only; split) | (apply Keeps.ang; decide)

theorem effectFinFifoRead_keeps : Keeps [.readOut, .snap, .convs] s (effectFinFifoRead fn k s) := by
  unfold effectFinFifoRead
  dsimp only
  repeat' split
  all_goals first | exact Keeps.rfl | (intro p hp; cases p <;> first | exact Eq.refl _ | exact absurd (by decide) hp)

theorem effectFinIncfgWrite_keeps : Keeps [.incfg, .incfgAt, .ang] s (effectFinIncfgWrite fn n v s) := by
  unfold effectFinIncfgWrite
  refine Keeps.angWrite (by decide) (fun t => ?_) Keeps.rfl
  intro p hp; cases p <;> first | exact Eq.refl _ | exact absurd (by decide) hp

theorem effectFieldFill_keeps :
    Keeps [.hbm, .bad, .sram, .streams, .pools, .progs, .convs] s (effectFieldFill u img s) := by
  unfold effectFieldFill
  with_reducible repeat' first
    | exact Keeps.rfl | (apply Keeps.fire; decide) | apply Keeps.onOp | (apply Keeps.into markAll_keeps; decide)
    | (apply Keeps.into writeBuf_keeps; decide) | (apply Keeps.into modConv_keeps; decide) | apply Keeps.ite
    | intro _ | split | (dsimp only; split)

theorem State.refreshCfg_keeps : Keeps [.loops] s (State.refreshCfg s) := by
  unfold State.refreshCfg
  with_reducible repeat' first
    | exact Keeps.rfl | apply Keeps.each | (apply Keeps.into modLoop_keeps; decide) | apply Keeps.ite | intro _
    | split | (dsimp only; split)

theorem State.toSignal_keeps {v : ℤ} : Keeps [.free] s (State.toSignal s v).1 := by
  unfold State.toSignal
  with_reducible repeat' first
    | exact Keeps.rfl | (apply Keeps.into draw_keeps; decide) | apply Keeps.ite | apply Keeps.ite1 | intro _ | split
    | (dsimp only; split)

theorem State.prfStep_keeps : Keeps [.free, .prfs] s (State.prfStep s n) := by
  unfold State.prfStep
  with_reducible repeat' first
    | exact Keeps.rfl | (apply Keeps.into toSignal_keeps; decide) | (apply Keeps.into setPrf_keeps; decide)
    | apply Keeps.ite | intro _ | split | (dsimp only; split)

theorem State.capture_keeps : Keeps [.chans, .loopEng] s (State.capture s n) := by
  unfold State.capture
  with_reducible repeat' first
    | exact Keeps.rfl | (apply Keeps.into raise_keeps; decide) | apply Keeps.ite | intro _ | split
    | (dsimp only; split) | (apply Keeps.loopEng; decide)

theorem State.loopFreeze_keeps {set : Nat} {l : FieldLoop} :
    Keeps [.chans, .loops, .fouts] s (State.loopFreeze s n set l) := by
  unfold State.loopFreeze
  with_reducible repeat' first
    | exact Keeps.rfl | (apply Keeps.into refreshIdle_keeps; decide) | (apply Keeps.into raise_keeps; decide)
    | (apply Keeps.into setLoop_keeps; decide) | apply Keeps.ite | intro _ | split | (dsimp only; split)

theorem State.updateLoop_keeps : Keeps [.free, .chans, .loops, .prfs, .loopEng, .fouts] s (State.updateLoop s n) := by
  unfold State.updateLoop
  with_reducible repeat' first
    | exact Keeps.rfl | (apply Keeps.into loopFreeze_keeps; decide) | (apply Keeps.into prfStep_keeps; decide)
    | (apply Keeps.into toSignal_keeps; decide) | (apply Keeps.into loopOutput_keeps; decide)
    | (apply Keeps.into setLoop_keeps; decide) | apply Keeps.ite | intro _ | split | (dsimp only; split)
    | (apply Keeps.loopEng; decide)

theorem effectLoopUpdate_keeps :
    Keeps [.free, .chans, .loops, .prfs, .loopEng, .convs, .fouts] s (effectLoopUpdate n s) := by
  unfold effectLoopUpdate
  with_reducible repeat' first
    | exact Keeps.rfl | (apply Keeps.into updateLoop_keeps; decide) | (apply Keeps.into capture_keeps; decide)
    | (apply Keeps.into triggerConvs_keeps; decide) | (apply Keeps.into modLoop_keeps; decide) | apply Keeps.ite
    | intro _ | split | (dsimp only; split)

theorem effectLoopTimer_keeps : Keeps [.loops] s (effectLoopTimer n s) := by
  unfold effectLoopTimer
  with_reducible repeat' first
    | exact Keeps.rfl | (apply Keeps.into loopDue_keeps; decide) | (apply Keeps.into modLoop_keeps; decide)
    | apply Keeps.ite | intro _ | split | (dsimp only; split)

theorem effectFieldScalar_keeps : Keeps [.streams, .pools, .progs, .loops] s (effectFieldScalar u img s) := by
  unfold effectFieldScalar
  with_reducible repeat' first
    | exact Keeps.rfl | (apply Keeps.fire; decide) | apply Keeps.onOp | (apply Keeps.into modLoop_keeps; decide)
    | apply Keeps.ite | intro _ | split | (dsimp only; split)

theorem effectSvStale_keeps : Keeps [.chans, .loops] s (effectSvStale n s) := by
  unfold effectSvStale
  with_reducible repeat' first
    | exact Keeps.rfl | (apply Keeps.into raise_keeps; decide) | (apply Keeps.into modLoop_keeps; decide)
    | apply Keeps.ite | intro _ | split | (dsimp only; split)

theorem State.Keeps.loopWrite {L : List Part} {x : State} {fn : Nat} {f : State → State} (hL : [.loopEng] ⊆ L)
    (h : ∀ t, Keeps L t (f t)) (g : Keeps L s x) : Keeps L s (x.loopWrite fn f) := by
  unfold State.loopWrite
  refine Keeps.ite (fun _ => g) (fun _ => Keeps.ite (fun _ => ?_) (fun _ => ?_))
  · exact Keeps.into (h _) (List.Subset.refl _) g
  · exact Keeps.loopEng (hL (by simp)) g

theorem State.loopStart_keeps : Keeps [.loops, .prfs] s (State.loopStart s n) := by
  unfold State.loopStart
  with_reducible repeat' first
    | exact Keeps.rfl | (apply Keeps.into modPrf_keeps; decide) | (apply Keeps.into setLoop_keeps; decide)
    | apply Keeps.ite | intro _ | split | (dsimp only; split)

theorem State.loopCtrl_keeps : Keeps [.loops, .prfs, .loopEng, .fouts] s (State.loopCtrl s fn n v) := by
  unfold State.loopCtrl
  with_reducible repeat' first
    | exact Keeps.rfl | (apply Keeps.into loopStart_keeps; decide) | (apply Keeps.loopWrite; decide)
    | (apply Keeps.into refreshCfg_keeps; decide) | (apply Keeps.into refreshIdle_keeps; decide)
    | (apply Keeps.into modPrf_keeps; decide) | (apply Keeps.into setLoop_keeps; decide) | apply Keeps.ite | intro _
    | split | (dsimp only; split)

theorem effectLoopEnable_keeps : Keeps [.loops, .prfs, .loopEng, .fouts] s (effectLoopEnable fn n v s) := by
  unfold effectLoopEnable
  with_reducible repeat' first
    | exact Keeps.rfl | (apply Keeps.into loopCtrl_keeps; decide) | apply Keeps.ite | intro _ | split
    | (dsimp only; split)

theorem effectLoopDisable_keeps : Keeps [.loops, .prfs, .loopEng, .fouts] s (effectLoopDisable fn n v s) := by
  unfold effectLoopDisable
  with_reducible repeat' first
    | exact Keeps.rfl | (apply Keeps.into loopCtrl_keeps; decide) | apply Keeps.ite | intro _ | split
    | (dsimp only; split)

theorem effectLoopHold_keeps : Keeps [.loops, .prfs, .loopEng, .fouts] s (effectLoopHold fn n v s) := by
  unfold effectLoopHold
  with_reducible repeat' first
    | exact Keeps.rfl | (apply Keeps.into loopCtrl_keeps; decide) | apply Keeps.ite | intro _ | split
    | (dsimp only; split)

theorem State.loopStat_keeps : Keeps [.loops, .loopEng, .fouts] s (State.loopStat s fn n v) := by
  unfold State.loopStat
  with_reducible repeat' first
    | exact Keeps.rfl | (apply Keeps.loopWrite; decide) | (apply Keeps.into refreshIdle_keeps; decide)
    | (apply Keeps.into modLoop_keeps; decide) | apply Keeps.ite | intro _ | split | (dsimp only; split)

theorem effectLoopOscRelease_keeps : Keeps [.loops, .loopEng, .fouts] s (effectLoopOscRelease fn n v s) := by
  unfold effectLoopOscRelease
  with_reducible repeat' first
    | exact Keeps.rfl | (apply Keeps.into loopStat_keeps; decide) | apply Keeps.ite | intro _ | split
    | (dsimp only; split)

theorem State.injCtrl_keeps : Keeps [.free, .loops, .loopEng] s (State.injCtrl s fn n v) := by
  unfold State.injCtrl
  with_reducible repeat' first
    | exact Keeps.rfl | (apply Keeps.loopWrite; decide) | (apply Keeps.into refreshCfg_keeps; decide)
    | (apply Keeps.into modLoop_keeps; decide) | (apply Keeps.into draw_keeps; decide) | apply Keeps.ite | intro _
    | split | (dsimp only; split) | (apply Keeps.loopEng; decide)

theorem effectInjectionStart_keeps : Keeps [.free, .loops, .loopEng] s (effectInjectionStart fn n v s) := by
  unfold effectInjectionStart
  with_reducible repeat' first
    | exact Keeps.rfl | (apply Keeps.into injCtrl_keeps; decide) | apply Keeps.ite | intro _ | split
    | (dsimp only; split)

theorem effectInjectionStop_keeps : Keeps [.free, .loops, .loopEng] s (effectInjectionStop fn n v s) := by
  unfold effectInjectionStop
  with_reducible repeat' first
    | exact Keeps.rfl | (apply Keeps.into injCtrl_keeps; decide) | apply Keeps.ite | intro _ | split
    | (dsimp only; split)

theorem State.capCtrl_keeps : Keeps [.loopEng] s (State.capCtrl s fn v) := by
  unfold State.capCtrl
  with_reducible repeat' first
    | exact Keeps.rfl | (apply Keeps.loopWrite; decide) | apply Keeps.ite | intro _ | split | (dsimp only; split)
    | (apply Keeps.loopEng; decide)

theorem effectCaptureArm_keeps : Keeps [.loopEng] s (effectCaptureArm fn v s) := by
  unfold effectCaptureArm
  with_reducible repeat' first
    | exact Keeps.rfl | (apply Keeps.into capCtrl_keeps; decide) | apply Keeps.ite | intro _ | split
    | (dsimp only; split)

theorem State.prfTarget_keeps : Keeps [.prfs] s (State.prfTarget s n v) := by
  unfold State.prfTarget
  with_reducible repeat' first
    | exact Keeps.rfl | (apply Keeps.into setPrf_keeps; decide) | apply Keeps.ite | intro _ | split
    | (dsimp only; split)

theorem effectPrfTargetWrite_keeps : Keeps [.prfs, .loopEng] s (effectPrfTargetWrite fn n v s) := by
  unfold effectPrfTargetWrite
  with_reducible repeat' first
    | exact Keeps.rfl | (apply Keeps.into prfTarget_keeps; decide) | (apply Keeps.loopWrite; decide)
    | apply Keeps.ite | intro _ | split | (dsimp only; split)

theorem effectPrfLimitWrite_keeps {which : Nat} : Keeps [.prfs, .loopEng] s (effectPrfLimitWrite fn n which v s) := by
  unfold effectPrfLimitWrite
  with_reducible repeat' first
    | exact Keeps.rfl | (apply Keeps.loopWrite; decide) | (apply Keeps.into modPrf_keeps; decide) | apply Keeps.ite
    | intro _ | split | (dsimp only; split)

theorem State.prfCtrl_keeps : Keeps [.free, .prfs, .loopEng] s (State.prfCtrl s fn n v) := by
  unfold State.prfCtrl
  with_reducible repeat' first
    | exact Keeps.rfl | (apply Keeps.loopWrite; decide) | (apply Keeps.into toSignal_keeps; decide)
    | (apply Keeps.into setPrf_keeps; decide) | apply Keeps.ite | intro _ | split | (dsimp only; split)

theorem effectPrfStop_keeps : Keeps [.free, .prfs, .loopEng] s (effectPrfStop fn n v s) := by
  unfold effectPrfStop
  with_reducible repeat' first
    | exact Keeps.rfl | (apply Keeps.into prfCtrl_keeps; decide) | apply Keeps.ite | intro _ | split
    | (dsimp only; split)

theorem State.moveRing_keeps {d : ℤ} : Keeps [.clusters] s (State.moveRing s cl k r d) := by
  unfold State.moveRing
  with_reducible repeat' first
    | exact Keeps.rfl | (apply Keeps.into modCore_keeps; decide) | apply Keeps.ite | intro _ | split
    | (dsimp only; split)

theorem State.moveMislocked_keeps : Keeps [.clusters] s (State.moveMislocked s cl k) := by
  unfold State.moveMislocked
  with_reducible repeat' first
    | exact Keeps.rfl | (apply Keeps.into moveRing_keeps; decide) | apply Keeps.each
    | (apply Keeps.into modCore_keeps; decide) | apply Keeps.ite | intro _ | split | (dsimp only; split)

theorem effectProfileMoveEnd_keeps : Keeps [.clusters] s (effectProfileMoveEnd cl k r s) := by
  unfold effectProfileMoveEnd
  with_reducible repeat' first
    | exact Keeps.rfl | (apply Keeps.into modCore_keeps; decide) | apply Keeps.ite | intro _ | split
    | (dsimp only; split)

theorem State.movePos_keeps {b : Nat} {ready : Nat} : Keeps [.clusters] s (State.movePos s cl p a b ready) := by
  unfold State.movePos
  with_reducible repeat' first
    | exact Keeps.rfl | (apply Keeps.into modCore_keeps; decide) | (apply Keeps.into modCluster_keeps; decide)
    | apply Keeps.ite | intro _ | split | (dsimp only; split)

theorem State.ringEvent_keeps {v : Nat} : Keeps [.chans] s (State.ringEvent s code cl k r v) := by
  unfold State.ringEvent
  with_reducible repeat' first
    | exact Keeps.rfl | (apply Keeps.into raise_keeps; decide) | apply Keeps.ite | intro _ | split
    | (dsimp only; split)

theorem State.moreRings_keeps {cl : Nat} {k : Nat} {y : Nat} {z : List (Nat × Int)} :
    Keeps [.chans] s (State.moreRings s cl k y z) := by
  induction y generalizing s z with
  | zero => exact Keeps.rfl
  | succ n ih =>
    unfold State.moreRings
    with_reducible repeat' first
      | exact Keeps.rfl | (apply Keeps.into ih; decide) | (apply Keeps.into raise_keeps; decide) | apply Keeps.ite
      | intro _

theorem State.raiseMislock_keeps {xs : List (Nat × ℤ)} : Keeps [.chans] s (State.raiseMislock s cl k xs) := by
  unfold State.raiseMislock
  with_reducible repeat' first
    | exact Keeps.rfl | (apply Keeps.into moreRings_keeps; decide) | (apply Keeps.into raise_keeps; decide)
    | apply Keeps.ite | intro _ | split | (dsimp only; split)

theorem State.dropSlot_keeps : Keeps [.clusters] s (State.dropSlot s cl x) := by
  unfold State.dropSlot
  with_reducible repeat' first
    | exact Keeps.rfl | (apply Keeps.into modCore_keeps; decide) | (apply Keeps.into modCluster_keeps; decide)
    | apply Keeps.ite | intro _ | split | (dsimp only; split)

theorem State.retireCheck_keeps : Keeps [.clusters] s (State.retireCheck s cl) := by
  unfold State.retireCheck
  with_reducible repeat' first
    | exact Keeps.rfl | (apply Keeps.into modCluster_keeps; decide) | apply Keeps.ite | intro _ | split
    | (dsimp only; split)

theorem State.claimWear_keeps {x : Nat × ClaimRank} : Keeps [.clusters] s (State.claimWear s cl x) := by
  unfold State.claimWear
  with_reducible repeat' first
    | exact Keeps.rfl | (apply Keeps.into retireCheck_keeps; decide) | (apply Keeps.into modCluster_keeps; decide)
    | apply Keeps.ite | intro _ | split | (dsimp only; split)

theorem State.yieldClaim_keeps {y : Nat × ClaimRank} : Keeps [.clusters] s (State.yieldClaim s cl y) := by
  unfold State.yieldClaim
  with_reducible repeat' first
    | exact Keeps.rfl | (apply Keeps.into claimWear_keeps; decide) | (apply Keeps.into dropSlot_keeps; decide)
    | apply Keeps.ite | intro _ | split | (dsimp only; split)

theorem State.waitForSpare_keeps {x : Nat × ClaimRank} : Keeps [.clusters] s (State.waitForSpare s cl x) := by
  unfold State.waitForSpare
  with_reducible repeat' first
    | exact Keeps.rfl | (apply Keeps.into claimWear_keeps; decide) | (apply Keeps.into modCluster_keeps; decide)
    | apply Keeps.ite | intro _ | split | (dsimp only; split)

theorem State.claim_keeps {x : Nat × ClaimRank} : Keeps [.clusters] s (State.claim s cl x) := by
  unfold State.claim
  with_reducible repeat' first
    | exact Keeps.rfl | (apply Keeps.into waitForSpare_keeps; decide) | (apply Keeps.into yieldClaim_keeps; decide)
    | (apply Keeps.into claimWear_keeps; decide) | (apply Keeps.into modCluster_keeps; decide) | apply Keeps.ite
    | intro _ | split | (dsimp only; split)

theorem State.retireCore_keeps : Keeps [.chans, .clusters] s (State.retireCore s cl k) := by
  unfold State.retireCore
  with_reducible repeat' first
    | exact Keeps.rfl | (apply Keeps.into retireCheck_keeps; decide) | (apply Keeps.into ringEvent_keeps; decide)
    | (apply Keeps.into modCore_keeps; decide) | (apply Keeps.into modCluster_keeps; decide) | apply Keeps.ite
    | intro _ | split | (dsimp only; split)

theorem State.mend_keeps : Keeps [.wear, .clusters] s (State.mend s cl k) := by
  unfold State.mend
  with_reducible repeat' first
    | exact Keeps.rfl | (apply Keeps.into modCore_keeps; decide) | (apply Keeps.into wears_keeps; decide)
    | apply Keeps.ite | intro _ | split | (dsimp only; split)

theorem State.leave_keeps {home : Option Nat} : Keeps [.chans, .wear, .clusters] s (State.leave s cl k home) := by
  unfold State.leave
  with_reducible repeat' first
    | exact Keeps.rfl | (apply Keeps.into mend_keeps; decide) | (apply Keeps.into retireCore_keeps; decide)
    | (apply Keeps.into moveMislocked_keeps; decide) | (apply Keeps.into modCore_keeps; decide) | apply Keeps.ite
    | intro _ | split | (dsimp only; split)

theorem State.startSlot_keeps {sp : Nat} : Keeps [.clusters] s (State.startSlot s cl k sp) := by
  unfold State.startSlot
  with_reducible repeat' first
    | exact Keeps.rfl | (apply Keeps.into modCore_keeps; decide) | (apply Keeps.into modCluster_keeps; decide)
    | apply Keeps.ite | intro _ | split | (dsimp only; split)

theorem State.runAdvance_keeps : Keeps [.clusters] s (State.runAdvance s cl) := by
  unfold State.runAdvance
  with_reducible repeat' first
    | exact Keeps.rfl | (apply Keeps.into startSlot_keeps; decide) | apply Keeps.ite | intro _ | split
    | (dsimp only; split)

theorem State.advance_keeps : Keeps [.clusters] s (State.advance s cl) := by
  unfold State.advance
  with_reducible repeat' first
    | exact Keeps.rfl | (apply Keeps.into runAdvance_keeps; decide) | (apply Keeps.into modCluster_keeps; decide)
    | apply Keeps.ite | intro _ | split | (dsimp only; split)

theorem State.heldAdvance_keeps : Keeps [.clusters] s (State.heldAdvance s cl) := by
  unfold State.heldAdvance
  with_reducible repeat' first
    | exact Keeps.rfl | (apply Keeps.into runAdvance_keeps; decide) | (apply Keeps.into modCluster_keeps; decide)
    | apply Keeps.ite | intro _ | split | (dsimp only; split)

theorem State.freeSpare_keeps : Keeps [.clusters] s (State.freeSpare s cl) := by
  unfold State.freeSpare
  with_reducible repeat' first
    | exact Keeps.rfl | (apply Keeps.into heldAdvance_keeps; decide) | (apply Keeps.into claim_keeps; decide)
    | (apply Keeps.into modCluster_keeps; decide) | apply Keeps.ite | intro _ | split | (dsimp only; split)

theorem State.spareBack_keeps : Keeps [.clusters] s (State.spareBack s cl k) := by
  unfold State.spareBack
  with_reducible repeat' first
    | exact Keeps.rfl | (apply Keeps.into freeSpare_keeps; decide) | (apply Keeps.into modCore_keeps; decide)
    | (apply Keeps.into modCluster_keeps; decide) | apply Keeps.ite | intro _ | split | (dsimp only; split)

theorem State.spareDone_keeps : Keeps [.chans, .wear, .clusters] s (State.spareDone s cl k) := by
  unfold State.spareDone
  with_reducible repeat' first
    | exact Keeps.rfl | (apply Keeps.into spareBack_keeps; decide) | (apply Keeps.into leave_keeps; decide)
    | apply Keeps.ite | intro _ | split | (dsimp only; split)

theorem State.noteDrift_keeps : Keeps [.clusters] s (State.noteDrift s cl k) := by
  unfold State.noteDrift
  with_reducible repeat' first
    | exact Keeps.rfl | (apply Keeps.into modCluster_keeps; decide) | apply Keeps.ite | intro _ | split
    | (dsimp only; split)

theorem State.applyCal_keeps : Keeps [.clusters] s (State.applyCal s cl k) := by
  unfold State.applyCal
  with_reducible repeat' first
    | exact Keeps.rfl | (apply Keeps.into noteDrift_keeps; decide) | (apply Keeps.into modCluster_keeps; decide)
    | apply Keeps.ite | intro _ | split | (dsimp only; split)

theorem State.endSlot_keeps : Keeps [.clusters] s (State.endSlot s cl x) := by
  unfold State.endSlot
  with_reducible repeat' first
    | exact Keeps.rfl | (apply Keeps.into freeSpare_keeps; decide) | (apply Keeps.into modCore_keeps; decide)
    | (apply Keeps.into modCluster_keeps; decide) | apply Keeps.ite | intro _ | split | (dsimp only; split)

theorem effectRotationAdvance_keeps : Keeps [.clusters] s (effectRotationAdvance cl s) := by
  unfold effectRotationAdvance
  with_reducible repeat' first
    | exact Keeps.rfl | (apply Keeps.into advance_keeps; decide) | (apply Keeps.into modCluster_keeps; decide)
    | apply Keeps.ite | intro _ | split | (dsimp only; split)

theorem effectSpareClaim_keeps {claims : List (Nat × ClaimRank)} :
    Keeps [.clusters] s (effectSpareClaim cl claims s) := by
  unfold effectSpareClaim
  with_reducible repeat' first
    | exact Keeps.rfl | (apply Keeps.into advance_keeps; decide) | (apply Keeps.into claim_keeps; decide)
    | apply Keeps.each | apply Keeps.ite | intro _ | split | (dsimp only; split)

theorem effectSpareCopyDone_keeps : Keeps [.clusters] s (effectSpareCopyDone cl s) := by
  unfold effectSpareCopyDone
  with_reducible repeat' first
    | exact Keeps.rfl | (apply Keeps.into modCore_keeps; decide) | (apply Keeps.into modCluster_keeps; decide)
    | apply Keeps.ite | intro _ | split | (dsimp only; split)

theorem effectMirrorDone_keeps : Keeps [.clusters] s (effectMirrorDone cl s) := by
  unfold effectMirrorDone
  with_reducible repeat' first
    | exact Keeps.rfl | (apply Keeps.into modCore_keeps; decide) | (apply Keeps.into modCluster_keeps; decide)
    | apply Keeps.ite | intro _ | split | (dsimp only; split)

theorem State.handBack_keeps : Keeps [.chans, .wear, .clusters] s (State.handBack s cl x) := by
  unfold State.handBack
  with_reducible repeat' first
    | exact Keeps.rfl | (apply Keeps.into endSlot_keeps; decide) | (apply Keeps.into applyCal_keeps; decide)
    | (apply Keeps.into leave_keeps; decide) | (apply Keeps.into movePos_keeps; decide)
    | (apply Keeps.into modCore_keeps; decide) | apply Keeps.ite | intro _ | split | (dsimp only; split)

theorem State.displace_keeps {x : Nat × ClaimRank} : Keeps [.chans, .wear, .clusters] s (State.displace s cl x) := by
  unfold State.displace
  with_reducible repeat' first
    | exact Keeps.rfl | (apply Keeps.into leave_keeps; decide) | (apply Keeps.into claimWear_keeps; decide)
    | (apply Keeps.into dropSlot_keeps; decide) | (apply Keeps.into movePos_keeps; decide)
    | (apply Keeps.into modCore_keeps; decide) | (apply Keeps.into modCluster_keeps; decide) | apply Keeps.ite
    | intro _ | split | (dsimp only; split)

theorem State.slotOut_keeps : Keeps [.wear, .clusters] s (State.slotOut s cl p x) := by
  unfold State.slotOut
  with_reducible repeat' first
    | exact Keeps.rfl | (apply Keeps.into movePos_keeps; decide) | (apply Keeps.into modCore_keeps; decide)
    | (apply Keeps.into wears_keeps; decide) | (apply Keeps.into modCluster_keeps; decide) | apply Keeps.ite
    | intro _ | split | (dsimp only; split)

theorem State.recovBack_keeps : Keeps [.chans, .wear, .clusters] s (State.recovBack s cl k p) := by
  unfold State.recovBack
  with_reducible repeat' first
    | exact Keeps.rfl | (apply Keeps.into spareDone_keeps; decide) | (apply Keeps.into movePos_keeps; decide)
    | (apply Keeps.into modCore_keeps; decide) | (apply Keeps.into modCluster_keeps; decide) | apply Keeps.ite
    | intro _ | split | (dsimp only; split)

theorem State.takeOver_keeps : Keeps [.chans, .wear, .clusters] s (State.takeOver s cl k p) := by
  unfold State.takeOver
  with_reducible repeat' first
    | exact Keeps.rfl | (apply Keeps.into leave_keeps; decide) | (apply Keeps.into movePos_keeps; decide)
    | (apply Keeps.into modCore_keeps; decide) | (apply Keeps.into wears_keeps; decide) | apply Keeps.ite | intro _
    | split | (dsimp only; split)

theorem effectHandover_keeps : Keeps [.chans, .wear, .clusters] s (effectHandover cl s) := by
  unfold effectHandover
  with_reducible repeat' first
    | exact Keeps.rfl | (apply Keeps.into takeOver_keeps; decide) | (apply Keeps.into recovBack_keeps; decide)
    | (apply Keeps.into slotOut_keeps; decide) | (apply Keeps.into displace_keeps; decide)
    | (apply Keeps.into handBack_keeps; decide) | apply Keeps.ite | intro _ | split | (dsimp only; split)

theorem State.slotBack_keeps : Keeps [.clusters] s (State.slotBack s cl x) := by
  unfold State.slotBack
  with_reducible repeat' first
    | exact Keeps.rfl | (apply Keeps.into endSlot_keeps; decide) | (apply Keeps.into applyCal_keeps; decide)
    | (apply Keeps.into modCore_keeps; decide) | (apply Keeps.into modCluster_keeps; decide) | apply Keeps.ite
    | intro _ | split | (dsimp only; split)

theorem State.loseSlot_keeps : Keeps [.chans, .clusters] s (State.loseSlot s cl x) := by
  unfold State.loseSlot
  with_reducible repeat' first
    | exact Keeps.rfl | (apply Keeps.into freeSpare_keeps; decide) | (apply Keeps.into retireCore_keeps; decide)
    | (apply Keeps.into modCore_keeps; decide) | (apply Keeps.into modCluster_keeps; decide) | apply Keeps.ite
    | intro _ | split | (dsimp only; split)

theorem effectCalibrationDone_keeps {vals : CalValues} :
    Keeps [.chans, .wear, .clusters] s (effectCalibrationDone cl k vals s) := by
  unfold effectCalibrationDone
  with_reducible repeat' first
    | exact Keeps.rfl | (apply Keeps.into loseSlot_keeps; decide) | (apply Keeps.into slotBack_keeps; decide)
    | (apply Keeps.into mend_keeps; decide) | (apply Keeps.into ringEvent_keeps; decide)
    | (apply Keeps.into modCore_keeps; decide) | (apply Keeps.into modCluster_keeps; decide) | apply Keeps.ite
    | intro _ | split | (dsimp only; split)

theorem effectCalStarved_keeps : Keeps [.chans, .clusters] s (effectCalStarved cl s) := by
  unfold effectCalStarved
  with_reducible repeat' first
    | exact Keeps.rfl | (apply Keeps.into slotBack_keeps; decide) | (apply Keeps.into ringEvent_keeps; decide)
    | (apply Keeps.into modCore_keeps; decide) | (apply Keeps.into modCluster_keeps; decide) | apply Keeps.ite
    | intro _ | split | (dsimp only; split)

theorem State.calFaults_keeps : Keeps [.chans, .wear, .clusters] s (State.calFaults s cl n k) := by
  unfold State.calFaults
  with_reducible repeat' first
    | exact Keeps.rfl | (apply Keeps.into mend_keeps; decide) | (apply Keeps.into retireCore_keeps; decide)
    | (apply Keeps.into claimWear_keeps; decide) | (apply Keeps.into ringEvent_keeps; decide)
    | (apply Keeps.into movePos_keeps; decide) | (apply Keeps.into modCore_keeps; decide)
    | (apply Keeps.into wears_keeps; decide) | apply Keeps.ite | intro _ | split | (dsimp only; split)

theorem State.warmUp_keeps : Keeps [.free, .chans, .wear, .clusters] s (State.warmUp s cl w) := by
  unfold State.warmUp
  with_reducible repeat' first
    | exact Keeps.rfl | (apply Keeps.into calFaults_keeps; decide) | (apply Keeps.into modCore_keeps; decide)
    | (apply Keeps.into wears_keeps; decide) | (apply Keeps.into draw_keeps; decide) | apply Keeps.ite | intro _
    | split | (dsimp only; split)

theorem State.useWear_keeps : Keeps [.chans, .wear, .clusters] s (State.useWear s cl w) := by
  unfold State.useWear
  with_reducible repeat' first
    | exact Keeps.rfl | (apply Keeps.into freeSpare_keeps; decide) | (apply Keeps.into leave_keeps; decide)
    | (apply Keeps.into dropSlot_keeps; decide) | (apply Keeps.into movePos_keeps; decide)
    | (apply Keeps.into modCore_keeps; decide) | (apply Keeps.into modCluster_keeps; decide) | apply Keeps.ite
    | intro _ | split | (dsimp only; split)

theorem effectWearSpareReady_keeps : Keeps [.free, .chans, .wear, .clusters] s (effectWearSpareReady cl s) := by
  unfold effectWearSpareReady
  with_reducible repeat' first
    | exact Keeps.rfl | (apply Keeps.into useWear_keeps; decide) | (apply Keeps.into warmUp_keeps; decide)
    | (apply Keeps.into modCluster_keeps; decide) | apply Keeps.ite | intro _ | split | (dsimp only; split)

theorem State.strike_keeps {cause : LeaveCause} : Keeps [.clusters] s (State.strike s cl k cause) := by
  unfold State.strike
  with_reducible repeat' first
    | exact Keeps.rfl | (apply Keeps.into modCore_keeps; decide) | (apply Keeps.into modCluster_keeps; decide)
    | apply Keeps.ite | intro _ | split | (dsimp only; split)

theorem State.spareLost_keeps : Keeps [.clusters] s (State.spareLost s cl k) := by
  unfold State.spareLost
  with_reducible repeat' first
    | exact Keeps.rfl | (apply Keeps.into yieldClaim_keeps; decide) | (apply Keeps.into modCluster_keeps; decide)
    | apply Keeps.ite | intro _ | split | (dsimp only; split)

theorem State.mislocked_keeps {xs : List (Nat × ℤ)} : Keeps [.chans, .clusters] s (State.mislocked s cl k xs) := by
  unfold State.mislocked
  with_reducible repeat' first
    | exact Keeps.rfl | (apply Keeps.into spareLost_keeps; decide) | (apply Keeps.into strike_keeps; decide)
    | (apply Keeps.into raiseMislock_keeps; decide) | (apply Keeps.into moveMislocked_keeps; decide)
    | (apply Keeps.into modCore_keeps; decide) | (apply Keeps.into modCluster_keeps; decide) | apply Keeps.ite
    | intro _ | split | (dsimp only; split)

theorem State.checked_keeps {xs : List (Nat × ℤ)} : Keeps [.chans, .clusters] s (State.checked s cl k xs) := by
  unfold State.checked
  with_reducible repeat' first
    | exact Keeps.rfl | (apply Keeps.into mislocked_keeps; decide) | (apply Keeps.into modCore_keeps; decide)
    | apply Keeps.ite | intro _ | split | (dsimp only; split)

theorem State.recovered_keeps : Keeps [.clusters] s (State.recovered s cl k) := by
  unfold State.recovered
  with_reducible repeat' first
    | exact Keeps.rfl | (apply Keeps.into spareBack_keeps; decide) | (apply Keeps.into modCluster_keeps; decide)
    | apply Keeps.ite | intro _ | split | (dsimp only; split)

theorem State.recoveryFailed_keeps {wrong : List (Nat × ℤ)} :
    Keeps [.chans, .clusters] s (State.recoveryFailed s cl k wrong) := by
  unfold State.recoveryFailed
  with_reducible repeat' first
    | exact Keeps.rfl | (apply Keeps.into checked_keeps; decide) | (apply Keeps.into retireCore_keeps; decide)
    | (apply Keeps.into modCore_keeps; decide) | (apply Keeps.into modCluster_keeps; decide) | apply Keeps.ite
    | intro _ | split | (dsimp only; split)

theorem State.verified_keeps : Keeps [.chans, .clusters] s (State.verified s cl k) := by
  unfold State.verified
  with_reducible repeat' first
    | exact Keeps.rfl | (apply Keeps.into checked_keeps; decide) | (apply Keeps.into modCore_keeps; decide)
    | apply Keeps.ite | intro _ | split | (dsimp only; split)

theorem State.probeSlot_keeps {seen : List (Nat × Nat)} : Keeps [.chans, .clusters] s (State.probeSlot s cl k x seen) := by
  unfold State.probeSlot
  with_reducible repeat' first
    | exact Keeps.rfl | (apply Keeps.into verified_keeps; decide) | (apply Keeps.into checked_keeps; decide)
    | (apply Keeps.into loseSlot_keeps; decide) | (apply Keeps.into modCore_keeps; decide)
    | (apply Keeps.into modCluster_keeps; decide) | apply Keeps.ite | intro _ | split | (dsimp only; split)

theorem effectProbePacket_keeps {seen : List (Nat × Nat)} :
    Keeps [.chans, .clusters] s (effectProbePacket cl f k seen s) := by
  unfold effectProbePacket
  with_reducible repeat' first
    | exact Keeps.rfl | (apply Keeps.into probeSlot_keeps; decide) | (apply Keeps.into verified_keeps; decide)
    | (apply Keeps.into recoveryFailed_keeps; decide) | (apply Keeps.into recovered_keeps; decide)
    | (apply Keeps.into checked_keeps; decide) | (apply Keeps.into modCore_keeps; decide)
    | (apply Keeps.into modCluster_keeps; decide) | apply Keeps.ite | intro _ | split | (dsimp only; split)

theorem effectEngineSpared_keeps {row : Nat} : Keeps [.chans, .wear, .clusters] s (effectEngineSpared cl k row s) := by
  unfold effectEngineSpared
  with_reducible repeat' first
    | exact Keeps.rfl | (apply Keeps.into spareLost_keeps; decide) | (apply Keeps.into strike_keeps; decide)
    | (apply Keeps.into loseSlot_keeps; decide) | (apply Keeps.into mend_keeps; decide)
    | (apply Keeps.into retireCore_keeps; decide) | (apply Keeps.into ringEvent_keeps; decide)
    | (apply Keeps.into modCore_keeps; decide) | (apply Keeps.into modCluster_keeps; decide) | apply Keeps.ite
    | intro _ | split | (dsimp only; split)

theorem State.abortUsing_keeps {cause : Nat} : Keeps [.fw] s (State.abortUsing s cl cause) := by
  unfold State.abortUsing
  with_reducible repeat' first
    | exact Keeps.rfl | (apply Keeps.into markAbort_keeps; decide) | apply Keeps.each | apply Keeps.ite | intro _
    | split | (dsimp only; split)

theorem State.heldOut_keeps : Keeps [.clusters] s (State.heldOut s cl k) := by
  unfold State.heldOut
  with_reducible repeat' first
    | exact Keeps.rfl | (apply Keeps.into spareLost_keeps; decide) | (apply Keeps.into strike_keeps; decide)
    | (apply Keeps.into freeSpare_keeps; decide) | (apply Keeps.into modCore_keeps; decide)
    | (apply Keeps.into modCluster_keeps; decide) | apply Keeps.ite | intro _ | split | (dsimp only; split)

theorem State.thermalOut_keeps : Keeps [.fw, .chans, .clusters] s (State.thermalOut s cl k r) := by
  unfold State.thermalOut
  with_reducible repeat' first
    | exact Keeps.rfl | (apply Keeps.into heldOut_keeps; decide) | (apply Keeps.into abortUsing_keeps; decide)
    | (apply Keeps.into ringEvent_keeps; decide) | (apply Keeps.into modCluster_keeps; decide) | apply Keeps.ite
    | intro _ | split | (dsimp only; split)

theorem State.beginRestart_keeps : Keeps [.free, .clusters] s (State.beginRestart s cl) := by
  unfold State.beginRestart
  with_reducible repeat' first
    | exact Keeps.rfl | (apply Keeps.into modCluster_keeps; decide) | (apply Keeps.into draw_keeps; decide)
    | apply Keeps.ite | intro _ | split | (dsimp only; split)

theorem effectClusterReturn_keeps : Keeps [.free, .fw, .clusters] s (effectClusterReturn cl s) := by
  unfold effectClusterReturn
  with_reducible repeat' first
    | exact Keeps.rfl | (apply Keeps.into beginRestart_keeps; decide) | (apply Keeps.into abortUsing_keeps; decide)
    | apply Keeps.ite | intro _ | split | (dsimp only; split)

theorem State.relock_keeps : Keeps [.free, .chans, .wear, .clusters] s (State.relock s cl) := by
  unfold State.relock
  with_reducible repeat' first
    | exact Keeps.rfl | (apply Keeps.into calFaults_keeps; decide) | (apply Keeps.into noteDrift_keeps; decide)
    | (apply Keeps.into settleProfile_keeps; decide) | apply Keeps.each | (apply Keeps.into setCluster_keeps; decide)
    | (apply Keeps.into draw_keeps; decide) | apply Keeps.ite | intro _ | split | (dsimp only; split)

theorem effectClusterRestartEnd_keeps : Keeps [.free, .chans, .wear, .clusters] s (effectClusterRestartEnd cl s) := by
  unfold effectClusterRestartEnd
  with_reducible repeat' first
    | exact Keeps.rfl | (apply Keeps.into relock_keeps; decide) | apply Keeps.ite | intro _ | split
    | (dsimp only; split)

theorem State.innerRing_keeps {err : ℤ} : Keeps [.free, .chans, .clusters] s (State.innerRing s cl k r err) := by
  unfold State.innerRing
  with_reducible repeat' first
    | exact Keeps.rfl | (apply Keeps.into ringEvent_keeps; decide) | (apply Keeps.into toSignal_keeps; decide)
    | (apply Keeps.into modCore_keeps; decide) | (apply Keeps.into modCluster_keeps; decide) | apply Keeps.ite
    | intro _ | split | (dsimp only; split)

theorem effectInnerUpdate_keeps {samples : List (List Nat)} :
    Keeps [.free, .fw, .chans, .clusters] s (effectInnerUpdate cl k samples s) := by
  unfold effectInnerUpdate
  with_reducible repeat' first
    | exact Keeps.rfl | (apply Keeps.into innerRing_keeps; decide) | (apply Keeps.into thermalOut_keeps; decide)
    | (apply Keeps.into checked_keeps; decide) | apply Keeps.each | (apply Keeps.into modCore_keeps; decide)
    | apply Keeps.ite | intro _ | split | (dsimp only; split)

theorem effectOuterUpdate_keeps : Keeps [.free, .chans, .clusters] s (effectOuterUpdate cl s) := by
  unfold effectOuterUpdate
  with_reducible repeat' first
    | exact Keeps.rfl | (apply Keeps.into checked_keeps; decide) | apply Keeps.each
    | (apply Keeps.into modCluster_keeps; decide) | (apply Keeps.into draw_keeps; decide) | apply Keeps.ite | intro _
    | split | (dsimp only; split)

theorem State.closeQuiet_keeps : Keeps [.clusters] s (State.closeQuiet s cl e) := by
  unfold State.closeQuiet
  with_reducible repeat' first
    | exact Keeps.rfl | (apply Keeps.into heldAdvance_keeps; decide) | (apply Keeps.into modCluster_keeps; decide)
    | apply Keeps.ite | intro _ | split | (dsimp only; split)

theorem effectFeedforwardUpdate_keeps {sensors : List ℤ} :
    Keeps [.chans, .clusters] s (effectFeedforwardUpdate cl sensors s) := by
  unfold effectFeedforwardUpdate
  with_reducible repeat' first
    | exact Keeps.rfl | (apply Keeps.into closeQuiet_keeps; decide) | (apply Keeps.into raise_keeps; decide)
    | apply Keeps.each | (apply Keeps.into modCore_keeps; decide) | (apply Keeps.into modCluster_keeps; decide)
    | apply Keeps.ite | intro _ | split | (dsimp only; split)

theorem State.openQuiet1_keeps {tens : Nat} : Keeps [.chans, .clusters] s (State.openQuiet1 tens s cl) := by
  unfold State.openQuiet1
  with_reducible repeat' first
    | exact Keeps.rfl | (apply Keeps.into raise_keeps; decide) | (apply Keeps.into modCluster_keeps; decide)
    | apply Keeps.ite | intro _ | split | (dsimp only; split)

theorem State.openQuiet_keeps {tens : Nat} : Keeps [.chans, .clusters] s (State.openQuiet s cls tens) := by
  unfold State.openQuiet
  with_reducible repeat' first
    | exact Keeps.rfl | (apply Keeps.into openQuiet1_keeps; decide) | apply Keeps.each | apply Keeps.ite | intro _
    | split | (dsimp only; split)

theorem effectQuietWindowOpen_keeps {tens : Nat} : Keeps [.chans, .clusters] s (effectQuietWindowOpen cls tens s) := by
  unfold effectQuietWindowOpen
  with_reducible repeat' first
    | exact Keeps.rfl | (apply Keeps.into openQuiet_keeps; decide) | apply Keeps.ite | intro _ | split
    | (dsimp only; split)

theorem effectQuietClose_keeps : Keeps [.clusters] s (effectQuietClose cl s) := by
  unfold effectQuietClose
  with_reducible repeat' first
    | exact Keeps.rfl | (apply Keeps.into closeQuiet_keeps; decide) | apply Keeps.ite | intro _ | split
    | (dsimp only; split)

theorem State.shiftLines_keeps {j : Nat} : Keeps [.clusters] s (State.shiftLines s cl j) := by
  unfold State.shiftLines
  with_reducible repeat' first
    | exact Keeps.rfl | (apply Keeps.into moveRing_keeps; decide) | apply Keeps.each | apply Keeps.ite | intro _
    | split | (dsimp only; split)

theorem effectLineRemapped_keeps {line : Nat} :
    Keeps [.free, .fw, .chans, .wear, .clusters] s (effectLineRemapped cl line s) := by
  unfold effectLineRemapped
  with_reducible repeat' first
    | exact Keeps.rfl | (apply Keeps.into shiftLines_keeps; decide) | (apply Keeps.into beginRestart_keeps; decide)
    | (apply Keeps.into abortUsing_keeps; decide) | (apply Keeps.into ringEvent_keeps; decide)
    | (apply Keeps.into wears_keeps; decide) | (apply Keeps.into modCluster_keeps; decide) | apply Keeps.ite
    | intro _ | split | (dsimp only; split)

theorem effectCombWorn_keeps {ratio : Nat} : Keeps [.chans, .clusters] s (effectCombWorn cl ratio s) := by
  unfold effectCombWorn
  with_reducible repeat' first
    | exact Keeps.rfl | (apply Keeps.into ringEvent_keeps; decide) | (apply Keeps.into modCluster_keeps; decide)
    | apply Keeps.ite | intro _ | split | (dsimp only; split)

theorem effectWornCombSwitch_keeps : Keeps [.free, .wear, .clusters] s (effectWornCombSwitch cl s) := by
  unfold effectWornCombSwitch
  with_reducible repeat' first
    | exact Keeps.rfl | (apply Keeps.into beginRestart_keeps; decide) | (apply Keeps.into wears_keeps; decide)
    | (apply Keeps.into modCluster_keeps; decide) | apply Keeps.ite | intro _ | split | (dsimp only; split)

theorem State.tickOutputs_keeps {keep : Nat → Bool} : Keeps [.fouts] s (State.tickOutputs s keep c) := by
  unfold State.tickOutputs
  with_reducible repeat' first
    | exact Keeps.rfl | apply Keeps.each | (apply Keeps.into modFout_keeps; decide) | apply Keeps.ite | intro _
    | split | (dsimp only; split)

theorem State.sampleClock_keeps {u0 : Nat} {u1 : Nat} {m : Nat} :
    Keeps [.convs, .ang, .fouts] s (State.sampleClock s u0 u1 m) := by
  unfold State.sampleClock
  with_reducible repeat' first
    | exact Keeps.rfl | (apply Keeps.into tickOutputs_keeps; decide) | (apply Keeps.into triggerConvs_keeps; decide)
    | apply Keeps.ite | intro _ | split | (dsimp only; split) | (apply Keeps.ang; decide)

theorem State.schedStart_keeps : Keeps [.fw, .chans, .streams, .progs] s (State.schedStart s img) := by
  unfold State.schedStart
  with_reducible repeat' first
    | exact Keeps.rfl | (apply Keeps.into startStep_keeps; decide) | (apply Keeps.into dropStart_keeps; decide)
    | (apply Keeps.into modChan_keeps; decide) | apply Keeps.ite | intro _ | split | (dsimp only; split)

theorem State.schedAction_keeps {act : Word} :
    Keeps [.fw, .chans, .clusters, .streams, .progs, .convs, .fouts] s (State.schedAction s e act) := by
  unfold State.schedAction
  with_reducible repeat' first
    | exact Keeps.rfl | (apply Keeps.into schedStart_keeps; decide) | (apply Keeps.into tickOutputs_keeps; decide)
    | (apply Keeps.into openQuiet_keeps; decide) | (apply Keeps.into advance_keeps; decide)
    | (apply Keeps.into triggerConvs_keeps; decide) | (apply Keeps.into raise_keeps; decide) | apply Keeps.each
    | apply Keeps.ite | intro _ | split | (dsimp only; split)

theorem State.schedCheck_keeps : Keeps [.ang] s (State.schedCheck s) := by
  unfold State.schedCheck
  with_reducible repeat' first
    | exact Keeps.rfl | apply Keeps.ite | intro _ | split | (dsimp only; split) | (apply Keeps.ang; decide)

theorem State.nextGroups_keeps : Keeps [.fw] s (State.nextGroups s) := by
  unfold State.nextGroups
  with_reducible repeat' first
    | exact Keeps.rfl | apply Keeps.ite | intro _ | split | (dsimp only; split) | (apply Keeps.fw; decide)

theorem effectAngleUpdate_keeps :
    Keeps [.free, .fw, .chans, .clusters, .streams, .progs, .convs, .ang, .fouts] s (effectAngleUpdate s) := by
  unfold effectAngleUpdate
  with_reducible repeat' first
    | exact Keeps.rfl | (apply Keeps.into nextGroups_keeps; decide) | (apply Keeps.into schedAction_keeps; decide)
    | (apply Keeps.into sampleClock_keeps; decide) | apply Keeps.each | (apply Keeps.into draw_keeps; decide)
    | apply Keeps.ite | intro _ | split | (dsimp only; split) | (apply Keeps.progs; decide)
    | (apply Keeps.ang; decide)

theorem State.loseSource_keeps : Keeps [.chans, .ang] s (State.loseSource s) := by
  unfold State.loseSource
  with_reducible repeat' first
    | exact Keeps.rfl | (apply Keeps.into raise_keeps; decide) | apply Keeps.ite | intro _ | split
    | (dsimp only; split) | (apply Keeps.ang; decide)

theorem effectThreePhaseLoss_keeps : Keeps [.chans, .ang] s (effectThreePhaseLoss s) := by
  unfold effectThreePhaseLoss
  with_reducible repeat' first
    | exact Keeps.rfl | (apply Keeps.into loseSource_keeps; decide) | apply Keeps.ite | intro _ | split
    | (dsimp only; split)

theorem effectEncoderLoss_keeps : Keeps [.chans, .ang] s (effectEncoderLoss s) := by
  unfold effectEncoderLoss
  with_reducible repeat' first
    | exact Keeps.rfl | (apply Keeps.into loseSource_keeps; decide) | apply Keeps.ite | intro _ | split
    | (dsimp only; split)

theorem effectPpcLoss_keeps : Keeps [.chans, .ang] s (effectPpcLoss s) := by
  unfold effectPpcLoss
  with_reducible repeat' first
    | exact Keeps.rfl | (apply Keeps.into loseSource_keeps; decide) | apply Keeps.ite | intro _ | split
    | (dsimp only; split)

theorem effectSourceReacquired_keeps : Keeps [.free, .ang] s (effectSourceReacquired c d s) := by
  unfold effectSourceReacquired
  with_reducible repeat' first
    | exact Keeps.rfl | (apply Keeps.into draw_keeps; decide) | apply Keeps.ite | intro _ | split
    | (dsimp only; split) | (apply Keeps.ang; decide)

theorem effectEncoderEdge_keeps {x : Bool} {y : Bool} {z : Bool} :
    Keeps [.chans, .ang] s (effectEncoderEdge x y z s) := by
  unfold effectEncoderEdge
  with_reducible repeat' first
    | exact Keeps.rfl | (apply Keeps.into loseSource_keeps; decide) | apply Keeps.ite | intro _ | split
    | (dsimp only; split) | (apply Keeps.ang; decide)

theorem effectPpcEdge_keeps {falling : Bool} : Keeps [.chans, .ang] s (effectPpcEdge falling s) := by
  unfold effectPpcEdge
  with_reducible repeat' first
    | exact Keeps.rfl | (apply Keeps.into loseSource_keeps; decide) | apply Keeps.ite | intro _ | split
    | (dsimp only; split) | (apply Keeps.ang; decide)

theorem effectPpsEdge_keeps : Keeps [.free, .ang] s (effectPpsEdge s) := by
  unfold effectPpsEdge
  with_reducible repeat' first
    | exact Keeps.rfl | (apply Keeps.into draw_keeps; decide) | apply Keeps.ite | intro _ | split
    | (dsimp only; split) | (apply Keeps.ang; decide)

theorem effectAngTodSecWrite_keeps : Keeps [.ang] s (effectAngTodSecWrite fn v s) := by
  unfold effectAngTodSecWrite
  with_reducible repeat' first
    | exact Keeps.rfl | (apply Keeps.angWrite; decide) | apply Keeps.ite | intro _ | split | (dsimp only; split)
    | (apply Keeps.ang; decide)

theorem effectAngOffsetWrite_keeps : Keeps [.ang] s (effectAngOffsetWrite fn v s) := by
  unfold effectAngOffsetWrite
  with_reducible repeat' first
    | exact Keeps.rfl | (apply Keeps.angWrite; decide) | apply Keeps.ite | intro _ | split | (dsimp only; split)
    | (apply Keeps.ang; decide)

theorem effectAngSourceWrite_keeps : Keeps [.free, .convs, .ang] s (effectAngSourceWrite fn v s) := by
  unfold effectAngSourceWrite
  with_reducible repeat' first
    | exact Keeps.rfl | (apply Keeps.angWrite; decide) | (apply Keeps.into modConv_keeps; decide)
    | (apply Keeps.into draw_keeps; decide) | apply Keeps.ite | intro _ | split | (dsimp only; split)
    | (apply Keeps.ang; decide)

theorem effectAngCycLoRead_keeps : Keeps [.readOut, .ang] s (effectAngCycLoRead fn s) := by
  unfold effectAngCycLoRead
  dsimp only
  repeat' apply Keeps.ite
  all_goals intro _
  all_goals first | exact Keeps.rfl | (intro p hp; cases p <;> first | exact Eq.refl _ | exact absurd (by decide) hp)

theorem State.unpromise_keeps : Keeps [.fw] s (State.unpromise s) := by
  unfold State.unpromise
  with_reducible repeat' first
    | exact Keeps.rfl | apply Keeps.ite | intro _ | split | (dsimp only; split) | (apply Keeps.fw; decide)

theorem State.linkLimits_keeps : Keeps [.links] s (State.linkLimits s) := by
  unfold State.linkLimits
  with_reducible repeat' first
    | exact Keeps.rfl | apply Keeps.each | (apply Keeps.into modLink_keeps; decide) | apply Keeps.ite | intro _
    | split | (dsimp only; split)

theorem State.writeStores_keeps {which : UnitId → Bool} : Keeps [.progs] s (State.writeStores s img cls which) := by
  unfold State.writeStores
  with_reducible repeat' first
    | exact Keeps.rfl | apply Keeps.each | (apply Keeps.into setProg_keeps; decide) | apply Keeps.ite | intro _
    | split | (dsimp only; split)

theorem State.finishPlace_keeps : Keeps [.fw, .clusters, .progs] s (State.finishPlace s img) := by
  unfold State.finishPlace
  with_reducible repeat' first
    | exact Keeps.rfl | (apply Keeps.into writeStores_keeps; decide) | apply Keeps.each
    | (apply Keeps.into modImage_keeps; decide) | (apply Keeps.into modCluster_keeps; decide) | apply Keeps.ite
    | intro _ | split | (dsimp only; split)

theorem State.unlistCores_keeps {us : List UnitId} : Keeps [.clusters] s (State.unlistCores s us) := by
  unfold State.unlistCores
  with_reducible repeat' first
    | exact Keeps.rfl | apply Keeps.each | (apply Keeps.into modCore_keeps; decide) | apply Keeps.ite | intro _
    | split | (dsimp only; split)

theorem State.placeJob_keeps {noProbes : Bool} :
    Keeps [.fw, .descs, .clusters, .streams, .pools, .progs, .links] s (State.placeJob s img cls noProbes) := by
  unfold State.placeJob
  with_reducible repeat' first
    | exact Keeps.rfl | (apply Keeps.into unlistCores_keeps; decide) | (apply Keeps.into finishPlace_keeps; decide)
    | (apply Keeps.into writeStores_keeps; decide) | (apply Keeps.into linkLimits_keeps; decide)
    | (apply Keeps.into freeLanding_keeps; decide) | apply Keeps.each | (apply Keeps.into modImage_keeps; decide)
    | (apply Keeps.into modDesc_keeps; decide) | (apply Keeps.into modPool_keeps; decide)
    | (apply Keeps.into modStream_keeps; decide) | (apply Keeps.into modCluster_keeps; decide) | apply Keeps.ite
    | intro _ | split | (dsimp only; split)

theorem State.unplace_keeps :
    Keeps [.fw, .descs, .clusters, .streams, .pools, .progs, .links] s (State.unplace s img) := by
  unfold State.unplace
  with_reducible repeat' first
    | exact Keeps.rfl | (apply Keeps.into unlistCores_keeps; decide) | (apply Keeps.into linkLimits_keeps; decide)
    | (apply Keeps.into freeLanding_keeps; decide) | (apply Keeps.into settleProfile_keeps; decide)
    | apply Keeps.each | (apply Keeps.into setProg_keeps; decide) | (apply Keeps.into modImage_keeps; decide)
    | (apply Keeps.into modDesc_keeps; decide) | (apply Keeps.into modPool_keeps; decide)
    | (apply Keeps.into modStream_keeps; decide) | (apply Keeps.into modCluster_keeps; decide) | apply Keeps.ite
    | intro _ | split | (dsimp only; split)

theorem State.removeJob_keeps :
    Keeps [.fw, .chans, .descs, .clusters, .streams, .pools, .progs, .links] s (State.removeJob s img) := by
  unfold State.removeJob
  with_reducible repeat' first
    | exact Keeps.rfl | (apply Keeps.into unplace_keeps; decide) | (apply Keeps.into abortStep_keeps; decide)
    | apply Keeps.ite | intro _ | split | (dsimp only; split)

theorem State.resetD1_keeps :
    Keeps [.aon, .fw, .chans, .locks, .hbmStacks, .descs, .clusters, .streams, .pools, .progs, .loops, .prfs,
      .loopEng, .convs, .incfg, .incfgAt, .ang, .sched, .fouts, .links, .linkMod]
      s (State.resetD1 s) := by
  unfold State.resetD1
  extract_lets f a b c r l k z
  have g : Keeps [.aon, .fw, .chans, .locks, .hbmStacks, .descs, .clusters, .streams, .pools, .progs, .loops, .prfs,
      .loopEng, .convs, .incfg, .incfgAt, .ang, .sched, .fouts, .links, .linkMod] s c := by
    refine Keeps.each (fun _ _ => ?_) (Keeps.each (fun _ _ => ?_) (Keeps.fw (by decide) Keeps.rfl))
    · exact Keeps.into modFout_keeps (by decide) Keeps.rfl
    · exact Keeps.into unplace_keeps (by decide) (Keeps.into abortStep_keeps (by decide) Keeps.rfl)
  clear_value r l k z c
  refine Keeps.into refreshIdle_keeps (by decide) (Keeps.into (x := c) (M := [.aon, .fw, .chans, .locks, .streams,
    .pools, .progs, .hbmStacks, .links, .clusters, .linkMod, .loops, .prfs, .loopEng, .convs, .incfg, .incfgAt, .ang,
    .sched]) ?_ (by decide) g)
  intro p hp; cases p <;> first | exact Eq.refl _ | exact absurd (by decide) hp

theorem State.restoreDescs_keeps : Keeps [.descs] s (State.restoreDescs s) := by
  unfold State.restoreDescs
  with_reducible repeat' first
    | exact Keeps.rfl | apply Keeps.ite | intro _ | split | (dsimp only; split) | (apply Keeps.descs; decide)

theorem State.restoreStores_keeps : Keeps [.progs] s (State.restoreStores s) := by
  unfold State.restoreStores
  with_reducible repeat' first
    | exact Keeps.rfl | (apply Keeps.into writeStores_keeps; decide) | apply Keeps.each | apply Keeps.ite | intro _
    | split | (dsimp only; split)

theorem State.faultOutput_keeps : Keeps [.streams, .fouts] s (State.faultOutput s n) := by
  unfold State.faultOutput
  with_reducible repeat' first
    | exact Keeps.rfl | (apply Keeps.into roomFrees_keeps; decide) | (apply Keeps.into modFout_keeps; decide)
    | apply Keeps.ite | intro _ | split | (dsimp only; split)

theorem State.resetD2_keeps {q : Nat} :
    Keeps [.aon, .fw, .chans, .descs, .sram, .clusters, .streams, .pools, .progs, .fouts] s (State.resetD2 s q) := by
  unfold State.resetD2
  extract_lets a b
  have g : Keeps [.aon, .fw, .chans, .descs, .sram, .clusters, .streams, .pools, .progs, .fouts] s b := by
    refine Keeps.each (fun _ _ => ?_) (Keeps.each (fun _ _ => ?_) Keeps.rfl)
    · exact Keeps.into faultOutput_keeps (by decide) Keeps.rfl
    · exact Keeps.into abortStep_keeps (by decide) Keeps.rfl
  clear_value b
  refine Keeps.into (x := b) (M := [.aon, .clusters, .descs, .sram, .progs]) ?_ (by decide) g
  intro p hp; cases p <;> first | exact Eq.refl _ | exact absurd (by decide) hp

theorem State.resetD3_keeps {q : Nat} :
    Keeps [.aon, .fw, .chans, .hbm, .bad, .descs, .sram, .clusters, .streams, .pools, .progs, .fouts, .links]
      s (State.resetD3 s q) := by
  unfold State.resetD3
  extract_lets a b
  have g : Keeps [.aon, .fw, .chans, .hbm, .bad, .descs, .sram, .clusters, .streams, .pools, .progs, .fouts,
      .links] s b := by
    refine Keeps.into resetD2_keeps (by decide) (Keeps.each (fun _ _ => ?_) Keeps.rfl)
    exact Keeps.into unplace_keeps (by decide) (Keeps.into abortStep_keeps (by decide) Keeps.rfl)
  clear_value b
  refine Keeps.into (x := b) (M := [.aon, .hbm, .bad]) ?_ (by decide) g
  intro p hp; cases p <;> first | exact Eq.refl _ | exact absurd (by decide) hp

theorem State.resetD4_keeps : Keeps [.aon, .chans, .streams, .pools, .progs, .links] s (State.resetD4 s e) := by
  unfold State.resetD4
  with_reducible repeat' first
    | exact Keeps.rfl | (apply Keeps.into passThrough_keeps; decide) | apply Keeps.each
    | (apply Keeps.into modAon_keeps; decide) | apply Keeps.ite | intro _ | split | (dsimp only; split)

theorem State.resetAll_keeps :
    Keeps [.aon, .fw, .chans, .locks, .hbm, .bad, .hbmStacks, .descs, .sram, .clusters, .streams, .pools, .progs,
      .loops, .prfs, .loopEng, .convs, .incfg, .incfgAt, .ang, .sched, .fouts, .links, .linkMod]
      s (State.resetAll s) := by
  unfold State.resetAll
  refine Keeps.ite (fun _ => Keeps.rfl) (fun _ => ?_)
  extract_lets h a b c d
  have g : Keeps [.aon, .fw, .chans, .locks, .hbm, .bad, .hbmStacks, .descs, .sram, .clusters, .streams, .pools,
      .progs, .loops, .prfs, .loopEng, .convs, .incfg, .incfgAt, .ang, .sched, .fouts, .links, .linkMod] s c := by
    refine Keeps.each (fun _ _ => ?_) (Keeps.each (fun _ _ => ?_) (Keeps.each (fun _ _ => ?_) Keeps.rfl))
    · exact Keeps.into resetD4_keeps (by decide) Keeps.rfl
    · exact Keeps.into resetD3_keeps (by decide) Keeps.rfl
    · exact Keeps.into unplace_keeps (by decide) (Keeps.into abortStep_keeps (by decide) Keeps.rfl)
  clear_value c
  have g' : Keeps [.aon, .fw, .chans, .locks, .hbm, .bad, .hbmStacks, .descs, .sram, .clusters, .streams, .pools,
      .progs, .loops, .prfs, .loopEng, .convs, .incfg, .incfgAt, .ang, .sched, .fouts, .links, .linkMod] s d :=
    Keeps.ite (fun _ => g) (fun _ => Keeps.into resetD1_keeps (by decide) g)
  clear_value d
  refine Keeps.into (x := d) (M := [.aon, .linkMod]) ?_ (by decide) g'
  intro p hp; cases p <;> first | exact Eq.refl _ | exact absurd (by decide) hp

theorem State.enterStage_keeps {st : BitVec 3} : Keeps [.aon, .chans] s (State.enterStage s st) := by
  unfold State.enterStage
  with_reducible repeat' first
    | exact Keeps.rfl | (apply Keeps.into raise_keeps; decide) | (apply Keeps.into modAon_keeps; decide)
    | apply Keeps.ite | intro _ | split | (dsimp only; split)

theorem State.releaseD1_keeps : Keeps [.aon, .chans, .ang] s (State.releaseD1 s) := by
  unfold State.releaseD1
  with_reducible repeat' first
    | exact Keeps.rfl | (apply Keeps.into enterStage_keeps; decide) | (apply Keeps.into modAon_keeps; decide)
    | apply Keeps.ite | intro _ | split | (dsimp only; split) | (apply Keeps.ang; decide)

theorem State.tryRelease_keeps : Keeps [.aon, .chans, .ang] s (State.tryRelease s) := by
  unfold State.tryRelease
  with_reducible repeat' first
    | exact Keeps.rfl | (apply Keeps.into releaseD1_keeps; decide) | (apply Keeps.into modAon_keeps; decide)
    | apply Keeps.ite | intro _ | split | (dsimp only; split)

theorem State.retry_keeps :
    Keeps [.aon, .fw, .chans, .locks, .hbm, .bad, .hbmStacks, .descs, .sram, .clusters, .streams, .pools, .progs,
      .loops, .prfs, .loopEng, .convs, .incfg, .incfgAt, .ang, .sched, .fouts, .links, .linkMod]
      s (State.retry s) := by
  unfold State.retry
  with_reducible repeat' first
    | exact Keeps.rfl | (apply Keeps.into tryRelease_keeps; decide) | (apply Keeps.into resetAll_keeps; decide)
    | (apply Keeps.into modAon_keeps; decide) | apply Keeps.ite | intro _ | split | (dsimp only; split)

theorem State.powerUp_keeps {power : Bool} :
    Keeps [.readOut, .snap, .aon, .fw, .chans, .locks, .hbm, .bad, .hbmStacks, .descs, .sram, .clusters, .streams,
      .pools, .progs, .loops, .prfs, .loopEng, .convs, .incfg, .incfgAt, .ang, .sched, .fouts, .foutDenied, .links,
      .linkMod]
      s (State.powerUp s power) := by
  intro p hp; cases p <;> first | exact Eq.refl _ | exact absurd (by decide) hp

theorem effectPowerGood_keeps :
    Keeps [.readOut, .snap, .aon, .fw, .chans, .locks, .hbm, .bad, .hbmStacks, .descs, .sram, .clusters, .streams,
      .pools, .progs, .loops, .prfs, .loopEng, .convs, .incfg, .incfgAt, .ang, .sched, .fouts, .foutDenied, .links,
      .linkMod]
      s (effectPowerGood mv s) := by
  unfold effectPowerGood
  with_reducible repeat' first
    | exact Keeps.rfl | (apply Keeps.into powerUp_keeps; decide) | (apply Keeps.into tryRelease_keeps; decide)
    | apply Keeps.ite | intro _ | split | (dsimp only; split)

theorem effectPowerLoss_keeps :
    Keeps [.readOut, .snap, .aon, .fw, .chans, .locks, .hbm, .bad, .hbmStacks, .descs, .sram, .clusters, .streams,
      .pools, .progs, .loops, .prfs, .loopEng, .convs, .incfg, .incfgAt, .ang, .sched, .fouts, .foutDenied, .links,
      .linkMod]
      s (effectPowerLoss mv s) := by
  unfold effectPowerLoss
  with_reducible repeat' first
    | exact Keeps.rfl | (apply Keeps.into powerUp_keeps; decide) | apply Keeps.ite | intro _ | split
    | (dsimp only; split)

theorem effectSupplyHold_keeps {since : Nat} :
    Keeps [.aon, .fw, .chans, .locks, .hbm, .bad, .hbmStacks, .descs, .sram, .clusters, .streams, .pools, .progs,
      .loops, .prfs, .loopEng, .convs, .incfg, .incfgAt, .ang, .sched, .fouts, .links, .linkMod]
      s (effectSupplyHold mv since s) := by
  unfold effectSupplyHold
  with_reducible repeat' first
    | exact Keeps.rfl | (apply Keeps.into tryRelease_keeps; decide) | (apply Keeps.into resetAll_keeps; decide)
    | (apply Keeps.into modAon_keeps; decide) | apply Keeps.ite | intro _ | split | (dsimp only; split)

theorem effectSupplyHoldRelease_keeps {since : Nat} :
    Keeps [.aon, .chans, .ang] s (effectSupplyHoldRelease mv since s) := by
  unfold effectSupplyHoldRelease
  with_reducible repeat' first
    | exact Keeps.rfl | (apply Keeps.into tryRelease_keeps; decide) | (apply Keeps.into modAon_keeps; decide)
    | apply Keeps.ite | intro _ | split | (dsimp only; split)

theorem effectPerstAssert_keeps :
    Keeps [.aon, .fw, .chans, .locks, .hbm, .bad, .hbmStacks, .descs, .sram, .clusters, .streams, .pools, .progs,
      .loops, .prfs, .loopEng, .convs, .incfg, .incfgAt, .ang, .sched, .fouts, .links, .linkMod]
      s (effectPerstAssert s) := by
  unfold effectPerstAssert
  with_reducible repeat' first
    | exact Keeps.rfl | (apply Keeps.into tryRelease_keeps; decide) | (apply Keeps.into resetAll_keeps; decide)
    | (apply Keeps.into modAon_keeps; decide) | apply Keeps.ite | intro _ | split | (dsimp only; split)

theorem effectPerstDeassert_keeps : Keeps [.aon, .chans, .ang] s (effectPerstDeassert s) := by
  unfold effectPerstDeassert
  with_reducible repeat' first
    | exact Keeps.rfl | (apply Keeps.into tryRelease_keeps; decide) | (apply Keeps.into modAon_keeps; decide)
    | apply Keeps.ite | intro _ | split | (dsimp only; split)

theorem State.trainLinks_keeps : Keeps [.chans, .streams, .pools, .progs, .links] s (State.trainLinks s) := by
  unfold State.trainLinks
  with_reducible repeat' first
    | exact Keeps.rfl | (apply Keeps.into passThrough_keeps; decide) | (apply Keeps.into setLinkState_keeps; decide)
    | apply Keeps.each | apply Keeps.ite | intro _ | split | (dsimp only; split)

theorem State.enterTap_keeps :
    Keeps [.aon, .chans, .descs, .streams, .pools, .progs, .links] s (State.enterTap s) := by
  unfold State.enterTap
  with_reducible repeat' first
    | exact Keeps.rfl | (apply Keeps.into trainLinks_keeps; decide) | (apply Keeps.into enterStage_keeps; decide)
    | (apply Keeps.into restoreStores_keeps; decide) | (apply Keeps.into restoreDescs_keeps; decide)
    | (apply Keeps.into sendPeerReady_keeps; decide) | apply Keeps.each | (apply Keeps.into modAon_keeps; decide)
    | apply Keeps.ite | intro _ | split | (dsimp only; split)

theorem State.enterKiln_keeps : Keeps [.free, .aon, .chans, .clusters] s (State.enterKiln s) := by
  unfold State.enterKiln
  with_reducible repeat' first
    | exact Keeps.rfl | (apply Keeps.into enterStage_keeps; decide) | (apply Keeps.into modAon_keeps; decide)
    | (apply Keeps.into draw_keeps; decide) | apply Keeps.ite | intro _ | split | (dsimp only; split)
    | (apply Keeps.clusters; decide)

theorem effectSteepEnd_keeps :
    Keeps [.free, .aon, .fw, .chans, .wear, .descs, .clusters, .streams, .pools, .progs, .links]
      s (effectSteepEnd s) := by
  unfold effectSteepEnd
  with_reducible repeat' first
    | exact Keeps.rfl | (apply Keeps.into enterKiln_keeps; decide) | (apply Keeps.into enterTap_keeps; decide)
    | (apply Keeps.into trainLinks_keeps; decide) | (apply Keeps.into enterStage_keeps; decide)
    | (apply Keeps.into modAon_keeps; decide) | (apply Keeps.into wearsWhen_keeps; decide)
    | (apply Keeps.into draw_keeps; decide) | apply Keeps.ite | intro _ | split | (dsimp only; split)
    | (apply Keeps.fw; decide)

theorem State.failStage_keeps {code : Half} :
    Keeps [.aon, .fw, .chans, .locks, .hbm, .bad, .hbmStacks, .descs, .sram, .clusters, .streams, .pools, .progs,
      .loops, .prfs, .loopEng, .convs, .incfg, .incfgAt, .ang, .sched, .fouts, .links, .linkMod]
      s (State.failStage s code) := by
  unfold State.failStage
  with_reducible repeat' first
    | exact Keeps.rfl | (apply Keeps.into retry_keeps; decide) | (apply Keeps.into raise_keeps; decide)
    | apply Keeps.each | (apply Keeps.into modAon_keeps; decide) | (apply Keeps.into modChan_keeps; decide)
    | apply Keeps.ite | intro _ | split | (dsimp only; split)

theorem State.repairRows_keeps : Keeps [.wear, .hbmStacks] s (State.repairRows s k) := by
  unfold State.repairRows
  with_reducible repeat' first
    | exact Keeps.rfl | (apply Keeps.into modStack_keeps; decide) | apply Keeps.ite | intro _ | split
    | (dsimp only; split) | (apply Keeps.wear; decide)

theorem effectHbmTrainingEnd_keeps : Keeps [.aon, .wear, .hbmStacks] s (effectHbmTrainingEnd s) := by
  unfold effectHbmTrainingEnd
  with_reducible repeat' first
    | exact Keeps.rfl | (apply Keeps.into repairRows_keeps; decide) | apply Keeps.each
    | (apply Keeps.into modAon_keeps; decide) | apply Keeps.ite | intro _ | split | (dsimp only; split)

theorem effectKilnEnd_keeps :
    Keeps [.aon, .fw, .chans, .locks, .hbm, .bad, .hbmStacks, .descs, .sram, .clusters, .streams, .pools, .progs,
      .loops, .prfs, .loopEng, .convs, .incfg, .incfgAt, .ang, .sched, .fouts, .links, .linkMod]
      s (effectKilnEnd s) := by
  unfold effectKilnEnd
  with_reducible repeat' first
    | exact Keeps.rfl | (apply Keeps.into failStage_keeps; decide) | (apply Keeps.into enterStage_keeps; decide)
    | apply Keeps.each | (apply Keeps.into modAon_keeps; decide) | (apply Keeps.into modCluster_keeps; decide)
    | apply Keeps.ite | intro _ | split | (dsimp only; split)

theorem State.mashCluster_keeps : Keeps [.chans, .wear, .clusters] s (State.mashCluster s n cl) := by
  unfold State.mashCluster
  with_reducible repeat' first
    | exact Keeps.rfl | (apply Keeps.into calFaults_keeps; decide) | apply Keeps.each
    | (apply Keeps.into modCluster_keeps; decide) | apply Keeps.ite | intro _ | split | (dsimp only; split)

theorem effectMashEnd_keeps :
    Keeps [.free, .aon, .fw, .chans, .locks, .hbm, .bad, .wear, .hbmStacks, .descs, .sram, .clusters, .streams,
      .pools, .progs, .loops, .prfs, .loopEng, .convs, .incfg, .incfgAt, .ang, .sched, .fouts, .links, .linkMod]
      s (effectMashEnd s) := by
  unfold effectMashEnd
  with_reducible repeat' first
    | exact Keeps.rfl | (apply Keeps.into mashCluster_keeps; decide) | (apply Keeps.into failStage_keeps; decide)
    | (apply Keeps.into enterTap_keeps; decide) | apply Keeps.each | (apply Keeps.into modCluster_keeps; decide)
    | (apply Keeps.into draw_keeps; decide) | apply Keeps.ite | intro _ | split | (dsimp only; split)

theorem State.failInExpiry_keeps {code : Half} :
    Keeps [.aon, .fw, .chans, .locks, .hbm, .bad, .hbmStacks, .descs, .sram, .clusters, .streams, .pools, .progs,
      .loops, .prfs, .loopEng, .convs, .incfg, .incfgAt, .ang, .sched, .fouts, .links, .linkMod]
      s (State.failInExpiry s code) := by
  unfold State.failInExpiry
  with_reducible repeat' first
    | exact Keeps.rfl | (apply Keeps.into retry_keeps; decide) | (apply Keeps.into modAon_keeps; decide)
    | apply Keeps.ite | intro _ | split | (dsimp only; split)

theorem effectStageTimer_keeps :
    Keeps [.aon, .fw, .chans, .locks, .hbm, .bad, .hbmStacks, .descs, .sram, .clusters, .streams, .pools, .progs,
      .loops, .prfs, .loopEng, .convs, .incfg, .incfgAt, .ang, .sched, .fouts, .links, .linkMod]
      s (effectStageTimer s) := by
  unfold effectStageTimer
  with_reducible repeat' first
    | exact Keeps.rfl | (apply Keeps.into failInExpiry_keeps; decide) | (apply Keeps.into failStage_keeps; decide)
    | apply Keeps.ite | intro _ | split | (dsimp only; split)

theorem effectStageFailure_keeps {code : Half} :
    Keeps [.aon, .fw, .chans, .locks, .hbm, .bad, .hbmStacks, .descs, .sram, .clusters, .streams, .pools, .progs,
      .loops, .prfs, .loopEng, .convs, .incfg, .incfgAt, .ang, .sched, .fouts, .links, .linkMod]
      s (effectStageFailure code s) := by
  unfold effectStageFailure
  with_reducible repeat' first
    | exact Keeps.rfl | (apply Keeps.into failInExpiry_keeps; decide) | (apply Keeps.into failStage_keeps; decide)
    | apply Keeps.ite | intro _ | split | (dsimp only; split)

theorem effectBackoffEnd_keeps : Keeps [.aon, .chans, .ang] s (effectBackoffEnd s) := by
  unfold effectBackoffEnd
  with_reducible repeat' first
    | exact Keeps.rfl | (apply Keeps.into tryRelease_keeps; decide) | (apply Keeps.into modAon_keeps; decide)
    | apply Keeps.ite | intro _ | split | (dsimp only; split)

theorem effectClusterBringupFail_keeps : Keeps [.free, .clusters] s (effectClusterBringupFail cl s) := by
  unfold effectClusterBringupFail
  with_reducible repeat' first
    | exact Keeps.rfl | (apply Keeps.into beginRestart_keeps; decide) | (apply Keeps.into modCluster_keeps; decide)
    | apply Keeps.ite | intro _ | split | (dsimp only; split)

theorem effectHeartbeat_keeps {beat : Half} : Keeps [.aon] s (effectHeartbeat beat s) := by
  unfold effectHeartbeat
  with_reducible repeat' first
    | exact Keeps.rfl | (apply Keeps.into modAon_keeps; decide) | apply Keeps.ite | intro _ | split
    | (dsimp only; split)

theorem effectWatchdogExpiry_keeps :
    Keeps [.aon, .fw, .chans, .locks, .hbm, .bad, .hbmStacks, .descs, .sram, .clusters, .streams, .pools, .progs,
      .loops, .prfs, .loopEng, .convs, .incfg, .incfgAt, .ang, .sched, .fouts, .links, .linkMod]
      s (effectWatchdogExpiry s) := by
  unfold effectWatchdogExpiry
  with_reducible repeat' first
    | exact Keeps.rfl | (apply Keeps.into resetAll_keeps; decide) | (apply Keeps.into modAon_keeps; decide)
    | apply Keeps.ite | intro _ | split | (dsimp only; split)

theorem State.readDiodes_keeps {xs : List ℤ} :
    Keeps [.aon, .fw, .chans, .locks, .hbm, .bad, .hbmStacks, .descs, .sram, .clusters, .streams, .pools, .progs,
      .loops, .prfs, .loopEng, .convs, .incfg, .incfgAt, .ang, .sched, .fouts, .links, .linkMod]
      s (State.readDiodes s xs) := by
  unfold State.readDiodes
  with_reducible repeat' first
    | exact Keeps.rfl | (apply Keeps.into retry_keeps; decide) | (apply Keeps.into tryRelease_keeps; decide)
    | (apply Keeps.into modAon_keeps; decide) | apply Keeps.ite | intro _ | split | (dsimp only; split)

theorem effectThermalTrip_keeps {die : Nat} {temp : ℤ} :
    Keeps [.aon, .fw, .chans, .locks, .hbm, .bad, .hbmStacks, .descs, .sram, .clusters, .streams, .pools, .progs,
      .loops, .prfs, .loopEng, .convs, .incfg, .incfgAt, .ang, .sched, .fouts, .links, .linkMod]
      s (effectThermalTrip die temp s) := by
  unfold effectThermalTrip
  with_reducible repeat' first
    | exact Keeps.rfl | (apply Keeps.into readDiodes_keeps; decide) | apply Keeps.ite | intro _ | split
    | (dsimp only; split)

theorem effectThermalTripRelease_keeps {temps : List ℤ} :
    Keeps [.aon, .fw, .chans, .locks, .hbm, .bad, .hbmStacks, .descs, .sram, .clusters, .streams, .pools, .progs,
      .loops, .prfs, .loopEng, .convs, .incfg, .incfgAt, .ang, .sched, .fouts, .links, .linkMod]
      s (effectThermalTripRelease temps s) := by
  unfold effectThermalTripRelease
  with_reducible repeat' first
    | exact Keeps.rfl | (apply Keeps.into readDiodes_keeps; decide) | apply Keeps.ite | intro _ | split
    | (dsimp only; split)

theorem effectTripDiodeCrossing_keeps {die : Nat} {temp : ℤ} :
    Keeps [.aon, .fw, .chans, .locks, .hbm, .bad, .hbmStacks, .descs, .sram, .clusters, .streams, .pools, .progs,
      .loops, .prfs, .loopEng, .convs, .incfg, .incfgAt, .ang, .sched, .fouts, .links, .linkMod]
      s (effectTripDiodeCrossing die temp s) := by
  unfold effectTripDiodeCrossing
  with_reducible repeat' first
    | exact Keeps.rfl | (apply Keeps.into readDiodes_keeps; decide) | apply Keeps.ite | intro _ | split
    | (dsimp only; split)

theorem effectDomainReset_keeps {d1 : Bool} {d2 : BitVec 4} {d3 : BitVec 4} {d4 : Half} :
    Keeps [.aon, .fw, .chans, .locks, .hbm, .bad, .hbmStacks, .descs, .sram, .clusters, .streams, .pools, .progs,
      .loops, .prfs, .loopEng, .convs, .incfg, .incfgAt, .ang, .sched, .fouts, .links, .linkMod]
      s (effectDomainReset d1 d2 d3 d4 s) := by
  unfold effectDomainReset
  with_reducible repeat' first
    | exact Keeps.rfl | (apply Keeps.into resetAll_keeps; decide) | (apply Keeps.into resetD4_keeps; decide)
    | (apply Keeps.into resetD3_keeps; decide) | (apply Keeps.into resetD2_keeps; decide)
    | (apply Keeps.into resetD1_keeps; decide) | apply Keeps.each | (apply Keeps.into modAon_keeps; decide)
    | apply Keeps.ite | intro _ | split | (dsimp only; split)

theorem effectResetRelease_keeps :
    Keeps [.free, .aon, .chans, .clusters, .streams, .pools, .progs, .ang, .links] s (effectResetRelease s) := by
  unfold effectResetRelease
  with_reducible repeat' first
    | exact Keeps.rfl | (apply Keeps.into enterKiln_keeps; decide) | (apply Keeps.into trainLinks_keeps; decide)
    | (apply Keeps.into tryRelease_keeps; decide) | (apply Keeps.into releaseD1_keeps; decide)
    | (apply Keeps.into modAon_keeps; decide) | apply Keeps.ite | intro _ | split | (dsimp only; split)

theorem effectEvtPulseEnd_keeps : Keeps [.aon] s (effectEvtPulseEnd s) := by
  unfold effectEvtPulseEnd
  with_reducible repeat' first
    | exact Keeps.rfl | (apply Keeps.into modAon_keeps; decide) | apply Keeps.ite | intro _ | split
    | (dsimp only; split)

theorem effectEvtFirstEvaluation_keeps : Keeps [.aon] s (effectEvtFirstEvaluation s) := by
  unfold effectEvtFirstEvaluation
  with_reducible repeat' first
    | exact Keeps.rfl | (apply Keeps.into modAon_keeps; decide) | apply Keeps.ite | intro _ | split
    | (dsimp only; split)

theorem State.countedTo_keeps : Keeps [.clusters, .links] s (State.countedTo s off) := by
  unfold State.countedTo
  with_reducible repeat' first
    | exact Keeps.rfl | (apply Keeps.into countCodewords_keeps; decide) | (apply Keeps.into modCluster_keeps; decide)
    | apply Keeps.ite | intro _ | split | (dsimp only; split)

theorem State.clearAll_keeps :
    Keeps [.snap, .fw, .hbmStacks, .clusters, .streams, .pools, .loops, .prfs, .loopEng, .ang, .foutDenied, .links]
      s (State.clearAll s) := by
  intro p hp; cases p <;> first | exact absurd (by decide) hp | exact Eq.refl _

theorem State.modSnap_keeps {f : Snap → Snap} : Keeps [.snap] s (State.modSnap s f) := by
  unfold State.modSnap
  with_reducible repeat' first
    | exact Keeps.rfl | apply Keeps.ite | intro _ | split | (dsimp only; split) | (apply Keeps.snap; decide)

theorem State.clearStream_keeps {g : Stream → Stream → Stream} :
    Keeps [.snap, .streams] s (State.clearStream s i g) := by
  unfold State.clearStream
  with_reducible repeat' first
    | exact Keeps.rfl | (apply Keeps.into modSnap_keeps; decide) | (apply Keeps.into modStream_keeps; decide)
    | apply Keeps.ite | intro _ | split | (dsimp only; split)

theorem State.clearScope_keeps {scope : Nat} :
    Keeps [.snap, .fw, .hbmStacks, .clusters, .streams, .pools, .loops, .prfs, .loopEng, .ang, .foutDenied, .links]
      s (State.clearScope s scope i) := by
  unfold State.clearScope
  with_reducible repeat' first
    | exact Keeps.rfl | (apply Keeps.into clearStream_keeps; decide) | (apply Keeps.into modSnap_keeps; decide)
    | (apply Keeps.into clearAll_keeps; decide) | (apply Keeps.into modPrf_keeps; decide)
    | (apply Keeps.into modLoop_keeps; decide) | (apply Keeps.into modStack_keeps; decide)
    | (apply Keeps.into modPool_keeps; decide) | (apply Keeps.into modCluster_keeps; decide) | apply Keeps.ite
    | intro _ | split | (dsimp only; split)

theorem refuse_keeps {status : Nat} {detail : Nat} : Keeps [] s (refuse s status detail).1 := by
  unfold refuse
  with_reducible repeat' first
    | exact Keeps.rfl | apply Keeps.ite | apply Keeps.ite1 | intro _ | split | (dsimp only; split)

theorem okWith_keeps {result : List Byte} : Keeps [] s (okWith s result).1 := by
  unfold okWith
  with_reducible repeat' first
    | exact Keeps.rfl | apply Keeps.ite | apply Keeps.ite1 | intro _ | split | (dsimp only; split)

theorem accept_keeps {done : Reply} {when_ : DoneWhen} : Keeps [.fw] s (accept s ch slot done when_).1 := by
  unfold accept
  with_reducible repeat' first
    | exact Keeps.rfl | apply Keeps.ite | apply Keeps.ite1 | intro _ | split | (dsimp only; split)
    | (apply Keeps.fw; decide)

theorem State.respond_keeps {r : Reply} : Keeps [.fw, .chans] s (State.respond s ch slot r) := by
  unfold State.respond
  with_reducible repeat' first
    | exact Keeps.rfl | (apply Keeps.into postKept_keeps; decide) | (apply Keeps.into modChan_keeps; decide)
    | apply Keeps.ite | intro _ | split | (dsimp only; split) | (apply Keeps.fw; decide)

theorem State.Keeps.command {L : List Part} {x : State} {ch op least : Nat} {form : DescForm}
    {hd : List Byte → State → Handled} (hL : [.fw, .chans] ⊆ L) (h : ∀ b t, Keeps L t (hd b t).1)
    (g : Keeps L s x) : Keeps L s (x.command ch op least form hd) := by
  unfold State.command
  with_reducible repeat' first
    | exact g
    | apply Keeps.into respond_keeps hL
    | apply Keeps.into (h _ _) (List.Subset.refl _)
    | apply Keeps.ite
    | intro _
    | split
    | (dsimp only; split)

theorem effectBadOpcode_keeps : Keeps [.fw, .chans] s (effectBadOpcode ch s) := by
  unfold effectBadOpcode
  with_reducible repeat' first
    | exact Keeps.rfl | (apply Keeps.into respond_keeps; decide) | apply Keeps.ite | intro _ | split
    | (dsimp only; split)

theorem effectCommandDone_keeps : Keeps [.fw, .chans, .clusters, .progs] s (effectCommandDone ch s) := by
  unfold effectCommandDone
  with_reducible repeat' first
    | exact Keeps.rfl | (apply Keeps.into finishPlace_keeps; decide) | (apply Keeps.into postKept_keeps; decide)
    | apply Keeps.ite | intro _ | split | (dsimp only; split) | (apply Keeps.fw; decide)

theorem effectIdentify_keeps : Keeps [.fw, .chans] s (effectIdentify ch s) := by
  unfold effectIdentify
  with_reducible repeat' first
    | exact Keeps.rfl | (apply Keeps.command; decide) | (apply Keeps.into okWith_keeps; decide) | apply Keeps.ite
    | apply Keeps.ite1 | intro _ | split | (dsimp only; split)

theorem effectHealth_keeps : Keeps [.free, .fw, .chans] s (effectHealth ch s) := by
  unfold effectHealth
  with_reducible repeat' first
    | exact Keeps.rfl | (apply Keeps.command; decide) | (apply Keeps.into okWith_keeps; decide)
    | (apply Keeps.into draw_keeps; decide) | apply Keeps.ite | apply Keeps.ite1 | intro _ | split
    | (dsimp only; split)

theorem effectClusterHealth_keeps : Keeps [.fw, .chans] s (effectClusterHealth ch s) := by
  unfold effectClusterHealth
  with_reducible repeat' first
    | exact Keeps.rfl | (apply Keeps.command; decide) | (apply Keeps.into okWith_keeps; decide)
    | (apply Keeps.into refuse_keeps; decide) | apply Keeps.ite | apply Keeps.ite1 | intro _ | split
    | (dsimp only; split)

theorem effectCoreCounts_keeps : Keeps [.fw, .chans] s (effectCoreCounts ch s) := by
  unfold effectCoreCounts
  with_reducible repeat' first
    | exact Keeps.rfl | (apply Keeps.command; decide) | (apply Keeps.into okWith_keeps; decide)
    | (apply Keeps.into refuse_keeps; decide) | apply Keeps.ite | apply Keeps.ite1 | intro _ | split
    | (dsimp only; split)

theorem effectCaskRead_keeps : Keeps [.fw, .chans] s (effectCaskRead ch s) := by
  unfold effectCaskRead
  with_reducible repeat' first
    | exact Keeps.rfl | (apply Keeps.command; decide) | (apply Keeps.into okWith_keeps; decide) | apply Keeps.ite
    | apply Keeps.ite1 | intro _ | split | (dsimp only; split)

theorem effectWearRead_keeps : Keeps [.free, .fw, .chans] s (effectWearRead ch s) := by
  unfold effectWearRead
  with_reducible repeat' first
    | exact Keeps.rfl | (apply Keeps.command; decide) | (apply Keeps.into okWith_keeps; decide)
    | (apply Keeps.into refuse_keeps; decide) | (apply Keeps.into draw_keeps; decide) | apply Keeps.ite
    | apply Keeps.ite1 | intro _ | split | (dsimp only; split)

theorem effectMemoryHealth_keeps : Keeps [.fw, .chans] s (effectMemoryHealth ch s) := by
  unfold effectMemoryHealth
  with_reducible repeat' first
    | exact Keeps.rfl | (apply Keeps.command; decide) | (apply Keeps.into okWith_keeps; decide)
    | (apply Keeps.into refuse_keeps; decide) | apply Keeps.ite | apply Keeps.ite1 | intro _ | split
    | (dsimp only; split)

theorem State.Keeps.behind {L : List Part} {x : State} {r : Option Reply} {hd : State → Handled}
    (h : Keeps L s (hd x).1) (g : Keeps L s x) : Keeps L s (Machine.behind r x hd).1 := by
  unfold Machine.behind
  split
  · exact g
  · exact h

theorem handleImageLoad_keeps {img : Fetched Image} : Keeps [.fw] s (handleImageLoad ch img slot s).1 := by
  unfold handleImageLoad
  with_reducible repeat' first
    | exact Keeps.rfl | (apply Keeps.into accept_keeps; decide) | (apply Keeps.into refuse_keeps; decide)
    | (apply Keeps.into setImage_keeps; decide) | apply Keeps.ite | apply Keeps.ite1 | intro _ | split
    | (dsimp only; split)

theorem effectImageLoad_keeps {img : Fetched Image} : Keeps [.fw, .chans] s (effectImageLoad ch img s) := by
  unfold effectImageLoad
  with_reducible repeat' first
    | exact Keeps.rfl | (apply Keeps.into handleImageLoad_keeps; decide) | (apply Keeps.command; decide)
    | apply Keeps.ite | apply Keeps.ite1 | intro _ | split | (dsimp only; split)

theorem effectImageUnload_keeps : Keeps [.fw, .chans] s (effectImageUnload ch s) := by
  unfold effectImageUnload
  with_reducible repeat' first
    | exact Keeps.rfl | apply Keeps.behind | (apply Keeps.command; decide) | (apply Keeps.into okWith_keeps; decide)
    | (apply Keeps.into refuse_keeps; decide) | (apply Keeps.into setImage_keeps; decide) | apply Keeps.ite
    | apply Keeps.ite1 | intro _ | split | (dsimp only; split)

theorem State.place_keeps {noProbes : Bool} {pin : Option Nat} :
    Keeps [.fw, .descs, .clusters, .streams, .pools, .progs, .links] s (State.place s ch i noProbes pin slot).1 := by
  unfold State.place
  with_reducible repeat' first
    | exact Keeps.rfl | (apply Keeps.into accept_keeps; decide) | (apply Keeps.into refuse_keeps; decide)
    | (apply Keeps.into placeJob_keeps; decide) | (apply Keeps.into modImage_keeps; decide) | apply Keeps.ite
    | apply Keeps.ite1 | intro _ | split | (dsimp only; split)

theorem effectJobPlace_keeps :
    Keeps [.fw, .chans, .descs, .clusters, .streams, .pools, .progs, .links] s (effectJobPlace ch s) := by
  unfold effectJobPlace
  with_reducible repeat' first
    | exact Keeps.rfl | (apply Keeps.into place_keeps; decide) | apply Keeps.behind | (apply Keeps.command; decide)
    | (apply Keeps.into refuse_keeps; decide) | apply Keeps.ite | apply Keeps.ite1 | intro _ | split
    | (dsimp only; split)

theorem effectJobRemove_keeps :
    Keeps [.fw, .chans, .descs, .clusters, .streams, .pools, .progs, .links] s (effectJobRemove ch s) := by
  unfold effectJobRemove
  with_reducible repeat' first
    | exact Keeps.rfl | apply Keeps.behind | (apply Keeps.command; decide) | (apply Keeps.into accept_keeps; decide)
    | (apply Keeps.into removeJob_keeps; decide) | apply Keeps.ite | apply Keeps.ite1 | intro _ | split
    | (dsimp only; split)

theorem effectStepStart_keeps : Keeps [.fw, .chans, .streams, .progs] s (effectStepStart ch s) := by
  unfold effectStepStart
  with_reducible repeat' first
    | exact Keeps.rfl | apply Keeps.behind | (apply Keeps.command; decide) | (apply Keeps.into okWith_keeps; decide)
    | (apply Keeps.into refuse_keeps; decide) | (apply Keeps.into startStep_keeps; decide)
    | (apply Keeps.into dropStart_keeps; decide) | (apply Keeps.into modImage_keeps; decide) | apply Keeps.ite
    | apply Keeps.ite1 | intro _ | split | (dsimp only; split)

theorem effectStepAbort_keeps :
    Keeps [.fw, .chans, .descs, .clusters, .streams, .pools, .progs] s (effectStepAbort ch s) := by
  unfold effectStepAbort
  with_reducible repeat' first
    | exact Keeps.rfl | apply Keeps.behind | (apply Keeps.command; decide) | (apply Keeps.into okWith_keeps; decide)
    | (apply Keeps.into refuse_keeps; decide) | (apply Keeps.into abortStep_keeps; decide) | apply Keeps.ite
    | apply Keeps.ite1 | intro _ | split | (dsimp only; split)

theorem effectStepStatus_keeps : Keeps [.fw, .chans] s (effectStepStatus ch s) := by
  unfold effectStepStatus
  with_reducible repeat' first
    | exact Keeps.rfl | apply Keeps.behind | (apply Keeps.command; decide) | (apply Keeps.into okWith_keeps; decide)
    | apply Keeps.ite | apply Keeps.ite1 | intro _ | split | (dsimp only; split)

theorem effectMemWrite_keeps {data : Option (List Byte)} :
    Keeps [.fw, .chans, .hbm, .bad] s (effectMemWrite ch data s) := by
  unfold effectMemWrite
  with_reducible repeat' first
    | exact Keeps.rfl | apply Keeps.behind | (apply Keeps.command; decide) | (apply Keeps.into accept_keeps; decide)
    | (apply Keeps.into refuse_keeps; decide) | (apply Keeps.into writeHbm_keeps; decide) | apply Keeps.ite
    | apply Keeps.ite1 | intro _ | split | (dsimp only; split)

theorem effectMemRead_keeps {reachable : Bool} :
    Keeps [.free, .fw, .chans, .bad, .hbmStacks] s (effectMemRead ch reachable s) := by
  unfold effectMemRead
  with_reducible repeat' first
    | exact Keeps.rfl | apply Keeps.behind | (apply Keeps.command; decide) | (apply Keeps.into accept_keeps; decide)
    | (apply Keeps.into refuse_keeps; decide) | (apply Keeps.into readHbm_keeps; decide) | apply Keeps.ite
    | apply Keeps.ite1 | intro _ | split | (dsimp only; split) | (apply Keeps.fw; decide)

theorem effectDescWrite_keeps : Keeps [.fw, .chans, .descs] s (effectDescWrite ch s) := by
  unfold effectDescWrite
  with_reducible repeat' first
    | exact Keeps.rfl | apply Keeps.behind | (apply Keeps.command; decide) | (apply Keeps.into okWith_keeps; decide)
    | (apply Keeps.into modDesc_keeps; decide) | apply Keeps.ite | apply Keeps.ite1 | intro _ | split
    | (dsimp only; split)

theorem effectDescArm_keeps : Keeps [.fw, .chans, .hbmStacks, .descs] s (effectDescArm ch s) := by
  unfold effectDescArm
  with_reducible repeat' first
    | exact Keeps.rfl | apply Keeps.behind | (apply Keeps.command; decide) | (apply Keeps.into okWith_keeps; decide)
    | (apply Keeps.into fwArm_keeps; decide) | apply Keeps.ite | apply Keeps.ite1 | intro _ | split
    | (dsimp only; split)

theorem effectDescReset_keeps : Keeps [.fw, .chans, .descs] s (effectDescReset ch s) := by
  unfold effectDescReset
  with_reducible repeat' first
    | exact Keeps.rfl | apply Keeps.behind | (apply Keeps.command; decide) | (apply Keeps.into okWith_keeps; decide)
    | (apply Keeps.into refuse_keeps; decide) | (apply Keeps.into modDesc_keeps; decide) | apply Keeps.ite
    | apply Keeps.ite1 | intro _ | split | (dsimp only; split)

theorem effectDescStatus_keeps : Keeps [.fw, .chans] s (effectDescStatus ch s) := by
  unfold effectDescStatus
  with_reducible repeat' first
    | exact Keeps.rfl | apply Keeps.behind | (apply Keeps.command; decide) | (apply Keeps.into okWith_keeps; decide)
    | apply Keeps.ite | apply Keeps.ite1 | intro _ | split | (dsimp only; split)

theorem effectStreamLimit_keeps : Keeps [.fw, .chans, .streams] s (effectStreamLimit ch s) := by
  unfold effectStreamLimit
  with_reducible repeat' first
    | exact Keeps.rfl | apply Keeps.behind | (apply Keeps.command; decide) | (apply Keeps.into okWith_keeps; decide)
    | (apply Keeps.into refuse_keeps; decide) | (apply Keeps.into modStream_keeps; decide) | apply Keeps.ite
    | apply Keeps.ite1 | intro _ | split | (dsimp only; split)

theorem effectQntPolicy_keeps : Keeps [.fw, .chans, .streams] s (effectQntPolicy ch s) := by
  unfold effectQntPolicy
  with_reducible repeat' first
    | exact Keeps.rfl | apply Keeps.behind | (apply Keeps.command; decide) | (apply Keeps.into okWith_keeps; decide)
    | (apply Keeps.into refuse_keeps; decide) | (apply Keeps.into modStream_keeps; decide) | apply Keeps.ite
    | apply Keeps.ite1 | intro _ | split | (dsimp only; split)

theorem effectQntCarryReset_keeps : Keeps [.fw, .chans, .streams] s (effectQntCarryReset ch s) := by
  unfold effectQntCarryReset
  with_reducible repeat' first
    | exact Keeps.rfl | apply Keeps.behind | (apply Keeps.command; decide) | (apply Keeps.into okWith_keeps; decide)
    | (apply Keeps.into modStream_keeps; decide) | apply Keeps.ite | apply Keeps.ite1 | intro _ | split
    | (dsimp only; split)

theorem effectCounterClear_keeps :
    Keeps [.snap, .fw, .chans, .hbmStacks, .clusters, .streams, .pools, .loops, .prfs, .loopEng, .ang, .foutDenied,
      .links]
      s (effectCounterClear ch s) := by
  unfold effectCounterClear
  with_reducible repeat' first
    | exact Keeps.rfl | apply Keeps.behind | (apply Keeps.command; decide) | (apply Keeps.into okWith_keeps; decide)
    | (apply Keeps.into refuse_keeps; decide) | (apply Keeps.into clearScope_keeps; decide) | apply Keeps.ite
    | apply Keeps.ite1 | intro _ | split | (dsimp only; split)

theorem effectCalSettings_keeps : Keeps [.fw, .chans, .clusters] s (effectCalSettings ch s) := by
  unfold effectCalSettings
  with_reducible repeat' first
    | exact Keeps.rfl | (apply Keeps.command; decide) | (apply Keeps.into okWith_keeps; decide)
    | (apply Keeps.into refuse_keeps; decide) | apply Keeps.each | (apply Keeps.into modCluster_keeps; decide)
    | apply Keeps.ite | apply Keeps.ite1 | intro _ | split | (dsimp only; split)

theorem effectQuietOpen_keeps : Keeps [.fw, .chans, .clusters] s (effectQuietOpen ch s) := by
  unfold effectQuietOpen
  with_reducible repeat' first
    | exact Keeps.rfl | (apply Keeps.command; decide) | (apply Keeps.into okWith_keeps; decide)
    | (apply Keeps.into openQuiet_keeps; decide) | apply Keeps.ite | apply Keeps.ite1 | intro _ | split
    | (dsimp only; split)

theorem effectRotAdvance_keeps : Keeps [.fw, .chans, .clusters] s (effectRotAdvance ch s) := by
  unfold effectRotAdvance
  with_reducible repeat' first
    | exact Keeps.rfl | (apply Keeps.command; decide) | (apply Keeps.into okWith_keeps; decide)
    | (apply Keeps.into advance_keeps; decide) | apply Keeps.each | apply Keeps.ite | apply Keeps.ite1 | intro _
    | split | (dsimp only; split)

theorem State.restartClusters_keeps :
    Keeps [.free, .fw, .chans, .descs, .clusters, .streams, .pools, .progs] s (State.restartClusters s cls) := by
  unfold State.restartClusters
  with_reducible repeat' first
    | exact Keeps.rfl | (apply Keeps.into beginRestart_keeps; decide) | (apply Keeps.into abortStep_keeps; decide)
    | apply Keeps.each | apply Keeps.ite | intro _ | split | (dsimp only; split)

theorem effectCombSwitch_keeps :
    Keeps [.free, .fw, .chans, .wear, .descs, .clusters, .streams, .pools, .progs] s (effectCombSwitch ch s) := by
  unfold effectCombSwitch
  with_reducible repeat' first
    | exact Keeps.rfl | (apply Keeps.into restartClusters_keeps; decide) | (apply Keeps.command; decide)
    | (apply Keeps.into accept_keeps; decide) | (apply Keeps.into refuse_keeps; decide) | apply Keeps.each
    | (apply Keeps.into wears_keeps; decide) | (apply Keeps.into modCluster_keeps; decide) | apply Keeps.ite
    | apply Keeps.ite1 | intro _ | split | (dsimp only; split)

theorem effectClusterRestart_keeps :
    Keeps [.free, .fw, .chans, .descs, .clusters, .streams, .pools, .progs] s (effectClusterRestart ch s) := by
  unfold effectClusterRestart
  with_reducible repeat' first
    | exact Keeps.rfl | (apply Keeps.into restartClusters_keeps; decide) | (apply Keeps.command; decide)
    | (apply Keeps.into accept_keeps; decide) | (apply Keeps.into refuse_keeps; decide) | apply Keeps.ite
    | apply Keeps.ite1 | intro _ | split | (dsimp only; split)

theorem effectSchedWrite_keeps : Keeps [.fw, .chans, .ang, .sched] s (effectSchedWrite ch s) := by
  unfold effectSchedWrite
  with_reducible repeat' first
    | exact Keeps.rfl | (apply Keeps.command; decide) | (apply Keeps.into okWith_keeps; decide)
    | (apply Keeps.into refuse_keeps; decide) | (apply Keeps.into schedCheck_keeps; decide)
    | (apply Keeps.into setSched_keeps; decide) | apply Keeps.ite | apply Keeps.ite1 | intro _ | split
    | (dsimp only; split)

theorem effectSchedRead_keeps : Keeps [.fw, .chans] s (effectSchedRead ch s) := by
  unfold effectSchedRead
  with_reducible repeat' first
    | exact Keeps.rfl | (apply Keeps.command; decide) | (apply Keeps.into okWith_keeps; decide)
    | (apply Keeps.into refuse_keeps; decide) | apply Keeps.ite | apply Keeps.ite1 | intro _ | split
    | (dsimp only; split)

theorem effectClusterGroup_keeps : Keeps [.fw, .chans] s (effectClusterGroup ch s) := by
  unfold effectClusterGroup
  with_reducible repeat' first
    | exact Keeps.rfl | (apply Keeps.command; decide) | (apply Keeps.into okWith_keeps; decide)
    | (apply Keeps.into refuse_keeps; decide) | apply Keeps.ite | apply Keeps.ite1 | intro _ | split
    | (dsimp only; split) | (apply Keeps.fw; decide)

theorem effectFieldOwner_keeps : Keeps [.fw, .chans] s (effectFieldOwner ch s) := by
  unfold effectFieldOwner
  with_reducible repeat' first
    | exact Keeps.rfl | (apply Keeps.command; decide) | (apply Keeps.into okWith_keeps; decide)
    | (apply Keeps.into refuse_keeps; decide) | apply Keeps.ite | apply Keeps.ite1 | intro _ | split
    | (dsimp only; split) | (apply Keeps.fw; decide)

theorem effectSafeWrite_keeps : Keeps [.fw, .chans, .fouts] s (effectSafeWrite ch s) := by
  unfold effectSafeWrite
  with_reducible repeat' first
    | exact Keeps.rfl | (apply Keeps.command; decide) | (apply Keeps.into accept_keeps; decide)
    | (apply Keeps.into refuse_keeps; decide) | (apply Keeps.into modFout_keeps; decide) | apply Keeps.ite
    | apply Keeps.ite1 | intro _ | split | (dsimp only; split)

theorem effectEventRoute_keeps : Keeps [.fw, .chans] s (effectEventRoute ch s) := by
  unfold effectEventRoute
  with_reducible repeat' first
    | exact Keeps.rfl | (apply Keeps.command; decide) | (apply Keeps.into okWith_keeps; decide)
    | (apply Keeps.into refuse_keeps; decide) | apply Keeps.ite | apply Keeps.ite1 | intro _ | split
    | (dsimp only; split) | (apply Keeps.fw; decide)

theorem effectPermSet_keeps : Keeps [.fw, .chans] s (effectPermSet ch s) := by
  unfold effectPermSet
  with_reducible repeat' first
    | exact Keeps.rfl | (apply Keeps.command; decide) | (apply Keeps.into okWith_keeps; decide)
    | (apply Keeps.into refuse_keeps; decide) | apply Keeps.ite | apply Keeps.ite1 | intro _ | split
    | (dsimp only; split) | (apply Keeps.fw; decide)

theorem effectPermRead_keeps : Keeps [.fw, .chans] s (effectPermRead ch s) := by
  unfold effectPermRead
  with_reducible repeat' first
    | exact Keeps.rfl | (apply Keeps.command; decide) | (apply Keeps.into okWith_keeps; decide)
    | (apply Keeps.into refuse_keeps; decide) | apply Keeps.ite | apply Keeps.ite1 | intro _ | split
    | (dsimp only; split)

theorem effectLockRelease_keeps : Keeps [.fw, .chans, .locks] s (effectLockRelease ch s) := by
  unfold effectLockRelease
  with_reducible repeat' first
    | exact Keeps.rfl | (apply Keeps.command; decide) | (apply Keeps.into okWith_keeps; decide)
    | (apply Keeps.into refuse_keeps; decide) | apply Keeps.ite | apply Keeps.ite1 | intro _ | split
    | (dsimp only; split) | (apply Keeps.locks; decide)

theorem effectLinkStatus_keeps : Keeps [.fw, .chans, .links] s (effectLinkStatus ch s) := by
  unfold effectLinkStatus
  with_reducible repeat' first
    | exact Keeps.rfl | (apply Keeps.command; decide) | (apply Keeps.into okWith_keeps; decide)
    | (apply Keeps.into refuse_keeps; decide) | (apply Keeps.into countCodewords_keeps; decide) | apply Keeps.ite
    | apply Keeps.ite1 | intro _ | split | (dsimp only; split)

theorem effectRouteWrite_keeps : Keeps [.fw, .chans, .linkMod] s (effectRouteWrite ch s) := by
  unfold effectRouteWrite
  with_reducible repeat' first
    | exact Keeps.rfl | (apply Keeps.command; decide) | (apply Keeps.into okWith_keeps; decide)
    | (apply Keeps.into refuse_keeps; decide) | apply Keeps.ite | apply Keeps.ite1 | intro _ | split
    | (dsimp only; split) | (apply Keeps.linkMod; decide)

theorem effectAddressSet_keeps : Keeps [.fw, .chans, .linkMod] s (effectAddressSet ch s) := by
  unfold effectAddressSet
  with_reducible repeat' first
    | exact Keeps.rfl | (apply Keeps.command; decide) | (apply Keeps.into okWith_keeps; decide)
    | (apply Keeps.into refuse_keeps; decide) | apply Keeps.ite | apply Keeps.ite1 | intro _ | split
    | (dsimp only; split) | (apply Keeps.linkMod; decide)

theorem State.applyMode_keeps : Keeps [.chans, .streams, .pools, .progs, .links] s (State.applyMode s n) := by
  unfold State.applyMode
  with_reducible repeat' first
    | exact Keeps.rfl | (apply Keeps.into passThrough_keeps; decide) | (apply Keeps.into linkGoesDown_keeps; decide)
    | (apply Keeps.into setLinkState_keeps; decide) | apply Keeps.ite | intro _ | split | (dsimp only; split)

theorem effectLinkMode_keeps : Keeps [.fw, .chans, .streams, .pools, .progs, .links] s (effectLinkMode ch s) := by
  unfold effectLinkMode
  with_reducible repeat' first
    | exact Keeps.rfl | (apply Keeps.into applyMode_keeps; decide) | (apply Keeps.command; decide)
    | (apply Keeps.into okWith_keeps; decide) | (apply Keeps.into refuse_keeps; decide)
    | (apply Keeps.into modLink_keeps; decide) | apply Keeps.ite | apply Keeps.ite1 | intro _ | split
    | (dsimp only; split)

theorem effectPeerReady_keeps : Keeps [.fw, .chans] s (effectPeerReady ch s) := by
  unfold effectPeerReady
  with_reducible repeat' first
    | exact Keeps.rfl | (apply Keeps.command; decide) | (apply Keeps.into okWith_keeps; decide)
    | (apply Keeps.into raise_keeps; decide) | apply Keeps.ite | apply Keeps.ite1 | intro _ | split
    | (dsimp only; split)

theorem effectUpgradeBegin_keeps {data : Fetched (List Byte)} :
    Keeps [.aon, .fw, .chans] s (effectUpgradeBegin ch data s) := by
  unfold effectUpgradeBegin
  with_reducible repeat' first
    | exact Keeps.rfl | (apply Keeps.command; decide) | (apply Keeps.into accept_keeps; decide)
    | (apply Keeps.into refuse_keeps; decide) | apply Keeps.ite1 | intro _ | split | (dsimp only; split)
  all_goals intro p hp; cases p <;> first | exact Eq.refl _ | exact absurd (by decide) hp


theorem effectUpgradeData_keeps : Keeps [.aon, .fw, .chans] s (effectUpgradeData ch s) := by
  unfold effectUpgradeData
  with_reducible repeat' first
    | exact Keeps.rfl | (apply Keeps.command; decide) | (apply Keeps.into okWith_keeps; decide)
    | (apply Keeps.into refuse_keeps; decide) | apply Keeps.ite | apply Keeps.ite1 | intro _ | split
    | (dsimp only; split) | (apply Keeps.aon; decide)

theorem effectUpgradeCommit_keeps {sigOk : Bool} : Keeps [.aon, .fw, .chans] s (effectUpgradeCommit ch sigOk s) := by
  unfold effectUpgradeCommit
  with_reducible repeat' first
    | exact Keeps.rfl | (apply Keeps.command; decide) | (apply Keeps.into accept_keeps; decide)
    | (apply Keeps.into refuse_keeps; decide) | (apply Keeps.into modAon_keeps; decide) | apply Keeps.ite
    | apply Keeps.ite1 | intro _ | split | (dsimp only; split) | (apply Keeps.fw; decide)

theorem effectPowerProfile_keeps : Keeps [.aon, .fw, .chans, .clusters] s (effectPowerProfile ch s) := by
  unfold effectPowerProfile
  with_reducible repeat' first
    | exact Keeps.rfl | (apply Keeps.command; decide) | (apply Keeps.into accept_keeps; decide)
    | (apply Keeps.into refuse_keeps; decide) | (apply Keeps.into unpromise_keeps; decide)
    | (apply Keeps.into settleProfile_keeps; decide) | apply Keeps.each | (apply Keeps.into modAon_keeps; decide)
    | (apply Keeps.into modCluster_keeps; decide) | apply Keeps.ite | apply Keeps.ite1 | intro _ | split
    | (dsimp only; split)

theorem effectPermitWithdrawn_keeps : Keeps [.clusters] s (effectPermitWithdrawn cl s) := by
  unfold effectPermitWithdrawn
  with_reducible repeat' first
    | exact Keeps.rfl | (apply Keeps.into settleProfile_keeps; decide) | (apply Keeps.into modCluster_keeps; decide)
    | apply Keeps.ite | intro _ | split | (dsimp only; split)

theorem effectModuleReset_keeps : Keeps [.aon, .fw, .chans] s (effectModuleReset ch s) := by
  unfold effectModuleReset
  with_reducible repeat' first
    | exact Keeps.rfl | (apply Keeps.command; decide) | (apply Keeps.into okWith_keeps; decide)
    | (apply Keeps.into refuse_keeps; decide) | (apply Keeps.into modAon_keeps; decide) | apply Keeps.ite
    | apply Keeps.ite1 | intro _ | split | (dsimp only; split)

theorem State.aonWrite_keeps : Keeps [.aon] s (State.aonWrite s off v) := by
  unfold State.aonWrite
  with_reducible repeat' first
    | exact Keeps.rfl | (apply Keeps.into effectHeartbeat_keeps; decide) | (apply Keeps.into modAon_keeps; decide)
    | apply Keeps.ite | intro _ | split | (dsimp only; split)

theorem State.foreignWrite_keeps : Keeps [.chans] s (State.foreignWrite s fn) := by
  unfold State.foreignWrite
  with_reducible repeat' first
    | exact Keeps.rfl | (apply Keeps.into modChan_keeps; decide) | apply Keeps.ite | intro _ | split
    | (dsimp only; split)

theorem State.mailWrite_keeps : Keeps [.chans] s (State.mailWrite s fn off v) := by
  unfold State.mailWrite
  with_reducible repeat' first
    | exact Keeps.rfl | (apply Keeps.into foreignWrite_keeps; decide)
    | (apply Keeps.into effectMbxOutHeadWrite_keeps; decide) | (apply Keeps.into effectDoorbell_keeps; decide)
    | (apply Keeps.into modChan_keeps; decide) | apply Keeps.ite | intro _ | split | (dsimp only; split)

theorem State.finWrite_keeps : Keeps [.convs, .incfg, .incfgAt, .ang] s (State.finWrite s fn off v) := by
  unfold State.finWrite
  with_reducible repeat' first
    | exact Keeps.rfl | (apply Keeps.into effectFinIncfgWrite_keeps; decide)
    | (apply Keeps.into effectSoftwareTrigger_keeps; decide) | (apply Keeps.into modConv_keeps; decide)
    | apply Keeps.ite | intro _ | split | (dsimp only; split)

theorem State.foutReg_keeps : Keeps [.streams, .fouts, .foutDenied] s (State.foutReg s fn n r v) := by
  unfold State.foutReg
  with_reducible repeat' first
    | exact Keeps.rfl | (apply Keeps.into foutCfg_keeps; decide)
    | (apply Keeps.into effectFoutDataWrite_keeps; decide) | (apply Keeps.into modFout_keeps; decide)
    | apply Keeps.ite | intro _ | split | (dsimp only; split)

theorem State.schedReg_keeps : Keeps [.ang, .sched] s (State.schedReg s e r v) := by
  unfold State.schedReg
  with_reducible repeat' first
    | exact Keeps.rfl | (apply Keeps.into schedCheck_keeps; decide) | (apply Keeps.into modAng_keeps; decide)
    | (apply Keeps.into setSched_keeps; decide) | apply Keeps.ite | intro _ | split | (dsimp only; split)

theorem State.angReg_keeps : Keeps [.free, .convs, .ang] s (State.angReg s fn r v) := by
  unfold State.angReg
  with_reducible repeat' first
    | exact Keeps.rfl | (apply Keeps.into effectAngSourceWrite_keeps; decide)
    | (apply Keeps.into effectAngOffsetWrite_keeps; decide) | (apply Keeps.into effectAngTodSecWrite_keeps; decide)
    | (apply Keeps.into modAng_keeps; decide) | apply Keeps.ite | intro _ | split | (dsimp only; split)

theorem State.angRegion_keeps : Keeps [.free, .convs, .ang, .sched] s (State.angRegion s fn off v) := by
  unfold State.angRegion
  with_reducible repeat' first
    | exact Keeps.rfl | (apply Keeps.into angReg_keeps; decide) | (apply Keeps.into schedReg_keeps; decide)
    | apply Keeps.ite | intro _ | split | (dsimp only; split)

theorem State.loopReg_keeps : Keeps [.free, .loops, .prfs, .loopEng, .fouts] s (State.loopReg s fn n r v) := by
  unfold State.loopReg
  with_reducible repeat' first
    | exact Keeps.rfl | (apply Keeps.into injCtrl_keeps; decide) | (apply Keeps.into loopStat_keeps; decide)
    | (apply Keeps.into loopCtrl_keeps; decide) | (apply Keeps.into refreshCfg_keeps; decide)
    | (apply Keeps.into refreshIdle_keeps; decide) | (apply Keeps.into modLoop_keeps; decide) | apply Keeps.ite
    | intro _ | split | (dsimp only; split)

theorem State.prfReg_keeps : Keeps [.free, .prfs, .loopEng] s (State.prfReg s fn n r v) := by
  unfold State.prfReg
  with_reducible repeat' first
    | exact Keeps.rfl | (apply Keeps.into prfCtrl_keeps; decide) | (apply Keeps.into prfTarget_keeps; decide)
    | (apply Keeps.into modPrf_keeps; decide) | apply Keeps.ite | intro _ | split | (dsimp only; split)

theorem State.loopRegion_keeps : Keeps [.free, .loops, .prfs, .loopEng, .fouts] s (State.loopRegion s fn off v) := by
  unfold State.loopRegion
  with_reducible repeat' first
    | exact Keeps.rfl | (apply Keeps.into prfReg_keeps; decide) | (apply Keeps.into loopReg_keeps; decide)
    | (apply Keeps.into capCtrl_keeps; decide) | apply Keeps.ite | intro _ | split | (dsimp only; split)

theorem State.beforeEvents_keeps : Keeps [.chans, .locks, .convs, .fouts] s (State.beforeEvents s) := by
  intro p hp; cases p <;> first | exact Eq.refl _ | exact absurd (by decide) hp

theorem State.clearRead_keeps : Keeps [.snap, .chans, .locks, .convs, .fouts] s (State.clearRead s fn off) := by
  unfold State.clearRead
  dsimp only
  repeat' refine Keeps.ite (fun _ => ?_) (fun _ => ?_)
  all_goals first | exact Keeps.rfl | (intro p hp; cases p <;> first | exact Eq.refl _ | exact absurd (by decide) hp)

theorem effectRcRead_keeps :
    Keeps [.readOut, .snap, .chans, .locks, .clusters, .convs, .ang, .fouts, .links] s (effectRcRead who off s) := by
  unfold effectRcRead
  with_reducible repeat' first
    | exact Keeps.rfl | (apply Keeps.into clearRead_keeps; decide) | (apply Keeps.into beforeEvents_keeps; decide)
    | (apply Keeps.into countedTo_keeps; decide) | (apply Keeps.into effectAngCycLoRead_keeps; decide)
    | (apply Keeps.into effectFinFifoRead_keeps; decide) | (apply Keeps.into effectLockRead_keeps; decide)
    | apply Keeps.ite | intro _ | split | (dsimp only; split) | (apply Keeps.readOut; decide)

theorem effectRegisterWrite_keeps :
    Keeps [.free, .aon, .chans, .locks, .streams, .loops, .prfs, .loopEng, .convs, .incfg, .incfgAt, .ang, .sched,
      .fouts, .foutDenied]
      s (effectRegisterWrite who off v s) := by
  unfold effectRegisterWrite
  with_reducible repeat' first
    | exact Keeps.rfl | (apply Keeps.into loopRegion_keeps; decide) | (apply Keeps.into angRegion_keeps; decide)
    | (apply Keeps.into foutReg_keeps; decide) | (apply Keeps.into finWrite_keeps; decide)
    | (apply Keeps.into mailWrite_keeps; decide) | (apply Keeps.into aonWrite_keeps; decide)
    | (apply Keeps.loopWrite; decide) | (apply Keeps.angWrite; decide) | (apply Keeps.foutWrite; decide)
    | (apply Keeps.into effectLockWrite_keeps; decide) | apply Keeps.ite | intro _ | split | (dsimp only; split)

theorem State.withFetchWord_keeps {nbits : Nat} : Keeps [.pending] s (State.withFetchWord s nbits w) := by
  unfold State.withFetchWord
  split
  · exact Keeps.pending (by decide) Keeps.rfl
  · exact Keeps.rfl

end Sys2Proof.Machine
end

