-- ==== Sys2Proof/Laws/State.lean ====
section
/-! SUPPORT. Laws of State: what every update leaves in every field and in every record, so that no proof unfolds a
record update; sparse tables; the shape of a meaning. -/

namespace Sys2Proof.Machine

/-! ### Sparse tables -/

theorem Tab.get_filter {α : Type} (d : α) (m : Tab α) (i j : Nat) :
    Tab.get d (m.filter fun p => p.1 ≠ i) j = if j = i then d else Tab.get d m j := by
  induction m with
  | nil => simp [Tab.get]
  | cons p m ih =>
    obtain ⟨k, v⟩ := p
    rcases Decidable.em (k = i) with rfl | h
    · rw [List.filter_cons_of_neg (by simp), ih]
      rcases Decidable.em (j = k) with rfl | h'
      · simp
      · simp [Tab.get, h', Ne.symm h']
    · rw [List.filter_cons_of_pos (by simpa using h)]
      simp only [Tab.get, ih]
      rcases Decidable.em (k = j) with rfl | h'
      · simp [h]
      · simp [h']

theorem Tab.get_ins {α : Type} (d : α) (m : Tab α) (i : Nat) (v : α) (j : Nat) (h : ∀ p ∈ m, p.1 ≠ i) :
    Tab.get d (Tab.ins i v m) j = if j = i then v else Tab.get d m j := by
  induction m with
  | nil => simp [Tab.get, Tab.ins, eq_comm]
  | cons p m ih =>
    obtain ⟨k, w⟩ := p
    have hk : k ≠ i := h _ (List.mem_cons_self ..)
    have ih := ih fun p hp => h p (List.mem_cons_of_mem _ hp)
    simp only [Tab.ins]
    split
    · simp [Tab.get, eq_comm]
    · simp only [Tab.get, ih]
      rcases Decidable.em (k = j) with rfl | h'
      · simp [hk]
      · simp [h']

/-- A table reads what was put, and elsewhere what it read before. -/
theorem Tab.get_put {α : Type} [DecidableEq α] (d : α) (m : Tab α) (i : Nat) (v : α) (j : Nat) :
    Tab.get d (Tab.put d m i v) j = if j = i then v else Tab.get d m j := by
  unfold Tab.put
  dsimp only
  split
  · rename_i h; rw [Tab.get_filter, h]
  · rw [Tab.get_ins _ _ _ _ _ (by simp), Tab.get_filter]
    split <;> simp_all
/-! ### The shape of a meaning -/

/-- A meaning answers the next state exactly where its operands name units of the module. -/
theorem act_next {ok : Bool} {t : Nat} {s s' : State} {f : State → State} :
    act ok t s f = .next s' ↔ ok = true ∧ s' = f (s.tick t) := by
  unfold act
  split <;> simp_all [eq_comm]

@[simp] theorem act_true (t : Nat) (s : State) (f : State → State) : act true t s f = .next (f (s.tick t)) := rfl

@[simp] theorem act_false (t : Nat) (s : State) (f : State → State) : act false t s f = .fault .noSuchUnit := rfl

/-! ### Fields after an update -/

@[simp] theorem State.tick_now (s : State) (t : Nat) : (s.tick t).now = max s.now t := rfl
@[simp] theorem State.draw_free (s : State) : s.draw.free = s.free + 1 := rfl
@[simp] theorem State.tick_pending (s : State) (t : Nat) : (s.tick t).pending = s.pending := rfl
@[simp] theorem State.tick_free (s : State) (t : Nat) : (s.tick t).free = s.free := rfl
@[simp] theorem State.tick_readOut (s : State) (t : Nat) : (s.tick t).readOut = s.readOut := rfl
@[simp] theorem State.tick_aon (s : State) (t : Nat) : (s.tick t).aon = s.aon := rfl
@[simp] theorem State.tick_fw (s : State) (t : Nat) : (s.tick t).fw = s.fw := rfl
@[simp] theorem State.tick_chans (s : State) (t : Nat) : (s.tick t).chans = s.chans := rfl
@[simp] theorem State.tick_locks (s : State) (t : Nat) : (s.tick t).locks = s.locks := rfl
@[simp] theorem State.tick_hbm (s : State) (t : Nat) : (s.tick t).hbm = s.hbm := rfl
@[simp] theorem State.tick_bad (s : State) (t : Nat) : (s.tick t).bad = s.bad := rfl
@[simp] theorem State.tick_wear (s : State) (t : Nat) : (s.tick t).wear = s.wear := rfl
@[simp] theorem State.tick_hbmStacks (s : State) (t : Nat) : (s.tick t).hbmStacks = s.hbmStacks := rfl
@[simp] theorem State.tick_descs (s : State) (t : Nat) : (s.tick t).descs = s.descs := rfl
@[simp] theorem State.tick_sram (s : State) (t : Nat) : (s.tick t).sram = s.sram := rfl
@[simp] theorem State.tick_clusters (s : State) (t : Nat) : (s.tick t).clusters = s.clusters := rfl
@[simp] theorem State.tick_streams (s : State) (t : Nat) : (s.tick t).streams = s.streams := rfl
@[simp] theorem State.tick_pools (s : State) (t : Nat) : (s.tick t).pools = s.pools := rfl
@[simp] theorem State.tick_progs (s : State) (t : Nat) : (s.tick t).progs = s.progs := rfl
@[simp] theorem State.tick_loops (s : State) (t : Nat) : (s.tick t).loops = s.loops := rfl
@[simp] theorem State.tick_prfs (s : State) (t : Nat) : (s.tick t).prfs = s.prfs := rfl
@[simp] theorem State.tick_loopEng (s : State) (t : Nat) : (s.tick t).loopEng = s.loopEng := rfl
@[simp] theorem State.tick_convs (s : State) (t : Nat) : (s.tick t).convs = s.convs := rfl
@[simp] theorem State.tick_incfg (s : State) (t : Nat) : (s.tick t).incfg = s.incfg := rfl
@[simp] theorem State.tick_incfgAt (s : State) (t : Nat) : (s.tick t).incfgAt = s.incfgAt := rfl
@[simp] theorem State.tick_ang (s : State) (t : Nat) : (s.tick t).ang = s.ang := rfl
@[simp] theorem State.tick_sched (s : State) (t : Nat) : (s.tick t).sched = s.sched := rfl
@[simp] theorem State.tick_fouts (s : State) (t : Nat) : (s.tick t).fouts = s.fouts := rfl
@[simp] theorem State.tick_foutDenied (s : State) (t : Nat) : (s.tick t).foutDenied = s.foutDenied := rfl
@[simp] theorem State.tick_links (s : State) (t : Nat) : (s.tick t).links = s.links := rfl
@[simp] theorem State.tick_linkMod (s : State) (t : Nat) : (s.tick t).linkMod = s.linkMod := rfl
@[simp] theorem State.draw_now (s : State) : s.draw.now = s.now := rfl
@[simp] theorem State.draw_pending (s : State) : s.draw.pending = s.pending := rfl
@[simp] theorem State.draw_readOut (s : State) : s.draw.readOut = s.readOut := rfl
@[simp] theorem State.draw_snap (s : State) : s.draw.snap = s.snap := rfl
@[simp] theorem State.draw_aon (s : State) : s.draw.aon = s.aon := rfl
@[simp] theorem State.draw_fw (s : State) : s.draw.fw = s.fw := rfl
@[simp] theorem State.draw_chans (s : State) : s.draw.chans = s.chans := rfl
@[simp] theorem State.draw_locks (s : State) : s.draw.locks = s.locks := rfl
@[simp] theorem State.draw_hbm (s : State) : s.draw.hbm = s.hbm := rfl
@[simp] theorem State.draw_bad (s : State) : s.draw.bad = s.bad := rfl
@[simp] theorem State.draw_wear (s : State) : s.draw.wear = s.wear := rfl
@[simp] theorem State.draw_hbmStacks (s : State) : s.draw.hbmStacks = s.hbmStacks := rfl
@[simp] theorem State.draw_descs (s : State) : s.draw.descs = s.descs := rfl
@[simp] theorem State.draw_sram (s : State) : s.draw.sram = s.sram := rfl
@[simp] theorem State.draw_clusters (s : State) : s.draw.clusters = s.clusters := rfl
@[simp] theorem State.draw_streams (s : State) : s.draw.streams = s.streams := rfl
@[simp] theorem State.draw_pools (s : State) : s.draw.pools = s.pools := rfl
@[simp] theorem State.draw_progs (s : State) : s.draw.progs = s.progs := rfl
@[simp] theorem State.draw_loops (s : State) : s.draw.loops = s.loops := rfl
@[simp] theorem State.draw_prfs (s : State) : s.draw.prfs = s.prfs := rfl
@[simp] theorem State.draw_loopEng (s : State) : s.draw.loopEng = s.loopEng := rfl
@[simp] theorem State.draw_convs (s : State) : s.draw.convs = s.convs := rfl
@[simp] theorem State.draw_incfg (s : State) : s.draw.incfg = s.incfg := rfl
@[simp] theorem State.draw_incfgAt (s : State) : s.draw.incfgAt = s.incfgAt := rfl
@[simp] theorem State.draw_ang (s : State) : s.draw.ang = s.ang := rfl
@[simp] theorem State.draw_sched (s : State) : s.draw.sched = s.sched := rfl
@[simp] theorem State.draw_fouts (s : State) : s.draw.fouts = s.fouts := rfl
@[simp] theorem State.draw_foutDenied (s : State) : s.draw.foutDenied = s.foutDenied := rfl
@[simp] theorem State.draw_links (s : State) : s.draw.links = s.links := rfl
@[simp] theorem State.draw_linkMod (s : State) : s.draw.linkMod = s.linkMod := rfl

variable (s : State) (c d e i k n img : Nat) (u : UnitId)

/-! Cluster -/

@[simp] theorem State.setCluster_now (v : Cluster) : (s.setCluster c v).now = s.now := rfl
@[simp] theorem State.setCluster_pending (v : Cluster) : (s.setCluster c v).pending = s.pending := rfl
@[simp] theorem State.setCluster_free (v : Cluster) : (s.setCluster c v).free = s.free := rfl
@[simp] theorem State.setCluster_readOut (v : Cluster) : (s.setCluster c v).readOut = s.readOut := rfl
@[simp] theorem State.setCluster_snap (v : Cluster) : (s.setCluster c v).snap = s.snap := rfl
@[simp] theorem State.setCluster_aon (v : Cluster) : (s.setCluster c v).aon = s.aon := rfl
@[simp] theorem State.setCluster_fw (v : Cluster) : (s.setCluster c v).fw = s.fw := rfl
@[simp] theorem State.setCluster_chans (v : Cluster) : (s.setCluster c v).chans = s.chans := rfl
@[simp] theorem State.setCluster_locks (v : Cluster) : (s.setCluster c v).locks = s.locks := rfl
@[simp] theorem State.setCluster_hbm (v : Cluster) : (s.setCluster c v).hbm = s.hbm := rfl
@[simp] theorem State.setCluster_bad (v : Cluster) : (s.setCluster c v).bad = s.bad := rfl
@[simp] theorem State.setCluster_wear (v : Cluster) : (s.setCluster c v).wear = s.wear := rfl
@[simp] theorem State.setCluster_hbmStacks (v : Cluster) : (s.setCluster c v).hbmStacks = s.hbmStacks := rfl
@[simp] theorem State.setCluster_descs (v : Cluster) : (s.setCluster c v).descs = s.descs := rfl
@[simp] theorem State.setCluster_sram (v : Cluster) : (s.setCluster c v).sram = s.sram := rfl
@[simp] theorem State.setCluster_streams (v : Cluster) : (s.setCluster c v).streams = s.streams := rfl
@[simp] theorem State.setCluster_pools (v : Cluster) : (s.setCluster c v).pools = s.pools := rfl
@[simp] theorem State.setCluster_progs (v : Cluster) : (s.setCluster c v).progs = s.progs := rfl
@[simp] theorem State.setCluster_loops (v : Cluster) : (s.setCluster c v).loops = s.loops := rfl
@[simp] theorem State.setCluster_prfs (v : Cluster) : (s.setCluster c v).prfs = s.prfs := rfl
@[simp] theorem State.setCluster_loopEng (v : Cluster) : (s.setCluster c v).loopEng = s.loopEng := rfl
@[simp] theorem State.setCluster_convs (v : Cluster) : (s.setCluster c v).convs = s.convs := rfl
@[simp] theorem State.setCluster_incfg (v : Cluster) : (s.setCluster c v).incfg = s.incfg := rfl
@[simp] theorem State.setCluster_incfgAt (v : Cluster) : (s.setCluster c v).incfgAt = s.incfgAt := rfl
@[simp] theorem State.setCluster_ang (v : Cluster) : (s.setCluster c v).ang = s.ang := rfl
@[simp] theorem State.setCluster_sched (v : Cluster) : (s.setCluster c v).sched = s.sched := rfl
@[simp] theorem State.setCluster_fouts (v : Cluster) : (s.setCluster c v).fouts = s.fouts := rfl
@[simp] theorem State.setCluster_foutDenied (v : Cluster) : (s.setCluster c v).foutDenied = s.foutDenied := rfl
@[simp] theorem State.setCluster_links (v : Cluster) : (s.setCluster c v).links = s.links := rfl
@[simp] theorem State.setCluster_linkMod (v : Cluster) : (s.setCluster c v).linkMod = s.linkMod := rfl
@[simp] theorem State.modCluster_set (f : Cluster → Cluster) : s.modCluster c f = s.setCluster c (f (s.cluster c)) := rfl

/-! Stream -/

@[simp] theorem State.setStream_now (v : Stream) : (s.setStream i v).now = s.now := rfl
@[simp] theorem State.setStream_pending (v : Stream) : (s.setStream i v).pending = s.pending := rfl
@[simp] theorem State.setStream_free (v : Stream) : (s.setStream i v).free = s.free := rfl
@[simp] theorem State.setStream_readOut (v : Stream) : (s.setStream i v).readOut = s.readOut := rfl
@[simp] theorem State.setStream_snap (v : Stream) : (s.setStream i v).snap = s.snap := rfl
@[simp] theorem State.setStream_aon (v : Stream) : (s.setStream i v).aon = s.aon := rfl
@[simp] theorem State.setStream_fw (v : Stream) : (s.setStream i v).fw = s.fw := rfl
@[simp] theorem State.setStream_chans (v : Stream) : (s.setStream i v).chans = s.chans := rfl
@[simp] theorem State.setStream_locks (v : Stream) : (s.setStream i v).locks = s.locks := rfl
@[simp] theorem State.setStream_hbm (v : Stream) : (s.setStream i v).hbm = s.hbm := rfl
@[simp] theorem State.setStream_bad (v : Stream) : (s.setStream i v).bad = s.bad := rfl
@[simp] theorem State.setStream_wear (v : Stream) : (s.setStream i v).wear = s.wear := rfl
@[simp] theorem State.setStream_hbmStacks (v : Stream) : (s.setStream i v).hbmStacks = s.hbmStacks := rfl
@[simp] theorem State.setStream_descs (v : Stream) : (s.setStream i v).descs = s.descs := rfl
@[simp] theorem State.setStream_sram (v : Stream) : (s.setStream i v).sram = s.sram := rfl
@[simp] theorem State.setStream_clusters (v : Stream) : (s.setStream i v).clusters = s.clusters := rfl
@[simp] theorem State.setStream_pools (v : Stream) : (s.setStream i v).pools = s.pools := rfl
@[simp] theorem State.setStream_progs (v : Stream) : (s.setStream i v).progs = s.progs := rfl
@[simp] theorem State.setStream_loops (v : Stream) : (s.setStream i v).loops = s.loops := rfl
@[simp] theorem State.setStream_prfs (v : Stream) : (s.setStream i v).prfs = s.prfs := rfl
@[simp] theorem State.setStream_loopEng (v : Stream) : (s.setStream i v).loopEng = s.loopEng := rfl
@[simp] theorem State.setStream_convs (v : Stream) : (s.setStream i v).convs = s.convs := rfl
@[simp] theorem State.setStream_incfg (v : Stream) : (s.setStream i v).incfg = s.incfg := rfl
@[simp] theorem State.setStream_incfgAt (v : Stream) : (s.setStream i v).incfgAt = s.incfgAt := rfl
@[simp] theorem State.setStream_ang (v : Stream) : (s.setStream i v).ang = s.ang := rfl
@[simp] theorem State.setStream_sched (v : Stream) : (s.setStream i v).sched = s.sched := rfl
@[simp] theorem State.setStream_fouts (v : Stream) : (s.setStream i v).fouts = s.fouts := rfl
@[simp] theorem State.setStream_foutDenied (v : Stream) : (s.setStream i v).foutDenied = s.foutDenied := rfl
@[simp] theorem State.setStream_links (v : Stream) : (s.setStream i v).links = s.links := rfl
@[simp] theorem State.setStream_linkMod (v : Stream) : (s.setStream i v).linkMod = s.linkMod := rfl
@[simp] theorem State.modStream_set (f : Stream → Stream) : s.modStream i f = s.setStream i (f (s.stream i)) := rfl

/-! Pool -/

@[simp] theorem State.setPool_now (v : Pool) : (s.setPool i v).now = s.now := rfl
@[simp] theorem State.setPool_pending (v : Pool) : (s.setPool i v).pending = s.pending := rfl
@[simp] theorem State.setPool_free (v : Pool) : (s.setPool i v).free = s.free := rfl
@[simp] theorem State.setPool_readOut (v : Pool) : (s.setPool i v).readOut = s.readOut := rfl
@[simp] theorem State.setPool_snap (v : Pool) : (s.setPool i v).snap = s.snap := rfl
@[simp] theorem State.setPool_aon (v : Pool) : (s.setPool i v).aon = s.aon := rfl
@[simp] theorem State.setPool_fw (v : Pool) : (s.setPool i v).fw = s.fw := rfl
@[simp] theorem State.setPool_chans (v : Pool) : (s.setPool i v).chans = s.chans := rfl
@[simp] theorem State.setPool_locks (v : Pool) : (s.setPool i v).locks = s.locks := rfl
@[simp] theorem State.setPool_hbm (v : Pool) : (s.setPool i v).hbm = s.hbm := rfl
@[simp] theorem State.setPool_bad (v : Pool) : (s.setPool i v).bad = s.bad := rfl
@[simp] theorem State.setPool_wear (v : Pool) : (s.setPool i v).wear = s.wear := rfl
@[simp] theorem State.setPool_hbmStacks (v : Pool) : (s.setPool i v).hbmStacks = s.hbmStacks := rfl
@[simp] theorem State.setPool_descs (v : Pool) : (s.setPool i v).descs = s.descs := rfl
@[simp] theorem State.setPool_sram (v : Pool) : (s.setPool i v).sram = s.sram := rfl
@[simp] theorem State.setPool_clusters (v : Pool) : (s.setPool i v).clusters = s.clusters := rfl
@[simp] theorem State.setPool_streams (v : Pool) : (s.setPool i v).streams = s.streams := rfl
@[simp] theorem State.setPool_progs (v : Pool) : (s.setPool i v).progs = s.progs := rfl
@[simp] theorem State.setPool_loops (v : Pool) : (s.setPool i v).loops = s.loops := rfl
@[simp] theorem State.setPool_prfs (v : Pool) : (s.setPool i v).prfs = s.prfs := rfl
@[simp] theorem State.setPool_loopEng (v : Pool) : (s.setPool i v).loopEng = s.loopEng := rfl
@[simp] theorem State.setPool_convs (v : Pool) : (s.setPool i v).convs = s.convs := rfl
@[simp] theorem State.setPool_incfg (v : Pool) : (s.setPool i v).incfg = s.incfg := rfl
@[simp] theorem State.setPool_incfgAt (v : Pool) : (s.setPool i v).incfgAt = s.incfgAt := rfl
@[simp] theorem State.setPool_ang (v : Pool) : (s.setPool i v).ang = s.ang := rfl
@[simp] theorem State.setPool_sched (v : Pool) : (s.setPool i v).sched = s.sched := rfl
@[simp] theorem State.setPool_fouts (v : Pool) : (s.setPool i v).fouts = s.fouts := rfl
@[simp] theorem State.setPool_foutDenied (v : Pool) : (s.setPool i v).foutDenied = s.foutDenied := rfl
@[simp] theorem State.setPool_links (v : Pool) : (s.setPool i v).links = s.links := rfl
@[simp] theorem State.setPool_linkMod (v : Pool) : (s.setPool i v).linkMod = s.linkMod := rfl
@[simp] theorem State.modPool_set (f : Pool → Pool) : s.modPool i f = s.setPool i (f (s.pool i)) := rfl

/-! Stack -/

@[simp] theorem State.setStack_now (v : Stack) : (s.setStack e v).now = s.now := rfl
@[simp] theorem State.setStack_pending (v : Stack) : (s.setStack e v).pending = s.pending := rfl
@[simp] theorem State.setStack_free (v : Stack) : (s.setStack e v).free = s.free := rfl
@[simp] theorem State.setStack_readOut (v : Stack) : (s.setStack e v).readOut = s.readOut := rfl
@[simp] theorem State.setStack_snap (v : Stack) : (s.setStack e v).snap = s.snap := rfl
@[simp] theorem State.setStack_aon (v : Stack) : (s.setStack e v).aon = s.aon := rfl
@[simp] theorem State.setStack_fw (v : Stack) : (s.setStack e v).fw = s.fw := rfl
@[simp] theorem State.setStack_chans (v : Stack) : (s.setStack e v).chans = s.chans := rfl
@[simp] theorem State.setStack_locks (v : Stack) : (s.setStack e v).locks = s.locks := rfl
@[simp] theorem State.setStack_hbm (v : Stack) : (s.setStack e v).hbm = s.hbm := rfl
@[simp] theorem State.setStack_bad (v : Stack) : (s.setStack e v).bad = s.bad := rfl
@[simp] theorem State.setStack_wear (v : Stack) : (s.setStack e v).wear = s.wear := rfl
@[simp] theorem State.setStack_descs (v : Stack) : (s.setStack e v).descs = s.descs := rfl
@[simp] theorem State.setStack_sram (v : Stack) : (s.setStack e v).sram = s.sram := rfl
@[simp] theorem State.setStack_clusters (v : Stack) : (s.setStack e v).clusters = s.clusters := rfl
@[simp] theorem State.setStack_streams (v : Stack) : (s.setStack e v).streams = s.streams := rfl
@[simp] theorem State.setStack_pools (v : Stack) : (s.setStack e v).pools = s.pools := rfl
@[simp] theorem State.setStack_progs (v : Stack) : (s.setStack e v).progs = s.progs := rfl
@[simp] theorem State.setStack_loops (v : Stack) : (s.setStack e v).loops = s.loops := rfl
@[simp] theorem State.setStack_prfs (v : Stack) : (s.setStack e v).prfs = s.prfs := rfl
@[simp] theorem State.setStack_loopEng (v : Stack) : (s.setStack e v).loopEng = s.loopEng := rfl
@[simp] theorem State.setStack_convs (v : Stack) : (s.setStack e v).convs = s.convs := rfl
@[simp] theorem State.setStack_incfg (v : Stack) : (s.setStack e v).incfg = s.incfg := rfl
@[simp] theorem State.setStack_incfgAt (v : Stack) : (s.setStack e v).incfgAt = s.incfgAt := rfl
@[simp] theorem State.setStack_ang (v : Stack) : (s.setStack e v).ang = s.ang := rfl
@[simp] theorem State.setStack_sched (v : Stack) : (s.setStack e v).sched = s.sched := rfl
@[simp] theorem State.setStack_fouts (v : Stack) : (s.setStack e v).fouts = s.fouts := rfl
@[simp] theorem State.setStack_foutDenied (v : Stack) : (s.setStack e v).foutDenied = s.foutDenied := rfl
@[simp] theorem State.setStack_links (v : Stack) : (s.setStack e v).links = s.links := rfl
@[simp] theorem State.setStack_linkMod (v : Stack) : (s.setStack e v).linkMod = s.linkMod := rfl
@[simp] theorem State.modStack_set (f : Stack → Stack) : s.modStack e f = s.setStack e (f (s.stack e)) := rfl

/-! Desc -/

@[simp] theorem State.setDesc_now (v : Desc) : (s.setDesc e d v).now = s.now := rfl
@[simp] theorem State.setDesc_pending (v : Desc) : (s.setDesc e d v).pending = s.pending := rfl
@[simp] theorem State.setDesc_free (v : Desc) : (s.setDesc e d v).free = s.free := rfl
@[simp] theorem State.setDesc_readOut (v : Desc) : (s.setDesc e d v).readOut = s.readOut := rfl
@[simp] theorem State.setDesc_snap (v : Desc) : (s.setDesc e d v).snap = s.snap := rfl
@[simp] theorem State.setDesc_aon (v : Desc) : (s.setDesc e d v).aon = s.aon := rfl
@[simp] theorem State.setDesc_fw (v : Desc) : (s.setDesc e d v).fw = s.fw := rfl
@[simp] theorem State.setDesc_chans (v : Desc) : (s.setDesc e d v).chans = s.chans := rfl
@[simp] theorem State.setDesc_locks (v : Desc) : (s.setDesc e d v).locks = s.locks := rfl
@[simp] theorem State.setDesc_hbm (v : Desc) : (s.setDesc e d v).hbm = s.hbm := rfl
@[simp] theorem State.setDesc_bad (v : Desc) : (s.setDesc e d v).bad = s.bad := rfl
@[simp] theorem State.setDesc_wear (v : Desc) : (s.setDesc e d v).wear = s.wear := rfl
@[simp] theorem State.setDesc_hbmStacks (v : Desc) : (s.setDesc e d v).hbmStacks = s.hbmStacks := rfl
@[simp] theorem State.setDesc_sram (v : Desc) : (s.setDesc e d v).sram = s.sram := rfl
@[simp] theorem State.setDesc_clusters (v : Desc) : (s.setDesc e d v).clusters = s.clusters := rfl
@[simp] theorem State.setDesc_streams (v : Desc) : (s.setDesc e d v).streams = s.streams := rfl
@[simp] theorem State.setDesc_pools (v : Desc) : (s.setDesc e d v).pools = s.pools := rfl
@[simp] theorem State.setDesc_progs (v : Desc) : (s.setDesc e d v).progs = s.progs := rfl
@[simp] theorem State.setDesc_loops (v : Desc) : (s.setDesc e d v).loops = s.loops := rfl
@[simp] theorem State.setDesc_prfs (v : Desc) : (s.setDesc e d v).prfs = s.prfs := rfl
@[simp] theorem State.setDesc_loopEng (v : Desc) : (s.setDesc e d v).loopEng = s.loopEng := rfl
@[simp] theorem State.setDesc_convs (v : Desc) : (s.setDesc e d v).convs = s.convs := rfl
@[simp] theorem State.setDesc_incfg (v : Desc) : (s.setDesc e d v).incfg = s.incfg := rfl
@[simp] theorem State.setDesc_incfgAt (v : Desc) : (s.setDesc e d v).incfgAt = s.incfgAt := rfl
@[simp] theorem State.setDesc_ang (v : Desc) : (s.setDesc e d v).ang = s.ang := rfl
@[simp] theorem State.setDesc_sched (v : Desc) : (s.setDesc e d v).sched = s.sched := rfl
@[simp] theorem State.setDesc_fouts (v : Desc) : (s.setDesc e d v).fouts = s.fouts := rfl
@[simp] theorem State.setDesc_foutDenied (v : Desc) : (s.setDesc e d v).foutDenied = s.foutDenied := rfl
@[simp] theorem State.setDesc_links (v : Desc) : (s.setDesc e d v).links = s.links := rfl
@[simp] theorem State.setDesc_linkMod (v : Desc) : (s.setDesc e d v).linkMod = s.linkMod := rfl
@[simp] theorem State.modDesc_set (f : Desc → Desc) : s.modDesc e d f = s.setDesc e d (f (s.desc e d)) := rfl

/-! Loop -/

@[simp] theorem State.setLoop_now (v : FieldLoop) : (s.setLoop n v).now = s.now := rfl
@[simp] theorem State.setLoop_pending (v : FieldLoop) : (s.setLoop n v).pending = s.pending := rfl
@[simp] theorem State.setLoop_free (v : FieldLoop) : (s.setLoop n v).free = s.free := rfl
@[simp] theorem State.setLoop_readOut (v : FieldLoop) : (s.setLoop n v).readOut = s.readOut := rfl
@[simp] theorem State.setLoop_snap (v : FieldLoop) : (s.setLoop n v).snap = s.snap := rfl
@[simp] theorem State.setLoop_aon (v : FieldLoop) : (s.setLoop n v).aon = s.aon := rfl
@[simp] theorem State.setLoop_fw (v : FieldLoop) : (s.setLoop n v).fw = s.fw := rfl
@[simp] theorem State.setLoop_chans (v : FieldLoop) : (s.setLoop n v).chans = s.chans := rfl
@[simp] theorem State.setLoop_locks (v : FieldLoop) : (s.setLoop n v).locks = s.locks := rfl
@[simp] theorem State.setLoop_hbm (v : FieldLoop) : (s.setLoop n v).hbm = s.hbm := rfl
@[simp] theorem State.setLoop_bad (v : FieldLoop) : (s.setLoop n v).bad = s.bad := rfl
@[simp] theorem State.setLoop_wear (v : FieldLoop) : (s.setLoop n v).wear = s.wear := rfl
@[simp] theorem State.setLoop_hbmStacks (v : FieldLoop) : (s.setLoop n v).hbmStacks = s.hbmStacks := rfl
@[simp] theorem State.setLoop_descs (v : FieldLoop) : (s.setLoop n v).descs = s.descs := rfl
@[simp] theorem State.setLoop_sram (v : FieldLoop) : (s.setLoop n v).sram = s.sram := rfl
@[simp] theorem State.setLoop_clusters (v : FieldLoop) : (s.setLoop n v).clusters = s.clusters := rfl
@[simp] theorem State.setLoop_streams (v : FieldLoop) : (s.setLoop n v).streams = s.streams := rfl
@[simp] theorem State.setLoop_pools (v : FieldLoop) : (s.setLoop n v).pools = s.pools := rfl
@[simp] theorem State.setLoop_progs (v : FieldLoop) : (s.setLoop n v).progs = s.progs := rfl
@[simp] theorem State.setLoop_prfs (v : FieldLoop) : (s.setLoop n v).prfs = s.prfs := rfl
@[simp] theorem State.setLoop_loopEng (v : FieldLoop) : (s.setLoop n v).loopEng = s.loopEng := rfl
@[simp] theorem State.setLoop_convs (v : FieldLoop) : (s.setLoop n v).convs = s.convs := rfl
@[simp] theorem State.setLoop_incfg (v : FieldLoop) : (s.setLoop n v).incfg = s.incfg := rfl
@[simp] theorem State.setLoop_incfgAt (v : FieldLoop) : (s.setLoop n v).incfgAt = s.incfgAt := rfl
@[simp] theorem State.setLoop_ang (v : FieldLoop) : (s.setLoop n v).ang = s.ang := rfl
@[simp] theorem State.setLoop_sched (v : FieldLoop) : (s.setLoop n v).sched = s.sched := rfl
@[simp] theorem State.setLoop_fouts (v : FieldLoop) : (s.setLoop n v).fouts = s.fouts := rfl
@[simp] theorem State.setLoop_foutDenied (v : FieldLoop) : (s.setLoop n v).foutDenied = s.foutDenied := rfl
@[simp] theorem State.setLoop_links (v : FieldLoop) : (s.setLoop n v).links = s.links := rfl
@[simp] theorem State.setLoop_linkMod (v : FieldLoop) : (s.setLoop n v).linkMod = s.linkMod := rfl
@[simp] theorem State.modLoop_set (f : FieldLoop → FieldLoop) : s.modLoop n f = s.setLoop n (f (s.fieldLoop n)) := rfl

/-! Prf -/

@[simp] theorem State.setPrf_now (v : Profile) : (s.setPrf n v).now = s.now := rfl
@[simp] theorem State.setPrf_pending (v : Profile) : (s.setPrf n v).pending = s.pending := rfl
@[simp] theorem State.setPrf_free (v : Profile) : (s.setPrf n v).free = s.free := rfl
@[simp] theorem State.setPrf_readOut (v : Profile) : (s.setPrf n v).readOut = s.readOut := rfl
@[simp] theorem State.setPrf_snap (v : Profile) : (s.setPrf n v).snap = s.snap := rfl
@[simp] theorem State.setPrf_aon (v : Profile) : (s.setPrf n v).aon = s.aon := rfl
@[simp] theorem State.setPrf_fw (v : Profile) : (s.setPrf n v).fw = s.fw := rfl
@[simp] theorem State.setPrf_chans (v : Profile) : (s.setPrf n v).chans = s.chans := rfl
@[simp] theorem State.setPrf_locks (v : Profile) : (s.setPrf n v).locks = s.locks := rfl
@[simp] theorem State.setPrf_hbm (v : Profile) : (s.setPrf n v).hbm = s.hbm := rfl
@[simp] theorem State.setPrf_bad (v : Profile) : (s.setPrf n v).bad = s.bad := rfl
@[simp] theorem State.setPrf_wear (v : Profile) : (s.setPrf n v).wear = s.wear := rfl
@[simp] theorem State.setPrf_hbmStacks (v : Profile) : (s.setPrf n v).hbmStacks = s.hbmStacks := rfl
@[simp] theorem State.setPrf_descs (v : Profile) : (s.setPrf n v).descs = s.descs := rfl
@[simp] theorem State.setPrf_sram (v : Profile) : (s.setPrf n v).sram = s.sram := rfl
@[simp] theorem State.setPrf_clusters (v : Profile) : (s.setPrf n v).clusters = s.clusters := rfl
@[simp] theorem State.setPrf_streams (v : Profile) : (s.setPrf n v).streams = s.streams := rfl
@[simp] theorem State.setPrf_pools (v : Profile) : (s.setPrf n v).pools = s.pools := rfl
@[simp] theorem State.setPrf_progs (v : Profile) : (s.setPrf n v).progs = s.progs := rfl
@[simp] theorem State.setPrf_loops (v : Profile) : (s.setPrf n v).loops = s.loops := rfl
@[simp] theorem State.setPrf_loopEng (v : Profile) : (s.setPrf n v).loopEng = s.loopEng := rfl
@[simp] theorem State.setPrf_convs (v : Profile) : (s.setPrf n v).convs = s.convs := rfl
@[simp] theorem State.setPrf_incfg (v : Profile) : (s.setPrf n v).incfg = s.incfg := rfl
@[simp] theorem State.setPrf_incfgAt (v : Profile) : (s.setPrf n v).incfgAt = s.incfgAt := rfl
@[simp] theorem State.setPrf_ang (v : Profile) : (s.setPrf n v).ang = s.ang := rfl
@[simp] theorem State.setPrf_sched (v : Profile) : (s.setPrf n v).sched = s.sched := rfl
@[simp] theorem State.setPrf_fouts (v : Profile) : (s.setPrf n v).fouts = s.fouts := rfl
@[simp] theorem State.setPrf_foutDenied (v : Profile) : (s.setPrf n v).foutDenied = s.foutDenied := rfl
@[simp] theorem State.setPrf_links (v : Profile) : (s.setPrf n v).links = s.links := rfl
@[simp] theorem State.setPrf_linkMod (v : Profile) : (s.setPrf n v).linkMod = s.linkMod := rfl
@[simp] theorem State.modPrf_set (f : Profile → Profile) : s.modPrf n f = s.setPrf n (f (s.prf n)) := rfl

/-! Conv -/

@[simp] theorem State.setConv_now (v : Conv) : (s.setConv k v).now = s.now := rfl
@[simp] theorem State.setConv_pending (v : Conv) : (s.setConv k v).pending = s.pending := rfl
@[simp] theorem State.setConv_free (v : Conv) : (s.setConv k v).free = s.free := rfl
@[simp] theorem State.setConv_readOut (v : Conv) : (s.setConv k v).readOut = s.readOut := rfl
@[simp] theorem State.setConv_snap (v : Conv) : (s.setConv k v).snap = s.snap := rfl
@[simp] theorem State.setConv_aon (v : Conv) : (s.setConv k v).aon = s.aon := rfl
@[simp] theorem State.setConv_fw (v : Conv) : (s.setConv k v).fw = s.fw := rfl
@[simp] theorem State.setConv_chans (v : Conv) : (s.setConv k v).chans = s.chans := rfl
@[simp] theorem State.setConv_locks (v : Conv) : (s.setConv k v).locks = s.locks := rfl
@[simp] theorem State.setConv_hbm (v : Conv) : (s.setConv k v).hbm = s.hbm := rfl
@[simp] theorem State.setConv_bad (v : Conv) : (s.setConv k v).bad = s.bad := rfl
@[simp] theorem State.setConv_wear (v : Conv) : (s.setConv k v).wear = s.wear := rfl
@[simp] theorem State.setConv_hbmStacks (v : Conv) : (s.setConv k v).hbmStacks = s.hbmStacks := rfl
@[simp] theorem State.setConv_descs (v : Conv) : (s.setConv k v).descs = s.descs := rfl
@[simp] theorem State.setConv_sram (v : Conv) : (s.setConv k v).sram = s.sram := rfl
@[simp] theorem State.setConv_clusters (v : Conv) : (s.setConv k v).clusters = s.clusters := rfl
@[simp] theorem State.setConv_streams (v : Conv) : (s.setConv k v).streams = s.streams := rfl
@[simp] theorem State.setConv_pools (v : Conv) : (s.setConv k v).pools = s.pools := rfl
@[simp] theorem State.setConv_progs (v : Conv) : (s.setConv k v).progs = s.progs := rfl
@[simp] theorem State.setConv_loops (v : Conv) : (s.setConv k v).loops = s.loops := rfl
@[simp] theorem State.setConv_prfs (v : Conv) : (s.setConv k v).prfs = s.prfs := rfl
@[simp] theorem State.setConv_loopEng (v : Conv) : (s.setConv k v).loopEng = s.loopEng := rfl
@[simp] theorem State.setConv_incfg (v : Conv) : (s.setConv k v).incfg = s.incfg := rfl
@[simp] theorem State.setConv_incfgAt (v : Conv) : (s.setConv k v).incfgAt = s.incfgAt := rfl
@[simp] theorem State.setConv_ang (v : Conv) : (s.setConv k v).ang = s.ang := rfl
@[simp] theorem State.setConv_sched (v : Conv) : (s.setConv k v).sched = s.sched := rfl
@[simp] theorem State.setConv_fouts (v : Conv) : (s.setConv k v).fouts = s.fouts := rfl
@[simp] theorem State.setConv_foutDenied (v : Conv) : (s.setConv k v).foutDenied = s.foutDenied := rfl
@[simp] theorem State.setConv_links (v : Conv) : (s.setConv k v).links = s.links := rfl
@[simp] theorem State.setConv_linkMod (v : Conv) : (s.setConv k v).linkMod = s.linkMod := rfl
@[simp] theorem State.modConv_set (f : Conv → Conv) : s.modConv k f = s.setConv k (f (s.conv k)) := rfl

/-! Sched -/

@[simp] theorem State.setSched_now (v : SchedEntry) : (s.setSched e v).now = s.now := rfl
@[simp] theorem State.setSched_pending (v : SchedEntry) : (s.setSched e v).pending = s.pending := rfl
@[simp] theorem State.setSched_free (v : SchedEntry) : (s.setSched e v).free = s.free := rfl
@[simp] theorem State.setSched_readOut (v : SchedEntry) : (s.setSched e v).readOut = s.readOut := rfl
@[simp] theorem State.setSched_snap (v : SchedEntry) : (s.setSched e v).snap = s.snap := rfl
@[simp] theorem State.setSched_aon (v : SchedEntry) : (s.setSched e v).aon = s.aon := rfl
@[simp] theorem State.setSched_fw (v : SchedEntry) : (s.setSched e v).fw = s.fw := rfl
@[simp] theorem State.setSched_chans (v : SchedEntry) : (s.setSched e v).chans = s.chans := rfl
@[simp] theorem State.setSched_locks (v : SchedEntry) : (s.setSched e v).locks = s.locks := rfl
@[simp] theorem State.setSched_hbm (v : SchedEntry) : (s.setSched e v).hbm = s.hbm := rfl
@[simp] theorem State.setSched_bad (v : SchedEntry) : (s.setSched e v).bad = s.bad := rfl
@[simp] theorem State.setSched_wear (v : SchedEntry) : (s.setSched e v).wear = s.wear := rfl
@[simp] theorem State.setSched_hbmStacks (v : SchedEntry) : (s.setSched e v).hbmStacks = s.hbmStacks := rfl
@[simp] theorem State.setSched_descs (v : SchedEntry) : (s.setSched e v).descs = s.descs := rfl
@[simp] theorem State.setSched_sram (v : SchedEntry) : (s.setSched e v).sram = s.sram := rfl
@[simp] theorem State.setSched_clusters (v : SchedEntry) : (s.setSched e v).clusters = s.clusters := rfl
@[simp] theorem State.setSched_streams (v : SchedEntry) : (s.setSched e v).streams = s.streams := rfl
@[simp] theorem State.setSched_pools (v : SchedEntry) : (s.setSched e v).pools = s.pools := rfl
@[simp] theorem State.setSched_progs (v : SchedEntry) : (s.setSched e v).progs = s.progs := rfl
@[simp] theorem State.setSched_loops (v : SchedEntry) : (s.setSched e v).loops = s.loops := rfl
@[simp] theorem State.setSched_prfs (v : SchedEntry) : (s.setSched e v).prfs = s.prfs := rfl
@[simp] theorem State.setSched_loopEng (v : SchedEntry) : (s.setSched e v).loopEng = s.loopEng := rfl
@[simp] theorem State.setSched_convs (v : SchedEntry) : (s.setSched e v).convs = s.convs := rfl
@[simp] theorem State.setSched_incfg (v : SchedEntry) : (s.setSched e v).incfg = s.incfg := rfl
@[simp] theorem State.setSched_incfgAt (v : SchedEntry) : (s.setSched e v).incfgAt = s.incfgAt := rfl
@[simp] theorem State.setSched_ang (v : SchedEntry) : (s.setSched e v).ang = s.ang := rfl
@[simp] theorem State.setSched_fouts (v : SchedEntry) : (s.setSched e v).fouts = s.fouts := rfl
@[simp] theorem State.setSched_foutDenied (v : SchedEntry) : (s.setSched e v).foutDenied = s.foutDenied := rfl
@[simp] theorem State.setSched_links (v : SchedEntry) : (s.setSched e v).links = s.links := rfl
@[simp] theorem State.setSched_linkMod (v : SchedEntry) : (s.setSched e v).linkMod = s.linkMod := rfl

/-! Fout -/

@[simp] theorem State.setFout_now (v : Fout) : (s.setFout n v).now = s.now := rfl
@[simp] theorem State.setFout_pending (v : Fout) : (s.setFout n v).pending = s.pending := rfl
@[simp] theorem State.setFout_free (v : Fout) : (s.setFout n v).free = s.free := rfl
@[simp] theorem State.setFout_readOut (v : Fout) : (s.setFout n v).readOut = s.readOut := rfl
@[simp] theorem State.setFout_snap (v : Fout) : (s.setFout n v).snap = s.snap := rfl
@[simp] theorem State.setFout_aon (v : Fout) : (s.setFout n v).aon = s.aon := rfl
@[simp] theorem State.setFout_fw (v : Fout) : (s.setFout n v).fw = s.fw := rfl
@[simp] theorem State.setFout_chans (v : Fout) : (s.setFout n v).chans = s.chans := rfl
@[simp] theorem State.setFout_locks (v : Fout) : (s.setFout n v).locks = s.locks := rfl
@[simp] theorem State.setFout_hbm (v : Fout) : (s.setFout n v).hbm = s.hbm := rfl
@[simp] theorem State.setFout_bad (v : Fout) : (s.setFout n v).bad = s.bad := rfl
@[simp] theorem State.setFout_wear (v : Fout) : (s.setFout n v).wear = s.wear := rfl
@[simp] theorem State.setFout_hbmStacks (v : Fout) : (s.setFout n v).hbmStacks = s.hbmStacks := rfl
@[simp] theorem State.setFout_descs (v : Fout) : (s.setFout n v).descs = s.descs := rfl
@[simp] theorem State.setFout_sram (v : Fout) : (s.setFout n v).sram = s.sram := rfl
@[simp] theorem State.setFout_clusters (v : Fout) : (s.setFout n v).clusters = s.clusters := rfl
@[simp] theorem State.setFout_streams (v : Fout) : (s.setFout n v).streams = s.streams := rfl
@[simp] theorem State.setFout_pools (v : Fout) : (s.setFout n v).pools = s.pools := rfl
@[simp] theorem State.setFout_progs (v : Fout) : (s.setFout n v).progs = s.progs := rfl
@[simp] theorem State.setFout_loops (v : Fout) : (s.setFout n v).loops = s.loops := rfl
@[simp] theorem State.setFout_prfs (v : Fout) : (s.setFout n v).prfs = s.prfs := rfl
@[simp] theorem State.setFout_loopEng (v : Fout) : (s.setFout n v).loopEng = s.loopEng := rfl
@[simp] theorem State.setFout_convs (v : Fout) : (s.setFout n v).convs = s.convs := rfl
@[simp] theorem State.setFout_incfg (v : Fout) : (s.setFout n v).incfg = s.incfg := rfl
@[simp] theorem State.setFout_incfgAt (v : Fout) : (s.setFout n v).incfgAt = s.incfgAt := rfl
@[simp] theorem State.setFout_ang (v : Fout) : (s.setFout n v).ang = s.ang := rfl
@[simp] theorem State.setFout_sched (v : Fout) : (s.setFout n v).sched = s.sched := rfl
@[simp] theorem State.setFout_foutDenied (v : Fout) : (s.setFout n v).foutDenied = s.foutDenied := rfl
@[simp] theorem State.setFout_links (v : Fout) : (s.setFout n v).links = s.links := rfl
@[simp] theorem State.setFout_linkMod (v : Fout) : (s.setFout n v).linkMod = s.linkMod := rfl
@[simp] theorem State.modFout_set (f : Fout → Fout) : s.modFout n f = s.setFout n (f (s.fout n)) := rfl

/-! Chan -/

@[simp] theorem State.setChan_now (v : Channel) : (s.setChan c v).now = s.now := rfl
@[simp] theorem State.setChan_pending (v : Channel) : (s.setChan c v).pending = s.pending := rfl
@[simp] theorem State.setChan_free (v : Channel) : (s.setChan c v).free = s.free := rfl
@[simp] theorem State.setChan_readOut (v : Channel) : (s.setChan c v).readOut = s.readOut := rfl
@[simp] theorem State.setChan_snap (v : Channel) : (s.setChan c v).snap = s.snap := rfl
@[simp] theorem State.setChan_aon (v : Channel) : (s.setChan c v).aon = s.aon := rfl
@[simp] theorem State.setChan_fw (v : Channel) : (s.setChan c v).fw = s.fw := rfl
@[simp] theorem State.setChan_locks (v : Channel) : (s.setChan c v).locks = s.locks := rfl
@[simp] theorem State.setChan_hbm (v : Channel) : (s.setChan c v).hbm = s.hbm := rfl
@[simp] theorem State.setChan_bad (v : Channel) : (s.setChan c v).bad = s.bad := rfl
@[simp] theorem State.setChan_wear (v : Channel) : (s.setChan c v).wear = s.wear := rfl
@[simp] theorem State.setChan_hbmStacks (v : Channel) : (s.setChan c v).hbmStacks = s.hbmStacks := rfl
@[simp] theorem State.setChan_descs (v : Channel) : (s.setChan c v).descs = s.descs := rfl
@[simp] theorem State.setChan_sram (v : Channel) : (s.setChan c v).sram = s.sram := rfl
@[simp] theorem State.setChan_clusters (v : Channel) : (s.setChan c v).clusters = s.clusters := rfl
@[simp] theorem State.setChan_streams (v : Channel) : (s.setChan c v).streams = s.streams := rfl
@[simp] theorem State.setChan_pools (v : Channel) : (s.setChan c v).pools = s.pools := rfl
@[simp] theorem State.setChan_progs (v : Channel) : (s.setChan c v).progs = s.progs := rfl
@[simp] theorem State.setChan_loops (v : Channel) : (s.setChan c v).loops = s.loops := rfl
@[simp] theorem State.setChan_prfs (v : Channel) : (s.setChan c v).prfs = s.prfs := rfl
@[simp] theorem State.setChan_loopEng (v : Channel) : (s.setChan c v).loopEng = s.loopEng := rfl
@[simp] theorem State.setChan_convs (v : Channel) : (s.setChan c v).convs = s.convs := rfl
@[simp] theorem State.setChan_incfg (v : Channel) : (s.setChan c v).incfg = s.incfg := rfl
@[simp] theorem State.setChan_incfgAt (v : Channel) : (s.setChan c v).incfgAt = s.incfgAt := rfl
@[simp] theorem State.setChan_ang (v : Channel) : (s.setChan c v).ang = s.ang := rfl
@[simp] theorem State.setChan_sched (v : Channel) : (s.setChan c v).sched = s.sched := rfl
@[simp] theorem State.setChan_fouts (v : Channel) : (s.setChan c v).fouts = s.fouts := rfl
@[simp] theorem State.setChan_foutDenied (v : Channel) : (s.setChan c v).foutDenied = s.foutDenied := rfl
@[simp] theorem State.setChan_links (v : Channel) : (s.setChan c v).links = s.links := rfl
@[simp] theorem State.setChan_linkMod (v : Channel) : (s.setChan c v).linkMod = s.linkMod := rfl
@[simp] theorem State.modChan_set (f : Channel → Channel) : s.modChan c f = s.setChan c (f (s.chan c)) := rfl

/-! Link -/

@[simp] theorem State.setLink_now (v : Link) : (s.setLink n v).now = s.now := rfl
@[simp] theorem State.setLink_pending (v : Link) : (s.setLink n v).pending = s.pending := rfl
@[simp] theorem State.setLink_free (v : Link) : (s.setLink n v).free = s.free := rfl
@[simp] theorem State.setLink_readOut (v : Link) : (s.setLink n v).readOut = s.readOut := rfl
@[simp] theorem State.setLink_snap (v : Link) : (s.setLink n v).snap = s.snap := rfl
@[simp] theorem State.setLink_aon (v : Link) : (s.setLink n v).aon = s.aon := rfl
@[simp] theorem State.setLink_fw (v : Link) : (s.setLink n v).fw = s.fw := rfl
@[simp] theorem State.setLink_chans (v : Link) : (s.setLink n v).chans = s.chans := rfl
@[simp] theorem State.setLink_locks (v : Link) : (s.setLink n v).locks = s.locks := rfl
@[simp] theorem State.setLink_hbm (v : Link) : (s.setLink n v).hbm = s.hbm := rfl
@[simp] theorem State.setLink_bad (v : Link) : (s.setLink n v).bad = s.bad := rfl
@[simp] theorem State.setLink_wear (v : Link) : (s.setLink n v).wear = s.wear := rfl
@[simp] theorem State.setLink_hbmStacks (v : Link) : (s.setLink n v).hbmStacks = s.hbmStacks := rfl
@[simp] theorem State.setLink_descs (v : Link) : (s.setLink n v).descs = s.descs := rfl
@[simp] theorem State.setLink_sram (v : Link) : (s.setLink n v).sram = s.sram := rfl
@[simp] theorem State.setLink_clusters (v : Link) : (s.setLink n v).clusters = s.clusters := rfl
@[simp] theorem State.setLink_streams (v : Link) : (s.setLink n v).streams = s.streams := rfl
@[simp] theorem State.setLink_pools (v : Link) : (s.setLink n v).pools = s.pools := rfl
@[simp] theorem State.setLink_progs (v : Link) : (s.setLink n v).progs = s.progs := rfl
@[simp] theorem State.setLink_loops (v : Link) : (s.setLink n v).loops = s.loops := rfl
@[simp] theorem State.setLink_prfs (v : Link) : (s.setLink n v).prfs = s.prfs := rfl
@[simp] theorem State.setLink_loopEng (v : Link) : (s.setLink n v).loopEng = s.loopEng := rfl
@[simp] theorem State.setLink_convs (v : Link) : (s.setLink n v).convs = s.convs := rfl
@[simp] theorem State.setLink_incfg (v : Link) : (s.setLink n v).incfg = s.incfg := rfl
@[simp] theorem State.setLink_incfgAt (v : Link) : (s.setLink n v).incfgAt = s.incfgAt := rfl
@[simp] theorem State.setLink_ang (v : Link) : (s.setLink n v).ang = s.ang := rfl
@[simp] theorem State.setLink_sched (v : Link) : (s.setLink n v).sched = s.sched := rfl
@[simp] theorem State.setLink_fouts (v : Link) : (s.setLink n v).fouts = s.fouts := rfl
@[simp] theorem State.setLink_foutDenied (v : Link) : (s.setLink n v).foutDenied = s.foutDenied := rfl
@[simp] theorem State.setLink_linkMod (v : Link) : (s.setLink n v).linkMod = s.linkMod := rfl
@[simp] theorem State.modLink_set (f : Link → Link) : s.modLink n f = s.setLink n (f (s.link n)) := rfl

/-! Image -/

@[simp] theorem State.setImage_now (v : ImgRec) : (s.setImage i v).now = s.now := rfl
@[simp] theorem State.setImage_pending (v : ImgRec) : (s.setImage i v).pending = s.pending := rfl
@[simp] theorem State.setImage_free (v : ImgRec) : (s.setImage i v).free = s.free := rfl
@[simp] theorem State.setImage_readOut (v : ImgRec) : (s.setImage i v).readOut = s.readOut := rfl
@[simp] theorem State.setImage_snap (v : ImgRec) : (s.setImage i v).snap = s.snap := rfl
@[simp] theorem State.setImage_aon (v : ImgRec) : (s.setImage i v).aon = s.aon := rfl
@[simp] theorem State.setImage_chans (v : ImgRec) : (s.setImage i v).chans = s.chans := rfl
@[simp] theorem State.setImage_locks (v : ImgRec) : (s.setImage i v).locks = s.locks := rfl
@[simp] theorem State.setImage_hbm (v : ImgRec) : (s.setImage i v).hbm = s.hbm := rfl
@[simp] theorem State.setImage_bad (v : ImgRec) : (s.setImage i v).bad = s.bad := rfl
@[simp] theorem State.setImage_wear (v : ImgRec) : (s.setImage i v).wear = s.wear := rfl
@[simp] theorem State.setImage_hbmStacks (v : ImgRec) : (s.setImage i v).hbmStacks = s.hbmStacks := rfl
@[simp] theorem State.setImage_descs (v : ImgRec) : (s.setImage i v).descs = s.descs := rfl
@[simp] theorem State.setImage_sram (v : ImgRec) : (s.setImage i v).sram = s.sram := rfl
@[simp] theorem State.setImage_clusters (v : ImgRec) : (s.setImage i v).clusters = s.clusters := rfl
@[simp] theorem State.setImage_streams (v : ImgRec) : (s.setImage i v).streams = s.streams := rfl
@[simp] theorem State.setImage_pools (v : ImgRec) : (s.setImage i v).pools = s.pools := rfl
@[simp] theorem State.setImage_progs (v : ImgRec) : (s.setImage i v).progs = s.progs := rfl
@[simp] theorem State.setImage_loops (v : ImgRec) : (s.setImage i v).loops = s.loops := rfl
@[simp] theorem State.setImage_prfs (v : ImgRec) : (s.setImage i v).prfs = s.prfs := rfl
@[simp] theorem State.setImage_loopEng (v : ImgRec) : (s.setImage i v).loopEng = s.loopEng := rfl
@[simp] theorem State.setImage_convs (v : ImgRec) : (s.setImage i v).convs = s.convs := rfl
@[simp] theorem State.setImage_incfg (v : ImgRec) : (s.setImage i v).incfg = s.incfg := rfl
@[simp] theorem State.setImage_incfgAt (v : ImgRec) : (s.setImage i v).incfgAt = s.incfgAt := rfl
@[simp] theorem State.setImage_ang (v : ImgRec) : (s.setImage i v).ang = s.ang := rfl
@[simp] theorem State.setImage_sched (v : ImgRec) : (s.setImage i v).sched = s.sched := rfl
@[simp] theorem State.setImage_fouts (v : ImgRec) : (s.setImage i v).fouts = s.fouts := rfl
@[simp] theorem State.setImage_foutDenied (v : ImgRec) : (s.setImage i v).foutDenied = s.foutDenied := rfl
@[simp] theorem State.setImage_links (v : ImgRec) : (s.setImage i v).links = s.links := rfl
@[simp] theorem State.setImage_linkMod (v : ImgRec) : (s.setImage i v).linkMod = s.linkMod := rfl
@[simp] theorem State.modImage_set (f : ImgRec → ImgRec) : s.modImage i f = s.setImage i (f (s.image i)) := rfl

/-! Firing lists -/

@[simp] theorem State.setProg_now (v : Prog) : (s.setProg u img v).now = s.now := rfl
@[simp] theorem State.setProg_pending (v : Prog) : (s.setProg u img v).pending = s.pending := rfl
@[simp] theorem State.setProg_free (v : Prog) : (s.setProg u img v).free = s.free := rfl
@[simp] theorem State.setProg_readOut (v : Prog) : (s.setProg u img v).readOut = s.readOut := rfl
@[simp] theorem State.setProg_snap (v : Prog) : (s.setProg u img v).snap = s.snap := rfl
@[simp] theorem State.setProg_aon (v : Prog) : (s.setProg u img v).aon = s.aon := rfl
@[simp] theorem State.setProg_fw (v : Prog) : (s.setProg u img v).fw = s.fw := rfl
@[simp] theorem State.setProg_chans (v : Prog) : (s.setProg u img v).chans = s.chans := rfl
@[simp] theorem State.setProg_locks (v : Prog) : (s.setProg u img v).locks = s.locks := rfl
@[simp] theorem State.setProg_hbm (v : Prog) : (s.setProg u img v).hbm = s.hbm := rfl
@[simp] theorem State.setProg_bad (v : Prog) : (s.setProg u img v).bad = s.bad := rfl
@[simp] theorem State.setProg_wear (v : Prog) : (s.setProg u img v).wear = s.wear := rfl
@[simp] theorem State.setProg_hbmStacks (v : Prog) : (s.setProg u img v).hbmStacks = s.hbmStacks := rfl
@[simp] theorem State.setProg_descs (v : Prog) : (s.setProg u img v).descs = s.descs := rfl
@[simp] theorem State.setProg_sram (v : Prog) : (s.setProg u img v).sram = s.sram := rfl
@[simp] theorem State.setProg_clusters (v : Prog) : (s.setProg u img v).clusters = s.clusters := rfl
@[simp] theorem State.setProg_streams (v : Prog) : (s.setProg u img v).streams = s.streams := rfl
@[simp] theorem State.setProg_pools (v : Prog) : (s.setProg u img v).pools = s.pools := rfl
@[simp] theorem State.setProg_loops (v : Prog) : (s.setProg u img v).loops = s.loops := rfl
@[simp] theorem State.setProg_prfs (v : Prog) : (s.setProg u img v).prfs = s.prfs := rfl
@[simp] theorem State.setProg_loopEng (v : Prog) : (s.setProg u img v).loopEng = s.loopEng := rfl
@[simp] theorem State.setProg_convs (v : Prog) : (s.setProg u img v).convs = s.convs := rfl
@[simp] theorem State.setProg_incfg (v : Prog) : (s.setProg u img v).incfg = s.incfg := rfl
@[simp] theorem State.setProg_incfgAt (v : Prog) : (s.setProg u img v).incfgAt = s.incfgAt := rfl
@[simp] theorem State.setProg_ang (v : Prog) : (s.setProg u img v).ang = s.ang := rfl
@[simp] theorem State.setProg_sched (v : Prog) : (s.setProg u img v).sched = s.sched := rfl
@[simp] theorem State.setProg_fouts (v : Prog) : (s.setProg u img v).fouts = s.fouts := rfl
@[simp] theorem State.setProg_foutDenied (v : Prog) : (s.setProg u img v).foutDenied = s.foutDenied := rfl
@[simp] theorem State.setProg_links (v : Prog) : (s.setProg u img v).links = s.links := rfl
@[simp] theorem State.setProg_linkMod (v : Prog) : (s.setProg u img v).linkMod = s.linkMod := rfl
@[simp] theorem State.modProg_set (f : Prog → Prog) : s.modProg u img f = s.setProg u img (f (s.prog u img)) := rfl

/-! modAon -/

@[simp] theorem State.modAon_aon (f : Aon → Aon) : (s.modAon f).aon = f s.aon := rfl
@[simp] theorem State.modAon_now (f : Aon → Aon) : (s.modAon f).now = s.now := rfl
@[simp] theorem State.modAon_pending (f : Aon → Aon) : (s.modAon f).pending = s.pending := rfl
@[simp] theorem State.modAon_free (f : Aon → Aon) : (s.modAon f).free = s.free := rfl
@[simp] theorem State.modAon_readOut (f : Aon → Aon) : (s.modAon f).readOut = s.readOut := rfl
@[simp] theorem State.modAon_snap (f : Aon → Aon) : (s.modAon f).snap = s.snap := rfl
@[simp] theorem State.modAon_fw (f : Aon → Aon) : (s.modAon f).fw = s.fw := rfl
@[simp] theorem State.modAon_chans (f : Aon → Aon) : (s.modAon f).chans = s.chans := rfl
@[simp] theorem State.modAon_locks (f : Aon → Aon) : (s.modAon f).locks = s.locks := rfl
@[simp] theorem State.modAon_hbm (f : Aon → Aon) : (s.modAon f).hbm = s.hbm := rfl
@[simp] theorem State.modAon_bad (f : Aon → Aon) : (s.modAon f).bad = s.bad := rfl
@[simp] theorem State.modAon_wear (f : Aon → Aon) : (s.modAon f).wear = s.wear := rfl
@[simp] theorem State.modAon_hbmStacks (f : Aon → Aon) : (s.modAon f).hbmStacks = s.hbmStacks := rfl
@[simp] theorem State.modAon_descs (f : Aon → Aon) : (s.modAon f).descs = s.descs := rfl
@[simp] theorem State.modAon_sram (f : Aon → Aon) : (s.modAon f).sram = s.sram := rfl
@[simp] theorem State.modAon_clusters (f : Aon → Aon) : (s.modAon f).clusters = s.clusters := rfl
@[simp] theorem State.modAon_streams (f : Aon → Aon) : (s.modAon f).streams = s.streams := rfl
@[simp] theorem State.modAon_pools (f : Aon → Aon) : (s.modAon f).pools = s.pools := rfl
@[simp] theorem State.modAon_progs (f : Aon → Aon) : (s.modAon f).progs = s.progs := rfl
@[simp] theorem State.modAon_loops (f : Aon → Aon) : (s.modAon f).loops = s.loops := rfl
@[simp] theorem State.modAon_prfs (f : Aon → Aon) : (s.modAon f).prfs = s.prfs := rfl
@[simp] theorem State.modAon_loopEng (f : Aon → Aon) : (s.modAon f).loopEng = s.loopEng := rfl
@[simp] theorem State.modAon_convs (f : Aon → Aon) : (s.modAon f).convs = s.convs := rfl
@[simp] theorem State.modAon_incfg (f : Aon → Aon) : (s.modAon f).incfg = s.incfg := rfl
@[simp] theorem State.modAon_incfgAt (f : Aon → Aon) : (s.modAon f).incfgAt = s.incfgAt := rfl
@[simp] theorem State.modAon_ang (f : Aon → Aon) : (s.modAon f).ang = s.ang := rfl
@[simp] theorem State.modAon_sched (f : Aon → Aon) : (s.modAon f).sched = s.sched := rfl
@[simp] theorem State.modAon_fouts (f : Aon → Aon) : (s.modAon f).fouts = s.fouts := rfl
@[simp] theorem State.modAon_foutDenied (f : Aon → Aon) : (s.modAon f).foutDenied = s.foutDenied := rfl
@[simp] theorem State.modAon_links (f : Aon → Aon) : (s.modAon f).links = s.links := rfl
@[simp] theorem State.modAon_linkMod (f : Aon → Aon) : (s.modAon f).linkMod = s.linkMod := rfl

/-! modAng -/

@[simp] theorem State.modAng_ang (f : Angle → Angle) : (s.modAng f).ang = f s.ang := rfl
@[simp] theorem State.modAng_now (f : Angle → Angle) : (s.modAng f).now = s.now := rfl
@[simp] theorem State.modAng_pending (f : Angle → Angle) : (s.modAng f).pending = s.pending := rfl
@[simp] theorem State.modAng_free (f : Angle → Angle) : (s.modAng f).free = s.free := rfl
@[simp] theorem State.modAng_readOut (f : Angle → Angle) : (s.modAng f).readOut = s.readOut := rfl
@[simp] theorem State.modAng_snap (f : Angle → Angle) : (s.modAng f).snap = s.snap := rfl
@[simp] theorem State.modAng_aon (f : Angle → Angle) : (s.modAng f).aon = s.aon := rfl
@[simp] theorem State.modAng_fw (f : Angle → Angle) : (s.modAng f).fw = s.fw := rfl
@[simp] theorem State.modAng_chans (f : Angle → Angle) : (s.modAng f).chans = s.chans := rfl
@[simp] theorem State.modAng_locks (f : Angle → Angle) : (s.modAng f).locks = s.locks := rfl
@[simp] theorem State.modAng_hbm (f : Angle → Angle) : (s.modAng f).hbm = s.hbm := rfl
@[simp] theorem State.modAng_bad (f : Angle → Angle) : (s.modAng f).bad = s.bad := rfl
@[simp] theorem State.modAng_wear (f : Angle → Angle) : (s.modAng f).wear = s.wear := rfl
@[simp] theorem State.modAng_hbmStacks (f : Angle → Angle) : (s.modAng f).hbmStacks = s.hbmStacks := rfl
@[simp] theorem State.modAng_descs (f : Angle → Angle) : (s.modAng f).descs = s.descs := rfl
@[simp] theorem State.modAng_sram (f : Angle → Angle) : (s.modAng f).sram = s.sram := rfl
@[simp] theorem State.modAng_clusters (f : Angle → Angle) : (s.modAng f).clusters = s.clusters := rfl
@[simp] theorem State.modAng_streams (f : Angle → Angle) : (s.modAng f).streams = s.streams := rfl
@[simp] theorem State.modAng_pools (f : Angle → Angle) : (s.modAng f).pools = s.pools := rfl
@[simp] theorem State.modAng_progs (f : Angle → Angle) : (s.modAng f).progs = s.progs := rfl
@[simp] theorem State.modAng_loops (f : Angle → Angle) : (s.modAng f).loops = s.loops := rfl
@[simp] theorem State.modAng_prfs (f : Angle → Angle) : (s.modAng f).prfs = s.prfs := rfl
@[simp] theorem State.modAng_loopEng (f : Angle → Angle) : (s.modAng f).loopEng = s.loopEng := rfl
@[simp] theorem State.modAng_convs (f : Angle → Angle) : (s.modAng f).convs = s.convs := rfl
@[simp] theorem State.modAng_incfg (f : Angle → Angle) : (s.modAng f).incfg = s.incfg := rfl
@[simp] theorem State.modAng_incfgAt (f : Angle → Angle) : (s.modAng f).incfgAt = s.incfgAt := rfl
@[simp] theorem State.modAng_sched (f : Angle → Angle) : (s.modAng f).sched = s.sched := rfl
@[simp] theorem State.modAng_fouts (f : Angle → Angle) : (s.modAng f).fouts = s.fouts := rfl
@[simp] theorem State.modAng_foutDenied (f : Angle → Angle) : (s.modAng f).foutDenied = s.foutDenied := rfl
@[simp] theorem State.modAng_links (f : Angle → Angle) : (s.modAng f).links = s.links := rfl
@[simp] theorem State.modAng_linkMod (f : Angle → Angle) : (s.modAng f).linkMod = s.linkMod := rfl

/-! modFw -/

@[simp] theorem State.modFw_fw (f : Fw → Fw) : (s.modFw f).fw = f s.fw := rfl
@[simp] theorem State.modFw_now (f : Fw → Fw) : (s.modFw f).now = s.now := rfl
@[simp] theorem State.modFw_pending (f : Fw → Fw) : (s.modFw f).pending = s.pending := rfl
@[simp] theorem State.modFw_free (f : Fw → Fw) : (s.modFw f).free = s.free := rfl
@[simp] theorem State.modFw_readOut (f : Fw → Fw) : (s.modFw f).readOut = s.readOut := rfl
@[simp] theorem State.modFw_snap (f : Fw → Fw) : (s.modFw f).snap = s.snap := rfl
@[simp] theorem State.modFw_aon (f : Fw → Fw) : (s.modFw f).aon = s.aon := rfl
@[simp] theorem State.modFw_chans (f : Fw → Fw) : (s.modFw f).chans = s.chans := rfl
@[simp] theorem State.modFw_locks (f : Fw → Fw) : (s.modFw f).locks = s.locks := rfl
@[simp] theorem State.modFw_hbm (f : Fw → Fw) : (s.modFw f).hbm = s.hbm := rfl
@[simp] theorem State.modFw_bad (f : Fw → Fw) : (s.modFw f).bad = s.bad := rfl
@[simp] theorem State.modFw_wear (f : Fw → Fw) : (s.modFw f).wear = s.wear := rfl
@[simp] theorem State.modFw_hbmStacks (f : Fw → Fw) : (s.modFw f).hbmStacks = s.hbmStacks := rfl
@[simp] theorem State.modFw_descs (f : Fw → Fw) : (s.modFw f).descs = s.descs := rfl
@[simp] theorem State.modFw_sram (f : Fw → Fw) : (s.modFw f).sram = s.sram := rfl
@[simp] theorem State.modFw_clusters (f : Fw → Fw) : (s.modFw f).clusters = s.clusters := rfl
@[simp] theorem State.modFw_streams (f : Fw → Fw) : (s.modFw f).streams = s.streams := rfl
@[simp] theorem State.modFw_pools (f : Fw → Fw) : (s.modFw f).pools = s.pools := rfl
@[simp] theorem State.modFw_progs (f : Fw → Fw) : (s.modFw f).progs = s.progs := rfl
@[simp] theorem State.modFw_loops (f : Fw → Fw) : (s.modFw f).loops = s.loops := rfl
@[simp] theorem State.modFw_prfs (f : Fw → Fw) : (s.modFw f).prfs = s.prfs := rfl
@[simp] theorem State.modFw_loopEng (f : Fw → Fw) : (s.modFw f).loopEng = s.loopEng := rfl
@[simp] theorem State.modFw_convs (f : Fw → Fw) : (s.modFw f).convs = s.convs := rfl
@[simp] theorem State.modFw_incfg (f : Fw → Fw) : (s.modFw f).incfg = s.incfg := rfl
@[simp] theorem State.modFw_incfgAt (f : Fw → Fw) : (s.modFw f).incfgAt = s.incfgAt := rfl
@[simp] theorem State.modFw_ang (f : Fw → Fw) : (s.modFw f).ang = s.ang := rfl
@[simp] theorem State.modFw_sched (f : Fw → Fw) : (s.modFw f).sched = s.sched := rfl
@[simp] theorem State.modFw_fouts (f : Fw → Fw) : (s.modFw f).fouts = s.fouts := rfl
@[simp] theorem State.modFw_foutDenied (f : Fw → Fw) : (s.modFw f).foutDenied = s.foutDenied := rfl
@[simp] theorem State.modFw_links (f : Fw → Fw) : (s.modFw f).links = s.links := rfl
@[simp] theorem State.modFw_linkMod (f : Fw → Fw) : (s.modFw f).linkMod = s.linkMod := rfl

/-! ### Records after an update -/

@[simp] theorem State.cluster_setCluster (v : Cluster) (i' : Nat) :
    (s.setCluster c v).cluster i' = if i' = c then v else s.cluster i' := Tab.get_put ..
@[simp] theorem State.stream_setStream (v : Stream) (i' : Nat) :
    (s.setStream i v).stream i' = if i' = i then v else s.stream i' := Tab.get_put ..
@[simp] theorem State.pool_setPool (v : Pool) (i' : Nat) :
    (s.setPool i v).pool i' = if i' = i then v else s.pool i' := Tab.get_put ..
@[simp] theorem State.stack_setStack (v : Stack) (i' : Nat) :
    (s.setStack e v).stack i' = if i' = e then v else s.stack i' := Tab.get_put ..
/-- A descriptor reads what was put; every other of the 16 × 8,192 reads as before. -/
theorem State.desc_setDesc (v : Desc) (e' d' : Nat) (h : d < 8192) (h' : d' < 8192) :
    (s.setDesc e d v).desc e' d' = if e' = e ∧ d' = d then v else s.desc e' d' := by
  unfold State.desc State.setDesc
  rw [Tab.get_put]
  have : e' * 8192 + d' = e * 8192 + d ↔ e' = e ∧ d' = d := by omega
  simp only [this]
@[simp] theorem State.fieldLoop_setLoop (v : FieldLoop) (i' : Nat) :
    (s.setLoop n v).fieldLoop i' = if i' = n then v else s.fieldLoop i' := Tab.get_put ..
@[simp] theorem State.prf_setPrf (v : Profile) (i' : Nat) :
    (s.setPrf n v).prf i' = if i' = n then v else s.prf i' := Tab.get_put ..
@[simp] theorem State.conv_setConv (v : Conv) (i' : Nat) :
    (s.setConv k v).conv i' = if i' = k then v else s.conv i' := Tab.get_put ..
@[simp] theorem State.schedEntry_setSched (v : SchedEntry) (i' : Nat) :
    (s.setSched e v).schedEntry i' = if i' = e then v else s.schedEntry i' := Tab.get_put ..
@[simp] theorem State.fout_setFout (v : Fout) (i' : Nat) :
    (s.setFout n v).fout i' = if i' = n then v else s.fout i' := Tab.get_put ..
@[simp] theorem State.chan_setChan (v : Channel) (i' : Nat) :
    (s.setChan c v).chan i' = if i' = c then v else s.chan i' := Tab.get_put ..
@[simp] theorem State.link_setLink (v : Link) (i' : Nat) :
    (s.setLink n v).link i' = if i' = n then v else s.link i' := Tab.get_put ..
@[simp] theorem State.image_setImage (v : ImgRec) (i' : Nat) :
    (s.setImage i v).image i' = if i' = i then v else s.image i' := Tab.get_put ..

/-- The die, cluster, core, kind and instance fields of a unit word (R379). -/
def wordOf (die c core kind inst : Nat) : Nat := die + c * 4 + core * 1024 + kind * 65536 + inst * 1048576

theorem wordOf_inj {a b c d e a' b' c' d' e' : Nat} (h1 : a < 4) (h2 : b < 256) (h3 : c < 64) (h4 : d < 16) (h1' : a' < 4)
    (h2' : b' < 256) (h3' : c' < 64) (h4' : d' < 16) (h : wordOf a b c d e = wordOf a' b' c' d' e') :
    a = a' ∧ b = b' ∧ c = c' ∧ d = d' ∧ e = e' := by
  unfold wordOf at h; omega

/-- Unit words differ (R379). -/
theorem unitWord_inj {u v : UnitId} (hu : unitOk u) (hv : unitOk v) : unitWord u = unitWord v ↔ u = v := by
  have key : ∀ {w : UnitId}, unitOk w → ∃ a b c d e, a < 4 ∧ b < 256 ∧ c < 64 ∧ d < 16 ∧ unitWord w = wordOf a b c d e ∧
      w = (match d with
        | 0 => .feeder (a * 208 + b) e | 1 => .core (a * 208 + b) c | 2 => .tree (a * 208 + b)
        | 3 => .vu (a * 208 + b) c | 4 => .quant (a * 208 + b) e | 5 => .port (a * 16 + e) | 6 => .engine (a * 4 + e)
        | _ => .field) := by
    intro w hw
    cases w with
    | feeder cl f =>
      simp only [unitOk, Bool.and_eq_true, decide_eq_true_eq] at hw
      exact ⟨cl / 208, cl % 208, 63, 0, f, by omega, by omega, by omega, by omega, rfl,
        by simp only [UnitId.feeder.injEq, and_true]; omega⟩
    | core cl p =>
      simp only [unitOk, Bool.and_eq_true, decide_eq_true_eq] at hw
      exact ⟨cl / 208, cl % 208, p, 1, 0, by omega, by omega, by omega, by omega, rfl,
        by simp only [UnitId.core.injEq, and_true]; omega⟩
    | tree cl =>
      simp only [unitOk, decide_eq_true_eq] at hw
      exact ⟨cl / 208, cl % 208, 63, 2, 0, by omega, by omega, by omega, by omega, rfl,
        by simp only [UnitId.tree.injEq]; omega⟩
    | vu cl p =>
      simp only [unitOk, Bool.and_eq_true, decide_eq_true_eq] at hw
      exact ⟨cl / 208, cl % 208, p, 3, 0, by omega, by omega, by omega, by omega, rfl,
        by simp only [UnitId.vu.injEq, and_true]; omega⟩
    | quant cl i =>
      simp only [unitOk, Bool.and_eq_true, decide_eq_true_eq] at hw
      exact ⟨cl / 208, cl % 208, 63, 4, i, by omega, by omega, by omega, by omega, rfl,
        by simp only [UnitId.quant.injEq, and_true]; omega⟩
    | port l =>
      simp only [unitOk, decide_eq_true_eq] at hw
      refine ⟨l / 16, 0, 63, 5, l % 16, by omega, by omega, by omega, by omega, ?_,
        by simp only [UnitId.port.injEq]; omega⟩
      simp [unitWord, wordOf]
    | engine e =>
      simp only [unitOk, decide_eq_true_eq] at hw
      refine ⟨e / 4, 0, 63, 6, e % 4, by omega, by omega, by omega, by omega, ?_,
        by simp only [UnitId.engine.injEq]; omega⟩
      simp [unitWord, wordOf]
    | field => exact ⟨0, 0, 63, 7, 0, by omega, by omega, by omega, by omega, rfl, rfl⟩
  refine ⟨fun h => ?_, fun h => h ▸ rfl⟩
  obtain ⟨a, b, c, d, e, h1, h2, h3, h4, hw, rfl⟩ := key hu
  obtain ⟨a', b', c', d', e', h1', h2', h3', h4', hw', rfl⟩ := key hv
  obtain ⟨rfl, rfl, rfl, rfl, rfl⟩ := wordOf_inj h1 h2 h3 h4 h1' h2' h3' h4' (hw.symm.trans (h.trans hw'))
  rfl

theorem unitWord_lt {u : UnitId} (hu : unitOk u) : unitWord u < 2 ^ 24 := by
  cases u <;> simp only [unitOk, unitWord, Bool.and_eq_true, decide_eq_true_eq] at * <;> omega

/-- A list reads what was put; every other unit's, and every other image's, reads as before. -/
theorem State.prog_setProg (v : Prog) (u' : UnitId) (img' : Nat) (hu : unitOk u) (hu' : unitOk u') :
    (s.setProg u img v).prog u' img' = if u' = u ∧ img' = img then v else s.prog u' img' := by
  unfold State.prog State.setProg
  rw [Tab.get_put]
  have a := unitWord_lt hu
  have b := unitWord_lt hu'
  have c : progKey u' img' = progKey u img ↔ u' = u ∧ img' = img := by
    rw [← unitWord_inj hu' hu]
    unfold progKey
    omega
  simp only [c]

/-- The same list reads what was put. -/
@[simp] theorem State.prog_setProg_same (v : Prog) : (s.setProg u img v).prog u img = v := by
  unfold State.prog State.setProg
  rw [Tab.get_put, if_pos rfl]

@[simp] theorem State.stream_setCluster (v : Cluster) (a : Nat) : (s.setCluster c v).stream a = s.stream a := rfl
@[simp] theorem State.pool_setCluster (v : Cluster) (a : Nat) : (s.setCluster c v).pool a = s.pool a := rfl
@[simp] theorem State.stack_setCluster (v : Cluster) (a : Nat) : (s.setCluster c v).stack a = s.stack a := rfl
@[simp] theorem State.desc_setCluster (v : Cluster) (a b : Nat) : (s.setCluster c v).desc a b = s.desc a b := rfl
@[simp] theorem State.fieldLoop_setCluster (v : Cluster) (a : Nat) : (s.setCluster c v).fieldLoop a = s.fieldLoop a := rfl
@[simp] theorem State.prf_setCluster (v : Cluster) (a : Nat) : (s.setCluster c v).prf a = s.prf a := rfl
@[simp] theorem State.conv_setCluster (v : Cluster) (a : Nat) : (s.setCluster c v).conv a = s.conv a := rfl
@[simp] theorem State.schedEntry_setCluster (v : Cluster) (a : Nat) : (s.setCluster c v).schedEntry a = s.schedEntry a := rfl
@[simp] theorem State.fout_setCluster (v : Cluster) (a : Nat) : (s.setCluster c v).fout a = s.fout a := rfl
@[simp] theorem State.chan_setCluster (v : Cluster) (a : Nat) : (s.setCluster c v).chan a = s.chan a := rfl
@[simp] theorem State.link_setCluster (v : Cluster) (a : Nat) : (s.setCluster c v).link a = s.link a := rfl
@[simp] theorem State.image_setCluster (v : Cluster) (a : Nat) : (s.setCluster c v).image a = s.image a := rfl
@[simp] theorem State.prog_setCluster (v : Cluster) (a : UnitId) (b : Nat) : (s.setCluster c v).prog a b = s.prog a b := rfl
@[simp] theorem State.cluster_setStream (v : Stream) (a : Nat) : (s.setStream i v).cluster a = s.cluster a := rfl
@[simp] theorem State.pool_setStream (v : Stream) (a : Nat) : (s.setStream i v).pool a = s.pool a := rfl
@[simp] theorem State.stack_setStream (v : Stream) (a : Nat) : (s.setStream i v).stack a = s.stack a := rfl
@[simp] theorem State.desc_setStream (v : Stream) (a b : Nat) : (s.setStream i v).desc a b = s.desc a b := rfl
@[simp] theorem State.fieldLoop_setStream (v : Stream) (a : Nat) : (s.setStream i v).fieldLoop a = s.fieldLoop a := rfl
@[simp] theorem State.prf_setStream (v : Stream) (a : Nat) : (s.setStream i v).prf a = s.prf a := rfl
@[simp] theorem State.conv_setStream (v : Stream) (a : Nat) : (s.setStream i v).conv a = s.conv a := rfl
@[simp] theorem State.schedEntry_setStream (v : Stream) (a : Nat) : (s.setStream i v).schedEntry a = s.schedEntry a := rfl
@[simp] theorem State.fout_setStream (v : Stream) (a : Nat) : (s.setStream i v).fout a = s.fout a := rfl
@[simp] theorem State.chan_setStream (v : Stream) (a : Nat) : (s.setStream i v).chan a = s.chan a := rfl
@[simp] theorem State.link_setStream (v : Stream) (a : Nat) : (s.setStream i v).link a = s.link a := rfl
@[simp] theorem State.image_setStream (v : Stream) (a : Nat) : (s.setStream i v).image a = s.image a := rfl
@[simp] theorem State.prog_setStream (v : Stream) (a : UnitId) (b : Nat) : (s.setStream i v).prog a b = s.prog a b := rfl
@[simp] theorem State.cluster_setPool (v : Pool) (a : Nat) : (s.setPool i v).cluster a = s.cluster a := rfl
@[simp] theorem State.stream_setPool (v : Pool) (a : Nat) : (s.setPool i v).stream a = s.stream a := rfl
@[simp] theorem State.stack_setPool (v : Pool) (a : Nat) : (s.setPool i v).stack a = s.stack a := rfl
@[simp] theorem State.desc_setPool (v : Pool) (a b : Nat) : (s.setPool i v).desc a b = s.desc a b := rfl
@[simp] theorem State.fieldLoop_setPool (v : Pool) (a : Nat) : (s.setPool i v).fieldLoop a = s.fieldLoop a := rfl
@[simp] theorem State.prf_setPool (v : Pool) (a : Nat) : (s.setPool i v).prf a = s.prf a := rfl
@[simp] theorem State.conv_setPool (v : Pool) (a : Nat) : (s.setPool i v).conv a = s.conv a := rfl
@[simp] theorem State.schedEntry_setPool (v : Pool) (a : Nat) : (s.setPool i v).schedEntry a = s.schedEntry a := rfl
@[simp] theorem State.fout_setPool (v : Pool) (a : Nat) : (s.setPool i v).fout a = s.fout a := rfl
@[simp] theorem State.chan_setPool (v : Pool) (a : Nat) : (s.setPool i v).chan a = s.chan a := rfl
@[simp] theorem State.link_setPool (v : Pool) (a : Nat) : (s.setPool i v).link a = s.link a := rfl
@[simp] theorem State.image_setPool (v : Pool) (a : Nat) : (s.setPool i v).image a = s.image a := rfl
@[simp] theorem State.prog_setPool (v : Pool) (a : UnitId) (b : Nat) : (s.setPool i v).prog a b = s.prog a b := rfl
@[simp] theorem State.cluster_setStack (v : Stack) (a : Nat) : (s.setStack e v).cluster a = s.cluster a := rfl
@[simp] theorem State.stream_setStack (v : Stack) (a : Nat) : (s.setStack e v).stream a = s.stream a := rfl
@[simp] theorem State.pool_setStack (v : Stack) (a : Nat) : (s.setStack e v).pool a = s.pool a := rfl
@[simp] theorem State.desc_setStack (v : Stack) (a b : Nat) : (s.setStack e v).desc a b = s.desc a b := rfl
@[simp] theorem State.fieldLoop_setStack (v : Stack) (a : Nat) : (s.setStack e v).fieldLoop a = s.fieldLoop a := rfl
@[simp] theorem State.prf_setStack (v : Stack) (a : Nat) : (s.setStack e v).prf a = s.prf a := rfl
@[simp] theorem State.conv_setStack (v : Stack) (a : Nat) : (s.setStack e v).conv a = s.conv a := rfl
@[simp] theorem State.schedEntry_setStack (v : Stack) (a : Nat) : (s.setStack e v).schedEntry a = s.schedEntry a := rfl
@[simp] theorem State.fout_setStack (v : Stack) (a : Nat) : (s.setStack e v).fout a = s.fout a := rfl
@[simp] theorem State.chan_setStack (v : Stack) (a : Nat) : (s.setStack e v).chan a = s.chan a := rfl
@[simp] theorem State.link_setStack (v : Stack) (a : Nat) : (s.setStack e v).link a = s.link a := rfl
@[simp] theorem State.image_setStack (v : Stack) (a : Nat) : (s.setStack e v).image a = s.image a := rfl
@[simp] theorem State.prog_setStack (v : Stack) (a : UnitId) (b : Nat) : (s.setStack e v).prog a b = s.prog a b := rfl
@[simp] theorem State.cluster_setDesc (v : Desc) (a : Nat) : (s.setDesc e d v).cluster a = s.cluster a := rfl
@[simp] theorem State.stream_setDesc (v : Desc) (a : Nat) : (s.setDesc e d v).stream a = s.stream a := rfl
@[simp] theorem State.pool_setDesc (v : Desc) (a : Nat) : (s.setDesc e d v).pool a = s.pool a := rfl
@[simp] theorem State.stack_setDesc (v : Desc) (a : Nat) : (s.setDesc e d v).stack a = s.stack a := rfl
@[simp] theorem State.fieldLoop_setDesc (v : Desc) (a : Nat) : (s.setDesc e d v).fieldLoop a = s.fieldLoop a := rfl
@[simp] theorem State.prf_setDesc (v : Desc) (a : Nat) : (s.setDesc e d v).prf a = s.prf a := rfl
@[simp] theorem State.conv_setDesc (v : Desc) (a : Nat) : (s.setDesc e d v).conv a = s.conv a := rfl
@[simp] theorem State.schedEntry_setDesc (v : Desc) (a : Nat) : (s.setDesc e d v).schedEntry a = s.schedEntry a := rfl
@[simp] theorem State.fout_setDesc (v : Desc) (a : Nat) : (s.setDesc e d v).fout a = s.fout a := rfl
@[simp] theorem State.chan_setDesc (v : Desc) (a : Nat) : (s.setDesc e d v).chan a = s.chan a := rfl
@[simp] theorem State.link_setDesc (v : Desc) (a : Nat) : (s.setDesc e d v).link a = s.link a := rfl
@[simp] theorem State.image_setDesc (v : Desc) (a : Nat) : (s.setDesc e d v).image a = s.image a := rfl
@[simp] theorem State.prog_setDesc (v : Desc) (a : UnitId) (b : Nat) : (s.setDesc e d v).prog a b = s.prog a b := rfl
@[simp] theorem State.cluster_setLoop (v : FieldLoop) (a : Nat) : (s.setLoop n v).cluster a = s.cluster a := rfl
@[simp] theorem State.stream_setLoop (v : FieldLoop) (a : Nat) : (s.setLoop n v).stream a = s.stream a := rfl
@[simp] theorem State.pool_setLoop (v : FieldLoop) (a : Nat) : (s.setLoop n v).pool a = s.pool a := rfl
@[simp] theorem State.stack_setLoop (v : FieldLoop) (a : Nat) : (s.setLoop n v).stack a = s.stack a := rfl
@[simp] theorem State.desc_setLoop (v : FieldLoop) (a b : Nat) : (s.setLoop n v).desc a b = s.desc a b := rfl
@[simp] theorem State.prf_setLoop (v : FieldLoop) (a : Nat) : (s.setLoop n v).prf a = s.prf a := rfl
@[simp] theorem State.conv_setLoop (v : FieldLoop) (a : Nat) : (s.setLoop n v).conv a = s.conv a := rfl
@[simp] theorem State.schedEntry_setLoop (v : FieldLoop) (a : Nat) : (s.setLoop n v).schedEntry a = s.schedEntry a := rfl
@[simp] theorem State.fout_setLoop (v : FieldLoop) (a : Nat) : (s.setLoop n v).fout a = s.fout a := rfl
@[simp] theorem State.chan_setLoop (v : FieldLoop) (a : Nat) : (s.setLoop n v).chan a = s.chan a := rfl
@[simp] theorem State.link_setLoop (v : FieldLoop) (a : Nat) : (s.setLoop n v).link a = s.link a := rfl
@[simp] theorem State.image_setLoop (v : FieldLoop) (a : Nat) : (s.setLoop n v).image a = s.image a := rfl
@[simp] theorem State.prog_setLoop (v : FieldLoop) (a : UnitId) (b : Nat) : (s.setLoop n v).prog a b = s.prog a b := rfl
@[simp] theorem State.cluster_setPrf (v : Profile) (a : Nat) : (s.setPrf n v).cluster a = s.cluster a := rfl
@[simp] theorem State.stream_setPrf (v : Profile) (a : Nat) : (s.setPrf n v).stream a = s.stream a := rfl
@[simp] theorem State.pool_setPrf (v : Profile) (a : Nat) : (s.setPrf n v).pool a = s.pool a := rfl
@[simp] theorem State.stack_setPrf (v : Profile) (a : Nat) : (s.setPrf n v).stack a = s.stack a := rfl
@[simp] theorem State.desc_setPrf (v : Profile) (a b : Nat) : (s.setPrf n v).desc a b = s.desc a b := rfl
@[simp] theorem State.fieldLoop_setPrf (v : Profile) (a : Nat) : (s.setPrf n v).fieldLoop a = s.fieldLoop a := rfl
@[simp] theorem State.conv_setPrf (v : Profile) (a : Nat) : (s.setPrf n v).conv a = s.conv a := rfl
@[simp] theorem State.schedEntry_setPrf (v : Profile) (a : Nat) : (s.setPrf n v).schedEntry a = s.schedEntry a := rfl
@[simp] theorem State.fout_setPrf (v : Profile) (a : Nat) : (s.setPrf n v).fout a = s.fout a := rfl
@[simp] theorem State.chan_setPrf (v : Profile) (a : Nat) : (s.setPrf n v).chan a = s.chan a := rfl
@[simp] theorem State.link_setPrf (v : Profile) (a : Nat) : (s.setPrf n v).link a = s.link a := rfl
@[simp] theorem State.image_setPrf (v : Profile) (a : Nat) : (s.setPrf n v).image a = s.image a := rfl
@[simp] theorem State.prog_setPrf (v : Profile) (a : UnitId) (b : Nat) : (s.setPrf n v).prog a b = s.prog a b := rfl
@[simp] theorem State.cluster_setConv (v : Conv) (a : Nat) : (s.setConv k v).cluster a = s.cluster a := rfl
@[simp] theorem State.stream_setConv (v : Conv) (a : Nat) : (s.setConv k v).stream a = s.stream a := rfl
@[simp] theorem State.pool_setConv (v : Conv) (a : Nat) : (s.setConv k v).pool a = s.pool a := rfl
@[simp] theorem State.stack_setConv (v : Conv) (a : Nat) : (s.setConv k v).stack a = s.stack a := rfl
@[simp] theorem State.desc_setConv (v : Conv) (a b : Nat) : (s.setConv k v).desc a b = s.desc a b := rfl
@[simp] theorem State.fieldLoop_setConv (v : Conv) (a : Nat) : (s.setConv k v).fieldLoop a = s.fieldLoop a := rfl
@[simp] theorem State.prf_setConv (v : Conv) (a : Nat) : (s.setConv k v).prf a = s.prf a := rfl
@[simp] theorem State.schedEntry_setConv (v : Conv) (a : Nat) : (s.setConv k v).schedEntry a = s.schedEntry a := rfl
@[simp] theorem State.fout_setConv (v : Conv) (a : Nat) : (s.setConv k v).fout a = s.fout a := rfl
@[simp] theorem State.chan_setConv (v : Conv) (a : Nat) : (s.setConv k v).chan a = s.chan a := rfl
@[simp] theorem State.link_setConv (v : Conv) (a : Nat) : (s.setConv k v).link a = s.link a := rfl
@[simp] theorem State.image_setConv (v : Conv) (a : Nat) : (s.setConv k v).image a = s.image a := rfl
@[simp] theorem State.prog_setConv (v : Conv) (a : UnitId) (b : Nat) : (s.setConv k v).prog a b = s.prog a b := rfl
@[simp] theorem State.cluster_setSched (v : SchedEntry) (a : Nat) : (s.setSched e v).cluster a = s.cluster a := rfl
@[simp] theorem State.stream_setSched (v : SchedEntry) (a : Nat) : (s.setSched e v).stream a = s.stream a := rfl
@[simp] theorem State.pool_setSched (v : SchedEntry) (a : Nat) : (s.setSched e v).pool a = s.pool a := rfl
@[simp] theorem State.stack_setSched (v : SchedEntry) (a : Nat) : (s.setSched e v).stack a = s.stack a := rfl
@[simp] theorem State.desc_setSched (v : SchedEntry) (a b : Nat) : (s.setSched e v).desc a b = s.desc a b := rfl
@[simp] theorem State.fieldLoop_setSched (v : SchedEntry) (a : Nat) : (s.setSched e v).fieldLoop a = s.fieldLoop a := rfl
@[simp] theorem State.prf_setSched (v : SchedEntry) (a : Nat) : (s.setSched e v).prf a = s.prf a := rfl
@[simp] theorem State.conv_setSched (v : SchedEntry) (a : Nat) : (s.setSched e v).conv a = s.conv a := rfl
@[simp] theorem State.fout_setSched (v : SchedEntry) (a : Nat) : (s.setSched e v).fout a = s.fout a := rfl
@[simp] theorem State.chan_setSched (v : SchedEntry) (a : Nat) : (s.setSched e v).chan a = s.chan a := rfl
@[simp] theorem State.link_setSched (v : SchedEntry) (a : Nat) : (s.setSched e v).link a = s.link a := rfl
@[simp] theorem State.image_setSched (v : SchedEntry) (a : Nat) : (s.setSched e v).image a = s.image a := rfl
@[simp] theorem State.prog_setSched (v : SchedEntry) (a : UnitId) (b : Nat) : (s.setSched e v).prog a b = s.prog a b := rfl
@[simp] theorem State.cluster_setFout (v : Fout) (a : Nat) : (s.setFout n v).cluster a = s.cluster a := rfl
@[simp] theorem State.stream_setFout (v : Fout) (a : Nat) : (s.setFout n v).stream a = s.stream a := rfl
@[simp] theorem State.pool_setFout (v : Fout) (a : Nat) : (s.setFout n v).pool a = s.pool a := rfl
@[simp] theorem State.stack_setFout (v : Fout) (a : Nat) : (s.setFout n v).stack a = s.stack a := rfl
@[simp] theorem State.desc_setFout (v : Fout) (a b : Nat) : (s.setFout n v).desc a b = s.desc a b := rfl
@[simp] theorem State.fieldLoop_setFout (v : Fout) (a : Nat) : (s.setFout n v).fieldLoop a = s.fieldLoop a := rfl
@[simp] theorem State.prf_setFout (v : Fout) (a : Nat) : (s.setFout n v).prf a = s.prf a := rfl
@[simp] theorem State.conv_setFout (v : Fout) (a : Nat) : (s.setFout n v).conv a = s.conv a := rfl
@[simp] theorem State.schedEntry_setFout (v : Fout) (a : Nat) : (s.setFout n v).schedEntry a = s.schedEntry a := rfl
@[simp] theorem State.chan_setFout (v : Fout) (a : Nat) : (s.setFout n v).chan a = s.chan a := rfl
@[simp] theorem State.link_setFout (v : Fout) (a : Nat) : (s.setFout n v).link a = s.link a := rfl
@[simp] theorem State.image_setFout (v : Fout) (a : Nat) : (s.setFout n v).image a = s.image a := rfl
@[simp] theorem State.prog_setFout (v : Fout) (a : UnitId) (b : Nat) : (s.setFout n v).prog a b = s.prog a b := rfl
@[simp] theorem State.cluster_setChan (v : Channel) (a : Nat) : (s.setChan c v).cluster a = s.cluster a := rfl
@[simp] theorem State.stream_setChan (v : Channel) (a : Nat) : (s.setChan c v).stream a = s.stream a := rfl
@[simp] theorem State.pool_setChan (v : Channel) (a : Nat) : (s.setChan c v).pool a = s.pool a := rfl
@[simp] theorem State.stack_setChan (v : Channel) (a : Nat) : (s.setChan c v).stack a = s.stack a := rfl
@[simp] theorem State.desc_setChan (v : Channel) (a b : Nat) : (s.setChan c v).desc a b = s.desc a b := rfl
@[simp] theorem State.fieldLoop_setChan (v : Channel) (a : Nat) : (s.setChan c v).fieldLoop a = s.fieldLoop a := rfl
@[simp] theorem State.prf_setChan (v : Channel) (a : Nat) : (s.setChan c v).prf a = s.prf a := rfl
@[simp] theorem State.conv_setChan (v : Channel) (a : Nat) : (s.setChan c v).conv a = s.conv a := rfl
@[simp] theorem State.schedEntry_setChan (v : Channel) (a : Nat) : (s.setChan c v).schedEntry a = s.schedEntry a := rfl
@[simp] theorem State.fout_setChan (v : Channel) (a : Nat) : (s.setChan c v).fout a = s.fout a := rfl
@[simp] theorem State.link_setChan (v : Channel) (a : Nat) : (s.setChan c v).link a = s.link a := rfl
@[simp] theorem State.image_setChan (v : Channel) (a : Nat) : (s.setChan c v).image a = s.image a := rfl
@[simp] theorem State.prog_setChan (v : Channel) (a : UnitId) (b : Nat) : (s.setChan c v).prog a b = s.prog a b := rfl
@[simp] theorem State.cluster_setLink (v : Link) (a : Nat) : (s.setLink n v).cluster a = s.cluster a := rfl
@[simp] theorem State.stream_setLink (v : Link) (a : Nat) : (s.setLink n v).stream a = s.stream a := rfl
@[simp] theorem State.pool_setLink (v : Link) (a : Nat) : (s.setLink n v).pool a = s.pool a := rfl
@[simp] theorem State.stack_setLink (v : Link) (a : Nat) : (s.setLink n v).stack a = s.stack a := rfl
@[simp] theorem State.desc_setLink (v : Link) (a b : Nat) : (s.setLink n v).desc a b = s.desc a b := rfl
@[simp] theorem State.fieldLoop_setLink (v : Link) (a : Nat) : (s.setLink n v).fieldLoop a = s.fieldLoop a := rfl
@[simp] theorem State.prf_setLink (v : Link) (a : Nat) : (s.setLink n v).prf a = s.prf a := rfl
@[simp] theorem State.conv_setLink (v : Link) (a : Nat) : (s.setLink n v).conv a = s.conv a := rfl
@[simp] theorem State.schedEntry_setLink (v : Link) (a : Nat) : (s.setLink n v).schedEntry a = s.schedEntry a := rfl
@[simp] theorem State.fout_setLink (v : Link) (a : Nat) : (s.setLink n v).fout a = s.fout a := rfl
@[simp] theorem State.chan_setLink (v : Link) (a : Nat) : (s.setLink n v).chan a = s.chan a := rfl
@[simp] theorem State.image_setLink (v : Link) (a : Nat) : (s.setLink n v).image a = s.image a := rfl
@[simp] theorem State.prog_setLink (v : Link) (a : UnitId) (b : Nat) : (s.setLink n v).prog a b = s.prog a b := rfl
@[simp] theorem State.cluster_setImage (v : ImgRec) (a : Nat) : (s.setImage i v).cluster a = s.cluster a := rfl
@[simp] theorem State.stream_setImage (v : ImgRec) (a : Nat) : (s.setImage i v).stream a = s.stream a := rfl
@[simp] theorem State.pool_setImage (v : ImgRec) (a : Nat) : (s.setImage i v).pool a = s.pool a := rfl
@[simp] theorem State.stack_setImage (v : ImgRec) (a : Nat) : (s.setImage i v).stack a = s.stack a := rfl
@[simp] theorem State.desc_setImage (v : ImgRec) (a b : Nat) : (s.setImage i v).desc a b = s.desc a b := rfl
@[simp] theorem State.fieldLoop_setImage (v : ImgRec) (a : Nat) : (s.setImage i v).fieldLoop a = s.fieldLoop a := rfl
@[simp] theorem State.prf_setImage (v : ImgRec) (a : Nat) : (s.setImage i v).prf a = s.prf a := rfl
@[simp] theorem State.conv_setImage (v : ImgRec) (a : Nat) : (s.setImage i v).conv a = s.conv a := rfl
@[simp] theorem State.schedEntry_setImage (v : ImgRec) (a : Nat) : (s.setImage i v).schedEntry a = s.schedEntry a := rfl
@[simp] theorem State.fout_setImage (v : ImgRec) (a : Nat) : (s.setImage i v).fout a = s.fout a := rfl
@[simp] theorem State.chan_setImage (v : ImgRec) (a : Nat) : (s.setImage i v).chan a = s.chan a := rfl
@[simp] theorem State.link_setImage (v : ImgRec) (a : Nat) : (s.setImage i v).link a = s.link a := rfl
@[simp] theorem State.prog_setImage (v : ImgRec) (a : UnitId) (b : Nat) : (s.setImage i v).prog a b = s.prog a b := rfl
@[simp] theorem State.cluster_setProg (v : Prog) (a : Nat) : (s.setProg u img v).cluster a = s.cluster a := rfl
@[simp] theorem State.stream_setProg (v : Prog) (a : Nat) : (s.setProg u img v).stream a = s.stream a := rfl
@[simp] theorem State.pool_setProg (v : Prog) (a : Nat) : (s.setProg u img v).pool a = s.pool a := rfl
@[simp] theorem State.stack_setProg (v : Prog) (a : Nat) : (s.setProg u img v).stack a = s.stack a := rfl
@[simp] theorem State.desc_setProg (v : Prog) (a b : Nat) : (s.setProg u img v).desc a b = s.desc a b := rfl
@[simp] theorem State.fieldLoop_setProg (v : Prog) (a : Nat) : (s.setProg u img v).fieldLoop a = s.fieldLoop a := rfl
@[simp] theorem State.prf_setProg (v : Prog) (a : Nat) : (s.setProg u img v).prf a = s.prf a := rfl
@[simp] theorem State.conv_setProg (v : Prog) (a : Nat) : (s.setProg u img v).conv a = s.conv a := rfl
@[simp] theorem State.schedEntry_setProg (v : Prog) (a : Nat) : (s.setProg u img v).schedEntry a = s.schedEntry a := rfl
@[simp] theorem State.fout_setProg (v : Prog) (a : Nat) : (s.setProg u img v).fout a = s.fout a := rfl
@[simp] theorem State.chan_setProg (v : Prog) (a : Nat) : (s.setProg u img v).chan a = s.chan a := rfl
@[simp] theorem State.link_setProg (v : Prog) (a : Nat) : (s.setProg u img v).link a = s.link a := rfl
@[simp] theorem State.image_setProg (v : Prog) (a : Nat) : (s.setProg u img v).image a = s.image a := rfl
@[simp] theorem State.cluster_tick (t : Nat) (a : Nat) : (s.tick t).cluster a = s.cluster a := rfl
@[simp] theorem State.stream_tick (t : Nat) (a : Nat) : (s.tick t).stream a = s.stream a := rfl
@[simp] theorem State.pool_tick (t : Nat) (a : Nat) : (s.tick t).pool a = s.pool a := rfl
@[simp] theorem State.stack_tick (t : Nat) (a : Nat) : (s.tick t).stack a = s.stack a := rfl
@[simp] theorem State.desc_tick (t : Nat) (a b : Nat) : (s.tick t).desc a b = s.desc a b := rfl
@[simp] theorem State.fieldLoop_tick (t : Nat) (a : Nat) : (s.tick t).fieldLoop a = s.fieldLoop a := rfl
@[simp] theorem State.prf_tick (t : Nat) (a : Nat) : (s.tick t).prf a = s.prf a := rfl
@[simp] theorem State.conv_tick (t : Nat) (a : Nat) : (s.tick t).conv a = s.conv a := rfl
@[simp] theorem State.schedEntry_tick (t : Nat) (a : Nat) : (s.tick t).schedEntry a = s.schedEntry a := rfl
@[simp] theorem State.fout_tick (t : Nat) (a : Nat) : (s.tick t).fout a = s.fout a := rfl
@[simp] theorem State.chan_tick (t : Nat) (a : Nat) : (s.tick t).chan a = s.chan a := rfl
@[simp] theorem State.link_tick (t : Nat) (a : Nat) : (s.tick t).link a = s.link a := rfl
@[simp] theorem State.image_tick (t : Nat) (a : Nat) : (s.tick t).image a = s.image a := rfl
@[simp] theorem State.prog_tick (t : Nat) (a : UnitId) (b : Nat) : (s.tick t).prog a b = s.prog a b := rfl

end Sys2Proof.Machine
end

