-- ==== Sys2Proof/Laws/Memory.lean ====
section
/-! SUPPORT. Laws of memory: the canonical form, what a write leaves at every address, and that every operation of
the model on HBM and SRAM keeps the form. -/

namespace Sys2Proof.Machine

/-- The canonical form, said without recursion. -/
theorem Memory.wf_iff (m : Memory) : m.wf = true ↔ m.Pairwise (fun a b => a.1 < b.1) ∧ ∀ c ∈ m, c.2 ≠ 0 := by
  induction m with
  | nil => simp [Memory.wf]
  | cons c m ih =>
    cases m with
    | nil => simp [Memory.wf]
    | cons c' m =>
      simp only [Memory.wf, Bool.and_eq_true, decide_eq_true_eq, ih, List.pairwise_cons, List.mem_cons, forall_eq_or_imp]
      constructor
      · rintro ⟨⟨h0, h1⟩, ⟨h2, h3⟩, h4⟩
        exact ⟨⟨⟨h1, fun a ha => Nat.lt_trans h1 (h2 a ha)⟩, h2, h3⟩, h0, h4⟩
      · rintro ⟨⟨⟨h1, _⟩, h2, h3⟩, h0, h4⟩
        exact ⟨⟨h0, h1⟩, ⟨h2, h3⟩, h4⟩

theorem Memory.wf_filter {m : Memory} (p : Host.Cell → Bool) (h : m.wf) : Memory.wf (m.filter p) := by
  rw [Memory.wf_iff] at *
  exact ⟨h.1.filter _, fun c hc => h.2 c (List.mem_filter.1 hc).1⟩

theorem Memory.mem_cells {a : Nat} {bs : List Byte} {c : Host.Cell} (h : c ∈ Memory.cells a bs) :
    a ≤ c.1 ∧ c.1 < a + bs.length ∧ c.2 ≠ 0 := by
  induction bs generalizing a with
  | nil => simp [Memory.cells] at h
  | cons b bs ih =>
    simp only [Memory.cells] at h
    split at h
    · have := ih h; simp only [List.length_cons]; exact ⟨by omega, by omega, this.2.2⟩
    · rcases List.mem_cons.1 h with rfl | h
      · simp only [List.length_cons]; exact ⟨by omega, by omega, by assumption⟩
      · have := ih h; simp only [List.length_cons]; exact ⟨by omega, by omega, this.2.2⟩

theorem Memory.cells_pairwise (a : Nat) (bs : List Byte) :
    (Memory.cells a bs).Pairwise fun x y => x.1 < y.1 := by
  induction bs generalizing a with
  | nil => exact List.Pairwise.nil
  | cons b bs ih =>
    simp only [Memory.cells]
    split
    · exact ih _
    · exact List.Pairwise.cons (fun c hc => (Memory.mem_cells hc).1) (ih _)

/-- A write keeps the canonical form. -/
theorem Memory.wf_write {m : Memory} (a : Nat) (bs : List Byte) (h : m.wf) : Memory.wf (m.write a bs) := by
  rw [Memory.wf_iff] at *
  unfold Memory.write
  constructor
  · rw [List.pairwise_append, List.pairwise_append]
    refine ⟨⟨h.1.filter _, Memory.cells_pairwise a bs, ?_⟩, h.1.filter _, ?_⟩
    · intro x hx y hy
      have := (Memory.mem_cells hy).1
      have := (List.mem_filter.1 hx).2
      simp at this; omega
    · intro x hx y hy
      have hy := (List.mem_filter.1 hy).2
      simp at hy
      rcases List.mem_append.1 hx with hx | hx
      · have := (List.mem_filter.1 hx).2
        simp at this; omega
      · have := (Memory.mem_cells hx); omega
  · intro c hc
    rcases List.mem_append.1 hc with hc | hc
    · rcases List.mem_append.1 hc with hc | hc
      · exact h.2 c (List.mem_filter.1 hc).1
      · exact (Memory.mem_cells hc).2.2
    · exact h.2 c (List.mem_filter.1 hc).1

theorem Memory.read_of_not_mem {m : Memory} {x : Nat} (h : ∀ c ∈ m, c.1 ≠ x) : m.read x = 0 := by
  induction m with
  | nil => rfl
  | cons c m ih =>
    obtain ⟨k, b⟩ := c
    have := h _ (List.mem_cons_self ..)
    simp only [Memory.read, if_neg this]
    exact ih fun c hc => h c (List.mem_cons_of_mem _ hc)

theorem Memory.read_append (m n : Memory) (x : Nat) :
    Memory.read (m ++ n) x = if m.any (fun c => c.1 = x) then Memory.read m x else Memory.read n x := by
  induction m with
  | nil => simp
  | cons c m ih =>
    obtain ⟨k, b⟩ := c
    simp only [List.cons_append, Memory.read, List.any_cons, ih]
    rcases Decidable.em (k = x) with rfl | h
    · simp
    · simp [h]

theorem Memory.read_filter (m : Memory) (p : Host.Cell → Bool) (x : Nat) (h : ∀ b, p (x, b) = true) :
    Memory.read (m.filter p) x = Memory.read m x := by
  induction m with
  | nil => rfl
  | cons c m ih =>
    obtain ⟨k, b⟩ := c
    rw [List.filter_cons]
    rcases Decidable.em (k = x) with rfl | hk
    · simp [h, Memory.read]
    · split <;> simp [Memory.read, hk, ih]

theorem Memory.read_cells (a : Nat) (bs : List Byte) (x : Nat) :
    Memory.read (Memory.cells a bs) x = if a ≤ x ∧ x < a + bs.length then bs.getD (x - a) 0 else 0 := by
  induction bs generalizing a with
  | nil => simp [Memory.cells, Memory.read]
  | cons b bs ih =>
    simp only [Memory.cells, List.length_cons]
    rcases Decidable.em (a = x) with rfl | hx
    · split
      · rename_i hb
        rw [ih]
        simp [hb] <;> omega
      · simp [Memory.read]
    · have e : (b :: bs).getD (x - a) 0 = if x ≤ a then b else bs.getD (x - (a + 1)) 0 := by
        split
        · have : x - a = 0 := by omega
          simp [this]
        · obtain ⟨k, hk⟩ : ∃ k, x - a = k + 1 := ⟨x - a - 1, by omega⟩
          have : x - (a + 1) = k := by omega
          simp [hk, this]
      rw [e]
      split <;> simp only [Memory.read, ih, hx, if_false] <;> (repeat' split) <;> first | rfl | omega

/-- A byte reads as written; every other byte reads as before. -/
theorem Memory.read_write (m : Memory) (a : Nat) (bs : List Byte) (x : Nat) :
    Memory.read (m.write a bs) x = if a ≤ x ∧ x < a + bs.length then bs.getD (x - a) 0 else Memory.read m x := by
  unfold Memory.write
  rw [Memory.read_append, Memory.read_append]
  rcases Decidable.em (x < a) with h | h
  · have : ¬(a ≤ x ∧ x < a + bs.length) := by omega
    rw [if_neg this, Memory.read_filter _ _ _ (by simpa using h)]
    rcases Decidable.em (m.any (fun c => c.1 = x) = true) with hm | hm
    · have : (m.filter fun c => decide (c.1 < a)).any (fun c => decide (c.1 = x)) = true := by
        simp only [List.any_eq_true, decide_eq_true_eq, List.mem_filter] at hm ⊢
        obtain ⟨c, hc, rfl⟩ := hm
        exact ⟨c, ⟨hc, h⟩, rfl⟩
      simp [this]
    · have hr : m.read x = 0 := Memory.read_of_not_mem fun c hc e => hm (by
        simp only [List.any_eq_true, decide_eq_true_eq]; exact ⟨c, hc, e⟩)
      have z1 : Memory.read (Memory.cells a bs) x = 0 := by rw [Memory.read_cells, if_neg this]
      have z2 : Memory.read (m.filter fun c => decide (a + bs.length ≤ c.1)) x = 0 :=
        Memory.read_of_not_mem fun c hc e => by
          have := (List.mem_filter.1 hc).2; simp at this; omega
      rw [hr, z1, z2]; simp
  · have n1 : (m.filter fun c => decide (c.1 < a)).any (fun c => decide (c.1 = x)) = false := by
      rw [List.any_eq_false]
      intro c hc
      have := (List.mem_filter.1 hc).2
      simp at this ⊢; omega
    have z0 : Memory.read (m.filter fun c => decide (c.1 < a)) x = 0 := by
      apply Memory.read_of_not_mem
      intro c hc e
      have := (List.mem_filter.1 hc).2
      simp at this; omega
    rw [List.any_append, n1, Bool.false_or, z0]
    simp only [Bool.false_eq_true, if_false]
    rcases Decidable.em (x < a + bs.length) with h' | h'
    · rw [if_pos (by omega : a ≤ x ∧ x < a + bs.length), Memory.read_cells,
        if_pos (by omega : a ≤ x ∧ x < a + bs.length)]
      split
      · rfl
      · rename_i hn
        have z2 : Memory.read (m.filter fun c => decide (a + bs.length ≤ c.1)) x = 0 :=
          Memory.read_of_not_mem fun c hc e => by
            have := (List.mem_filter.1 hc).2; simp at this; omega
        have z3 := Memory.read_of_not_mem (m := Memory.cells a bs) (x := x) fun c hc e => hn (by
          simp only [List.any_eq_true, decide_eq_true_eq]; exact ⟨c, hc, e⟩)
        rw [Memory.read_cells, if_pos (by omega : a ≤ x ∧ x < a + bs.length)] at z3
        rw [z2, z3]
    · rw [if_neg (by omega : ¬(a ≤ x ∧ x < a + bs.length)), Memory.read_filter _ _ _ (by simpa using by omega)]
      split
      · rename_i hn
        simp only [List.any_eq_true, decide_eq_true_eq] at hn
        obtain ⟨c, hc, e⟩ := hn
        have := Memory.mem_cells hc
        omega
      · rfl

/-- Memory at reset is in canonical form. -/
theorem Memory.wf_reset : Memory.wf State.reset.hbm ∧ Memory.wf State.reset.sram := ⟨rfl, rfl⟩

theorem State.writeHbm_wf {s : State} {a : Nat} {bs : List Byte} (h : s.hbm.wf) : (s.writeHbm a bs).hbm.wf :=
  Memory.wf_filter _ (Memory.wf_write a bs h)

theorem State.writeBuf_wf {s : State} {p h off : Nat} {bs : List Byte} (hh : s.hbm.wf) (hs : s.sram.wf) :
    (s.writeBuf p h off bs).hbm.wf ∧ (s.writeBuf p h off bs).sram.wf := by
  unfold State.writeBuf
  dsimp only
  split
  · exact ⟨State.writeHbm_wf hh, hs⟩
  · exact ⟨hh, Memory.wf_write _ _ hs⟩

/-- A byte of HBM with memory behind it reads as written; every other byte reads as before (R211, R212). -/
theorem State.writeHbm_read (s : State) (a : Nat) (bs : List Byte) (x : Nat) (hx : hbmUsable x) :
    (s.writeHbm a bs).hbm.read x =
      if a ≤ x ∧ x < a + bs.length then bs.getD (x - a) 0 else s.hbm.read x := by
  unfold State.writeHbm
  rw [Memory.read_filter _ _ _ (by simpa using hx), Memory.read_write]

end Sys2Proof.Machine
end

