-- ==== Sys2Proof/Laws/Fire.lean ====
section
/-! SUPPORT. What a firing step does, said once: what its work sees, and what the rest of the step leaves alone. -/

namespace Sys2Proof.Machine

/-- Two states place every stream and every pool in the same buffers, with the same bytes in them. -/
structure State.SamePlaces (s s' : State) : Prop where
  streams : ∀ i, (s'.stream i).pool = (s.stream i).pool
  inHbm : ∀ p, (s'.pool p).inHbm = (s.pool p).inHbm
  cluster : ∀ p, (s'.pool p).cluster = (s.pool p).cluster
  base : ∀ p, (s'.pool p).base = (s.pool p).base
  bufSize : ∀ p, (s'.pool p).bufSize = (s.pool p).bufSize
  sram : s'.sram = s.sram
  hbm : s'.hbm = s.hbm

theorem State.SamePlaces.rfl {s : State} : s.SamePlaces s :=
  ⟨fun _ => Eq.refl _, fun _ => Eq.refl _, fun _ => Eq.refl _, fun _ => Eq.refl _, fun _ => Eq.refl _, Eq.refl _, Eq.refl _⟩

theorem State.SamePlaces.trans {s x y : State} (a : s.SamePlaces x) (b : x.SamePlaces y) : s.SamePlaces y :=
  ⟨fun i => (b.streams i).trans (a.streams i), fun i => (b.inHbm i).trans (a.inHbm i),
    fun i => (b.cluster i).trans (a.cluster i), fun i => (b.base i).trans (a.base i),
    fun i => (b.bufSize i).trans (a.bufSize i), b.sram.trans a.sram, b.hbm.trans a.hbm⟩

theorem State.SamePlaces.readBuf {s s' : State} (h : s.SamePlaces s') (p k off n : Nat) :
    s'.readBuf p k off n = s.readBuf p k off n := by
  simp only [State.readBuf, h.inHbm, h.cluster, h.base, h.bufSize, h.sram, h.hbm]

theorem State.SamePlaces.each {α : Type} {s x : State} {xs : List α} {f : State → α → State}
    (h : ∀ t a, State.SamePlaces t (f t a)) (g : s.SamePlaces x) : s.SamePlaces (x.each xs f) := by
  induction xs generalizing x with
  | nil => exact g
  | cons a xs ih => exact ih (g.trans (h x a))

theorem State.SamePlaces.modStream (s : State) (i : Nat) (f : Stream → Stream)
    (h : (f (s.stream i)).pool = (s.stream i).pool) : s.SamePlaces (s.modStream i f) := by
  refine ⟨fun j => ?_, fun _ => Eq.refl _, fun _ => Eq.refl _, fun _ => Eq.refl _, fun _ => Eq.refl _, Eq.refl _,
    Eq.refl _⟩
  simp only [State.modStream_set, State.stream_setStream]
  split <;> simp_all

theorem State.SamePlaces.modPool (s : State) (i : Nat) (f : Pool → Pool)
    (h : ∀ p, (f p).inHbm = p.inHbm ∧ (f p).cluster = p.cluster ∧ (f p).base = p.base ∧ (f p).bufSize = p.bufSize) :
    s.SamePlaces (s.modPool i f) := by
  refine ⟨fun _ => Eq.refl _, fun j => ?_, fun j => ?_, fun j => ?_, fun j => ?_, Eq.refl _, Eq.refl _⟩
  all_goals
    simp only [State.modPool_set, State.pool_setPool]
    split <;> simp_all

theorem Stream.mark_pool (n : Nat) (r : Ready) (os : List (Nat × UnitId × Nat)) (ps : List Nat) (m : Stream) :
    (m.mark n r os ps).pool = m.pool := by
  unfold Stream.mark Stream.endWait
  cases r <;> dsimp only <;> (try split) <;> rfl

theorem State.markAll_places (s : State) (os : List Nat) (r : Ready) : s.SamePlaces (s.markAll os r) :=
  State.SamePlaces.each (fun t o => State.SamePlaces.modStream t o _ (Stream.mark_pool ..)) .rfl

theorem State.takeHead_places (s : State) (u : UnitId) (i : Nat) : s.SamePlaces (s.takeHead u i) :=
  State.SamePlaces.modStream s i _ (Eq.refl _)

theorem Pool.take_places (n i : Nat) (p : Pool) : (p.take n i).inHbm = p.inHbm ∧ (p.take n i).cluster = p.cluster
    ∧ (p.take n i).base = p.base ∧ (p.take n i).bufSize = p.bufSize := by
  unfold Pool.take
  split <;> exact ⟨rfl, rfl, rfl, rfl⟩

theorem Pool.release_places (h e : Nat) (p : Pool) : (p.release h e).inHbm = p.inHbm
    ∧ (p.release h e).cluster = p.cluster ∧ (p.release h e).base = p.base ∧ (p.release h e).bufSize = p.bufSize := by
  unfold Pool.release
  split
  · exact ⟨rfl, rfl, rfl, rfl⟩
  · split <;> exact ⟨rfl, rfl, rfl, rfl⟩

theorem Pool.release_free (h e : Nat) (p : Pool) : (p.release h e).freeList = p.freeList := by
  unfold Pool.release
  split
  · rfl
  · split <;> rfl

/-- What a step has taken when its work begins: the heads of its inputs, a credit on every edge and a handle of each
output (R145, R146). -/
def State.taken (s : State) (u : UnitId) (ins outs : List Nat) : State :=
  ((s.markAll outs .ready).each ins fun s i => s.takeHead u i).each outs fun s o =>
    (s.takeHandle o).modStream o fun m => m.spend

theorem State.taken_places (s : State) (u : UnitId) (ins outs : List Nat) : s.SamePlaces (s.taken u ins outs) := by
  refine State.SamePlaces.each (fun t o => ?_) (State.SamePlaces.each (fun t i => t.takeHead_places u i)
    (s.markAll_places outs .ready))
  exact (State.SamePlaces.modPool t _ _ fun p => Pool.take_places _ _ p).trans (State.SamePlaces.modStream _ _ _ (Eq.refl _))

theorem State.taken_keeps (s : State) (u : UnitId) (ins outs : List Nat) :
    State.Keeps [.streams, .pools] s (s.taken u ins outs) := by
  unfold State.taken
  refine State.Keeps.each (fun _ _ => ?_) (State.Keeps.each (fun _ _ => ?_) ?_)
  · exact State.Keeps.into State.modStream_keeps (by decide) (State.Keeps.into State.takeHandle_keeps (by decide) .rfl)
  · exact State.Keeps.into State.takeHead_keeps (by decide) .rfl
  · exact State.Keeps.into State.markAll_keeps (by decide) .rfl

/-- The handles that a step's outputs get. -/
def State.offered (s : State) (u : UnitId) (ins outs : List Nat) : List (Nat × Nat) :=
  outs.filterMap fun o =>
    (((s.markAll outs .ready).each ins fun s i => s.takeHead u i).nextHandle o).map fun h => (o, h)

/-- Two states offer the same handles in every pool. -/
def State.SameFree (s s' : State) : Prop := ∀ p, (s'.pool p).freeList = (s.pool p).freeList

theorem State.SameFree.each {α : Type} {s x : State} {xs : List α} {f : State → α → State}
    (h : ∀ t a, State.SameFree t (f t a)) (g : s.SameFree x) : s.SameFree (x.each xs f) := by
  induction xs generalizing x with
  | nil => exact g
  | cons a xs ih => exact ih fun p => (h x a p).trans (g p)

theorem State.SameFree.modPool (s : State) (i : Nat) (f : Pool → Pool) (h : ∀ p, (f p).freeList = p.freeList) :
    s.SameFree (s.modPool i f) := by
  intro j
  simp only [State.modPool_set, State.pool_setPool]
  split <;> simp_all

theorem State.releaseTok_free (s : State) (i : Nat) (tok : Dword) (e : Nat) : s.SameFree (s.releaseTok i tok e) := by
  unfold State.releaseTok
  split
  · exact fun _ => rfl
  · exact State.SameFree.modPool _ _ _ fun p => Pool.release_free ..

theorem State.sendOutputs_free (s : State) (u : UnitId) (img : Nat) (toks : List Dword) (outs : List (Nat × Nat))
    (code : Option Nat) (asError : Bool) (e : Nat) : s.SameFree (s.sendOutputs u img toks outs code asError e) := by
  unfold State.sendOutputs
  refine State.SameFree.each (fun t oh => ?_) fun _ => rfl
  dsimp only
  split
  · intro p
    simp only [State.sendOn, State.modStream_set, State.pool_setStream]
    unfold State.dropHandle
    exact State.SameFree.modPool _ _ _ (fun _ => by simp) p
  · exact fun _ => rfl

/-- A step whose conditions hold and that takes no error token does its work on what it has taken, and then
releases, sends and goes on, which touches no memory and takes no handle. -/
theorem State.fire_ready (s : State) (u : UnitId) (img : Nat) (ins outs : List Nat)
    (work : State → List Dword → List (Nat × Nat) → Work) (hr : s.readiness u ins outs = .ready)
    (he : (s.tokensOf u ins).all (fun k => tokType k ≠ tyError) = true) :
    ∃ x, s.fire u img ins outs work
        = x.finish u img ((s.taken u ins outs).now
          + (work (s.taken u ins outs) (s.tokensOf u ins) (s.offered u ins outs)).dur)
      ∧ State.Keeps [.streams, .pools] (work (s.taken u ins outs) (s.tokensOf u ins) (s.offered u ins outs)).st x
      ∧ State.SameFree (work (s.taken u ins outs) (s.tokensOf u ins) (s.offered u ins outs)).st x := by
  have hn : (s.tokensOf u ins).find? (fun k => decide (tokType k = tyError)) = none := by
    rw [List.find?_eq_none]
    intro k hk
    have := List.all_eq_true.1 he k hk
    simpa using this
  unfold State.fire
  dsimp only
  rw [if_neg (by simpa using hr)]
  unfold State.tokensOf at *
  rw [hn]
  dsimp only
  refine ⟨_, rfl, ?_, ?_⟩
  · refine State.Keeps.into State.sendOutputs_keeps (by decide) (State.Keeps.each (fun _ _ => ?_) .rfl)
    exact State.Keeps.into State.releaseTok_keeps (by decide) .rfl
  · intro p
    exact (State.sendOutputs_free _ _ _ _ _ _ _ _ p).trans
      (State.SameFree.each (fun t (a : Nat × Dword) => State.releaseTok_free t a.1 a.2 _) (fun _ => rfl) p)

theorem State.SamePlaces.nextHandle {s s' : State} (h : s.SamePlaces s') (g : s.SameFree s') (o : Nat) :
    s'.nextHandle o = s.nextHandle o := by
  unfold State.nextHandle; rw [h.streams, g]

theorem State.fires_iff {s t u img code ins outs} : State.fires s t u img code ins outs = true ↔
   (s.stands t u img code = true ∧ (s.tick t).readiness u ins outs = .ready) ∧
    ((s.tick t).tokensOf u ins).all (fun k => tokType k ≠ tyError) = true := by
  simp [State.fires]

theorem State.stands_iff {s t u img code} : State.stands s t u img code = true ↔
   unitOk u = true ∧ (s.tick t).mayRun u img = true ∧ opcode (s.prog u img).op = code ∧ opListed u (s.prog u img).op = true := by
  simp [State.stands, and_assoc]

theorem State.fires_exec {s t u img code ins outs} (h : State.fires s t u img code ins outs = true)
   (e : State → State) (f : State → Dword → State) (he : ∀ s, e s = s.onOp u img code f) :
   act (unitOk u) t s e = .next (f (s.tick t) (s.prog u img).op) := by
  obtain ⟨⟨hs, -⟩, -⟩ := State.fires_iff.1 h
  obtain ⟨h1, h2, h3, h4⟩ := State.stands_iff.1 hs
  simp [act, h1, he, State.onOp, h2, h3, h4]

theorem State.ready_handle {s : State} {u ins o} (hr : s.readiness u ins [o] = .ready)
  (he : (s.tokensOf u ins).all (fun k => tokType k ≠ tyError) = true) : ∃ h, s.nextHandle o = some h := by
  unfold State.readiness at hr
  split at hr
  · cases hr
  · split at hr
    · cases hr
    · split at hr
      · cases hr
      · split at hr
        · rename_i h
          exfalso
          simp only [State.takesError, List.any_eq_true] at h
          obtain ⟨i, hi, h⟩ := h
          split at h
          · rename_i k hk
            have := List.all_eq_true.1 he k (List.mem_filterMap.2 ⟨i, hi, hk⟩)
            simp_all
          · cases h
        · split at hr
          · cases hr
          · rename_i h
            exact Option.isSome_iff_exists.1 (by simpa [Option.isSome_iff_ne_none] using h)

theorem State.markAll_free (s : State) (os r) : s.SameFree (s.markAll os r) :=
  State.SameFree.each (fun _ _ => fun _ => rfl) fun _ => rfl
theorem State.takeHeads_free (s : State) (u is) : s.SameFree (s.each is fun s i => s.takeHead u i) :=
  State.SameFree.each (fun _ _ => fun _ => rfl) fun _ => rfl

theorem State.offered_one {s : State} {u ins o h} (hh : s.nextHandle o = some h) : s.offered u ins [o] = [(o, h)] := by
  have : (((s.markAll [o] .ready).each ins fun s i => s.takeHead u i).nextHandle o) = some h := by
    rw [← hh]
    apply State.SamePlaces.nextHandle
    · exact State.SamePlaces.each (fun t i => t.takeHead_places u i) (s.markAll_places [o] .ready)
    · exact fun p => ((State.takeHeads_free _ u ins) p).trans (State.markAll_free s [o] .ready p)
  simp [State.offered, this]

theorem State.taken_free {s : State} {u ins o} :
   ((s.taken u ins [o]).pool (s.stream o).pool.toNat).freeList = (s.pool (s.stream o).pool.toNat).freeList.tail := by
  have a := State.SamePlaces.each (xs := ins) (fun t i => t.takeHead_places u i) (s.markAll_places [o] .ready)
  have b : ∀ p, _ := fun p => ((State.takeHeads_free _ u ins) p).trans (State.markAll_free s [o] .ready p)
  unfold State.taken
  simp only [State.each, List.foldl] at *
  simp only [State.takeHandle, State.modStream_set, State.pool_setStream, State.modPool_set, a.streams]
  rw [State.pool_setPool, if_pos rfl]
  unfold Pool.take
  have hb := b (s.stream o).pool.toNat
  rw [hb]
  split <;> simp_all

/-- A step with one output that writes bytes into the handle it took, and nothing else in memory (R145, R146). -/
theorem State.fired_write {s : State} {u img ins o w dur bytes}
  (hr : s.readiness u ins [o] = .ready)
  (he : (s.tokensOf u ins).all (fun k => tokType k ≠ tyError) = true)
  (hst : ∀ h, s.nextHandle o = some h → ∃ y, State.Keeps [.streams, .clusters] (s.taken u ins [o]) y ∧ (∀ p, y.pool p = (s.taken u ins [o]).pool p) ∧
      (∀ i, (y.stream i).pool = (s.stream i).pool) ∧
     (w (s.taken u ins [o]) (s.tokensOf u ins) [(o,h)]).st = y.writeBuf (s.stream o).pool.toNat h 0 bytes)
  (hd : ∀ h, s.nextHandle o = some h → (w (s.taken u ins [o]) (s.tokensOf u ins) [(o,h)]).dur = dur) :
  s.FiredAs (s.fire u img ins [o] w) u img o dur ∧ s.HoldsResult (s.fire u img ins [o] w) o bytes := by
  obtain ⟨h, hh⟩ := State.ready_handle hr he
  obtain ⟨x, hx, hk, hf⟩ := State.fire_ready s u img ins [o] w hr he
  rw [State.offered_one hh, hd h hh] at hx
  rw [State.offered_one hh] at hk hf
  obtain ⟨y, hy, hyp, hys, hw⟩ := hst h hh
  rw [hw] at hk hf
  have pl := s.taken_places u ins [o]
  have tk := s.taken_keeps u ins [o]
  have wk := State.writeBuf_keeps (s := y) (p := (s.stream o).pool.toNat) (h := h) (off := 0) (bs := bytes)
  have now_ : (s.taken u ins [o]).now = s.now := tk .now (by decide)
  have progs_ : x.progs = s.progs := (hk .progs (by decide)).trans ((wk .progs (by decide)).trans ((hy .progs (by decide)).trans (tk .progs (by decide))))
  have sram_ : x.sram = (y.writeBuf (s.stream o).pool.toNat h 0 bytes).sram := hk .sram (by decide)
  have hbm_ : x.hbm = (y.writeBuf (s.stream o).pool.toNat h 0 bytes).hbm := hk .hbm (by decide)
  have ysram : y.sram = s.sram := (hy .sram (by decide)).trans pl.sram
  have yhbm : y.hbm = s.hbm := (hy .hbm (by decide)).trans pl.hbm
  unfold State.HoldsResult
  have hTl := State.taken_free (u := u) (ins := ins) (s := s) (o := o)
  obtain ⟨P, hP⟩ : ∃ P, (s.stream o).pool.toNat = P := ⟨_, rfl⟩
  rw [hP] at sram_ hbm_ hTl hf wk
  have q1 : (y.pool P).inHbm = (s.pool P).inHbm := by rw [hyp]; exact pl.inHbm P
  have q2 : (y.pool P).cluster = (s.pool P).cluster := by rw [hyp]; exact pl.cluster P
  have q3 : (y.pool P).base = (s.pool P).base := by rw [hyp]; exact pl.base P
  have q4 : (y.pool P).bufSize = (s.pool P).bufSize := by rw [hyp]; exact pl.bufSize P
  rw [hx]
  have fs : (x.finish u img ((s.taken u ins [o]).now + dur)).sram = x.sram := rfl
  have fh : (x.finish u img ((s.taken u ins [o]).now + dur)).hbm = x.hbm := rfl
  have fp : ∀ p, (x.finish u img ((s.taken u ins [o]).now + dur)).pool p = x.pool p := fun _ => rfl
  have xp : x.prog u img = s.prog u img := by unfold State.prog; rw [progs_]
  have xt : x.nextTurn u img = s.nextTurn u img := by unfold State.nextTurn State.listsOf State.prog; rw [progs_]
  refine ⟨⟨?_, ?_, ?_, ?_⟩, ?_⟩ <;> (try rw [hP])
  · simp [State.finish, now_, xp, xt]
  · rw [fp, hf]
    have : (y.writeBuf P h 0 bytes).pool P = y.pool P := by
      unfold State.writeBuf; dsimp only; split <;> rfl
    rw [this, hyp, hTl]
  · intro a ha
    have ha := ha h hh
    rw [fs, sram_]
    unfold State.writeBuf
    dsimp only
    rw [q1, q2, q3, q4]
    split
    · exact congrArg (fun m => Memory.read m a) ysram
    · rename_i hn
      dsimp only
      rw [Memory.read_write, ysram]
      split
      · rename_i hc
        exfalso
        simp only [Bool.or_eq_true, hn, false_or, Bool.not_eq_true', Pool.inBuf, Bool.and_eq_false_iff, decide_eq_false_iff_not, Pool.bufAt, if_false, Bool.false_eq_true] at ha
        simp only [List.length_take] at hc
        omega
      · rfl
  · intro a hu ha
    have ha := ha h hh
    rw [fh, hbm_]
    unfold State.writeBuf
    dsimp only
    rw [q1, q2, q3, q4]
    split
    · rename_i hn
      rw [State.writeHbm_read _ _ _ _ hu, yhbm]
      split
      · rename_i hc
        exfalso
        simp only [Bool.or_eq_true, hn, Bool.not_true, Bool.false_eq_true, false_or, Bool.not_eq_true', Pool.inBuf, Bool.and_eq_false_iff, decide_eq_false_iff_not, Pool.bufAt, if_true] at ha
        simp only [List.length_take] at hc
        omega
      · rfl
    · exact congrArg (fun m => Memory.read m a) yhbm
  · intro h' hh'
    obtain rfl : h = h' := by rw [hh] at hh'; exact Option.some.inj hh'
    dsimp only
    intro k hk1 hk2 hk3
    rw [fs, fh, sram_, hbm_]
    unfold State.writeBuf
    dsimp only
    rw [q1, q2, q3, q4]
    have hg : (bytes.take (s.pool P).bufSize).getD k 0 = bytes.getD k 0 := by
      simp [List.getD_eq_getElem?_getD, hk2]
    split
    · rename_i hn
      have e : (s.pool P).bufAt h + k = (s.pool P).base + h * (s.pool P).bufSize + k := by unfold Pool.bufAt; rw [if_pos hn]; omega
      rw [State.writeHbm_read _ _ _ _ (hk3 hn), if_pos (by rw [e]; simp only [List.length_take]; omega)]
      rw [← hg]; congr 1; rw [e]; omega
    · rename_i hn
      have e : (s.pool P).bufAt h + k = (s.pool P).cluster * 0x300000 + (s.pool P).base + h * (s.pool P).bufSize + k := by unfold Pool.bufAt; rw [if_neg hn]
      dsimp only
      rw [Memory.read_write, if_pos (by rw [e]; simp only [List.length_take]; omega)]
      rw [← hg]; congr 1; rw [e]; omega

/-- What the work of a step leaves outside streams, pools and lists stands at the end of the step. -/
theorem State.fire_rest {s : State} {u : UnitId} {img : Nat} {ins outs : List Nat}
    {work : State → List Dword → List (Nat × Nat) → Work} (hr : s.readiness u ins outs = .ready)
    (he : (s.tokensOf u ins).all (fun k => tokType k ≠ tyError) = true) :
    State.Keeps [.streams, .pools, .progs] (work (s.taken u ins outs) (s.tokensOf u ins) (s.offered u ins outs)).st
      (s.fire u img ins outs work) := by
  obtain ⟨x, hx, hk, -⟩ := State.fire_ready s u img ins outs work hr he
  rw [hx]
  exact State.Keeps.into State.finish_keeps (by decide) (State.Keeps.into hk (by decide) .rfl)

/-- A step with one output whose work leaves memory, the lists and the free handles alone (R145, R146). -/
theorem State.fired_plain {s : State} {u : UnitId} {img o dur : Nat} {ins : List Nat} {L : List Part}
    {w : State → List Dword → List (Nat × Nat) → Work} (hr : s.readiness u ins [o] = .ready)
    (he : (s.tokensOf u ins).all (fun k => tokType k ≠ tyError) = true)
    (hst : ∀ h, s.nextHandle o = some h → State.Keeps L (s.taken u ins [o])
        (w (s.taken u ins [o]) (s.tokensOf u ins) [(o, h)]).st ∧
      State.SameFree (s.taken u ins [o]) (w (s.taken u ins [o]) (s.tokensOf u ins) [(o, h)]).st)
    (hL : Part.progs ∉ L ∧ Part.sram ∉ L ∧ Part.hbm ∉ L)
    (hd : ∀ h, s.nextHandle o = some h → (w (s.taken u ins [o]) (s.tokensOf u ins) [(o, h)]).dur = dur) :
    s.FiredAs (s.fire u img ins [o] w) u img o dur := by
  obtain ⟨h, hh⟩ := State.ready_handle hr he
  obtain ⟨x, hx, hk, hf⟩ := State.fire_ready s u img ins [o] w hr he
  rw [State.offered_one hh, hd h hh] at hx
  rw [State.offered_one hh] at hk hf
  obtain ⟨hw, hg⟩ := hst h hh
  have tk := s.taken_keeps u ins [o]
  have now_ : (s.taken u ins [o]).now = s.now := tk .now (by decide)
  have progs_ : x.progs = s.progs :=
    (hk .progs (by decide)).trans ((hw .progs hL.1).trans (tk .progs (by decide)))
  have sram_ : x.sram = s.sram := (hk .sram (by decide)).trans ((hw .sram hL.2.1).trans (tk .sram (by decide)))
  have hbm_ : x.hbm = s.hbm := (hk .hbm (by decide)).trans ((hw .hbm hL.2.2).trans (tk .hbm (by decide)))
  have xp : x.prog u img = s.prog u img := by unfold State.prog; rw [progs_]
  have xt : x.nextTurn u img = s.nextTurn u img := by unfold State.nextTurn State.listsOf State.prog; rw [progs_]
  rw [hx]
  refine ⟨?_, ?_, fun a _ => congrArg (fun m => Memory.read m a) sram_, fun a _ _ => congrArg (fun m => Memory.read m a) hbm_⟩
  · simp [State.finish, now_, xp, xt]
  · exact (hf _).trans ((hg _).trans State.taken_free)

/-! ### A TILE fires -/

/-- A core that is changed reads as changed. -/
theorem State.core_modCore {s : State} {cl k : Nat} {f : Core → Core} : (s.modCore cl k f).core cl k = f (s.core cl k) := by
  simp [State.modCore, State.core, Cluster.modCore, Cluster.core, Cluster.setCore, Tab.get_put]

/-- Before its core is changed, a TILE that fires has changed streams and pools only. -/
theorem State.tileTaken_keeps {s : State} {o h : Nat} {u : UnitId} {q : Half} {b : Bool} :
    Keeps [.streams, .pools] s ((if b = true then s else ((s.markAll [o] .ready).takeHandle o).modStream o fun m =>
      { m.spend with tiles := m.tiles ++ [(q, h)] }).modStream o fun m => (m.setSeq u (q + 1)).pruneTiles) := by
  with_reducible repeat' first
    | exact Keeps.rfl | (apply Keeps.into modStream_keeps; decide) | (apply Keeps.into takeHandle_keeps; decide)
    | (apply Keeps.into markAll_keeps; decide) | apply Keeps.ite | intro _

/-- A TILE that fires has the handle of its tile, begun by another core or offered next, and its next SEQ; its core
is otherwise as it was (R142, R146, R155). -/
theorem State.fireTile_core {s : State} {cl k : Nat} {r : TileRun} (h : (s.core cl k).tile = some r) :
    let m := s.stream r.out
    let q := m.seqOf (.core cl r.pos)
    let x := (m.begunTile q).getD ((s.nextHandle r.out).getD 0xFFFF)
    (s.fireTile cl k).core cl k = { s.core cl k with tile := some { r with handle := x, seq := q } } := by
  unfold State.fireTile
  simp only [h]
  rw [State.core_modCore]
  simp only [State.core, State.cluster]
  rw [show State.clusters _ = s.clusters from State.tileTaken_keeps .clusters (by decide)]

end Sys2Proof.Machine
end

