-- ==== Sys2Proof/Machine/Board.lean ====
section
/-! DEFINITION. What the module is made of and what it plugs into: the counts of its levels, its figures, power, connectors
and limits (R6, R19, R27, R71, R80, R389, R434, R435, R438, R441, R443 to R452). No command moves any of it. -/

namespace Sys2Proof.Machine

/-! ### Levels (R6, R16, R17, R19) -/

/-- The levels of the design, smallest first (R6). -/
inductive Level where
  | cell
  | engine
  | core
  | cluster
  | die
deriving DecidableEq, Repr

/-- Parts of a level in service in one part of the level above; of dies, in the module (R6). -/
def Level.active : Level → Nat
  | .cell => 64
  | .engine => 8
  | .core => 32
  | .cluster => 208
  | .die => 4
/-- The same with the spares (R6, R22). -/
def Level.physical : Level → Nat
  | .engine => 9
  | .core => 34
  | l => l.active

/-- Weight cells in service in the module: products per integration window (R6, R19). -/
def activeCells : Nat := ([Level.cell, .engine, .core, .cluster, .die].map Level.active).foldl (· * ·) 1
/-- Weight cells of the module (R6). -/
def physicalCells : Nat := ([Level.cell, .engine, .core, .cluster, .die].map Level.physical).foldl (· * ·) 1

/-- On-die SRAM in KiB: 3 MiB a cluster, 16 KiB of weight SRAM in every core (R6, R19). -/
def sramKiB : Nat := 4 * 208 * (3 * 1024 + 34 * 16)

/-- Usable HBM of the module in bytes: 31 of 32 channels of 16 stacks of 48 GB (R19, R210). -/
def hbmUsableBytes : Nat := 16 * 48000000000 * 31 / 32

/-- Lane operations per second of the vector units, a fused multiply-add counted as two (R19). -/
def vectorOps : Nat := 832 * 32 * 16 * 1500000000 * 2

/-! ### Throughput, precision and power (R19, R27, R71, R80, R438) -/

/-- Optical products per ns with every active core at windows of h half nanoseconds (R19, R80). -/
def productsPerNs (h : Nat) : Nat := activeCells * 2 / h

/-- Typical module power in W by WINDOW code, every active core computing; code 0 on 416 clusters, 1 ns on the others (R80). -/
def windowWatts (w : Nat) : Nat := [1960, 1850, 1661, 1553, 1488, 1450, 1429].getD w 0

/-- The part of the power at the 1 ns window that moves with the window, and the rest, in W (R80). -/
abbrev movingWatts : Nat × Nat := (540, 1310)

/-- The narrowest feeder width that gives a figure in full: ceil(EB), 4 to 8 (R70, R71). -/
def narrowestWidth (eb : Nat) : Nat := max 4 (min 8 ((eb + 9) / 10))

/-- A cell of the compiler's table: the figure and its width; none with dither paused below 8 ns (R71). -/
def compilerCell (paused : Bool) (w fan : Nat) : Option (Nat × Nat) :=
  if paused && w < 4 then none else some (ebFigure paused w fan, narrowestWidth (ebFigure paused w fan))

/-- The typical split of power at full load, W: comb lasers, heaters and dither, feeders, receivers and converters, core
logic, cluster SRAM and mesh, HBM, die-to-die links, link engines, control, conversion loss (R27). -/
def powerSplit : List Nat := [170, 230, 180, 160, 380, 140, 280, 40, 140, 30, 100]

/-- Limits of a power profile, W: dissipation over 1 s, input over 1 ms, typical power (R27, R438). -/
structure ProfileLimits where
  dissipation : Nat
  input : Nat
  typical : Nat
deriving DecidableEq, Repr

/-- The limits of a profile (R438). -/
def profileLimits : Nat → ProfileLimits
  | 0 => { dissipation := 2000, input := 2100, typical := 1850 }
  | 1 => { dissipation := 1700, input := 1790, typical := 1660 }
  | 2 => { dissipation := 1500, input := 1580, typical := 1470 }
  | _ => { dissipation := 1300, input := 1370, typical := 1280 }

/-- Rise of the hottest die above the coolant inlet in mK at a module power in W: 260 W of it are spent off the package
(R441). -/
def dieRise (worst : Bool) (watts : Nat) : Nat := (watts - 260) * if worst then 23 else 20

/-! ### Optical lanes (R389, R450) -/

/-- Power figures of a lane in tenths of a dBm: launch, at its least and most, sensitivity and overload (R389). -/
structure LanePower where
  launchMin : Int := 10
  launchTyp : Int := 25
  launchMax : Int := 40
  sensitivity : Int := -110
  overload : Int := 40
  hopLoss : Int := 30
deriving DecidableEq, Repr

/-- What is left of a lane's budget for fibre and connectors after n bypass hops, tenths of a dB (R389, R401). -/
def LanePower.left (p : LanePower) (hops : Nat) : Int := p.launchMin - p.sensitivity - hops * p.hopLoss

/-! ### Connectors (R434, R435, R444 to R449) -/

/-- The connectors of the module (R434). -/
inductive Connector where
  | j1                          -- 54 V input, rear edge
  | j2                          -- PCIe x16, PERST#, SMBus, rear edge
  | j4                          -- test port, top face
  | j5                          -- field I/O, rear edge
  | optical (k : Nat)           -- J10 to J17, front edge
  | coolant (outlet : Bool)     -- C1 and C2, rear edge
deriving DecidableEq, Repr

/-- Signals at the pins of J1, J2's sideband, J4 and J5. -/
inductive Signal where
  | supply54 | supplyReturn | present | chassis
  | perst | refclkP | refclkN | smbClk | smbDat | prsnt
  | vref | tck | tms | tdi | tdo | trst
  | analogueIn (n : Nat) | analogueRef (n : Nat) | output (n : Nat) | outputReturn (n : Nat)
  | encoder (line : Nat)        -- A+, A-, B+, B-, Z+, Z-
  | ppcP | ppcN | ppsP | ppsN
  | trig (n : Nat) | trigReturn | evt (n : Nat) | evtReturn
  | encoderSupply | ground
deriving DecidableEq, Repr

/-- Pin of J1 (R435). -/
def j1Pin : Nat → Option Signal
  | 1 | 2 => some .supply54
  | 3 | 4 => some .supplyReturn
  | 5 => some .present
  | 6 => some .chassis
  | _ => none

/-- Pin of the test header J4 (R445). -/
def j4Pin : Nat → Option Signal
  | 1 => some .vref
  | 3 => some .tck
  | 5 => some .tms
  | 7 => some .tdi
  | 9 => some .tdo
  | 10 => some .trst
  | 2 | 4 | 6 | 8 => some .ground
  | _ => none

/-- Row a of J5: analogue inputs, then outputs (R446). -/
def j5RowA (p : Nat) : Option Signal :=
  if 1 ≤ p ∧ p ≤ 16 then some (.analogueIn (p - 1)) else if 17 ≤ p ∧ p ≤ 32 then some (.output (p - 17)) else none
/-- Row b of J5: their references and returns (R446). -/
def j5RowB (p : Nat) : Option Signal :=
  if 1 ≤ p ∧ p ≤ 16 then some (.analogueRef (p - 1)) else if 17 ≤ p ∧ p ≤ 32 then some (.outputReturn (p - 17)) else none
/-- Row c of J5 (R446). -/
def j5RowC (p : Nat) : Option Signal :=
  if 1 ≤ p ∧ p ≤ 6 then some (.encoder (p - 1))
  else if p = 7 then some .ppcP
  else if p = 8 then some .ppcN
  else if p = 9 then some .ppsP
  else if p = 10 then some .ppsN
  else if 11 ≤ p ∧ p ≤ 14 then some (.trig (p - 11))
  else if p = 15 then some .trigReturn
  else if 16 ≤ p ∧ p ≤ 19 then some (.evt (p - 16))
  else if p = 20 then some .evtReturn
  else if p = 21 then some .encoderSupply
  else if 22 ≤ p ∧ p ≤ 32 then some .ground
  else none

/-- The level that a trigger input reads at a voltage in mV; none between the thresholds (R447). -/
def trigLevel (mv : Int) : Option Bool := if mv < 800 then some false else if 2400 < mv then some true else none

/-- The optical connector and the fibre position of a link's transmit or receive fibre (R449). -/
def fibreOf (link : Nat) (receive : Bool) : Connector × Nat :=
  (.optical (10 + link / 8), if receive then 16 - link % 8 else 1 + link % 8)
/-- A Type B cable's position at the other end (R449). -/
def cableTo (p : Nat) : Nat := 17 - p

/-! ### Conditions and ratings (R7, R442, R443, R451, R452) -/

/-- Operating conditions: input in mV, coolant inlet in °C, die in °C, air in °C, each within its range (R452). -/
def operating (mv : Nat) (inlet die air : Int) : Bool :=
  48000 ≤ mv && mv ≤ 58000 && 20 ≤ inlet && inlet ≤ 45 && 45 ≤ die && die ≤ 85 && 0 ≤ air && air ≤ 55

/-- Absolute maximum ratings in mV at J1, an analogue input, an output pin, a TIA-422 pin, a trigger or event pin (R451). -/
def absoluteMax : List (Int × Int) :=
  [(-60000, 60000), (-30000, 30000), (-15000, 15000), (-7000, 12000), (-5000, 30000)]

end Sys2Proof.Machine
end

