-- ==== Sys2Proof/Tests/Slice0.lean ====
section
/-! SUPPORT. Tests: the well-formedness smoke test, a concrete state that meets the hypotheses of each statement's clauses
(witness_…), and small tests of single commands, their expected values worked out by hand from the manual (test_…). -/

namespace Sys2Proof.Tests

set_option Elab.async false

open Sys2Proof Sys2Proof.Config Sys2Proof.Machine

/-! ### Sample states -/

/-- A word built of (position, value) fields. -/
def word (xs : List (Nat × Nat)) : Dword := BitVec.ofNat 64 ((xs.map fun x => x.2 * 2 ^ x.1).foldl (· + ·) 0)

/-- The module in Tap; function 0 owns field I/O and the loop engine. -/
def live : State :=
  { State.reset with
    aon := { State.reset.aon with inReset := false, stage := 3, perst := false, armed := true }
    fw := { State.reset.fw with serving := true, ioOwner := some 0, loopOwner := some 0 } }

/-- Unit u stands at an operation of image 0. -/
def onOp (u : UnitId) (o : Dword) (s : State := live) : State := s.setProg u 0 { unit := u, list := [o], phase := .running }

/-- A data token of stream i that names a handle. -/
def dataTok (i h : Nat) : Dword := mkTok tyData i h 0 {}

/-- Stream i of pool p has one token at the head of unit u's queue. -/
def fedBy (s : State) (u : UnitId) (i p : Nat) (k : Dword) : State :=
  s.setStream i { pool := BitVec.ofNat 12 p, consumers := [{ unit := u, credits := 1, queue := [{ tok := k, got := [u] }] }] }

/-- Stream o of pool p may be written: a credit of its consumer, handle 7 free. -/
def openTo (s : State) (o p : Nat) : State :=
  (s.setStream o { pool := BitVec.ofNat 12 p, consumers := [{ unit := .tree 9, credits := 1 }] }).setPool p
    { base := 0x10000 * p, bufSize := 256, freeList := [7] }

/-- Bytes at the start of handle 3 of pool 1, in the SRAM of cluster 0. -/
def holding (s : State) (bs : List Byte) : State :=
  (s.setPool 1 { base := 0x10000, bufSize := 576 }).writeBuf 1 3 0 bs

/-- The state that a command leaves, and the same state where it stops. -/
def after (c : Instr) (s : State) : State := match exec c s with | .next s' => s' | _ => s

/-- A command completes. -/
def runs (c : Instr) (s : State) : Bool := match exec c s with | .next _ => true | _ => false

/-! ### Well-formedness -/

/-- A term for each check of Instr.wf, and of UnitId.wf, that the check refuses (1). -/
def illFormed1 : List Instr :=
  [.nop 0 (.feeder 832 0) 0, .nop 0 (.feeder 0 4) 0, .nop 0 (.core 832 0) 0, .nop 0 (.core 0 32) 0, .nop 0 (.tree 832) 0,
    .nop 0 (.vu 832 0) 0, .nop 0 (.vu 0 32) 0, .nop 0 (.quant 832 0) 0, .nop 0 (.quant 0 16) 0, .nop 0 (.port 64) 0,
    .nop 0 (.engine 16) 0]

/-- A term for each check of Instr.wf, and of UnitId.wf, that the check refuses (2). -/
def illFormed2 : List Instr :=
  [.creditReturn 0 4096 .field, .creditReturn 0 0 (.port 64), .handleFree 0 4096, .groupDrained 0 256 0,
    .groupDrained 0 0 4096, .stall 0 4096, .stepAborted 0 256, .coreCreditGrant 0 832 0, .coreCreditGrant 0 0 32,
    .switchGrant 0 832 0, .switchGrant 0 0 4, .probePacket 0 832 0 0 [], .probePacket 0 0 4 0 [], .probePacket 0 0 0 34 [],
    .probePacket 0 0 0 0 [(576, 1)], .probePacket 0 0 0 0 [(0, 65)], .loadSettled 0 832 0, .loadSettled 0 0 34, .transferIssue 0 16,
    .transferComplete 0 16 0 0, .transferComplete 0 0 8192 0]

/-- A term for each check of Instr.wf, and of UnitId.wf, that the check refuses (3). -/
def illFormed3 : List Instr :=
  [.hostBar2Read 0 (2 ^ 40) 1, .hostBar2Write 0 (2 ^ 40) [0], .channelMigration 0 16 0, .channelMigration 0 0 31,
    .migrationEnd 0 16, .outerUpdate 0 832, .quietWindowOpen 0 [832] 1, .spareClaim 0 832 [], .spareClaim 0 0 [(34, .mislock)],
    .profileMoveEnd 0 832 0 0, .profileMoveEnd 0 0 34 0, .profileMoveEnd 0 0 0 576, .engineSpared 0 0 0 8,
    .engineSpared 0 0 34 0, .engineSpared 0 832 0 0, .lineRemapped 0 832 0, .lineRemapped 0 0 68, .combWorn 0 832 0,
    .combWorn 0 0 65536]

/-- A term for each check of Instr.wf, and of UnitId.wf, that the check refuses (4). -/
def illFormed4 : List Instr :=
  [.loopUpdate 0 16, .loopEnable 0 64 0 0, .loopEnable 0 0 16 0, .captureArm 0 66 0, .prfLimitWrite 0 64 0 0 0,
    .prfLimitWrite 0 0 16 0 0, .prfLimitWrite 0 0 0 3 0, .softwareTrigger 0 64 0 0, .softwareTrigger 0 0 4 0,
    .converterTimer 0 4, .triggerPinEdge 0 4 false, .doorbell 0 160 0, .lockRead 0 64 0, .lockRead 0 0 64, .rcRead 0 64 0,
    .rcRead 0 0 0x4000000, .functionLevelReset 0 64]

/-- A term for each check of Instr.wf, and of UnitId.wf, that the check refuses (5). -/
def illFormed5 : List Instr :=
  [.headerFrame 0 64 {}, .creditFrame 0 64 0 1, .creditFrame 0 0 0 0, .creditFrame 0 0 0 65, .laneLockLoss 0 64 [],
    .laneLockLoss 0 0 [10], .laneErrorRate 0 64 0, .laneErrorRate 0 0 10, .thermalTrip 0 4 0, .thermalTripRelease 0 [0, 0, 0]]

/-- A term for each check of Instr.wf, and of UnitId.wf, that the check refuses. -/
def illFormed : List Instr := illFormed1 ++ illFormed2 ++ illFormed3 ++ illFormed4 ++ illFormed5

/-- The same terms at the last value that each check admits (1). -/
def wellFormed1 : List Instr :=
  [.nop 0 (.feeder 831 3) 0, .nop 0 (.core 831 31) 0, .nop 0 (.tree 831) 0, .nop 0 (.vu 831 31) 0, .nop 0 (.quant 831 15) 0,
    .nop 0 (.port 63) 0, .nop 0 (.engine 15) 0, .creditReturn 0 4095 .field, .handleFree 0 4095, .groupDrained 0 255 4095,
    .coreCreditGrant 0 831 31, .switchGrant 0 831 3, .probePacket 0 831 3 33 [(575, 64)], .loadSettled 0 831 33,
    .transferComplete 0 15 8191 0]

/-- The same terms at the last value that each check admits (2). -/
def wellFormed2 : List Instr :=
  [.hostBar2Read 0 (2 ^ 40 - 1) 1, .hostBar2Write 0 (2 ^ 40 - 1) [0], .channelMigration 0 15 30, .quietWindowOpen 0 [831] 1,
    .spareClaim 0 831 [(33, .mislock)], .profileMoveEnd 0 831 33 575, .engineSpared 0 831 33 7, .lineRemapped 0 831 67,
    .combWorn 0 831 65535, .loopEnable 0 63 15 0, .loopEnable 0 65 15 0, .prfLimitWrite 0 63 15 2 0,
    .softwareTrigger 0 65 3 0, .triggerPinEdge 0 3 false, .doorbell 0 159 0, .lockRead 0 65 63, .rcRead 0 130 0x3FFFFFC,
    .functionLevelReset 0 63]

/-- The same terms at the last value that each check admits (3). -/
def wellFormed3 : List Instr :=
  [.headerFrame 0 63 {}, .creditFrame 0 63 0 64, .laneLockLoss 0 63 [9], .laneErrorRate 0 63 9, .thermalTrip 0 3 0,
    .thermalTripRelease 0 [0, 0, 0, 0]]

/-- The same terms at the last value that each check admits. -/
def wellFormed : List Instr := wellFormed1 ++ wellFormed2 ++ wellFormed3

theorem test_ill_formed_refused : (illFormed.all fun c => !c.wf) = true := by decide +kernel
theorem test_well_formed_admitted : (wellFormed.all Instr.wf) = true := by decide +kernel

/-! ### The machine -/

/-- Witnesses of StepRunsFrontCommand and EmptyQueueIdles: a queue with a command in front, and an empty one. -/
theorem witness_queues :
    ({ State.reset with pending := [.nop 0 .field 0] } : State).pending = [.nop 0 .field 0] ∧ State.reset.pending = [] :=
  ⟨rfl, rfl⟩

theorem test_step_takes_the_front :
    step { live with pending := [.hbmTrainingEnd 5, .nop 9 .field 0] } = exec (.hbmTrainingEnd 5) { live with pending := [.nop 9 .field 0] } :=
  rfl

theorem test_no_word_spells_a_command : decodeTableWord 32 0 = none ∧ State.reset.withFetchWord 32 0 = State.reset :=
  ⟨rfl, rfl⟩

/-- Witness of WellFormedCommandsComplete: both kinds of command exist. -/
theorem witness_wf : (Instr.nop 0 (.core 831 31) 0).wf = true ∧ (Instr.nop 0 (.core 832 0) 0).wf = false :=
  ⟨rfl, rfl⟩

/-- Witness of ClockMovesToTheCommand and CommandsKeepTheRest: a command that answers a next state. -/
theorem witness_next : exec (.evtFirstEvaluation 5) State.reset = .next (State.reset.tick 5) := rfl

/-! ### Firing lists -/

/-- Witness of ListControlCompletes: NOP, LOOP idle at its end and running, WAITANG, EVENT, an unlisted opcode. -/
theorem witness_list_control :
    (onOp .field (word [(0, 0)])).stands 5 .field 0 opNop = true ∧
      (onOp .field (word [(0, 2), (8, 1)])).stands 5 .field 0 opLoop = true ∧
      (((onOp .field (word [(0, 2), (8, 1)])).prog .field 0).ctr.getD 0 none).getD 0 = 0 ∧
      (onOp (.tree 0) (word [(0, 2), (16, 65535), (32, 3)])).stands 5 (.tree 0) 0 opLoop = true ∧
      (((onOp (.tree 0) (word [(0, 2), (16, 65535), (32, 3)])).prog (.tree 0) 0).ctr.getD 3 none).getD
        (field (word [(0, 2), (16, 65535), (32, 3)]) 16 16) = 65534 + 1 ∧
      (onOp .field (word [(0, 4), (8, 7)])).stands 5 .field 0 opWaitang = true ∧
      (onOp .field (word [(0, 5), (8, 7)])).stands 5 .field 0 opEvent = true ∧
      unitOk (.vu 0 0) = true ∧ ((onOp (.vu 0 0) 0x24).tick 5).mayRun (.vu 0 0) 0 = true ∧
      opListed (.vu 0 0) ((onOp (.vu 0 0) 0x24).prog (.vu 0 0) 0).op = false := by decide +kernel

theorem test_loop_branches_back :
    ((after (.loop 5 .field 0) (onOp .field (word [(0, 2), (8, 9), (16, 3)]))).prog .field 0).pos = 9 ∧
      ((after (.loop 5 .field 0) (onOp .field (word [(0, 2), (8, 9), (16, 0)]))).prog .field 0).pos = 1 := by decide +kernel

/-- A vector unit at an operation: handle 3 on stream 1, stream 2 open, shape 0 of one row of two columns, shape 1 of
eight rows of 64. -/
def vuState (o : Dword) (bs : List Byte) : State :=
  let s := openTo (fedBy (holding live bs) (.vu 0 0) 1 1 (dataTok 1 3)) 2 2
  s.setProg (.vu 0 0) 0 { unit := .vu 0 0, list := [o], phase := .running, shapes := [0x00020001, 0x00400008] }

/-- A VOP of a function, from stream 1 to stream 2. -/
def vopWord (func : Nat) : Dword := word [(0, 0x40), (8, func), (16, 1), (28, 1), (40, 2)]

/-- 1.0 and -2.0 in FP32. -/
def twoWords : List Byte := toLe 4 0x3F800000 ++ toLe 4 0xC0000000

/-- Witness of VopsWriteTheirFunction, for every function of its table. -/
theorem witness_vops : (vopTable.all fun r =>
    (vuState (vopWord r.func) twoWords).fires 0 (.vu 0 0) 0 opVop (opInputs (vopWord r.func)) [field (vopWord r.func) 40 12]
      && decide (vopFunc (((vuState (vopWord r.func) twoWords).prog (.vu 0 0) 0).op) = r.func)) = true := by decide +kernel

/-- The bytes that a command leaves in handle 7 of pool 2. -/
def result (c : Instr) (s : State) (n : Nat) : List Byte := (after c s).readBuf 2 7 0 n

theorem test_add : result (.vAdd 0 (.vu 0 0) 0) (vuState (vopWord 0x00) twoWords) 8 = toLe 4 0x40000000 ++ toLe 4 0xC0800000 := by
  decide +kernel
theorem test_sub : result (.vSub 0 (.vu 0 0) 0) (vuState (vopWord 0x01) twoWords) 8 = toLe 4 0 ++ toLe 4 0 := by
  decide +kernel
theorem test_mul : result (.vMul 0 (.vu 0 0) 0) (vuState (vopWord 0x02) twoWords) 8 = toLe 4 0x3F800000 ++ toLe 4 0x40800000 := by
  decide +kernel
theorem test_rsum : result (.vRsum 0 (.vu 0 0) 0) (vuState (vopWord 0x12) twoWords) 4 = toLe 4 0xBF800000 := by
  decide +kernel
theorem test_rmaxabs : result (.vRmaxabs 0 (.vu 0 0) 0) (vuState (vopWord 0x10) twoWords) 4 = toLe 4 0x40000000 := by
  decide +kernel

/-- Witness of GatherAndEdgesum and DynimgFillsItsSlot: GATHER, EDGESUM, and DYNIMG into a free and into a held slot. -/
theorem witness_gather_edgesum_dynimg :
    ([0x20, 0x21, 0x30].all fun f =>
      (vuState (vopWord f) twoWords).fires 0 (.vu 0 0) 0 opVop (opInputs (vopWord f)) [field (vopWord f) 40 12]
        && decide (vopFunc (vopWord f) = f)) = true ∧
      ((vuState (vopWord 0x30) twoWords).core 0 (((vuState (vopWord 0x30) twoWords).cluster 0).phys 0)).slotHeld 0 = false ∧
      (((vuState (vopWord 0x30) twoWords).modCore 0 0 fun c => { c with active := some {} }).fires 0 (.vu 0 0) 0 opVop
        (opInputs (vopWord 0x30)) [field (vopWord 0x30) 40 12]) = true ∧
      (((vuState (vopWord 0x30) twoWords).modCore 0 0 fun c => { c with active := some {} }).core 0 0).slotHeld 0 = true := by
  decide +kernel

/-- A tree at a REDUCE from stream 1 to stream 2, without an external handle; plan 0 adds two slices. -/
def treeState : State :=
  let s := openTo (fedBy (holding live twoWords) (.tree 0) 1 1 (dataTok 1 3)) 2 2
  s.setProg (.tree 0) 0
    { unit := .tree 0, list := [word [(0, 0x30), (14, 1), (26, 2), (38, 0xFFF)]], phase := .running
      plans := [word [(0, 3), (48, 1)]] }

/-- Witness of ReduceWritesTreeSums. -/
theorem witness_reduce :
    treeState.fires 0 (.tree 0) 0 opReduce (opInputs (treeState.prog (.tree 0) 0).op) [2] = true ∧
      field (treeState.prog (.tree 0) 0).op 26 12 = 2 := by decide +kernel

theorem test_reduce_adds : result (.reduce 0 (.tree 0) 0) treeState 4 = toLe 4 0xBF800000 := by decide +kernel

/-- A quantiser at a QUANT: the direction bit, the pairs of the handle it takes. -/
def quantState (dec : Nat) (pairs : List Pair) : State :=
  let s := openTo (fedBy (holding live twoWords) (.quant 0 0) 1 1 (dataTok 1 3)) 2 2
  (s.modPool 1 fun p => { p with pairs := [(3, pairs)] }).setProg (.quant 0 0) 0
    { unit := .quant 0 0, list := [word [(0, 0x50), (8, 1), (20, 2), (34, dec)]], phase := .running }

/-- Witness of QuantEncodesAndDecodes: encoding, decoding good pairs, decoding a pair without scales. -/
theorem witness_quant :
    (quantState 0 []).fires 0 (.quant 0 0) 0 opQuant [1] [2] = true ∧ flag ((quantState 0 []).prog (.quant 0 0) 0).op 34 = false ∧
      (quantState 1 []).fires 0 (.quant 0 0) 0 opQuant [1] [2] = true ∧ flag ((quantState 1 []).prog (.quant 0 0) 0).op 34 = true ∧
      ((((quantState 1 []).pool 1).pairs.find? fun x => x.1 = 3).map (·.2)).getD [] = [] ∧
      ((([{ data := some [] }] : List Pair).map (decodePair 0)).filter (·.isNone)).length = 1 ∧
      (quantState 1 [{ data := some [] }]).fires 0 (.quant 0 0) 0 opQuant [1] [2] = true ∧
      (((quantState 1 [{ data := some [] }]).pool 1).pairs.find? fun x => x.1 = 3).map (·.2) = some [{ data := some [] }] := by
  decide +kernel

/-! ### Steps, fences, links, descriptors -/

/-- Image 0 is placed on cluster 0 with these units and groups; its model step runs, or not. -/
def withJob (s : State) (us : List UnitId) (running : Bool := true) (groups : List (Nat × List UnitId) := []) : State :=
  s.setImage 0 { loaded := true, img := { units := us.map fun u => { unit := u }, groups := groups, clusters := 1 }
                 placed := some [0], running := running }

/-- Witness of EndClosesTheStep: no step runs; the last unit of a running step. -/
theorem witness_end :
    (onOp .field (word [(0, 1)])).stands 5 .field 0 opEnd = true ∧ ((onOp .field (word [(0, 1)])).image 0).running = false ∧
      (withJob (onOp .field (word [(0, 1)])) [.field]).stands 5 .field 0 opEnd = true ∧
      (((withJob (onOp .field (word [(0, 1)])) [.field]).image 0).running &&
        (((withJob (onOp .field (word [(0, 1)])) [.field]).tick 5).setProg .field 0
          { (onOp .field (word [(0, 1)])).prog .field 0 with phase := .ended }).allEnded 0) = true := by decide +kernel

theorem test_end_completes_the_step :
    ((after (.endOp 6000 .field 0) (withJob (onOp .field (word [(0, 1)])) [.field])).image 0).completed = 1 ∧
      ((after (.endOp 6000 .field 0) (withJob (onOp .field (word [(0, 1)])) [.field])).image 0).lastUs = 1 := by decide +kernel

/-- The tree of cluster 0 at FENCE of group 0 beside vector unit 0: stream 1 comes from it, stream 2 goes to it. -/
def fenceState (q : List QEntry) (credits : Nat) (drained : Option Nat := none) : State :=
  let s := withJob live [.tree 0, .vu 0 0] true [(0, [.tree 0, .vu 0 0])]
  let s := s.setProg (.tree 0) 0 { unit := .tree 0, list := [word [(0, 3)]], phase := .running, drained := drained }
  let s := s.setStream 1 { img := some 0, producers := [.vu 0 0], consumers := [{ unit := .tree 0, credits := 1, queue := q }] }
  s.setStream 2 { img := some 0, producers := [.tree 0], consumers := [{ unit := .vu 0 0, credits := credits }] }

/-- A fence at a queue's head. -/
def fenceEntry : QEntry := { tok := mkTok tyFence 1 0xFFFF 0 {}, got := [.vu 0 0] }

/-- A core at FENCE with a TILE prepared. -/
def fenceBusy : State :=
  (onOp (.core 0 0) (word [(0, 3)])).modCore 0 0 fun c => { c with tile := some { img := 0, pos := 0 } }

/-- Witness of FencePassesThroughAUnit: drained already, a tile in flight, no fence at an input, no credit, all there. -/
theorem witness_fence :
    (fenceState [] 1 (some 0)).stands 5 (.tree 0) 0 opFence = true ∧ ((fenceState [] 1 (some 0)).prog (.tree 0) 0).drained = some 0 ∧
      fenceBusy.stands 5 (.core 0 0) 0 opFence = true ∧ (fenceBusy.prog (.core 0 0) 0).drained = none ∧
      fenceBusy.layerDone (.core 0 0) 0 = false ∧
      (fenceState [] 1).stands 5 (.tree 0) 0 opFence = true ∧ (fenceState [] 1).layerDone (.tree 0) 0 = true ∧
      (fenceState [] 1).groupInputs 0 ((fenceState [] 1).groupOf 0 0) (.tree 0) = [1] ∧
      ((fenceState [] 1).tick 5).fenceAt 1 (.tree 0) = false ∧
      (fenceState [fenceEntry] 0).stands 5 (.tree 0) 0 opFence = true ∧
      ((fenceState [fenceEntry] 0).tick 5).fenceAt 1 (.tree 0) = true ∧
      (fenceState [fenceEntry] 0).fenceOutputs 0 ((fenceState [] 1).groupOf 0 0) (.tree 0) = [2] ∧
      ((fenceState [fenceEntry] 0).stream 2).hasCredit = false ∧
      (fenceState [fenceEntry] 1).stands 5 (.tree 0) 0 opFence = true ∧ ((fenceState [fenceEntry] 1).stream 2).hasCredit = true := by
  decide +kernel

theorem test_fence_is_forwarded :
    (((after (.fence 5 (.tree 0) 0) (fenceState [fenceEntry] 1)).stream 2).consumers.map fun c => c.queue.map fun e =>
      tokType e.tok) = [[tyFence]] := by decide +kernel

/-- Link 2's port at a SEND of stream 1 to module 0x0123; route entry 0x12 and the link's state vary. -/
def sendState (k : Dword) (route : Half) (st : BitVec 2) (credits : Nat) : State :=
  let s := fedBy live (.port 2) 1 1 k
  let s := { s with linkMod := { s.linkMod with routes := Tab.put 0 [] 0x12 route } }
  onOp (.port 2) (word [(0, 0x60), (8, 1), (20, 0x123), (36, 9)]) (s.setLink 2 { st := st, credits := credits })

/-- Witness of SendHandsPairsToItsLink: an error token, no route, the link down, without credit, up. -/
theorem witness_send :
    ([sendState (mkTok tyError 1 0xFFFF 0 {}) 0x82 2 1, sendState (dataTok 1 3) 0 2 1, sendState (dataTok 1 3) 0x82 1 1,
      sendState (dataTok 1 3) 0x82 2 0, sendState (dataTok 1 3) 0x82 2 64].all fun s =>
        s.stands 5 (.port 2) 0 opSend && ((s.tick 5).dataAt 1 (.port 2)).isSome) = true ∧
      (sendState (mkTok tyError 1 0xFFFF 0 {}) 0x82 2 1).dataAt 1 (.port 2) = some (mkTok tyError 1 0xFFFF 0 {}) ∧
      tokType (mkTok tyError 1 0xFFFF 0 {}) = tyError ∧ tokType (dataTok 1 3) ≠ tyError ∧
      (sendState (dataTok 1 3) 0 2 1).routeLink 0x123 = none ∧ (sendState (dataTok 1 3) 0x82 2 64).routeLink 0x123 = some 2 ∧
      ((sendState (dataTok 1 3) 0x82 1 1).link 2).st ≠ 2 ∧ ((sendState (dataTok 1 3) 0x82 2 0).link 2).credits = 0 ∧
      ((sendState (dataTok 1 3) 0x82 2 64).link 2).st = 2 ∧ ((sendState (dataTok 1 3) 0x82 2 64).link 2).credits ≠ 0 := by
  decide +kernel

/-- Link 2's port at a RECV into stream 2 from module 5, under stream number 9. -/
def recvState (rx : List Pair) (lost : Bool) (credits : Nat) : State :=
  let s := (openTo live 2 2).modStream 2 fun m =>
    { m with peerLost := lost, consumers := [{ unit := .tree 9, credits := credits }] }
  onOp (.port 2) (word [(0, 0x61), (8, 2), (20, 5), (36, 9)]) (s.modStream 9 fun m => { m with rx := rx })

/-- A pair of one block of N8 from module 5. -/
def onePair : Pair := { pseq := 0, src := 5, data := some (List.replicate 32 1), scales := some [2] }

/-- Witness of RecvGathersATile: a pair there, none, the peer lost with and without credit. -/
theorem witness_recv :
    (recvState [onePair] false 1).fires 5 (.port 2) 0 opRecv [] [2] = true ∧
      ((recvState [onePair] false 1).stream 2).peerLost = false ∧
      (recvState [onePair] false 1).recvPairs 0 ((recvState [onePair] false 1).prog (.port 2) 0).op = some [onePair] ∧
      (recvState [] false 1).stands 5 (.port 2) 0 opRecv = true ∧
      (recvState [] false 1).recvPairs 0 ((recvState [] false 1).prog (.port 2) 0).op = none ∧
      (recvState [] true 1).stands 5 (.port 2) 0 opRecv = true ∧ ((recvState [] true 1).stream 2).peerLost = true ∧
      ((recvState [] true 1).stream 2).hasCredit = true ∧ (recvState [] true 0).stands 5 (.port 2) 0 opRecv = true ∧
      ((recvState [] true 0).stream 2).hasCredit = false := by decide +kernel

/-- A descriptor of one transfer of 64 bytes: HBM address 0 to offset 0 of cluster 0's SRAM. -/
def smallDesc (space size : Nat) : List Byte :=
  padTo 64 (toLe 8 0 ++ toLe 8 (space * 2 ^ 60) ++ toLe 4 size ++ toLe 4 1 ++ toLe 4 0 ++ toLe 4 0 ++ toLe 2 0 ++ toLe 2 0
    ++ toLe 2 0 ++ toLe 2 0xFFF ++ toLe 2 7)

/-- Descriptor 3 of engine 0 in a state, with its store and shadow. -/
def descState (st : DescState) (shadow : Option (List Byte)) (store : List Byte := smallDesc 1 64) : State :=
  live.setDesc 0 3 { store := store, st := st, shadow := shadow }

/-- Witness of ArmingADescriptor: idle and done with a good and a bad store, busy with a free and a full shadow, ERROR. -/
theorem witness_arm :
    (descState .idle none).descCheck 0 (padTo 64 (smallDesc 1 64)) = 0 ∧ ((descState .done none).desc 0 3).st = .done ∧
      (descState .idle none).descCheck 0 (padTo 64 (smallDesc 1 65)) = 3 ∧
      (descState .idle none).descCheck 0 (padTo 64 (smallDesc 0 64)) = 5 ∧
      ((descState .armed none).desc 0 3).st = .armed ∧ ((descState .draining none).desc 0 3).shadow = none ∧
      (descState .active none (smallDesc 1 64)).descCheck 0 (padTo 64 ((descState .active none).desc 0 3).store) = 0 ∧
      (descState .active none (smallDesc 1 65)).descCheck 0
        (padTo 64 ((descState .active none (smallDesc 1 65)).desc 0 3).store) ≠ 0 ∧
      ((descState .active (some [])).desc 0 3).shadow ≠ none ∧ ((descState .error none).desc 0 3).st = .error ∧
      0 * 8192 + 4 ≠ 0 * 8192 + 3 := by decide +kernel

theorem test_recv_takes_under_remote :
    ((after (.recv 5 (.port 2) 0) (recvState [onePair] false 1)).stream 2).pseq = 1 ∧
      ((after (.recv 5 (.port 2) 0) (recvState [onePair] false 1)).pool 2).pairs = [(7, [onePair])] := by decide +kernel

/-- Witness of XferArmsItsDescriptor: ERROR, busy with a full shadow, idle. -/
theorem witness_xfer :
    ([descState .error none, descState .active (some []), descState .idle none].all fun s =>
      (onOp (.engine 0) (word [(0, 0x70), (8, 3)]) s).stands 5 (.engine 0) 0 opXfer) = true ∧
      field (word [(0, 0x70), (8, 3)]) 8 13 = 3 := by decide +kernel

theorem test_xfer_arms :
    ((after (.xfer 5 (.engine 0) 0) (onOp (.engine 0) (word [(0, 0x70), (8, 3)]) (descState .idle none))).desc 0 3).st = .armed ∧
      ((after (.xfer 5 (.engine 0) 0)
        (onOp (.engine 0) (word [(0, 0x70), (8, 3)]) (descState .idle none (smallDesc 0 64)))).desc 0 3).lastErr = 5 := by
  decide +kernel

/-! ### Cores -/

/-- Core 0 of cluster 0 with these contents, its unit at an operation. -/
def coreAt (o : Dword) (c : Core) : State := (onOp (.core 0 0) o).modCore 0 0 fun _ => c

/-- An image held, loaded at 0. -/
def heldImage : Held := { slot := 4, start := 0 }

/-- A core whose settled prefetch a refresh of this nanosecond has discarded; PREFETCH_DISCARD was 8 before. -/
def cutCore : Core :=
  { prefetch := some (4, true), prefetchDiscard := 9, shadow := some { heldImage with refresh := true }
    cut := some ({ heldImage with byList := true, usable := true }, 8, 5) }

/-- Core 0 at a WLOAD of slot 31 behind a SWAP whose nanosecond ends at e. -/
def behindSwap (e : Nat) : State :=
  live.setProg (.core 0 0) 0
    { unit := .core 0 0, list := [0x22, word [(0, 0x21), (8, 31)]], phase := .running, pos := 1, busyUntil := e }

/-- Witness of WeightsMoveIntoTheCore: WFILL of a free slot from a token, of a held slot, without a token; WLOAD free and
loading, behind a swap; SWAP behind a TILE, with a usable image of the list, one not usable, one not of the list, none, one
that a refresh has just discarded; RSCALE. -/
theorem witness_weights :
    (fedBy (coreAt (word [(0, 0x20), (8, 1), (20, 31)]) {}) (.core 0 0) 1 1 (dataTok 1 3)).stands 5 (.core 0 0) 0 opWfill = true ∧
      (fedBy (coreAt (word [(0, 0x20), (8, 1), (20, 31)]) {}) (.core 0 0) 1 1 (dataTok 1 3)).dataAt 1 (.core 0 0)
        = some (dataTok 1 3) ∧
      (live.core 0 ((live.cluster 0).phys 0)).slotHeld 31 = false ∧ flag (word [(0, 0x20), (8, 1), (20, 31)]) 25 = false ∧
      (coreAt (word [(0, 0x20), (8, 1), (20, 4)]) { active := some heldImage }).stands 5 (.core 0 0) 0 opWfill = true ∧
      ((coreAt (word [(0, 0x20), (8, 1), (20, 4)]) { active := some heldImage }).core 0 0).slotHeld 4 = true ∧
      (coreAt (word [(0, 0x20), (8, 1)]) {}).dataAt 1 (.core 0 0) = none ∧
      (coreAt (word [(0, 0x21), (8, 31)]) {}).stands 5 (.core 0 0) 0 opWload = true ∧ ({} : Core).loading = false ∧
      (coreAt 0x21 { shadow := some heldImage }).stands 5 (.core 0 0) 0 opWload = true ∧
      ({ shadow := some heldImage } : Core).loading = true ∧
      ([({ tile := some {} } : Core), { shadow := some { heldImage with byList := true, usable := true } },
        { shadow := some { heldImage with byList := true } }, { shadow := some heldImage }, {}, cutCore].all fun c =>
          (coreAt 0x22 c).stands 5 (.core 0 0) 0 opSwap) = true ∧
      cutCore.rescued 5 = some ({ heldImage with byList := true, usable := true }, 8) ∧
      (unitOk (.core 0 0) && ((behindSwap 11).tick 5).mayLoad (.core 0 0) 0
        && opcode ((behindSwap 11).prog (.core 0 0) 0).op = opWload
        && opListed (.core 0 0) ((behindSwap 11).prog (.core 0 0) 0).op) = true ∧
      (coreAt (word [(0, 0x23), (8, 0xFF), (16, 1)]) {}).stands 5 (.core 0 0) 0 opRscale = true := by decide +kernel

theorem test_wfill_writes_its_slot :
    (((after (.wfill 5 (.core 0 0) 0)
      (fedBy (holding (coreAt (word [(0, 0x20), (8, 1), (20, 31)]) {}) [9, 8]) (.core 0 0) 1 1 (dataTok 1 3))).core
        0 0).slotAt 31).code.take 3 = [9, 8, 0] := by decide +kernel

theorem test_rscale_sets_mask :
    ((after (.rscale 5 (.core 0 0) 0) (coreAt (word [(0, 0x23), (8, 0x0F), (16, 1)]) {})).prog (.core 0 0) 0).rowMask = 0x0F := by
  decide +kernel

/-- A core that keeps slot 4 for a chain to core 1 of its cluster, which stands at the WFILL of slot 2, or not. -/
def chainState (ready : Bool) : State :=
  let s := (live.modCore 0 0 fun c => { c with forward := [{ stream := 3, slot := 4 }] }).setStream 3
    { img := some 0, chain := true, consumers := [{ unit := .core 0 1, credits := 1 }] }
  if ready then onOp (.core 0 1) (word [(0, 0x20), (8, 3), (20, 2)]) s else s

/-- Witness of ImagesSettleAndRefresh: a shadow at 72 ns for use, for a refresh without and with a discarded prefetch;
one too young, one settled; an active image at 7,800 ns, younger, or refreshing; a chain with and without its credit. -/
theorem witness_settle :
    heldImage.start + 72 * ns ≤ 432 ∧ heldImage.usable = false ∧ heldImage.refresh = false ∧
      ¬ (heldImage.start + 72 * ns ≤ 431) ∧ ({ heldImage with usable := true } : Held).usable = true ∧
      ((coreAt 0 { shadow := some heldImage }).core 0 0).shadow = some heldImage ∧
      ((coreAt 0 { shadow := some { heldImage with refresh := true }, prefetch := some 6 }).core 0 0).prefetch = some 6 ∧
      ((coreAt 0 { shadow := some { heldImage with refresh := true } }).core 0 0).prefetch = none ∧
      ((coreAt 0 { active := some heldImage }).core 0 0).active = some heldImage ∧ heldImage.start + 7800 * ns ≤ 46800 ∧
      46799 < heldImage.start + 7800 * ns ∧
      ((chainState true).tick 5).nextForward ((chainState true).core 0 0) = some { stream := 3, slot := 4 } ∧
      ((chainState true).cluster 0).posOf 0 = some 0 ∧
      ((chainState false).tick 5).nextForward ((chainState false).core 0 0) = none ∧
      (live.packetOn 0 0).isSome = false ∧ live.swapAsked 0 0 = false ∧
      ((coreAt 0x22 { active := some heldImage, shadow := some { heldImage with byList := true, usable := true } }).tick
        46800).swapAsked 0 0 = true := by decide +kernel

theorem test_wload_begins_in_the_swap :
    ((after (.wload 5 (.core 0 0) 0) (behindSwap 11)).core 0 0).shadow.map (fun h => (h.slot, h.start)) = some (31, 5) ∧
      ((after (.wload 5 (.core 0 0) 0) (behindSwap 12)).core 0 0).shadow = none := by decide +kernel

theorem test_swap_wins_over_a_refresh_of_its_nanosecond :
    ((after (.swap 5 (.core 0 0) 0) (coreAt 0x22 cutCore)).core 0 0).prefetchDiscard = 8 ∧
      ((after (.swap 5 (.core 0 0) 0) (coreAt 0x22 cutCore)).core 0 0).active.isSome = true := by decide +kernel

theorem test_settle_at_72_ns :
    ((after (.loadSettled 432 0 0) (coreAt 0 { shadow := some heldImage })).core 0 0).shadow
        = some { heldImage with usable := true } ∧
      ((after (.loadSettled 431 0 0) (coreAt 0 { shadow := some heldImage })).core 0 0).shadow = some heldImage := by
  decide +kernel

/-! ### Credits, fences out of order, stalls, aborts, starts -/

/-- Stream 1 with an edge into the tree of cluster 0 that owes credits. -/
def owing (n : Nat) : State :=
  live.setStream 1 { consumers := [{ unit := .tree 0, c := 64, credits := 0, owed := n, owedSeq := 9 }] }

/-- Witness of TokensCreditsAndHandlesReturn: reserved and listed token types, an edge that owes 1 and 64, one that owes none. -/
theorem witness_credits :
    5 ≤ tokType (mkTok 5 1 0 0 {}) ∧ 5 ≤ tokType (mkTok 15 1 0 0 {}) ∧ tokType (mkTok 4 1 0 0 {}) < 5 ∧
      (((owing 1).stream 1).edge (.tree 0)).map (·.owed) = some 1 ∧ (((owing 64).stream 1).edge (.tree 0)).map (·.owed) = some 64 ∧
      (((owing 0).stream 1).edge (.tree 0)).map (·.owed) = some 0 ∧ (4095 : Nat) < 4096 := by decide +kernel

theorem test_credits_return :
    (((after (.creditReturn 5 1 (.tree 0)) (owing 3)).stream 1).edge (.tree 0)).map (fun c => (c.credits, c.owed)) = some (3, 0) := by
  decide +kernel

/-- A tree at REDUCE with a fence at the head of stream 1; it has raised FENCE_ORDER, or not. -/
def orderState (sent : Option (List Nat)) : State :=
  (fedBy treeState (.tree 0) 1 1 (mkTok tyFence 1 0xFFFF 0 {})).modProg (.tree 0) 0 fun p => { p with orderSent := sent }

/-- Witness of FencesOutOfOrderAndDrain: no fence, a fence first seen, seen before; a group drained, and not. -/
theorem witness_fence_order :
    (treeState.tick 5).fenceFound (.tree 0) 0 = none ∧ ((orderState none).tick 5).fenceFound (.tree 0) 0 = some (1, [2]) ∧
      ((orderState none).prog (.tree 0) 0).orderSent = none ∧
      ((orderState (some [])).tick 5).fenceFound (.tree 0) 0 = some (1, [2]) ∧
      ((orderState (some [])).prog (.tree 0) 0).orderSent ≠ none ∧
      (((withJob live [.tree 0] true [(7, [.tree 0])]).setProg (.tree 0) 0 { drained := some 7 }).image 0).running = true ∧
      (((withJob live [.tree 0] true [(7, [.tree 0])]).setProg (.tree 0) 0 { drained := some 7 }).tick 5).groupIsDrained 0 7 = true ∧
      ((withJob live [.tree 0] true [(7, [.tree 0])]).tick 5).groupIsDrained 0 7 = false := by decide +kernel

/-- A wait since 0 with a limit of 1 µs, for a handle of pool 7. -/
def waiting1 : CreditWait := { since := 0, limit := 1, pools := [7] }

/-- Stream i waits since 0. -/
def waitingOn (i : Nat) (stalled : Bool) (img : Option Nat) (s : State := live) : State :=
  s.setStream i { wait := some waiting1, stalled := stalled, img := img }

/-- Stream 9 waits behind a feeder's guard since 0 with a limit of 1 µs; what it lacks has come back, or not. -/
def guarded (met : Option Nat) : State := live.setStream 9 { guard := some { since := 0, limit := 1, met := met } }

/-- Witness of StallsAreReportedOnce: due at 2 µs with and without an image, behind another stream due at the same tick,
reported already, one tick early; a guarded wait due, and one met in time. -/
theorem witness_stall :
    0 / us + 1 + 1 ≤ (2 * us) / us ∧ ((waitingOn 4095 false none).stream 4095).wait = some waiting1 ∧
      ((waitingOn 4095 false (some 3)).stream 4095).img = some 3 ∧
      ((waitingOn 9 false none).tick (2 * us)).withArrivals.waitMet waiting1 = false ∧
      ((waitingOn 9 false none).streams.all fun p => !(p.1 < 9)) = true ∧
      ((waitingOn 9 false none (waitingOn 2 false none)).streams.any fun p =>
        decide (p.1 < 9 ∧ (((waitingOn 9 false none (waitingOn 2 false none)).tick (2 * us)).stallDue p.1).map (·.1)
          = some 2)) = true ∧
      ((waitingOn 9 true none).stream 9).stalled = true ∧ waiting1.limit = 1 ∧ (2 * us - 1) / us < 0 / us + 1 + 1 ∧
      ((guarded none).stream 9).wait = none ∧ ((guarded none).stream 9).guard = some { since := 0, limit := 1 } ∧
      ((guarded none).stream 9).guardStalled = false ∧ ((guarded (some (2 * us))).stream 9).guard ≠ none ∧
      ({ since := 0, limit := 1, met := some (2 * us) } : CreditWait).met.any
        (CreditWait.inTick { since := 0, limit := 1, met := some (2 * us) }) = true := by decide +kernel

theorem test_stall_counts :
    ((after (.stall (2 * us) 9) (waitingOn 9 false none)).stream 9).stalls = 1 ∧
      ((after (.stall (2 * us - 1) 9) (waitingOn 9 false none)).stream 9).stalls = 0 := by decide +kernel

/-- Witness of AbortedStepsEnd and StartsOfAModelStep: an abort due in a running step, none due; a job placed and at
rest, one that runs, an image not placed. -/
theorem witness_abort_and_start :
    (((withJob live [.tree 0]).modImage 0 fun r => { r with abort := some (3, 1) }).image 0).abort ≠ none ∧
      ((withJob live [.tree 0]).image 0).running = true ∧ ((withJob live [.tree 0]).image 0).abort = none ∧
      ((withJob live [.tree 0] false).image 0).placed ≠ none ∧ ((withJob live [.tree 0] false).image 0).running = false ∧
      (live.image 255).placed = none ∧ ((withJob live [.tree 0] false).image 0).waiting = false ∧
      (((withJob live [.tree 0] false).modImage 0 fun r => { r with waiting := true }).image 0).waiting = true := by
  decide +kernel

theorem test_two_starts_in_one_cycle :
    ((after (.modelStepStart 5 0 2) (withJob live [.tree 0] false)).image 0).overrun = 1 ∧
      ((after (.modelStepStart 5 0 2) (withJob live [.tree 0] false)).image 0).starts = 1 := by decide +kernel

/-! ### The light path -/

/-- Feeder 0 of cluster 0 at a FEED of stream 1 through route 0 (position 0), WINDOW w; token, packet, permit. -/
def feedState (w : Nat) (k : Option Dword) (p : Option Packet) : State :=
  let s := match k with | some k => fedBy (holding live twoWords) (.feeder 0 0) 1 1 k | none => live
  let s := s.setProg (.feeder 0 0) 0
    { unit := .feeder 0 0, list := [word [(0, 0x10), (8, 1), (26, w)]], phase := .running, routes := [1] }
  s.modFeeder 0 0 fun f => { f with packet := p }

/-- A packet of stream 1 for position 0, WINDOW 1, one window. -/
def packet (ph : PacketPhase) : Packet := { hdr := mkHdr 1 1 0 false false 0 1, stream := 1, phys := [0], phase := ph }

/-- A packet that waits with token k, its core's TILE into stream 2 prepared and its credit granted. -/
def readyState (g : Option Nat) (k : Dword := dataTok 1 3) : State :=
  (openTo (feedState 1 (some k) (some (packet .waiting))) 2 2).modCore 0 0 fun c =>
    { c with tile := some { slot := 4, out := 2 }, grant := g, active := some heldImage }

/-- An error token. -/
def errTok : Dword := mkTok tyError 1 0xFFFF 0 {}

/-- Witness of FeedBuildsItsPacket: no packet yet and a good header; a token that is no error; cores not ready; an error
token with its cores ready; an invalid header without, with a good and with an error token; a packet that holds. -/
theorem witness_feed :
    (feedState 1 none none).stands 5 (.feeder 0 0) 0 opFeed = true ∧ ((feedState 1 none none).feeder 0 0).packet = none ∧
      hdrInvalid (feedHeader ((feedState 1 none none).prog (.feeder 0 0) 0) false (word [(0, 0x10), (8, 1), (26, 1)])) = false ∧
      (readyState (some 0)).stands 5 (.feeder 0 0) 0 opFeed = true ∧
      (((readyState (some 0)).tick 5).noteReady 0 0).packetTok 0 0 = some (dataTok 1 3) ∧
      (((readyState none).tick 5).noteReady 0 0).coresReady 0 0 = false ∧
      (((readyState (some 0) errTok).tick 5).noteReady 0 0).packetTok 0 0 = some errTok ∧
      (((readyState (some 0) errTok).tick 5).noteReady 0 0).coresReady 0 0 = true ∧
      (packet .waiting).phase = .waiting ∧ (feedState 7 none none).stands 5 (.feeder 0 0) 0 opFeed = true ∧
      hdrInvalid (feedHeader ((feedState 7 none none).prog (.feeder 0 0) 0) false (word [(0, 0x10), (8, 1), (26, 7)])) = true ∧
      ((feedState 7 none none).tick 5).dataAt 1 (.feeder 0 0) = none ∧
      ((feedState 7 (some (dataTok 1 3)) none).tick 5).dataAt 1 (.feeder 0 0) = some (dataTok 1 3) ∧
      ((feedState 7 (some errTok) none).tick 5).dataAt 1 (.feeder 0 0) = some errTok ∧ (packet .granted).phase ≠ .waiting := by
  decide +kernel

theorem test_feed_demotes_without_permit :
    (((after (.feed 5 (.feeder 0 0) 0) (feedState 0 none none)).feeder 0 0).packet.map fun p => hdrDemoted p.hdr) = some true := by
  decide +kernel

/-- Core 0 at a TILE of slot 4 into stream 2. -/
def tileState (c : Core) (tiles : List (Half × Nat)) : State :=
  (openTo (coreAt (word [(0, 0x24), (8, 4), (23, 2)]) c) 2 2).modStream 2 fun m => { m with tiles := tiles }

/-- A TILE that ended without light. -/
def darkCore : Core := { tile := some { out := 2, noLight := some (6, none) } }

/-- Witness of TilePreparesItsCore: no TILE prepared; one that waits for light; one that ended without light whose output
has all, lacks a credit, or is begun by another core. -/
theorem witness_tile :
    (tileState {} []).stands 5 (.core 0 0) 0 opTile = true ∧ ((tileState {} []).core 0 0).tile = none ∧
      (tileState { tile := some {} } []).stands 5 (.core 0 0) 0 opTile = true ∧
      (tileState darkCore []).stands 5 (.core 0 0) 0 opTile = true ∧
      ((tileState darkCore []).stream 2).begunTile 0 = none ∧ (tileState darkCore []).tileLack [(2, 0)] 2 = .ready ∧
      ((tileState darkCore []).modStream 2 fun m => m.spend).tileLack [(2, 0)] 2 = .credit ∧
      ((tileState darkCore []).setPool 2 {}).tileLack [(2, 0)] 2 = .handle ∧
      ((tileState darkCore [(0, 5)]).stream 2).begunTile 0 = some 5 := by
  decide +kernel

theorem test_tile_takes_nothing :
    ((after (.tile 5 (.core 0 0) 0) (tileState {} [])).pool 2).freeList = [7] := by decide +kernel

theorem test_tile_without_light_names_its_handle :
    ((after (.tile 5 (.core 0 0) 0) (tileState darkCore [])).stream 2).consumers.map (fun c => c.queue.map fun e =>
      (tokType e.tok, tokHandle e.tok, tokCode e.tok)) = [[(tyCompletion, 7, 6)]] := by decide +kernel

/-- Witness of PacketsAreGrantedCores: a core that may grant, one without a TILE, a packet the switch may grant, with no
other feeder ready, and one it may not; one core, no tile begun, a handle. -/
theorem witness_grants :
    ((readyState none).core 0 ((readyState none).cluster 0 |>.phys 0)).tile = some { slot := 4, out := 2 } ∧
      ((readyState none).core 0 0).grant = none ∧ ((readyState none).cluster 0).tileOver 0 = true ∧
      ((readyState none).core 0 0).activeFrom 4 = true ∧
      ((readyState none).core 0 0).st = .inService ∧ ((readyState none).core 0 0).ready ≤ 5 ∧
      ((readyState none).cluster 0).restart = none ∧ ((readyState none).cluster 0).works = true ∧
      (live.core 0 0).tile = none ∧
      (((readyState (some 0)).tick 5).noteReady 0 0).grantable 0 0 = true ∧
      ([1, 2, 3].all fun g => (((readyState (some 0)).tick 5).noteReady 0 0).grantable 0 g == false) = true ∧
      (((readyState none).tick 5).noteReady 0 0).grantable 0 0 = false ∧
      ((readyState (some 0)).cluster 0).named (packet .waiting).hdr = [0] ∧
      ((readyState (some 0)).stream 2).begunTile 0 = none ∧ (readyState (some 0)).nextHandle 2 = some 7 := by decide +kernel

theorem test_switch_grants :
    (((after (.switchGrant 5 0 0) (readyState (some 0))).feeder 0 0).packet.map fun p => (p.phase, p.phys)) = some (.granted, [0]) := by
  decide +kernel

theorem test_granted_tile_takes_its_handle :
    (((after (.switchGrant 5 0 0) (readyState (some 0))).core 0 0).tile.map fun r => r.handle) = some 7 := by decide +kernel

/-- Feeder 0 with a packet in a phase and a route. -/
def lightState (p : Packet) (route : Option (List Nat)) : State :=
  (feedState 1 (some (dataTok 1 3)) (some p)).modFeeder 0 0 fun f => { f with route := route }

/-- Witness of PacketsStartTheirTiles: granted with another and with the same route, not granted, reconfiguring and
measuring before and at their end. -/
theorem witness_packet_start :
    ((lightState (packet .granted) none).feeder 0 0).packet = some (packet .granted) ∧
      ((lightState (packet .granted) none).feeder 0 0).route ≠ some (packet .granted).phys ∧
      ((lightState (packet .granted) (some [0])).feeder 0 0).route = some (packet .granted).phys ∧
      (packet .waiting).phase ≠ .granted ∧ (packet (.reconfig 12)).phase = .reconfig 12 ∧ (12 : Nat) ≤ 12 ∧ (11 : Nat) < 12 ∧
      (packet .granted).measured = true ∧ ({ packet .granted with measured := false } : Packet).measured = false ∧
      (packet (.measuring 252)).phase = .measuring 252 ∧ (packet (.measuring 252)).replay = false := by decide +kernel

/-- Witness of WindowsScaleEveryRow and PacketsEndOrAreReplayed: a running window at its end, before it, a packet that does
not run; an ended packet without replay, with it and in or out of its thresholds, measured or carried, before its verdict. -/
theorem witness_packet_end :
    (packet .running).phase = .running ∧ (packet .running).winEnd ≤ 5 ∧ (packet .running).phys.Nodup ∧
      (5 : Nat) < ({ packet .running with winEnd := 6 } : Packet).winEnd ∧ (packet .waiting).phase ≠ .running ∧
      ((lightState (packet (.ended 6)) none).feeder 0 0).packet = some (packet (.ended 6)) ∧
      ¬ ((packet (.ended 6)).policy = 1 ∨ (packet (.ended 6)).policy = 2) ∧
      ({ packet (.ended 6) with policy := 2 } : Packet).policy = 2 ∧ (6 : Nat) + 4 * ns ≤ 30 ∧ (29 : Nat) < 6 + 4 * ns ∧
      (exceeds 0 0xFFFF || exceeds 0 0xFFFF) = false ∧ (exceeds 11 10 || exceeds 0 0xFFFF) = true ∧
      ({ packet (.ended 6) with policy := 1, sat := 11, satThresh := 10, measured := false } : Packet).measured = false := by
  decide +kernel

/-- Core 0 lit by feeder 0's running packet of one window, its TILE of one window with ROW_MASK 0x05 running, beside changes. -/
def windowState (f : Core → Core := id) : State :=
  (lightState (packet .running) none).modCore 0 0 fun c =>
    f { c with active := some heldImage, run := some { count := 1, rowMask := 0x05, out := 2 } }

/-- Witness of WindowsScaleEveryRow, cores: a tile that runs within its noise budget, a refresh copy that has settled. -/
theorem witness_window_cores :
    ((windowState).core 0 0).run = some { count := 1, rowMask := 0x05, out := 2 } ∧ (0 : Nat) ∈ (packet .running).phys ∧
      (0 : Nat) ≤ sigmaBudget ∧ ((windowState).core 0 0).noise = [] ∧
      ((windowState fun c => { c with shadow := some { heldImage with refresh := true } }).core 0 0).refreshDone (72 * ns) = true := by
  decide +kernel

theorem test_window_end_appends_its_rows :
    runs (.windowEnd 5 0 0) (windowState) = true ∧
      ((after (.windowEnd 5 0 0) (windowState)).feeder 0 0).packet.map (fun p => (p.win, p.phase)) = some (1, .ended 0) := by
  decide +kernel

theorem test_replay_measures_again :
    (((after (.verdict 30 0 0) (lightState { packet (.ended 6) with policy := 1, sat := 11, satThresh := 10, measured := false }
      none)).feeder 0 0).packet.map fun p => (p.replay, p.measured, p.win)) = some (true, true, 0) := by decide +kernel

/-! ### Memory and transfers -/

/-- Witness of HostReadsAndWritesMemory: ranges that end at the last byte, D1 running and not. -/
theorem witness_bar2 : (2 ^ 40 - 4) + 4 ≤ 2 ^ 40 ∧ live.hostUp = true ∧ State.reset.hostUp = false ∧
    (List.range 4).all (fun i => hbmUsable (0x40 + i)) = true := by decide +kernel

theorem test_bar2_reads_back :
    (after (.hostBar2Read 6 0x40 4) (after (.hostBar2Write 5 0x40 [1, 2, 3, 4]) live)).readOut.data = [1, 2, 3, 4] ∧
      (after (.hostBar2Read 6 46500000000 1) live).readOut.data = [0xFF] := by decide +kernel

/-- Descriptor 3 of engine 0 armed, with transfers in flight. -/
def moving (st : DescState) (out : List Flight) (w : List Byte := smallDesc 1 64) (sent : Nat := 0) : State :=
  live.setDesc 0 3 { store := w, work := w, st := st, outstanding := out, sent := sent }

/-- Transfer 0 of 64 bytes in flight, issued at 2. -/
def flight : Flight := { idx := 0, at_ := 2, size := 64 }

/-- A descriptor of one transfer of 64 bytes: offset 0 of cluster 0's SRAM to HBM address 0. -/
def backDesc : List Byte := toLe 8 (2 ^ 60) ++ toLe 8 0 ++ (smallDesc 1 64).drop 16

/-- A descriptor that reports completion on stream 5. -/
def compDesc : List Byte := (smallDesc 1 64).take 38 ++ toLe 2 5 ++ (smallDesc 1 64).drop 40

/-- Witness of TransfersIssueInTurn: a descriptor that may issue, a busy engine, none that may. -/
theorem witness_issue :
    (((moving .armed []).turnOrder 0).filter fun d => ((moving .armed []).desc 0 d).issues) = [3] ∧
      ((moving .armed []).tick 5).descReady 0 ((moving .armed []).desc 0 3).work = .ready ∧
      awSpace (dSrc (smallDesc 1 64)) ≠ 2 ∧ awSpace (dDst (smallDesc 1 64)) ≠ 2 ∧
      ((moving .armed []).stack 0).busyUntil < (5 + 1) * engineUnit ∧ (moving .armed []).outstanding 0 < 512 ∧
      ¬ (((moving .armed []).modStack 0 fun m => { m with busyUntil := 6 * engineUnit }).stack 0).busyUntil
        < (5 + 1) * engineUnit ∧
      ((live.turnOrder 0).filter fun d => (live.desc 0 d).issues) = [] := by decide +kernel

/-- Witness of TransfersLandTheirBytes: a transfer in flight between memories, its data discarded, not from HBM; none in
flight; a completion token with and without credit, after an abort, and none due. -/
theorem witness_complete :
    (((moving .draining [flight]).desc 0 3).outstanding.find? fun x => x.idx = 0) = some flight ∧ flight.dead = false ∧
      (((moving .error [{ flight with dead := true }]).desc 0 3).outstanding.find? fun x => x.idx = 0)
        = some { flight with dead := true } ∧
      awSpace (dSrc (smallDesc 1 64)) = 0 ∧ awSpace (dDst (smallDesc 1 64)) ≠ 2 ∧ awSpace (dSrc backDesc) ≠ 0 ∧
      awSpace (dSrc backDesc) ≠ 2 ∧ awSpace (dDst backDesc) ≠ 2 ∧
      (((moving .draining []).desc 0 3).outstanding.find? fun x => x.idx = 0) = none ∧
      ((moving .draining [] compDesc 1).desc 0 3).st = .draining ∧ ((moving .draining [] compDesc 1).desc 0 3).aborted = false ∧
      ((moving .draining [] compDesc 1).desc 0 3).sent = dTotal compDesc ∧ dComp compDesc = 5 ∧
      ((moving .draining [] compDesc 1).desc 0 3).shadow = none ∧ ((moving .draining [] compDesc 1).desc 0 3).late = none ∧
      dControl compDesc 3 = false ∧
      ((moving .draining [] compDesc 1).stream 5).hasCredit = true ∧
      (((moving .draining [] compDesc 1).setStream 5 { consumers := [{ unit := .tree 0, credits := 0 }] }).stream 5).hasCredit = false ∧
      ((moving .draining [] compDesc 1).stream 5).hq = 0 ∧
      (((moving .draining [] compDesc 1).modStream 5 fun m => { m with hq := 7 }).stream 5).hq = 7 ∧
      dComp (smallDesc 1 64) = 0xFFF := by decide +kernel

/-- A source line that is marked bad is still bad once it has been read. -/
theorem witness_bad_line (a n : Nat) : ∀ s : State, s.badIn a n = true → (s.readHbm a n).badIn a n = true := by
  intro s h
  have keeps : ∀ (l k : Nat) (b : List Nat), l ∈ b → l ∈ insertRising k b := by
    intro l k b
    induction b with
    | nil => intro hl; cases hl
    | cons x b ih =>
      intro hl
      unfold insertRising
      split
      · exact List.mem_cons_of_mem _ hl
      · split
        · exact hl
        · rcases List.mem_cons.mp hl with rfl | hl
          · exact List.mem_cons_self
          · exact List.mem_cons_of_mem _ (ih hl)
  have all : ∀ (ks b : List Nat) (l : Nat), l ∈ b → l ∈ ks.foldl (fun b l => insertRising l b) b := by
    intro ks
    induction ks with
    | nil => intro b l hl; exact hl
    | cons k ks ih => intro b l hl; exact ih _ _ (keeps l k b hl)
  unfold State.badIn at h ⊢
  obtain ⟨l, hl, hp⟩ := List.any_eq_true.mp h
  exact List.any_eq_true.mpr ⟨l, all _ _ _ hl, hp⟩

theorem test_transfer_moves_bytes :
    (after (.transferComplete 9 0 3 0) { moving .draining [flight] backDesc with sram := [(0, 7), (1, 8)] }).hbm.readN 0 3 = [7, 8, 0] := by
  decide +kernel

theorem test_discarded_transfer_writes_nothing :
    ((after (.transferComplete 9 0 3 0)
        { moving .error [{ flight with dead := true }] backDesc with sram := [(0, 7), (1, 8)] }).hbm,
      ((after (.transferComplete 9 0 3 0) (moving .error [{ flight with dead := true }])).desc 0 3).outstanding) = ([], []) := by
  decide +kernel

theorem test_completion_token :
    (let s := after (.descCompToken 9 0 3) ((moving .draining [] compDesc 1).setStream 5
       { consumers := [{ unit := .tree 0, credits := 2 }] })
     (s.desc 0 3).st = .done ∧ (s.stream 5).consumers.map (fun c => (c.credits, c.queue.length)) = [(1, 1)]) := by decide +kernel

/-- Witness of ReserveChannelMigrates: a stack at rest, one migrating, one whose reserve is used. -/
theorem witness_migrate :
    (live.stack 15).reserveUsed = false ∧ (live.stack 15).migrating = none ∧
      ((live.modStack 3 fun m => { m with migrating := some (30, 5) }).stack 3).migrating = some (30, 5) ∧
      ((live.modStack 3 fun m => { m with reserveUsed := true }).stack 3).reserveUsed = true := by decide +kernel

theorem test_second_failure_degrades :
    ((after (.channelMigration 5 3 0) (live.modStack 3 fun m => { m with reserveUsed := true })).stack 3).degraded = true := by
  decide +kernel

/-! ### Ring holding -/

/-- Cluster 0 locked, with these changes. -/
def held (f : Cluster → Cluster) : State := live.modCluster 0 fun c => f { c with locked := true }

/-- Cluster 0 in a calibration slot of core 0 at a step. -/
def slotAt (x : CalSlot) (f : Cluster → Cluster := id) : State := held fun c => f { c with slot := some x, spareFor := some (0, .calibration) }

/-- Calibration values with the gain of engine 2 below 0.5. -/
def oneBad : CalValues := { rows := [(2, 0x3E800000, 0)] }

/-- Witness of RotationsCalibrateACore: an advance while busy, once held, and free; the end of a mirror; a handover; a
calibration measured; one starved of light. -/
theorem witness_rotation :
    ((held id).cluster 0).up = true ∧ (held id).scheduled 0 = false ∧
      ((held id).cluster 0).rotFrom + ((held id).cluster 0).rotMs.toNat * ms ≤ 100 * ms ∧
      ((held fun c => { c with quiet := some {} }).cluster 0).quiet.isSome = true ∧
      ((held fun c => { c with quiet := some {} }).cluster 0).advHeld = false ∧
      ((held fun c => { c with quiet := some {}, advHeld := true }).cluster 0).advHeld = true ∧
      ((held fun c => { c with quiet := some {} }).cluster 0).rotationHeld = true ∧
      ((held id).cluster 0).rotationHeld = false ∧ ((held id).cluster 0).readySpare = some 32 ∧
      ((held id).cluster 0).turn = some 0 ∧ ((held id).core 0 0).st ≠ .spareReady ∧
      ((held fun c => { c with rotNext := 32 }).cluster 0).turn = some 32 ∧
      ((held fun c => { c with rotNext := 32 }).core 0 32).st = .spareReady ∧ 0 ≠ ((held id).cluster 0).spareCore ∧
      ({ step := .mirror, stepEnd := ms } : CalSlot).pausedAt = none ∧
      ((slotAt { step := .mirror, stepEnd := ms }).cluster 0).slot = some { step := .mirror, stepEnd := ms } ∧
      ((slotAt { step := .mirror, stepEnd := ms }).cluster 0).recov = none ∧
      ((slotAt { step := .handover }).cluster 0).spareNext = none ∧ ((slotAt { step := .handover }).cluster 0).posOf 0 = some 0 ∧
      ((slotAt { step := .handover }).cluster 0).atBoundary 0 = true ∧
      ((slotAt { step := .handover }).core 0 32).st = .spareReady ∧ ((slotAt { step := .handover }).core 0 0).st ≠ .leaving ∧
      2 ^ 16 ≤ ({ step := .calibrate, light := 2 ^ 16, checked := true } : CalSlot).light ∧
      (live.lineChecked 0 { step := .calibrate, light := 2 ^ 16, checked := true }) = true ∧
      (failedEngines {}).filter (fun e => ((slotAt { step := .calibrate }).core 0 0).engines.contains e) = [] ∧
      ((failedEngines oneBad).filter fun e => ((slotAt { step := .calibrate }).core 0 0).engines.contains e).eraseDups = [2] ∧
      Core.spareEngine { (slotAt { step := .calibrate }).core 0 0 with engFailed := [2] } = some [0, 1, 8, 3, 4, 5, 6, 7] ∧
      ({ step := .calibrate } : CalSlot).recFrom = none ∧
      ({ step := .calibrate, light := 2 ^ 16 - 1 } : CalSlot).light < 2 ^ 16 ∧ (0 : Nat) + 200 * ms ≤ 200 * ms := by decide +kernel

theorem test_handover_moves_the_position :
    ((after (.handover 5 0) (slotAt { step := .handover })).cluster 0).phys 0 = 32 ∧
      ((after (.handover 5 0) (slotAt { step := .handover })).core 0 0).st = .calibrating := by decide +kernel

theorem test_failed_engine_brings_in_its_spare :
    ((after (.calibrationDone 5 0 0 oneBad) (slotAt { step := .calibrate, light := 2 ^ 16, checked := true })).core 0 0).engines
      = [0, 1, 8, 3, 4, 5, 6, 7] := by decide +kernel

/-- Core 0 of cluster 0 with changes, beside changes of the cluster. -/
def coreIn (f : Core → Core) (g : Cluster → Cluster := id) : State := (held g).modCore 0 0 f

/-- Cluster 0 whose wear spare is warm since 5, its core in a state. -/
def warmed (st : CoreState) (f : Cluster → Cluster := id) : State :=
  (held fun c => f { c with wearWarm := some 5 }).modCore 0 33 fun y => { y with st := st }

/-- Witness of SparesServeClaims: heaters that have ramped, of a cold wear spare and of a restart without a remap. -/
theorem witness_ramps :
    (∃ t, ramped ((warmed .cold).cluster 0).wearLim ((warmed .cold).cluster 0).lockDraw 0 (5 - 250 * ms) t = true) ∧
      (∃ t, ramped ((held fun c => { c with restart := some 5 }).cluster 0).rampLim 0 0 (5 - 300 * ms) t = true) :=
  ⟨⟨_, decide_eq_true (Nat.le_refl _)⟩, ⟨_, decide_eq_true (Nat.le_refl _)⟩⟩

/-- Witness of SparesServeClaims: a claim with and without a ready spare, a copy, a wear spare cold, warm without and with a
claim, a probe of a spare with and without wrong rings, an engine fault with and without a slot, a move, a return, a restart
after a remap. -/
theorem witness_spares :
    ((coreIn fun x => { x with st := .leaving, cause := some .mislock }).core 0 0).st = .leaving ∧
      ((coreIn fun x => { x with st := .leaving, cause := some .mislock }).core 0 0).cause = some .mislock ∧
      ((held id).cluster 0).spareFor = none ∧ ((held id).cluster 0).spareNext = none ∧ ((held id).cluster 0).waiting = [] ∧
      ((held id).cluster 0).slot = none ∧ ((held id).cluster 0).readySpare = some 32 ∧
      (((held id).modCore 0 32 fun y => { y with st := .inService }).cluster 0).readySpare = none ∧
      ((held fun c => { c with copyEnd := some 5, spareFor := some (0, .mislock) }).cluster 0).copyEnd = some 5 ∧
      ((held fun c => { c with wearWarm := some 5 }).cluster 0).wearWarm = some 5 ∧
      ((held fun c => { c with wearWarm := some 5 }).cluster 0).wear = some 33 ∧
      ((held id).cluster 0).advHeld = false ∧ ((warmed .cold).core 0 33).st = .cold ∧
      ((warmed .spareReady).core 0 33).st = .spareReady ∧ ((warmed .spareReady).core 0 33).ready ≤ 5 ∧
      (((warmed .spareReady).modCore 0 32 fun y => { y with st := .recovering }).core 0
        ((warmed .spareReady).cluster 0).spareCore).st ≠ .spareReady ∧
      ((warmed .spareReady fun c => { c with waiting := [(0, .retirement)] }).cluster 0).waiting = [(0, .retirement)] ∧
      ((warmed .spareReady).cluster 0).posOf 0 = some 0 ∧ ((warmed .spareReady).cluster 0).tilesDone 0 = true ∧
      ([(3, 3), (575, 62)].all fun x => decide ((x.1 : Nat) < 576) && decide ((x.2 : Nat) < 64)) = true ∧
      probeWrong [(3, 3), (575, 63)] = [] ∧ probeWrong [(3, 3), (575, 62)] ≠ [] ∧
      ((held id).tick 5).mayProbe 0 3 32 = true ∧ ((held id).core 0 32).st = .spareReady ∧
      ((held id).core 0 0).st = .inService ∧ ({ step := .calibrate } : CalSlot).carried = true ∧
      ((slotAt { step := .calibrate }).cluster 0).spareCore = 32 ∧
      ((coreIn (fun x => { x with grant := some 1 })).core 0 0).grant.isSome = true ∧
      (((coreIn fun x => x.setRing 575 { moving := some (7, 5) }).core 0 0).ring 575).moving = some (7, 5) ∧
      ((held fun c => { c with bandSince := some 0, parkedHeat := true }).cluster 0).bandSince = some 0 ∧ 0 + sec ≤ sec ∧
      ((held fun c => { c with restart := some 5 }).cluster 0).restart = some 5 ∧
      ((held fun c => { c with restart := some 5 }).cluster 0).retired = false ∧
      ((held fun c => { c with restart := some 5, remap := true }).cluster 0).movesOver 5 = true := by decide +kernel

theorem test_engine_fault_leaves :
    ((after (.engineSpared 5 0 0 7) (held id)).core 0 0).engFailed = [7] ∧
      ((after (.engineSpared 5 0 0 7) (held id)).core 0 0).st = .leaving := by decide +kernel

theorem test_probe_counts_mislocks :
    ((after (.probePacket 5 0 3 32 [(3, 4), (575, 62)]) (held id)).cluster 0).mislocks = 2 ∧
      ((after (.probePacket 5 0 3 32 [(3, 4), (575, 62)]) (held id)).core 0 32).st = .recovering ∧
      ((after (.probePacket 5 0 3 32 [(3, 3)]) (held id)).feeder 0 3).probe = some (32, 6 + 2 * ns + 512 * ns) := by decide +kernel

theorem test_wear_spare_serves_a_waiting_claim :
    ((after (.wearSpareReady 5 0) (warmed .spareReady fun c => { c with waiting := [(0, .retirement)] })).cluster 0).phys 0 = 33 := by
  decide +kernel

/-- Witness of RingLoopsAndQuietWindows: updates due, in and outside a quiet window; a window refused while open and 9 ms
after, granted at 9 ms; a close; lines left, the standby left, neither; a comb worn, worn before; a gap of 300 ms. -/
theorem witness_ring_loops :
    ((held id).cluster 0).up = true ∧ (((held id).cluster 0).core 33).warm = false ∧ (((held id).cluster 0).core 0).warm = true ∧
      ((held id).cluster 0).quiet = none ∧ ((held id).cluster 0).innerOff ≤ 999 * us ∧
      (((held id).cluster 0).core 0).lastInner + 999 * us ≤ 999 * us ∧ ((held id).cluster 0).lastOuter + 10 * ms ≤ 10 * ms ∧
      ((held fun c => { c with quiet := some {} }).cluster 0).quiet ≠ none ∧ ([1, 2, 3, 4] : List Int).length = 4 ∧
      ((held id).cluster 0).lastFf + 100 * us ≤ 100 * us ∧
      ((held fun c => { c with quietClosed := some 0 }).cluster 0).quietClosed = some 0 ∧ 9 * ms - 1 < 0 + 9 * ms ∧ 0 + 9 * ms ≤ 9 * ms ∧
      ((held fun c => { c with quiet := some { len := 60 } }).cluster 0).quiet = some { len := 60 } ∧
      ((held id).cluster 0).advHeld = false ∧ ((held id).cluster 0).usedLines.contains 63 = true ∧
      ((held id).cluster 0).usedLines.contains 64 = false ∧ ((held id).cluster 0).spareLines ≠ 0 ∧ ((held fun c => { c with spareLines := 0 }).cluster 0).comb = 0 ∧
      ((held fun c => { c with spareLines := 0, comb := 1 }).cluster 0).comb ≠ 0 ∧
      ((held id).cluster 0).combCheck + 10 * sec ≤ 10 * sec ∧ 1600 < 1601 ∧ ((held id).cluster 0).combWorn = false ∧
      ((held fun c => { c with combWorn := true }).cluster 0).combWorn = true ∧ (held id).inUse 0 = false ∧
      ((held id).cluster 0).idleSince + 300 * ms ≤ 300 * ms := by decide +kernel

theorem test_quiet_window_is_refused_for_9_ms :
    ((after (.quietWindowOpen (9 * ms - 1) [0] 1) (held fun c => { c with quietClosed := some 0 })).cluster 0).quietRefused = 1 ∧
      ((after (.quietWindowOpen (9 * ms) [0] 1) (held fun c => { c with quietClosed := some 0 })).cluster 0).quiet.isSome = true := by
  decide +kernel

theorem test_last_line_retires :
    ((after (.lineRemapped 5 0 63) (held fun c => { c with spareLines := 0, comb := 1 })).cluster 0).retired = true ∧
      ((after (.lineRemapped 5 0 67) (held fun c => { c with spareLines := 0, comb := 1 })).cluster 0).retired = false := by
  decide +kernel

/-- Core 0 of cluster 0 with a slope of 1 on ring 0, a full record of dark photodiodes. -/
def dithered : State := (held id).modCore 0 0 fun x => Core.sample (999 * us) (List.replicate 222 []) (x.setRing 0 { slope := some 65536 })

/-- Witness of RingLoopsAndQuietWindows, inner updates: a full record, one round too few, a ring that takes its LOCK_ERR. -/
theorem witness_inner :
    (((held id).modCore 0 0 (Core.sample (999 * us) (List.replicate 222 []))).core 0 0).recordFull = true ∧
      (((held id).modCore 0 0 (Core.sample (999 * us) (List.replicate 221 []))).core 0 0).recordFull = false ∧
      0 ∈ (dithered.core 0 0).active8 ∧ ((dithered.core 0 0).ring 0).moving = none ∧ ((dithered.core 0 0).ring 0).resumeAt ≤ 999 * us ∧
      ((dithered.core 0 0).ring 0).slope.getD ((dithered.calBase 0 0).slope 0) ≠ 0 := by decide +kernel


/-! ### Loops -/

/-- Loop 0 enabled with a trigger due, beside changes. -/
def loopState (f : FieldLoop → FieldLoop := id) : State := (live.modLoop 0 fun l => f { l with ctrl := 1, due := true }).refreshCfg

/-- Witness of BadLimitsHoldTheLoop: limits out of order with the marks current; the owner's writes. -/
theorem witness_bad_limits :
    (loopState fun l => { l with imin := 5, imax := 4 }).cfgCurrent = true ∧
      ((loopState fun l => { l with imin := 5, imax := 4 }).fieldLoop 0).imax.toInt
        < ((loopState fun l => { l with imin := 5, imax := 4 }).fieldLoop 0).imin.toInt ∧
      ((loopState fun l => { l with omin := 5, omax := 4 }).fieldLoop 0).omax.toInt
        < ((loopState fun l => { l with omin := 5, omax := 4 }).fieldLoop 0).omin.toInt ∧
      live.hostUp = true ∧ live.fw.loopOwner = some 0 ∧ writer 0 = true := by decide +kernel

theorem test_bad_limit_reads_cfg_err :
    flag ((after (.registerWrite 5 0 0x430010 0x7FFFFFFF) (after (.registerWrite 4 0 0x430014 0) live)).fieldLoop 0).statWord 4 = true ∧
      flag ((after (.registerWrite 6 0 0x430010 0) (after (.registerWrite 5 0 0x430010 0x7FFFFFFF)
        (after (.registerWrite 4 0 0x430014 0) live))).fieldLoop 0).statWord 4 = false := by decide +kernel

/-- Witness of LoopsUpdateInOrder: a loop first in turn at rest; a timer at its period, off, and early; a scalar stale on
its edge, early, and no time-out. -/
theorem witness_loop_update :
    ((loopState fun l => { l with oscCfg := 0 }).tick 5).loopFirst 0 = true ∧ ((loopState).prf 0).moving = false ∧
      planTime ({ moving := true } : Profile).plan ≤ ({ moving := true } : Profile).clock 5 ∧
      flag ((loopState).fieldLoop 0).injCtrl 0 = false ∧ field ((loopState fun l => { l with oscCfg := 0 }).fieldLoop 0).oscCfg 16 8 = 0 ∧
      qMin ≤ 0 ∧ 0 ≤ qMax ∧ ((loopState).outersOf 0) = [] ∧
      flag ((live.modLoop 0 fun l => { l with ctrl := 0x101 }).fieldLoop 0).ctrl 8 = true ∧
      flag ((live.modLoop 0 fun l => { l with ctrl := 0x101 }).fieldLoop 0).ctrl 9 = false ∧
      (0 : Nat) + field (live.fieldLoop 0).period 0 20 * us ≤ 10000 * us ∧ flag (live.fieldLoop 15).ctrl 0 = false ∧
      field ((live.modLoop 0 fun l => { l with svTmo := 1 }).fieldLoop 0).svTmo 0 16 ≠ 0 ∧ (0 : Nat) / ms + 1 + 1 ≤ 2 * ms / ms ∧
      (2 * ms - 1) / ms < 0 / ms + 1 + 1 ∧ (live.fieldLoop 0).svStale = false ∧ field (live.fieldLoop 0).svTmo 0 16 = 0 := by
  decide +kernel

theorem test_scalar_goes_stale :
    ((after (.svStale (2 * ms) 0) (live.modLoop 0 fun l => { l with svTmo := 1, set := 2 })).fieldLoop 0).set = 0 ∧
      ((after (.svStale (2 * ms) 0) (live.modLoop 0 fun l => { l with svTmo := 1 })).fieldLoop 0).svStale = true := by decide +kernel

/-- Witness of LoopEngineWrites: the owner and another function; enabling, disabling, holding, releasing; an injection in
range and not; a capture free and armed; limits good and bad; a generator at rest and moving. -/
theorem witness_loop_writes :
    live.hostUp = true ∧ writer 63 = true ∧ live.fw.loopOwner = some 0 ∧ live.fw.loopOwner ≠ some 63 ∧
      flag (1 : Word) 0 = true ∧ field (1 : Word) 2 3 ≤ 5 ∧ field (0x14 : Word) 2 3 = 5 ∧ flag (live.fieldLoop 0).ctrl 0 = false ∧
      flag (2 : Word) 0 = flag (live.fieldLoop 0).ctrl 0 ∧ flag (2 : Word) 1 = true ∧ flag (4 : Word) 2 = true ∧
      ((live.modLoop 0 fun l => { l with osc := true }).fieldLoop 0).osc = true ∧
      field (1 : Word) 1 2 ≠ 3 ∧ field (1 : Word) 3 2 ≠ 3 ∧ flag (live.fieldLoop 0).injCtrl 0 = false ∧
      FieldLoop.freqsOk 2 (live.ratePeriod 4 0) {} = true ∧ FieldLoop.freqsOk 0 (live.ratePeriod 4 0) {} = false ∧
      FieldLoop.freqsOk 0 (live.ratePeriod 4 0) { injF0 := 0x42C80000 } = true ∧
      flag (1 : Word) 20 = false ∧ field (1 : Word) 6 3 ≤ 5 ∧ field (1 : Word) 9 3 ≤ 5 ∧ live.loopEng.armed = false ∧
      ({ live.loopEng with armed := true } : LoopEng).armed = true ∧ limitOk 0x3F800000 = true ∧ limitOk 0xBF800000 = false ∧
      (live.prf 0).targetAt ≠ some (5 / cycle) ∧ (live.prf 0).moving = false ∧
      (live.prf 0).heldAt = none ∧ ({ bypass := true } : Profile).bypass = true ∧ flag (2 : Word) 1 = true ∧
      w1c 5 (live.fieldLoop 0).fresh 4 2 true = false ∧
      (let x := roundEven ((live.prf 0).motion 5 |>.toVel (limitOf (live.prf 0).amax) (limitOf (live.prf 0).jmax) 0).2.pos (2 ^ 68)
       qMin ≤ x ∧ x ≤ qMax) := by decide +kernel

theorem test_foreign_loop_write_is_counted :
    (after (.loopEnable 5 63 0 1) live).loopEng.wrDenied = 1 ∧ flag ((after (.loopEnable 5 63 0 1) live).fieldLoop 0).ctrl 0 = false := by
  decide +kernel

/-! ### Field inputs and the angle timebase -/

/-- The field unit at a FIELD operation: action a of target n on stream i. -/
def fieldOp (a n i : Nat) (s : State := live) : State := onOp .field (word [(0, 0x78), (8, i), (20, a), (22, n)]) s

/-- A staged sample. -/
def sample : Sample := { word := 9 }

/-- Witness of FieldOperations: a fill with and without samples, a scalar, an output with an operation in flight, an error
token, a token. -/
theorem witness_field :
    (fieldOp 0 3 2 (openTo (live.modConv 3 fun c => { c with staging := [sample] }) 2 2)).fires 5 .field 0 opField [] [2] = true ∧
      ((live.modConv 3 fun c => { c with staging := [sample] }).conv 3).staging ≠ [] ∧
      (fieldOp 0 3 2).stands 5 .field 0 opField = true ∧ (live.conv 3).staging = [] ∧
      (fieldOp 1 15 1 (fedBy (holding live [0, 0, 0x80, 0x3F]) .field 1 1 (dataTok 1 3))).fires 5 .field 0 opField [1] [] = true ∧
      ((fieldOp 2 15 1).modProg .field 0 fun p => { p with held := some (1, 3), left := [5] }).stands 5 .field 0 opField = true ∧
      (fieldOp 2 15 1 (fedBy live .field 1 1 (mkTok tyError 1 0xFFFF 0 {}))).stands 5 .field 0 opField = true ∧
      (fieldOp 2 15 1 (fedBy live .field 1 1 (dataTok 1 3))).stands 5 .field 0 opField = true ∧
      ((fieldOp 2 15 1 (fedBy live .field 1 1 (dataTok 1 3))).tick 5).dataAt 1 .field = some (dataTok 1 3) ∧
      fpIsNaN (0x7FC00000 : Word) = true ∧ fpIsNaN (0x3F800000 : Word) = false ∧
      (field ({ src := 0x1000, last := some 0 } : FieldLoop).src 11 2 = 2 ∧
        ({ src := 0x1000, last := some 0 } : FieldLoop).last.isSome = true ∧ 3 / cycle ≤ ({} : FieldLoop).startAt / cycle) ∧
      ((live.modFout 15 fun f => { f with source := 1 }).fout 15).source = 1 ∧
      (live.fout 15).source ≠ 1 ∧ ({} : Fout).ticked = none := by decide +kernel

theorem test_scalar_lands :
    ((after (.fieldScalar 5 .field 0) (fieldOp 1 15 1 (fedBy (holding live [0, 0, 0x80, 0x3F]) .field 1 1 (dataTok 1 3)))).fieldLoop
      15).scalar = 0x10000000 := by decide +kernel

/-- Converter 3 with changes. -/
def conv3 (f : Conv → Conv) : State := live.modConv 3 f

/-- Witness of ConvertersRunSequences: triggers at rest, during a run, and one too many; software, timer and pin triggers;
a result, a read-back, the end of a run; three-phase samples; owner and another function. -/
theorem witness_converter :
    flag ({ ctrl := 1 } : Conv).ctrl 0 = true ∧ ({} : Conv).lastTrig ≠ some (5 / cycle) ∧ ({} : Conv).run = none ∧
      ({ run := some 0 } : Conv).held = false ∧ 5 / cycle < (0 + ({ run := some 0 } : Conv).size * us) / cycle ∧
      live.convOwned 3 = false ∧ live.fw.ioOwner = some 0 ∧ live.fw.ioOwner ≠ some 65 ∧ writer 65 = true ∧ flag (0x21 : Word) 5 = true ∧
      flag (0x41 : Word) 6 = true ∧ (0 : Nat) + ((conv3 fun c => { c with ctrl := 0x41 }).conv 3).timer.toNat * us ≤ 1000 * us ∧
      (3 : Nat) < 4 ∧ ((conv3 fun c => { c with run := some 0 }).conv 3).slot < ({} : Conv).size ∧ 0 + (0 + 1) * us ≤ us ∧
      ((conv3 fun c => { c with readNow := some (14, 0) }).conv 3).readNow = some (14, 0) ∧
      ({ run := some 0, slot := 1 } : Conv).size ≤ 1 ∧
      ({ live with ang := { live.ang with ctrl := 0x29 } } : State).convOwned 0 = true ∧
      live.ang.lastThree + 20 * us ≤ 20 * us ∧ ({ ended := some 4 } : Conv).ended = some 4 ∧ (4 : Nat) / cycle = 5 / cycle ∧
      ({ run := some 0 } : Conv).ended ≠ some 0 ∧ ({ run := some 0, held := true } : Conv).held = true := by decide +kernel

theorem test_second_trigger_is_held :
    ((after (.softwareTrigger 5 0 3 1) (conv3 fun c => { c with ctrl := 0x21, run := some 0 })).conv 3).held = true ∧
      ((after (.softwareTrigger 5 0 3 1) (conv3 fun c => { c with ctrl := 0x21, run := some 0, held := true })).conv 3).overrun = 1 := by
  decide +kernel

/-- The timebase with changes. -/
def angle (f : Angle → Angle) : State := { live with ang := f live.ang }

/-- Witness of AngleTimebaseMoves: an update in free-run with a whole increment, one too early; losses of each source;
an edge; a reacquired source; seconds pending; offset and source writes that change and do not. -/
theorem witness_angle :
    live.ang.lastUpdate + us ≤ us ∧ us - 1 < live.ang.lastUpdate + us ∧ live.ang.source = 0 ∧ live.ang.reverse = false ∧
      live.ang.pull = none ∧ live.sched = [] ∧ (angle fun a => { a with freqSet := 15625 }).ang.freqSet.toNat * 65536 % 1000000 = 0 ∧
      live.ang.lost = false ∧ (angle fun a => { a with ctrl := 1 }).ang.source = 1 ∧ (angle fun a => { a with ctrl := 2 }).ang.source = 2 ∧
      (angle fun a => { a with ctrl := 3 }).ang.source = 3 ∧ live.ang.encAt / ms + field live.ang.encTmo 0 16 + 1 ≤ 101 * ms / ms ∧
      3 * sec * 65536 ≤ 2 * ((sec / us - (live.ang.ppcAt / us + 1)) * us) * live.ang.freq.toNat ∧ flag (angle fun a => { a with ctrl := 3 }).ang.ctrl 8 = false ∧
      ms ≤ ms - live.ang.ppcAt ∧ (angle fun a => { a with lost := true }).ang.lost = true ∧
      (angle fun a => { a with ctrl := 2, goodCycles := 256 }).ang.goodCycles = 256 ∧
      (angle fun a => { a with todPending := some 7 }).ang.todPending = some 7 ∧ (0 : Word) = live.ang.offset ∧ (1 : Word) ≠ live.ang.offset ∧
      offBand 0 = true ∧ offBand (sec / 50) = false ∧ (quadrant true false + 4 - quadrant false false) % 4 = 1 ∧
      field live.ang.enc 0 20 ≤ (angle fun a => { a with encTurn := (0xFFFFF, 0) }).ang.encTurn.1 + 1 ∧
      field (live.ang.ctrlWord 0) 0 2 = live.ang.source ∧ field (live.ang.ctrlWord 1) 0 2 ≠ live.ang.source := by decide +kernel

theorem test_encoder_counts_forward :
    (after (.encoderEdge 5 true false false) live).ang.encPos + (after (.encoderEdge 5 false true false) live).ang.encPos = 0 ∧
      (after (.encoderEdge 5 true true false) live).ang.encErr = 1 := by decide +kernel

/-! ### Field outputs -/

/-- Output 12 with changes. -/
def out12 (f : Fout → Fout) : State := live.modFout 12 f

/-- Output 12 on which a tick at 5 has taken code 9. -/
def ticked12 : State :=
  out12 fun f => { f with st := .running, enable := true, out := 9, ticked := some { at_ := 5, queue := [9], st := .running } }

/-- Witness of OutputsTakeTheirCodes: codes of the owner and of another, accepted and dropped; a timer tick in and out of
RANGE, too soon; a tick taken running, in SAFE, on an empty queue, disabled; a loop code; a short; a record. -/
theorem witness_outputs :
    live.fw.ioOwner ≠ some 63 ∧ live.fw.ioOwner = some 0 ∧ (live.fout 12).source = 0 ∧ (live.fout 12).queue.length < 32 ∧
      ((out12 fun f => { f with source := 1 }).fout 12).source ≠ 0 ∧
      32 ≤ ((out12 fun f => { f with queue := List.replicate 32 0 }).fout 12).queue.length ∧
      ((out12 fun f => { f with enable := true }).fout 12).clkSel = 0 ∧ ((out12 fun f => { f with enable := true }).fout 12).source ≠ 2 ∧
      (0 : Nat) + (live.fout 12).period.toNat * us ≤ 100 * us ∧ ((out12 fun f => { f with st := .range }).fout 12).st = .range ∧
      ((out12 fun f => { f with lastTick := some 0 }).fout 12).lastTick = some 0 ∧ (20 * us - 1) < 0 + 20 * us ∧ precision 12 = true ∧
      precision 11 = false ∧ ((out12 fun f => { f with tickWait := true, queue := [9], st := .running }).fout 12).queue = [9] ∧
      ((out12 fun f => { f with tickWait := true, st := .safe, enable := true }).fout 12).enable = true ∧
      ((out12 fun f => { f with source := 2, loopCode := [(6, 7), (5, 9)] }).fout 12).loopCode.find? (fun x => x.1 ≤ 5) = some (5, 9) ∧
      (live.fout 12).lastTake + 20 * us ≤ 20 * us ∧ (live.fout 12).ticked = none ∧ (ticked12.fout 12).ticked = some { at_ := 5, queue := [9], st := .running } ∧
      (5 : Nat) / cycle = 4 / cycle ∧ (live.fout 12).safeAt ≠ some (5 / cycle) ∧
      ((out12 fun f => { f with safeAt := some 1 }).fout 12).safeAt = some (5 / cycle) ∧
      ({ st := .safe } : Fout).drives = true ∧ rangeCurrent 3 = false ∧ rangeCurrent 4 = true ∧ (live.fout 0).drives = false ∧
      live.aon.power = true ∧ (live.fout 12).st = .hiz ∧ ((out12 fun f => { f with nvm := { f.nvm with valid := false } }).fout 12).nvm.valid = false ∧
      ((out12 fun f => { f with nvm := { valid := true } }).fout 12).nvm.valid = true ∧ (live.fout 12).forceSafe = false := by decide +kernel

theorem test_queue_of_32 :
    ((after (.foutDataWrite 5 0 12 9) (out12 fun f => { f with queue := List.replicate 31 0 })).fout 12).queue.length = 32 ∧
      ((after (.foutDataWrite 5 0 12 9) (out12 fun f => { f with queue := List.replicate 32 0 })).fout 12).queueDrop = 1 := by
  decide +kernel

theorem test_tick_presents_a_code :
    ((after (.outputTick 5 12) (out12 fun f => { f with tickWait := true, queue := [9], st := .running })).fout 12).out = 9 ∧
      ((after (.outputTick 5 12) (out12 fun f => { f with tickWait := true, st := .running })).fout 12).underflows = 1 := by
  decide +kernel

/-- A host code in the cycle of a tick stands behind that tick's code, which the tick then takes. -/
theorem test_code_in_the_cycle_of_a_tick :
    (let f := (after (.foutDataWrite 6 0 12 3) ticked12).fout 12
     f.out = 9 ∧ f.queue = [3]) := by decide +kernel

/-- Witness of OutputConfigurationWrites: a range, enable, force and release write from each state, in the cycle of a queue
write and after it; the 60 µs over and not. -/
theorem witness_output_config :
    field (0x81 : Word) 0 3 ≠ (live.fout 0).range.toNat ∧ field (0x81 : Word) 0 3 ≠ 7 ∧ flag (0x81 : Word) 7 = true ∧
      flag (0x81 : Word) 8 = false ∧ flag (0 : Word) 7 = false ∧ BitVec.ofNat 3 (field (0 : Word) 0 3) = (live.fout 0).range ∧
      flag (0x180 : Word) 8 = true ∧ flag (0x180 : Word) 7 = true ∧ flag (0x4000 : Word) 14 = true ∧
      ((live.modFout 0 fun f => { f with st := .fault }).fout 0).st = .fault ∧
      ((live.modFout 0 fun f => { f with rangeEnd := some 360, st := .range }).fout 0).rangeEnd = some 360 ∧ (360 : Nat) ≤ 360 ∧
      (359 : Nat) < 360 ∧ live.hostUp = true ∧ (live.fout 0).ticked = none ∧ (live.fout 0).entered.1 ≠ 5 / cycle + 1 ∧
      ((live.modFout 0 fun f => { f with queue := [1, 2], entered := (2, 1) }).fout 0).entered.1 = 5 / cycle + 1 ∧
      w1c 5 (live.fout 0).fresh 0x4000 14 true = false := by decide +kernel

theorem test_range_write_from_running :
    ((after (.foutRangeWrite 5 0 0 0x81) (live.modFout 0 fun f => { f with st := .running })).fout 0).st = .range ∧
      ((after (.foutRangeWrite 5 0 0 0x81) (live.modFout 0 fun f => { f with st := .running })).fout 0).rangeEnd = some (5 + 60 * us) := by
  decide +kernel

/-! ### Locks, mailboxes, registers -/

/-- Lock n owned by an identity. -/
def owned (n who : Nat) : State := { live with locks := { live.locks with owner := Tab.put 0 [] n (who + 1) } }

/-- Witness of LocksGoToTheirReader: a free lock and an owned one, read by a function and by the test port, at both ends. -/
theorem witness_locks :
    ((63 : Nat) ≤ 63 ∨ (63 : Nat) = 65) ∧ ((65 : Nat) ≤ 63 ∨ (65 : Nat) = 65) ∧ (63 : Nat) < 64 ∧ live.hostUp = true ∧
      Tab.get 0 live.locks.owner 63 = 0 ∧ Tab.get 0 (owned 0 65).locks.owner 0 = 65 + 1 := by decide +kernel

theorem test_lock_is_taken :
    (after (.lockRead 5 3 63) live).readOut.data = [0, 0, 0, 0] ∧
      (after (.lockRead 6 4 63) (after (.lockRead 5 3 63) live)).readOut.data = [3, 0, 0, 0x80] := by decide +kernel

/-- Lock 7 of VF 1 which releases it at 6, in the cycle of reads at 5 and 6 by VFs 4 and 2. -/
def contested : State :=
  { owned 7 1 with pending := [.lockRead 6 2 7, .registerWrite 6 1 0x30001C 0], snap := { locks := (owned 7 1).locks } }

/-- Reads of one cycle go to the lowest identity, behind the owner's release; the release finds the new owner (R370, R371). -/
theorem test_lowest_reader_of_a_cycle :
    (let s := after (.lockRead 5 4 7) contested
     s.readOut.data = [2, 0, 0, 0x80] ∧ Tab.get 0 s.locks.owner 7 = 2) ∧
      (let s := after (.lockRead 6 2 7) { contested with pending := [.registerWrite 6 1 0x30001C 0] }
       s.readOut.data = [0, 0, 0, 0] ∧ Tab.get 0 s.locks.owner 7 = 3 ∧
         (after (.registerWrite 6 1 0x30001C 0) s).locks.owner = s.locks.owner ∧
         (after (.registerWrite 6 1 0x30001C 0) s).locks.denied = 0) ∧
      (after (.lockRead 5 4 7) { contested with pending := [.registerWrite 9 1 0x30001C 0] }).readOut.data = [1, 0, 0, 0x80] := by
  decide +kernel

/-- Channel 5 with changes. -/
def chan5 (f : Channel → Channel) : State := live.modChan 5 f

/-- Witness of MailboxesAndLocks: a doorbell that moves nothing, 32 slots, 33, past a full ring; a message with and
without room; an outbound head in and past its tail; a held message with and without room; a lock of the writer and not. -/
theorem witness_mailboxes :
    ((BitVec.ofNat 16 0 : Half) - (live.chan 5).inTail).toNat = 0 ∧ ((BitVec.ofNat 16 32 : Half) - (live.chan 5).inTail).toNat ≤ 32 ∧
      ((BitVec.ofNat 16 32 : Half) - (live.chan 5).inHead).toNat ≤ 32 ∧ 32 < ((BitVec.ofNat 16 33 : Half) - (live.chan 5).inTail).toNat ∧
      32 < ((BitVec.ofNat 16 33 : Half) - ((chan5 fun c => { c with inTail := 32 }).chan 5).inHead).toNat ∧ (live.chan 64).inFill < 32 ∧
      32 ≤ ({ inTail := 32 } : Channel).inFill ∧ (live.chan 5).outFill < ((BitVec.ofNat 16 1 : Half) - (live.chan 5).outHead).toNat ∧
      ((BitVec.ofNat 16 0 : Half) - (live.chan 5).outHead).toNat ≤ (live.chan 5).outFill ∧ live.fw.serving = true ∧
      ((chan5 fun c => { c with held := [{}] }).chan 5).held = {} :: [] ∧ ({ outTail := 32 } : Channel).outFill = 32 ∧
      Tab.get 0 (owned 63 65).locks.owner 63 = 65 + 1 ∧ Tab.get 0 live.locks.owner 63 ≠ 65 + 1 := by decide +kernel

/-- Channel 5 with one message held, its vector 0 unmasked, and a head write of the same cycle (R367). -/
def heading (v : Word) : State :=
  { (chan5 fun c => { c with held := [{}], msix := [(3, 0)] }) with pending := [.mbxOutHeadWrite 6 5 v] }

/-- A tail advance and a head write of one cycle: one vector where the ring is then not empty, none where it is (R367). -/
theorem test_head_and_tail_of_a_cycle :
    Tab.get 0 ((after (.eventDelivery 5 5) (heading 1)).chan 5).raised 0 = 0 ∧
      (let s := after (.eventDelivery 5 5) (heading 0)
       Tab.get 0 (s.chan 5).raised 0 = 1 ∧ Tab.get 0 ((after (.mbxOutHeadWrite 6 5 0) s).chan 5).raised 0 = 1 ∧
         Tab.get 0 ((after (.mbxOutHeadWrite 9 5 0) s).chan 5).raised 0 = 2) := by decide +kernel

theorem test_doorbell_stamps :
    ((after (.doorbell 5 5 2) live).chan 5).page.read 0x47 = 5 ∧ ((after (.doorbell 5 5 33) live).chan 5).badDb = 1 := by decide +kernel

/-- Witness of RegistersReadAndWrite: plain offsets at both ends, a page of another channel, a committed and a free slot, D1
running and not. -/
theorem witness_registers :
    (0x3FFFFFC : Nat) < 0x4000000 ∧ 0x3FFFFFC % 4 = 0 ∧ ¬ (0x300000 ≤ 0x3FFFFFC ∧ 0x3FFFFFC < 0x300100) ∧
      ¬ (0x400000 ≤ (0x3FFFFFC : Nat) ∧ (0x3FFFFFC : Nat) < 0x400400 ∧ 0x3FFFFFC % 0x100 = 0x14) ∧ live.aon.power = true ∧
      live.hostUp = true ∧ (159 : Nat) < 160 ∧ (0xFFC : Nat) < 0x1000 ∧
      (0 / 0x40 + 32 - ((chan5 fun c => { c with inTail := 1 }).chan 5).inHead.toNat % 32) % 32 < ((chan5 fun c => { c with inTail := 1 }).chan 5).inFill ∧
      ¬ (0x800 ≤ (0x40 : Nat) ∨ (0x40 / 0x40 + 32 - (live.chan 5).inHead.toNat % 32) % 32 < (live.chan 5).inFill) ∧
      State.reset.hostUp = false ∧ live.now / cycle < max live.now 5 / cycle ∧ ¬ live.now / cycle < max live.now 3 / cycle := by
  decide +kernel

theorem test_registers :
    (after (.rcRead 5 0 0x004) State.reset).readOut.data = [5, 0, 0, 0] ∧
      ((after (.registerWrite 5 5 0x100040 9) live).chan 5).foreign = 1 ∧
      ((after (.registerWrite 5 5 0x105040 9) live).chan 5).page.read 0x40 = 9 := by decide +kernel

/-! ### Firmware -/

/-- Channel 0 with one command: opcode, LENGTH, FLAGS, payload; SEQ 7. -/
def cmd (op len flags : Nat) (payload : List Byte) (s : State := live) : State :=
  s.modChan 0 fun c => { c with
    inTail := 1, page := c.page.write 0 (toLe 2 op ++ toLe 2 7 ++ toLe 1 len ++ toLe 1 flags ++ [0, 0] ++ payload) }

/-- The rows of the command set, by channel 0 (first half). -/
def rowsA : List Instr :=
  [.identify 5 0, .health 5 0, .clusterHealth 5 0, .coreCounts 5 0, .caskRead 5 0, .wearRead 5 0,
    .memoryHealth 5 0, .imageLoad 5 0 (.failed 0), .imageUnload 5 0, .jobPlace 5 0, .jobRemove 5 0, .stepStart 5 0,
    .stepAbort 5 0, .stepStatus 5 0, .memWrite 5 0 none, .memRead 5 0 true, .descWrite 5 0, .descArm 5 0,
    .descReset 5 0, .descStatus 5 0, .streamLimit 5 0, .qntPolicy 5 0, .qntCarryReset 5 0, .counterClear 5 0]

/-- The rows of the command set, by channel 0 (second half). -/
def rowsB : List Instr :=
  [.calSettings 5 0, .quietOpen 5 0, .rotAdvance 5 0, .combSwitch 5 0, .clusterRestart 5 0, .schedWrite 5 0,
    .schedRead 5 0, .clusterGroup 5 0, .fieldOwner 5 0, .safeWrite 5 0, .eventRoute 5 0, .permSet 5 0,
    .permRead 5 0, .lockRelease 5 0, .linkStatus 5 0, .routeWrite 5 0, .addressSet 5 0, .linkMode 5 0,
    .peerReady 5 0, .upgradeBegin 5 0 (.failed 0), .upgradeData 5 0, .upgradeCommit 5 0 true, .powerProfile 5 0, .moduleReset 5 0]

/-- A row is taken from a slot of its least LENGTH, or of one descriptor. -/
def taken (c : Instr) : Bool :=
  match fwRow c with
  | some r =>
    let s := match r.form with
      | .must => cmd r.op 16 4 (toLe 8 0 ++ toLe 4 64)
      | _ => cmd r.op r.least 0 []
    (s.tick 5).takes 0 r.op r.least r.form
  | none => false

/-- Witness of the hypothesis v.takes of the five statements on Sorilait commands, for each of the 48 rows. -/
theorem witness_takes_a : (rowsA.all taken) = true := by decide +kernel
theorem witness_takes_b : (rowsB.all taken) = true := by decide +kernel

/-- The status that the first outbound slot of channel 0 answers. -/
def answered (c : Instr) (s : State) : List Byte := ((after c s).chan 0).page.readN 0x808 4

/-- Witness of CommandsAreCheckedFirst: another opcode in front, a slot too long, an opcode that is not listed, a ring that
was full, one with room, a command that has ended, none. -/
theorem witness_checks :
    ((cmd 0x0100 0 0 []).tick 5).turnOf 0 0x0101 = false ∧ ((cmd 0x0100 57 0 []).tick 5).turnOf 0 0x0100 = true ∧
      ((cmd 0x0100 57 0 []).preCheck 0 ((cmd 0x0100 57 0 []).cmdSlot 0) 0 .none).isSome = true ∧
      (cmd 0x0999 0 0 []).nextChannel = some 0 ∧ fwOpcodes.contains (slotOp ((cmd 0x0999 0 0 []).chan 0).nextSlot) = false ∧
      ((live.modChan 0 fun c => { c with inTail := 32 }).chan 0).inFill = 32 ∧ ((cmd 0x0100 0 0 []).chan 0).inFill ≠ 32 ∧
      ((cmd 0x0100 0 0 []).chan 0).outFill < 32 ∧ ((cmd 0x0100 0 0 []).chan 0).held.all (·.event) = true ∧
      (let s := live.modFw fun f => { f with accepted := [{ ch := 0, op := 0x0207 }] }
       s.fw.accepted.find? (fun a => a.ch = 0 && s.ended a) = some { ch := 0, op := 0x0207 }) ∧
      (let s := live.modFw fun f => { f with accepted := [{ ch := 0, op := 0x0202, when_ := .placed 0 }] }
       (s.fw.accepted.find? fun a => a.ch = 0 && s.ended a).isSome = true) ∧
      live.fw.accepted.find? (fun a => a.ch = 0 && live.ended a) = none ∧ State.reset.fw.serving = false := by decide +kernel

theorem test_bad_opcode_and_length :
    answered (.badOpcode 5 0) (cmd 0x0999 0 0 []) = [0x20, 0, 0, 0] ∧ answered (.identify 5 0) (cmd 0x0100 57 0 []) = [0x21, 0, 0, 0] ∧
      answered (.badOpcode 5 0) (cmd 0x0999 57 0 []) = [0x21, 0, 0, 0] := by decide +kernel

/-- Witness of FirmwareReadsAnswer: operands at the last unit and beyond it; an image and a descriptor, named and missing. -/
theorem witness_reads :
    leAt ((cmd 0x0102 2 0 (toLe 2 831)).cmdSlot 0) 8 2 = 831 ∧ 832 ≤ leAt ((cmd 0x0102 2 0 (toLe 2 832)).cmdSlot 0) 8 2 ∧
      leAt ((cmd 0x0103 3 0 (toLe 2 831 ++ toLe 1 33)).cmdSlot 0) 10 1 = 33 ∧ 34 ≤ leAt ((cmd 0x0103 3 0 (toLe 2 0 ++ toLe 1 34)).cmdSlot 0) 10 1 ∧
      (withJob live []).imageRefusal 0 0 = none ∧ (live.imageRefusal 0 0).isSome = true ∧ live.descRefused 0 15 8191 = none ∧
      (live.descRefused 0 16 0).isSome = true := by decide +kernel

theorem test_reads_answer :
    answered (.clusterHealth 5 0) (cmd 0x0102 2 0 (toLe 2 832)) = [0x22, 0, 8, 0] ∧
      answered (.permRead 5 0) (cmd 0x0604 1 0 (toLe 1 160)) = [0x22, 0, 8, 0] := by decide +kernel

/-- Witness of FirmwareRunsImagesAndJobs: an index free and none; an image not placed, placed, running; Tap and Steep. -/
theorem witness_images :
    live.freeImage = some 0 ∧
      ({ live with fw := { live.fw with images := (List.range 64).map fun i => (i, { loaded := true }) } } : State).freeImage = none ∧
      ((live.setImage 0 { loaded := true }).image 0).placed = none ∧ (live.setImage 0 { loaded := true }).imageRefusal 0 0 = none ∧
      (withJob live [] false).jobRefusal 0 0 = none ∧ (live.jobRefusal 0 0).isSome = true ∧ ((withJob live [] false).image 0).running = false ∧
      ((withJob live []).image 0).running = true ∧ live.aon.stage = 3 ∧ State.reset.aon.stage ≠ 3 ∧ State.reset.aon.taster = false ∧
      flag (0 : Byte) 1 = false ∧
      (((withJob live [] false).modImage 0 fun r => { r with waiting := true }).image 0).waiting = true := by decide +kernel

theorem test_step_start_twice :
    answered (.stepStart 5 0) (cmd 0x0204 1 0 [0] (withJob live [] false)) = [0, 0, 0, 0] ∧
      answered (.stepStart 5 0) (cmd 0x0204 1 0 [0] (withJob live [])) = [0x40, 0, 1, 0] ∧
      answered (.jobRemove 5 0) (cmd 0x0203 1 0 [9]) = [0x42, 0, 8, 0] := by decide +kernel

/-- Witness of FirmwareMovesDataAndClears: a range in memory and outside, with and without a bad line; a descriptor in each
state; a stream placed and not; a scope, its top and beyond, and none. -/
theorem witness_data :
    live.rangeRefusal 0 0 64 = none ∧ (live.rangeRefusal 0 (2 ^ 40) 64).isSome = true ∧ (live.rangeRefusal 0 0 63).isSome = true ∧
      ({ live with bad := [0] } : State).badIn 0 64 = true ∧ live.badIn 0 64 = false ∧ live.descRefused 0 0 3 = none ∧
      ((descState .draining none).desc 0 3).st = .draining ∧ ((descState .error none).desc 0 3).st = .error ∧
      live.streamRefusal 0 4095 = none ∧ (live.stream 4095).img.isNone = true ∧ ((waitingOn 9 false (some 3)).stream 9).img.isNone = false ∧
      (scopeEnd 0).isSome = true ∧ scopeEnd 200 = none := by decide +kernel

theorem test_desc_reset_of_active :
    answered (.descReset 5 0) (cmd 0x020B 4 0 (toLe 1 0 ++ toLe 1 0 ++ toLe 2 3) (descState .error none)) = [0, 0, 0, 0] ∧
      (answered (.descReset 5 0) (cmd 0x020B 4 0 (toLe 1 0 ++ toLe 1 0 ++ toLe 2 3) (descState .active none))).take 2 = [0x40, 0] := by
  decide +kernel

/-- Witness of FirmwareCalibratesAndResets: the named clusters, and none; a setting out of range, all in range; combs; an
entry's fields; a group; a profile; permits; scopes of MODULE_RESET. -/
theorem witness_calibration_commands :
    clustersNamed 832 = none ∧ clustersNamed 831 = some [831] ∧ (clustersNamed 0xFFFF).isSome = true ∧
      badSetting (padTo 64 []) = some 10 ∧
      badSetting (padTo 64 (List.replicate 10 0 ++ [3, 50] ++ toLe 2 100 ++ toLe 2 50 ++ toLe 2 10 ++ toLe 2 5 ++ [1])) = none ∧
      ((live.modCluster 0 fun c => { c with comb := 1 }).cluster 0).comb ≠ 0 ∧ (live.cluster 0).comb = 0 ∧
      ((live.modCluster 0 fun c => { c with permit := true, permitGoing := true }).cluster 0).permitGoing = true ∧
      (live.modCluster 0 fun c => { c with permit := true, permitGoing := true }).undrained 0 = false ∧
      ((live.modCluster 0 fun c => { c with permitGoing := true, fencePassed := true }).cluster 0).fencePassed = true ∧
      (live.clusters.all fun x => !x.2.permitGoing) = true ∧ profileClusters 3 < live.unparked.length ∧ live.usedClusters = [] ∧
      ((List.range 1).map fun i => (leAt (padTo 64 [0, 0, 0, 0, 0, 0, 0, 0, 3, 1]) (12 + 4 * i) 2,
        leAt (padTo 64 [0, 0, 0, 0, 0, 0, 0, 0, 3, 1]) (14 + 4 * i) 2)) = [(0, 0)] := by decide +kernel

theorem test_group_and_reset_commands :
    answered (.clusterGroup 5 0) (cmd 0x0502 8 0 ([255, 1] ++ [0, 0])) = [0x22, 0, 8, 0] ∧
      answered (.clusterGroup 5 0) (cmd 0x0502 8 0 ([3, 1, 0, 0] ++ toLe 2 5 ++ toLe 2 4)) = [0x22, 0, 12, 0] ∧
      (after (.moduleReset 5 0) (cmd 0x0804 2 0 [2, 3])).aon.askD2 = 8 ∧
      answered (.moduleReset 5 0) (cmd 0x0804 2 0 [2, 4]) = [0x22, 0, 9, 0] := by decide +kernel

/-- Witness of FirmwareSetsFieldsLinksAndBank: owners, none, and out of range; a running step; a descriptor's bank image;
an upgrade begun, ended, and not begun. -/
theorem witness_field_commands :
    leAt ((cmd 0x0600 2 0 [1, 63]).cmdSlot 0) 8 1 = 1 ∧ leAt ((cmd 0x0600 2 0 [1, 63]).cmdSlot 0) 9 1 = 63 ∧
      leAt ((cmd 0x0600 2 0 [0, 0xFF]).cmdSlot 0) 9 1 = 0xFF ∧ 63 < leAt ((cmd 0x0600 2 0 [0, 64]).cmdSlot 0) 9 1 ∧
      (live.fw.images.any fun x => x.2.running) = false ∧ ((withJob live []).fw.images.any fun x => x.2.running) = true ∧
      slotDesc ((cmd 0x0800 16 4 (toLe 8 0 ++ toLe 4 64)).cmdSlot 0) = true ∧ slotDesc ((cmd 0x0800 4 0 [9]).cmdSlot 0) = false ∧
      ((cmd 0x0800 16 4 (toLe 8 0 ++ toLe 4 64)).tick 5).takes 0 0x0800 4 .may = true ∧ live.fw.upgrade = none ∧
      (live.fw.accepted.any fun a => a.op = 0x0800) = false := by decide +kernel

theorem test_field_commands :
    (after (.fieldOwner 5 0) (cmd 0x0600 2 0 [0, 0xFF])).fw.ioOwner = none ∧
      answered (.safeWrite 5 0) (cmd 0x0601 7 0 ([3, 0] ++ toLe 2 10001)) = [0x22, 0, 10, 0] ∧
      answered (.upgradeData 5 0) (cmd 0x0801 5 0 [0, 0, 0, 0, 9]) = [0x40, 0, 0, 0] ∧
      answered (.lockRelease 5 0) (cmd 0x0605 1 0 [64]) = [0x22, 0, 8, 0] := by decide +kernel

/-! ### Optical links -/

/-- Link 2 up with 9 credits, its partner 3 up with 5; the module's address is 0x0120, region 4 routes over link 3 with
bypass allowed, region 5 over link 8. -/
def linked : State :=
  { live with
    links := [(2, { st := 2, credits := 9 }), (3, { st := 2, credits := 5 })]
    linkMod := { addr := 0x120, portAddr := 0x120, routes := [(4, 0x00C3), (5, 0x0088)] } }

/-- A packet of 64 bytes of stream 9 for module d. -/
def hdrTo (d : Half) : HeaderFrame := { dest := d, bypassLeft := 2, bytes := 63, stream := 9, pseq := 6, src := 0x777, lseq := 3 }

/-- Packet 3 of this module, sent at 100 ns. -/
def sent : LinkPacket := { hdr := { src := 0x120, lseq := 3 }, sentAt := 100 * ns }

/-- A frame that passes its CRC is decoded at t on link 2. -/
def decoded (t : Nat) (h : HeaderFrame) (s : State := linked) : State := (s.tick t).decodeFrame 2 h

/-- A sealed header passes its CRC, so that its row decodes it; with another CRC it is counted. -/
theorem test_header_crc (t : Nat) (h : HeaderFrame) (s : State) (up : s.linkIsUp 2 = true) :
    effectHeaderFrame 2 (sealHeader h) (s.tick t) = decoded t (sealHeader h) s ∧
      effectHeaderFrame 2 { h with crc := crc16 (headerBits h) + 1 } (s.tick t) = (s.tick t).modLink 2 Link.badFrame := by
  have up' : (s.tick t).linkIsUp 2 = true := up
  have good : headerIntact (sealHeader h) = true := decide_eq_true rfl
  have bad : headerIntact { h with crc := crc16 (headerBits h) + 1 } = false :=
    decide_eq_false fun e => absurd e (by simp [headerBits])
  constructor
  · simp [effectHeaderFrame, up', good, decoded]
  · unfold effectHeaderFrame; rw [up', bad]; rfl

/-- The partner link has just sent an own packet of 4,096 bytes, at t. -/
def sending (t : Nat) : State :=
  after (.packetSend t 3) (linked.modLink 3 fun l => { l with queue := [{ hdr := { hdrTo 0x41 with bytes := 4095 } }] })

/-- Witness of LinksCarryPackets, headers: a link down and up; a bad CRC and a good one; a reserved TYPE; a packet for the
own address, one that passes through, ones that do not: another link, nothing left, no credit; no route; no address. -/
theorem witness_headers :
    (linked.link 4).st ≠ 2 ∧ (linked.link 2).st = 2 ∧
      6 ≤ ({ kind := 6 } : HeaderFrame).kind.toNat ∧ (hdrTo 0x120).kind.toNat < 2 ∧
      (hdrTo 0x120).dest = linked.linkMod.portAddr ∧ linked.linkMod.portAddr ≠ 0 ∧ live.linkMod.portAddr = 0 ∧
      (let e := Tab.get (0 : Half) linked.linkMod.routes ((hdrTo 0x41).dest.toNat / 16)
       flag e 7 = true ∧ flag e 6 = true ∧ field e 0 6 = partner 2 ∧ (hdrTo 0x41).bypassLeft ≠ 0) ∧
      (let e := Tab.get (0 : Half) linked.linkMod.routes ((hdrTo 0x51).dest.toNat / 16)
       flag e 7 = true ∧ flag e 6 = false) ∧
      flag (Tab.get (0 : Half) linked.linkMod.routes ((hdrTo 0x61).dest.toNat / 16)) 7 = false ∧
      (linked.link 3).credits ≠ 0 ∧ (linked.link 3).busyUntil = 0 ∧ (linked.link 5).credits = 0 ∧
      2 ≤ ({ kind := 2 } : HeaderFrame).kind.toNat ∧ ({ kind := 5 } : HeaderFrame).kind.toNat < 6 ∧
      (((sending 62).link 3).sent.map (·.at_)) = some 62 ∧ (62 : Nat) / cycle = 60 / cycle ∧ 62 / cycle ≠ (64 : Nat) / cycle := by
  decide +kernel

/-- A bypass in the cycle of an own header goes first: the own packet waits again. -/
theorem test_bypass_wins_over_an_own_header :
    (let l := (decoded 63 (hdrTo 0x41) (sending 62)).link 3
     l.bypassed = 1 ∧ l.queue.length = 1 ∧ l.unacked = [] ∧ l.credits = 4) ∧
      (let l := (decoded 100 (hdrTo 0x41) (sending 62)).link 3
       l.fallback = 1 ∧ l.queue = [] ∧ l.unacked.length = 1) := by decide +kernel

theorem test_bypass_spends_a_credit :
    (let l := (decoded 60 (hdrTo 0x41)).link 3
     l.credits = 4 ∧ l.bypassed = 1 ∧ l.outHdr.map (·.bypassLeft) = some 1) ∧
      ((decoded 60 (hdrTo 0x41)).link 2).outCredit = 1 ∧
      ((decoded 60 { hdrTo 0x41 with bypassLeft := 0 }).link 2).expect.map (·.2) = [some 3] := by
  decide +kernel

theorem test_header_dropped :
    ((decoded 5 (hdrTo 0x61)).link 2).drops = 1 ∧ ((decoded 5 (hdrTo 0x61)).link 2).outCredit = 1 ∧
      ((decoded 5 { hdrTo 0x120 with kind := 6 }).link 2).drops = 1 := by decide +kernel

/-- The state once a packet's header has come over link 2. -/
def awaited (d : Half) : State := decoded 5 (hdrTo d)

/-- Witness of LinksCarryPackets, payloads: none awaited, one for this module, one to regenerate with a route, one whose
route has gone, one already taken. -/
theorem witness_payloads :
    (linked.link 2).expect = [] ∧ ((awaited 0x120).link 2).expect = [(hdrTo 0x120, none)] ∧
      ((awaited 0x51).link 2).expect = [(hdrTo 0x51, some 8)] ∧ linked.routeLink 0x61 = none ∧
      (6, false) ∉ ((awaited 0x120).stream 9).taken ∧
      (6, false) ∈ ((after (.packetLanded 6 2 [1] false) (awaited 0x120)).stream 9).taken := by decide +kernel

theorem test_packet_lands_and_is_acked :
    (let s := after (.packetLanded 6 2 [1, 2] false) (awaited 0x120)
     (s.link 2).outAck = some (0x777, 3, 0x120) ∧ (s.stream 9).rx.map (·.pseq) = [6] ∧ (s.link 2).landing.length = 1) ∧
      ((after (.packetLanded 6 2 [1, 2] true) (awaited 0x120)).link 2).outAck = none := by decide +kernel

/-- A packet that the regenerating module still holds is discarded and acked again (R406). -/
theorem test_regenerated_once :
    (let s := after (.packetLanded 6 2 [1] false) (awaited 0x51)
     (s.link 8).queue.length = 1 ∧
       ((after (.packetLanded 8 2 [1] false) (decoded 7 (hdrTo 0x51) s)).link 8).queue.length = 1) := by
  decide +kernel

/-- Link 2 with a packet kept and one that waits, its timer from 0. -/
def busyLink : State := linked.modLink 2 fun l => { l with unacked := [sent], queue := [{ hdr := hdrTo 0x61 }], timer := some 0 }

/-- Witness of LinksCarryPackets, acks, credits, control frames, sending and replay. -/
theorem witness_frames :
    ((busyLink.link 2).unacked.any fun p => p.hdr.src = 0x120 && p.hdr.lseq = 3) = true ∧
      ((busyLink.link 2).unacked.any fun p => p.hdr.src = 0x51 && p.hdr.lseq = 3) = false ∧ busyLink.routeLink 0x51 = some 8 ∧
      (0x51 : Half) ≠ busyLink.linkMod.portAddr ∧ busyLink.routeLink 0x61 = none ∧
      ((linked.chan 68).part ++ padTo 12 [1]).length < 72 ∧
      72 ≤ (((linked.modChan 68 fun c => { c with part := List.replicate 60 0 }).chan 68).part ++ padTo 12 [1]).length ∧
      (linked.link 2).queue = [] ∧ (busyLink.link 2).queue = [{ hdr := hdrTo 0x61 }] ∧ 0 < (busyLink.link 2).credits ∧
      (busyLink.link 2).busyUntil < (0 + leadTu + 1) * fine ∧ (busyLink.link 2).unacked.length < 64 ∧ (linked.link 5).credits = 0 := by decide +kernel

theorem test_ack_and_credits :
    (((busyLink.tick 5).takeAck 2 0x120 3 0x777).link 2).unacked = [] ∧
      (((busyLink.tick 5).takeAck 2 0x120 4 0x777).link 2).unacked = [sent] ∧
      (((busyLink.tick 5).takeCredits 2 60).link 2).credits = 64 := by decide +kernel

/-- Frames that pass their CRC are taken, others are counted. -/
theorem test_frames_by_crc (s : State) (up : s.linkIsUp 2 = true) (part : List Byte) :
    effectAckFrame 2 (ackCrc 1 2 3) 1 2 3 s = s.takeAck 2 1 2 3 ∧
      effectAckFrame 2 (ackCrc 1 2 3 + 1) 1 2 3 s = s.modLink 2 Link.badFrame ∧
      effectCreditFrame 2 (creditCrc 64) 64 s = s.takeCredits 2 64 ∧
      effectControlFrame 2 (controlCrc part + 1) part s = s.modLink 2 Link.badFrame := by
  simp [effectAckFrame, effectCreditFrame, effectControlFrame, up]

theorem test_sixth_control_frame_commits :
    ((((linked.modChan 68 fun c => { c with part := List.replicate 60 0 }).takePart 2 [9])).chan 68).inFill = 1 ∧
      ((linked.takePart 2 [9]).chan 68).inFill = 0 := by decide +kernel

theorem test_send_and_replay :
    (let l := (after (.packetSend 5 2) busyLink).link 2
     l.queue = [] ∧ l.unacked.length = 2 ∧ l.credits = 8 ∧ l.outHdr.map (·.bypassLeft) = some 3) ∧
      ((after (.packetReplay (100 * ns + 10 * us) 2 3) busyLink).link 2).replays = 1 ∧
      ((after (.packetReplay (10 * us) 2 3) busyLink).link 2).replays = 0 := by decide +kernel

/-- Witness of LinksCarryPackets, link states: down, up, passing through; a timer that runs and none; a lane failed, the
spare in use; levels near and apart; a link held and not. -/
theorem witness_link_states :
    ((linked.modLink 4 fun l => { l with st := 0 }).link 4).st = 0 ∧ (linked.link 2).st ≠ 0 ∧ (State.reset.link 4).st = 3 ∧
      (busyLink.link 2).timer = some 0 ∧ (linked.link 2).timer = none ∧ (linked.link 2).failedLane = none ∧
      (linked.link 2).spareUsed = false ∧ ((linked.modLink 2 fun l => { l with failedLane := some 7 }).link 2).failedLane = some 7 ∧
      ((linked.modLink 2 fun l => { l with spareUsed := true }).link 2).spareUsed = true ∧
      linked.linkMod.tlevel.toNat ≤ 2 + 1 ∧ 2 ≤ linked.linkMod.tlevel.toNat + 1 ∧ ¬ 3 ≤ linked.linkMod.tlevel.toNat + 1 ∧
      linked.heldThrough 4 = false ∧ (linked.link 4).mode ≠ 1 ∧ (linked.link 4).st ≠ 2 ∧ State.reset.heldThrough 4 = true := by
  decide +kernel

theorem test_link_states :
    ((after (.linkUp 5 4 0x99 2 1) linked).link 4).st = 2 ∧ ((after (.linkUp 5 4 0x99 3 1) linked).link 4).downReason = 4 ∧
      ((after (.linkDown 5 2 1) linked).link 2).st = 1 ∧ ((after (.linkDown 5 2 5) linked).link 2).st = 0 := by decide +kernel

/-- The limit is 0xC8 = 200 us: it expires on the 201st edge. -/
theorem test_link_timer :
    ((after (.linkTimer (201 * us) 2) busyLink).link 2).downReason = 3 ∧ ((after (.linkTimer (200 * us) 2) busyLink).link 2).st = 2 := by
  decide +kernel

theorem test_lanes :
    ((after (.laneLockLoss 5 2 [7]) linked).link 2).failedLane = some 7 ∧ ((after (.laneLockLoss 5 2 [0, 1]) linked).link 2).downReason = 1 ∧
      ((after (.laneErrorRate 5 2 6) (after (.laneLockLoss 5 2 [7]) linked)).link 2).downReason = 2 ∧
      ((after (.spareLaneSwitch 6 2) (after (.laneLockLoss 5 2 [7]) linked)).link 2).spareFor = 7 := by decide +kernel

/-! ### Power, bring-up, resets -/

/-- The module, D0 as f makes it. -/
def onAon (f : Aon → Aon) (s : State := live) : State := { s with aon := f s.aon }

/-- The module in reset, no hold left: power on, PERST# high. -/
def freed : State := onAon (fun a => { a with perst := false }) State.reset

/-- The module in a bring-up stage; firmware serves from Kiln on. -/
def inStage (st : BitVec 3) : State :=
  { onAon (fun a => { a with stage := st, stageFrom := 0 }) with fw := { live.fw with serving := 1 ≤ st.toNat } }

/-- Witness of HoldsAndResetsTakeDomains, power, supply hold, PERST#. -/
theorem witness_holds :
    (onAon (fun a => { a with power := false })).aon.power = false ∧ live.aon.power = true ∧
      (live.aon.inReset = false ∧ live.aon.d1Reset = false) ∧ State.reset.aon.inReset = true ∧ live.aon.supplyHold = false ∧
      (let a := (onAon (fun a => { a with supplyHold := true }) State.reset).aon
       a.power = true ∧ a.supplyHold = true ∧ a.supplyFrom + 100 * ms ≤ 100 * ms ∧ a.inReset = true) ∧
      (let a := (onAon (fun a => { a with supplyHold := true }) freed).aon
       a.power = true ∧ a.perst = false ∧ a.thermalHold = false ∧ a.backoff = none ∧ a.resetHold = none) := by decide +kernel

/-- Witness of HoldsAndResetsTakeDomains, trips, back-off, release and domain resets: each condition met and not met. -/
theorem witness_trips_and_domains :
    ((live.aon.diodes.set 2 101).any fun y => 100 < y) = true ∧ ((live.aon.diodes.set 2 100).any fun y => 100 < y) = false ∧
      live.aon.thermalHold = false ∧ sameCycle live.aon.retryAt 5 = false ∧
      (let a := (onAon (fun a => { a with thermalHold := true }) State.reset).aon
       a.thermalHold = true ∧ a.inReset = true ∧ (a.diodes.set 2 80).all (fun y => y ≤ 80) = true ∧
        (a.diodes.set 2 81).all (fun y => y ≤ 80) = false) ∧
      (onAon (fun a => { a with backoff := some 7 }) freed).aon.backoff = some 7 ∧ live.aon.backoff.all (9 < ·) = true ∧
      (onAon (fun a => { a with resetHold := some 7, d1Reset := true })).aon.resetHold = some 7 ∧
      live.aon.resetHold = none ∧ live.aon.askD1 = false ∧
      (let a := (onAon fun a => { a with askD1 := true, askD2 := 0xF, askD3 := 0xF, askD4 := 0xFFFF }).aon
       a.askD1 = true ∧ (0xF : BitVec 4) &&& ~~~a.askD2 = 0 ∧ (0xF : BitVec 4) &&& ~~~a.askD3 = 0 ∧
        (0xFFFF : Half) &&& ~~~a.askD4 = 0) := by decide +kernel

theorem test_power_good_steps :
    (after (.powerGood 5 44001) (onAon (fun a => { a with power := false }) freed)).aon.stage = 0 ∧
      (after (.powerGood 5 44000) (onAon (fun a => { a with power := false }) freed)).aon.power = false ∧
      (after (.powerLoss 5 37999) freed).aon.power = false ∧ (after (.powerLoss 5 38000) freed).aon.power = true := by
  decide +kernel

theorem test_supply_hold :
    (let s := after (.supplyHold ms ⟨45999, 0⟩) freed
     s.aon.supplyHold = true ∧ s.aon.stage = 5 ∧ (after (.supplyHoldRelease ⟨101 * ms - 1, 47501, 0⟩) s).aon.supplyHold = true ∧
      (after (.supplyHoldRelease ⟨101 * ms, 47501, 0⟩) s).aon.stage = 0) ∧
      (after (.supplyHold (ms - 1) ⟨45999, 0⟩) freed).aon.supplyHold = false ∧
      (after (.supplyHold 5 ⟨39999, 5⟩) freed).aon.supplyHold = true := by decide +kernel

theorem test_perst :
    (after (.perstDeassert 5) State.reset).aon.armed = true ∧
      (after (.perstAssert 5) (onAon (fun a => { a with backoff := some 9 }) freed)).aon.backoff = none := by decide +kernel

/-- The third attempt waits 2^(3 - 1) = 4 s. -/
theorem test_trip_is_a_retry :
    (let s := after (.thermalTrip 5 2 101) (onAon (fun a => { a with count := 2 }) freed)
     s.aon.count = 3 ∧ s.aon.total = 1 ∧ s.aon.backoff = some (5 + 4 * sec) ∧ s.aon.evt2Until = some (5 + 10 * ms) ∧
      s.aon.stage = 4 ∧ s.aon.thermalHold = true ∧
      (after (.thermalTripRelease 6 [80, 80, 80, 80]) s).aon.thermalHold = false) ∧
      (after (.tripDiodeCrossing 5 0 90) freed).eventOut 3 = false := by decide +kernel

theorem test_waits_end :
    (after (.backoffEnd 7) (onAon (fun a => { a with backoff := some 7 }) freed)).aon.stage = 0 ∧
      (after (.backoffEnd 6) (onAon (fun a => { a with backoff := some 7 }) freed)).aon.backoff = some 7 ∧
      (after (.resetRelease 7) (onAon fun a => { a with resetHold := some 7, d1Reset := true, stage := 5 })).aon.stage = 0 := by
  decide +kernel

theorem test_domain_reset_of_a_link_engine :
    (let s := after (.domainReset 5 false 0 0 2)
      { (onAon fun a => { a with askD4 := 2 }) with links := [(4, { st := 2, cwAt := 5 }), (8, { st := 2 })] }
     (s.link 4).st = 3 ∧ (s.link 8).st = 2 ∧ s.aon.resetHold = some (5 + 10 * ms) ∧ s.aon.stage = 3) ∧
      (after (.domainReset 5 true 0 0 0) (onAon fun a => { a with askD1 := true })).aon.resets = 1 := by decide +kernel

/-- Witness of StagesWatchdogAndEventOutputs: each stage and its conditions, met and not met. -/
theorem witness_stages :
    ((inStage 0).aon.stage = 0 ∧ (inStage 0).aon.power = true ∧ (inStage 0).aon.inReset = false) ∧ live.aon.stage ≠ 0 ∧
      (onAon (fun a => { a with hbmTrained := true }) (inStage 1)).aon.hbmTrained = true ∧ (inStage 1).aon.hbmTrained = false ∧
      ((List.range 832).all fun c => ((inStage 1).cluster c).restart.isNone) = true ∧ ((inStage 1).cluster 0).retired = false ∧
      ((inStage 1).cluster 0).locked = false ∧ ((inStage 2).cluster 0).calibrated = false ∧ (inStage 2).excluded 0 = false ∧
      (inStage 2).aon.stage = 2 ∧ (inStage 0).aon.stageFrom / ms + 2000 + 1 ≤ 2001 * ms / ms ∧
      2000 * ms / ms ≤ (inStage 0).aon.stageFrom / ms + 2000 ∧ ((inStage 1).cluster 0).failures = 0 ∧
      (((inStage 1).modCluster 0 fun c => { c with failures := 1 }).cluster 0).failures ≠ 0 := by decide +kernel

/-- Witness of StagesWatchdogAndEventOutputs: heartbeat, watchdog, event outputs, the cycle of an expiry. -/
theorem witness_watchdog :
    live.aon.armed = true ∧ (1 : Half) ≠ live.aon.beat ∧ State.reset.aon.armed = false ∧
      live.aon.beatAt / ms + live.aon.wdgNow + 1 ≤ 33 * ms / ms ∧ 32 * ms / ms ≤ live.aon.beatAt / ms + live.aon.wdgNow ∧
      sameCycle live.aon.retryAt 5 = false ∧ (onAon (fun a => { a with evt2Until := some 7 })).aon.evt2Until = some 7 ∧
      live.aon.evt2Until = none ∧ live.aon.goodAt + ms ≤ ms ∧
      (let a := (onAon (fun a => { a with expiryAt := some 5 }) State.reset).aon
       a.inReset = true ∧ sameCycle a.expiryAt 5 = true ∧ sameCycle a.retryAt 5 = false) ∧
      stageLimit 1 = some (10000, 0x0203) ∧ timedOut 10000 0 (10001 * ms) = true ∧ live.aon.boots = some false ∧
      sameCycle State.reset.aon.expiryAt 5 = false := by decide +kernel

theorem test_stage_rows :
    (after (.steepEnd 5) (inStage 0)).aon.stage = 1 ∧ (after (.steepEnd 5) (inStage 0)).fw.serving = true ∧
      (after (.kilnEnd 5) (inStage 1)).aon.stage = 1 ∧ (after (.mashEnd 5) (inStage 1)).aon.stage = 1 := by decide +kernel

theorem test_training_ends : (after (.hbmTrainingEnd 5) (inStage 1)).aon.hbmTrained = true := rfl

/-- A table that gives the keys 1 to n one value. -/
def oneToAll {α : Type} (v : α) : Nat → Tab α
  | 0 => []
  | n + 1 => (n + 1, v) :: oneToAll v n

theorem get_oneToAll {α : Type} (d v : α) (n c : Nat) :
    Tab.get d (oneToAll v n) c = if 0 < c ∧ c ≤ n then v else d := by
  induction n with
  | zero => exact (if_neg (by omega)).symm
  | succ n ih =>
    rw [oneToAll, Tab.get, ih]
    by_cases h : n + 1 = c
    · simp [← h]
    · have : (0 < c ∧ c ≤ n + 1) ↔ (0 < c ∧ c ≤ n) := by omega
      simp only [h, if_false, this]

/-- Every cluster but 0 is as given; HBM is trained. -/
def lastCluster (x : Cluster) : State :=
  { onAon (fun a => { a with hbmTrained := true }) (inStage 1) with clusters := oneToAll x 831 }

theorem lastCluster_cluster (x : Cluster) (c : Nat) (h : c < 832) :
    (lastCluster x).cluster c = if c = 0 then {} else x := by
  have g : (lastCluster x).cluster c = if 0 < c ∧ c ≤ 831 then x else {} := by
    simp only [lastCluster, State.cluster, get_oneToAll]
  have e : (0 < c ∧ c ≤ 831) ↔ ¬ c = 0 := by omega
  rw [g]
  simp only [e, ite_not]

/-- The heaters of a module whose clusters but 0 are given up or locked have ramped at some moment. -/
theorem ramped_at_last (s : State)
    (h : ∀ c ∈ List.range 832, (c == 0 || ((s.cluster c).retired || (s.cluster c).locked)) = true) :
    ∃ t, (s.tick t).kilnRamped = true := by
  let e := s.aon.stageFrom + rampTu (s.cluster 0).rampLim (Machine.lockTop s.aon.kilnDraw 0)
  refine ⟨e, List.all_eq_true.mpr fun c hc => ?_⟩
  rcases (Bool.or_eq_true _ _).mp (h c hc) with h | h
  · obtain rfl : c = 0 := by simpa using h
    exact (Bool.or_eq_true _ _).mpr (Or.inr (decide_eq_true (Nat.le_max_right s.now e)))
  · exact (Bool.or_eq_true _ _).mpr (Or.inl h)

theorem last_cluster_alone (x : Cluster) (hx : (x.retired || x.locked) = true) : ∀ c ∈ List.range 832,
    (c == 0 || (((lastCluster x).cluster c).retired || ((lastCluster x).cluster c).locked)) = true := fun c h => by
  rw [lastCluster_cluster x c (List.mem_range.mp h)]
  by_cases hc : c = 0 <;> simp [hc, hx]

theorem last_cluster_still (x : Cluster) (hx : x.restart = none) :
    ((List.range 832).all fun c => ((lastCluster x).cluster c).restart.isNone) = true :=
  List.all_eq_true.mpr fun c h => by
    rw [lastCluster_cluster x c (List.mem_range.mp h)]
    by_cases hc : c = 0 <;> simp [hc, hx]

theorem last_cluster_waits (x : Cluster) :
    ((lastCluster x).cluster 0).retired = false ∧ ((lastCluster x).cluster 0).locked = false := by
  rw [lastCluster_cluster x 0 (by omega)]
  exact ⟨rfl, rfl⟩

/-- With its other clusters given up a module has dead dies. -/
theorem dead_die : (lastCluster { retired := true }).deadDie = true :=
  List.any_eq_true.mpr ⟨1, by decide, List.all_eq_true.mpr fun c h => by
    have := List.mem_range.mp h
    rw [lastCluster_cluster _ _ (by omega), if_neg (by omega)]⟩

/-- A module with no cluster given up has no dead die. -/
theorem no_dead_die (s : State) (h : ∀ c < 832, (s.cluster c).retired = false) : s.deadDie = false :=
  Bool.eq_false_iff.mpr fun e => by
    obtain ⟨q, hq, a⟩ := List.any_eq_true.mp e
    have b := List.all_eq_true.mp a 0 (by decide)
    rw [h (208 * q + 0) (by have := List.mem_range.mp hq; omega)] at b
    exact Bool.noConfusion b

/-- Witness of StagesWatchdogAndEventOutputs, KILN_END: HBM trained, the heaters of every cluster ramped, none restarting, a die
given up and none. -/
theorem witness_kiln :
    (∀ x : Cluster, (x.retired || x.locked) = true → x.restart = none →
      ((lastCluster x).aon.stage = 1 ∧ (lastCluster x).aon.hbmTrained = true ∧ ((lastCluster x).cluster 0).retired = false ∧
        ((lastCluster x).cluster 0).locked = false ∧
        ((List.range 832).all fun c => ((lastCluster x).cluster c).restart.isNone) = true) ∧
      ∃ t, ((lastCluster x).tick t).kilnRamped = true) ∧
    (lastCluster { retired := true }).deadDie = true ∧ (lastCluster { locked := true }).deadDie = false :=
  ⟨fun x h r => ⟨⟨rfl, rfl, (last_cluster_waits x).1, (last_cluster_waits x).2, last_cluster_still x r⟩,
    ramped_at_last _ (last_cluster_alone x h)⟩, dead_die, no_dead_die _ fun c h => by
      rw [lastCluster_cluster _ c h]; split <;> rfl⟩

/-- Every cluster has locked, in Mash, where none is excluded; cluster 0 is as given. -/
def mashing (x : Cluster) : State := { inStage 2 with clusters := (0, x) :: oneToAll { locked := true } 831 }

theorem mashing_cluster (x : Cluster) (c : Nat) (h : c < 832) :
    (mashing x).cluster c = if c = 0 then x else { locked := true } := by
  simp only [mashing, State.cluster, Tab.get, get_oneToAll]
  by_cases hc : c = 0
  · simp [hc]
  · rw [if_neg (fun e => hc e.symm), if_pos ⟨by omega, by omega⟩, if_neg hc]

/-- Witness of StagesWatchdogAndEventOutputs, MASH_END: every cluster locked, none restarting, no hold, no die given up. -/
theorem witness_mash :
    (mashing { locked := true }).aon.stage = 2 ∧ (mashing { locked := true }).aon.resetHold = none ∧
      (mashing { locked := true }).allLocked = true ∧ (mashing { locked := true }).deadDie = false ∧
      ((List.range 832).all fun c => ((mashing { locked := true }).cluster c).restart.isNone) = true :=
  ⟨rfl, rfl,
    List.all_eq_true.mpr fun c h => by rw [mashing_cluster _ c (List.mem_range.mp h)]; split <;> rfl,
    no_dead_die _ fun c h => by rw [mashing_cluster _ c h]; split <;> rfl,
    List.all_eq_true.mpr fun c h => by rw [mashing_cluster _ c (List.mem_range.mp h)]; split <;> rfl⟩

theorem test_stage_fails :
    (let s := after (.stageTimer (10001 * ms)) (onAon (fun a => { a with perst := false }) (inStage 1))
     s.aon.failCode = 0x0203 ∧ s.aon.failStage = 1 ∧ s.aon.count = 1) ∧
      (after (.stageTimer (10000 * ms)) (inStage 1)).aon.stage = 1 ∧
      (after (.stageFailure 5 0x0301) (inStage 2)).aon.failCode = 0x0301 := by decide +kernel

theorem test_second_failure_retires :
    (let s := after (.clusterBringupFail 5 9) (inStage 1)
     (s.cluster 9).restart = some (5 + 300 * ms) ∧ ((after (.clusterBringupFail 6 9) s).cluster 9).retired = true) := by
  decide +kernel

/-- DOMAIN 1, REASON 1, CASK_RESETS 1: 0x1000_0101. -/
theorem test_watchdog :
    (let s := after (.watchdogExpiry (33 * ms)) live
     s.aon.cask.take 2 = [0x10000101, 0] ∧ s.aon.expiries = 1 ∧ s.aon.resetHold = some (43 * ms)) ∧
      (after (.watchdogExpiry (32 * ms)) live).aon.expiries = 0 ∧ (after (.heartbeat 9 4) live).aon.beatAt = 9 := by
  decide +kernel

theorem test_event_outputs :
    (after (.evtPulseEnd 7) (onAon fun a => { a with evt2Until := some 7 })).aon.evt2Until = none ∧
      (after (.evtFirstEvaluation ms) live).eventOut 0 = true ∧ live.eventOut 0 = false := by decide +kernel

/-! ### Board -/

/-- The headline counts and figures of the module (R6, R19, R27, R80), two cells of the compiler's table (R71), the rise at
the limit and at typical load (R443's example), the budget of three hops (R389), a cable's ends (R449). -/
theorem test_board :
    activeCells = 13631488 ∧ physicalCells = 16293888 ∧ sramKiB = 2938 * 1024 ∧ hbmUsableBytes = 744000000000 ∧
      productsPerNs 2 = 13631488 ∧ productsPerNs 16 = 1703936 ∧ powerSplit.foldl (· + ·) 0 = 1850 ∧
      compilerCell false 1 8 = some (53, 6) ∧ compilerCell true 6 17 = some (70, 7) ∧ compilerCell true 1 8 = none ∧
      dieRise true 2000 = 40020 ∧ dieRise false 1850 = 31800 ∧ ({} : LanePower).left 3 = 30 ∧
      cableTo (fibreOf 13 false).2 = (fibreOf 13 true).2 ∧ (headerBits { kind := 1, lseq := 0x8001 }).toNat = 0x8001 * 2 ^ 78 + 1 := by
  decide +kernel

/-! ### Invariants -/

/-- The reset state with PERST_DEASSERT in its queue. -/
def begun : State := { State.reset with pending := [.perstDeassert 5] }

/-- Witness of MemoryStaysCanonical and LegalKept: a legal, canonical state whose step answers a next state. -/
theorem witness_canonical : begun.Canonical where
  hbm := rfl
  usable := by decide
  sram := rfl
  flash := rfl
  pages := by intro ch _; rfl

theorem witness_legal : begun.Legal where
  stage := by decide
  reset := by decide
  armed := by decide
  serving := by decide
  power := by decide
  cask := rfl
  diodes := rfl
  turn := by decide
  rings := by
    intro ch _
    have e : begun.chan ch = {} := rfl
    rw [e]
    unfold Channel.inBounds
    decide
  credits := by intro n _; exact (show 0 ≤ 64 by decide)
  locks := by decide
  cfgErr := by decide +kernel

theorem witness_step : (match step begun with | .next s' => decide (s'.aon.stage = 0) | _ => false) = true := by decide +kernel

/-! ### Further witnesses: clauses whose hypotheses look at the cycle's other commands or at limits -/

/-- State s with these commands behind the one that runs. -/
def before (cs : List Instr) (s : State) : State := { s with pending := cs }

/-- A pair of one block of N4. -/
def smallPair : Pair := { onePair with data := some (List.replicate 16 1) }

/-- Witness of QuantEncodesAndDecodes: pairs that all decode, and one that is discarded among them. -/
theorem witness_quant_pairs :
    (([smallPair].filter fun p => (decodePair 0 p).isNone).length = 0) ∧
      0 < ([smallPair, { data := some [] }].filter fun p => (decodePair 0 p).isNone).length ∧
      (quantState 1 [smallPair]).fires 0 (.quant 0 0) 0 opQuant [1] [2] = true ∧
      (((quantState 1 [smallPair]).pool 1).pairs.find? fun x => x.1 = 3).map (·.2) = some [smallPair] := by decide +kernel

/-- Core 0 of cluster 0 under a probe packet of feeder 1 that ends at e. -/
def probed (e : Nat) : State := live.modFeeder 0 1 fun f => { f with probe := some (0, e) }

/-- Witness of ImagesSettleAndRefresh: a core under a probe packet and one that is not; a prefetch discarded by a refresh. -/
theorem witness_probed_core :
    (live.tick 432).probeOn 0 0 = none ∧ ((probed 9000).tick 432).probeOn 0 0 = some (1, 9000) ∧
      (probed 9000).packetOn 0 0 = none ∧ symbolEdge 432 < 9000 ∧
      ((live.modCore 0 0 fun c => { c with shadow := some { heldImage with refresh := true }, prefetch := some (6, true) }).core
        0 0).prefetch = some (6, true) ∧
      (coreAt 0 { active := some heldImage, shadow := some { heldImage with refresh := true } }).core 0 0
        = { active := some heldImage, shadow := some { heldImage with refresh := true } } ∧
      (∀ h, (none : Option Held) = some h → 5 < h.start + 72 * ns) := by
  refine ⟨by decide +kernel, by decide +kernel, by decide +kernel, by decide +kernel, by decide +kernel, by decide +kernel, ?_⟩
  intro h e; cases e

/-- Witness of ArmingADescriptor: a busy descriptor whose re-arm would fail, with and without a completion of its cycle. -/
theorem witness_arm_cycle :
    (descState .active none (smallDesc 1 65)).descCheck 0
        (padTo 64 ((descState .active none (smallDesc 1 65)).desc 0 3).store) ≠ 0 ∧
      (descState .active none (smallDesc 1 65)).completes 0 3 = false ∧
      (before [.transferComplete 3 0 3 0] (descState .active none (smallDesc 1 65))).completes 0 3 = true ∧
      (before [.transferComplete 4 0 3 0] (descState .active none (smallDesc 1 65))).completes 0 3 = false := by
  decide +kernel

/-- Witness of StartsOfAModelStep and FirmwareRunsImagesAndJobs: a job in a quarter held in reset, and one that is not. -/
theorem witness_job_in_reset :
    (onAon (fun a => { a with d2Reset := 1 }) (withJob live [.tree 0] false)).jobInReset 0 = true ∧
      (onAon (fun a => { a with d2Reset := 2 }) (withJob live [.tree 0] false)).jobInReset 0 = false ∧
      ((withJob live [.tree 0] false).image 0).placed ≠ none ∧ ((withJob live [.tree 0] false).image 0).waiting = false := by
  decide +kernel

/-- Witness of PacketsStartTheirTiles and WindowsScaleEveryRow: a cluster retired and not; a run of the budget that is open. -/
theorem witness_retired :
    ((lightState (packet .granted) none).cluster 0).retired = false ∧
      (((lightState (packet .granted) none).modCluster 0 fun c => { c with retired := true }).cluster 0).retired = true ∧
      (((windowState).modCluster 0 fun c => { c with retired := true }).feeder 0 0).packet = some (packet .running) ∧
      runOk (Tab.get (0, 0) ((windowState).core 0 0).noise 8) = true ∧ (packet (.measuring 252)).unrouted = false ∧
      ({ packet (.measuring 252) with unrouted := true } : Packet).unrouted = true := by decide +kernel

/-- Witness of TransfersIssueInTurn and TransfersLandTheirBytes: an engine whose list has faulted, one whose has not; an arm
that waits for its cycle's end. -/
theorem witness_faulted_list :
    (live.listFaulted 0 ((moving .draining [] compDesc 1).desc 0 3)) = false ∧
      ((live.setProg (.engine 0) 4 { unit := .engine 0, phase := .faulted }).listFaulted 0
        { (moving .draining [] compDesc 1).desc 0 3 with byImg := some 4 }) = true ∧
      ((moving .draining [flight]).desc 0 3).late = none ∧ ({ late := some {} } : Desc).late ≠ none := by decide +kernel

/-- Witness of RotationsCalibrateACore: a slot without a recovery of its own, whose core is not a spare. -/
theorem witness_slot :
    ({ step := .mirror } : CalSlot).recFrom = none ∧ ({ step := .handover } : CalSlot).selfCal = false ∧
      ({ step := .calibrate, light := 2 ^ 16 - 1 } : CalSlot).recFrom = none ∧ ({ step := .calibrate } : CalSlot).core < 34 ∧
      ({ step := .handover } : CalSlot).core ≠ ((slotAt { step := .handover }).cluster 0).spareCore := by decide +kernel

/-- Cluster 0 restarting until 300 ms, after a remap or not. -/
def restarting (remap : Bool) : State := held fun c => { c with restart := some (300 * ms), remap := remap }

/-- Witness of SparesServeClaims: the claim that is next, probes at the last ring and the last window, moves of a cluster
that restarts after a remap or does not restart, the end of a restart. -/
theorem witness_claims :
    ((warmed .spareReady fun c => { c with waiting := [(1, .calibration), (0, .retirement)] }).cluster 0).nextClaim
        = some (0, .retirement) ∧
      (0 : Nat) ≠ 33 ∧ ((warmed .spareReady).cluster 0).slot = none ∧
      ([(3, 3), (575, 64)].all fun x => decide ((x.1 : Nat) < 576) && decide ((x.2 : Nat) ≤ 64)) = true ∧
      probePassed [(3, 3), (575, 63)] = true ∧ probePassed [(3, 64)] = false ∧ probeWrong [(575, 64)] = [] ∧
      ((held id).cluster 0).restart = none ∧ ((restarting true).cluster 0).remap = true ∧
      ((restarting true).cluster 0).movesOver (300 * ms) = true ∧ ((restarting false).cluster 0).remap = false := by
  decide +kernel

theorem witness_restart_ramps : ∃ t, 300 * ms ≤ max (restarting false).now t ∧
    300 * ms - 300 * ms + ((restarting false).tick t).restartTu 0 ≤ max (restarting false).now t := by
  let r := ((restarting false).tick 0).restartTu 0
  have same : ∀ t, ((restarting false).tick t).restartTu 0 = r := fun t => rfl
  exact ⟨300 * ms + r, by omega, by rw [same]; omega⟩

/-- Loop 0 with a time-out of 1 ms, at 2 ms. -/
def scalarless : State := live.modLoop 0 fun l => { l with svTmo := 1 }

/-- A field list at FIELD 0x1 for loop 0 whose scalar is there, FIELD_SCALAR behind in the queue. -/
def scalarComes : State :=
  before [.fieldScalar (2 * ms) .field 0]
    ((fieldOp 1 0 1 (fedBy (holding live [0, 0, 0x80, 0x3F]) .field 1 1 (dataTok 1 3))).modLoop 0 fun l => { l with svTmo := 1 })

/-- Witness of LoopsUpdateInOrder: a scalar that comes in the cycle of the edge, and none. -/
theorem witness_scalar_in_time :
    (scalarless.tick (2 * ms)).withScalars.scalarLate 0 = true ∧ (scalarComes.tick (2 * ms)).withScalars.scalarLate 0 = false ∧
      field (scalarComes.fieldLoop 0).svTmo 0 16 ≠ 0 ∧ (scalarComes.tick (2 * ms)).scalarLate 0 = true := by decide +kernel

theorem test_scalar_of_the_edge_wins :
    ((after (.svStale (2 * ms) 0) scalarComes).fieldLoop 0).svStale = false ∧
      ((after (.svStale (2 * ms) 0) scalarless).fieldLoop 0).svStale = true := by decide +kernel

/-- Witness of ConvertersRunSequences: three-phase conversions before and at their result, levels in and beyond the span. -/
theorem witness_three_phase :
    (let s : State := { conv3 id with ang := { live.ang with ctrl := 1 }, convs := [(0, { three := some (0, 2), threeIn := [5, -1, 4096] })] }
     s.convOwned 0 = true ∧ (s.conv 0).three = some (0, 2) ∧ (s.conv 0).threeIn.getD 2 0 = 4096) ∧ (2 : Nat) ≤ 2 ∧ 0 + 2 * us + 850 * ns ≤ 2850 * ns ∧
      2849 * ns < 0 + 2 * us + 850 * ns ∧ beyondSpan (-1) = true ∧ beyondSpan 4096 = true ∧ beyondSpan 4095 = false ∧
      (resultCode 4095 0).toNat = 4095 ∧ (resultCode 4095 7).toNat = 4095 ∧ (resultCode 9 (-3)).toNat = 7 ∧
      (resultCode 4096 (-2)).toNat = 4095 := by decide +kernel

/-- Witness of AngleTimebaseMoves: a first pulse, one out of and one in its band; two good cycles since a loss; an edge that
ends a cycle out of its band, with the encoder as source. -/
theorem witness_pulses :
    live.ang.ppcSeen = false ∧ (angle fun a => { a with ppcSeen := true }).ang.ppcSeen = true ∧ offBand (20 * ms) = false ∧
      offBand us = true ∧ (angle fun a => { a with lost := true, ctrl := 1 }).ang.lostAt + 20 * ms + 20 * ms ≤ 40 * ms ∧
      (let s := angle fun a => { a with ctrl := 2, enc := 0, encAB := (false, false) }
       let x := (after (.encoderEdge 5 true false false) s).ang
       x.encTop ≠ s.ang.encTop ∧ field s.ang.enc 0 20 ≤ s.ang.encTurn.1 + 1 ∧ offBand (5 - s.ang.encTurn.2) = true ∧
         s.ang.source = 2 ∧ x.lost = true) := by decide +kernel

/-- Witness of OutputConfigurationWrites: a channel that left FAULT in this cycle, one that did not; writes that change the
source. -/
theorem witness_freed_channel :
    (let f := (out12 fun f => { f with st := .safe, freed := some (5 / cycle, .fault) }).fout 12
     f.st = .safe ∧ f.freed = some (5 / cycle, .fault)) ∧
      (live.fout 12).freed = none ∧ field (0x90 : Word) 3 2 = 2 ∧ field (0x80 : Word) 3 2 = 0 ∧
      ({ source := 2 } : Fout).source = 2 := by
  decide +kernel

/-- Witness of MailboxesAndLocks: channels whose sender writes the ring and others; a release taken ahead, and none; other MCTP
messages; a masked vector and an unmasked one. -/
theorem witness_senders :
    ringWriter 63 = true ∧ ringWriter 64 = false ∧ ringWriter 65 = true ∧ ringWriter 66 = false ∧ ringWriter 159 = true ∧
      (let s := { live with locks := { live.locks with ahead := (5 / cycle + 1, [(7, 1)]) } }
       (7, 1) ∈ (s.tick 5).releasesAhead ∧ (7, 2) ∉ (s.tick 5).releasesAhead) ∧ (0x7D : Byte) ≠ 0x7E ∧
      (0x1F7B : Half) ≠ 0x1F7A ∧ State.reset.chanUp = false ∧ live.chanUp = true ∧
      flag ((live.chan 5).msixWord 3) 0 = true ∧ flag (((chan5 fun c => { c with msix := [(3, 0)] }).chan 5).msixWord 3) 0 = false ∧
      (((contested).tick 5).inCycle.filterMap (readsLock 7)) = [2] ∧ 1 ∈ ((contested).tick 5).inCycle.filterMap (writesLock 7) := by
  decide +kernel

/-- A port whose last own packet was sent again at 62. -/
def resent : Link := { sent := some { at_ := 62, packet := sent, replays := some 3 } }

/-- Witness of LinksCarryPackets: an own packet and a replay that a bypass of their cycle takes back, neither; a packet sent on
before; a timer out with no arrival behind it in the queue. -/
theorem witness_link_memory :
    ((sending 62).link 3).sent.map (·.replays) = some none ∧ resent.sent.map (·.replays) = some (some 3) ∧
      (∀ u, (linked.link 3).sent = some u → u.at_ / cycle ≠ 62 / cycle) ∧
      ([hdrTo 0x51].any (sameHeader (hdrTo 0x51))) = true ∧ (([] : List HeaderFrame).any (sameHeader (hdrTo 0x51))) = false ∧
      (busyLink.tick (201 * us)).inCycle = [] ∧ (busyLink.tick (201 * us)).timerOut 2 = true ∧ linked.asked 2 = false := by
  refine ⟨by decide +kernel, by decide +kernel, ?_, by decide +kernel, by decide +kernel, by decide +kernel, by decide +kernel,
    by decide +kernel⟩
  intro u h
  have e : (linked.link 3).sent = none := rfl
  rw [e] at h
  cases h

/-- Witness of LinksCarryPackets: frames that pass and that do not pass their CRC. -/
theorem witness_crcs (k : Nat) (part : List Byte) :
    creditCrc k + 1 ≠ creditCrc k ∧ ackCrc 1 2 3 + 1 ≠ ackCrc 1 2 3 ∧ controlCrc part + 1 ≠ controlCrc part := by simp

/-- Witness of StagesWatchdogAndEventOutputs: no bank that verifies, one that does; a cycle after an expiry, with a retry in
it; stages with a limit and without; a cluster excluded. -/
theorem witness_banks :
    (onAon fun a => { a with bankOk := (some false, some false) }).aon.boots = none ∧
      (onAon fun a => { a with bankOk := (some false, some true) }).aon.boots = some true ∧
      (onAon fun a => { a with bankOk := (some true, some false) }).aon.verifies false = true ∧
      sameCycle (some 5) 5 = true ∧ sameCycle (some 3) 5 = false ∧ 3 ≤ (5 : BitVec 3).toNat ∧ stageLimit 3 = none ∧
      (inStage 2).aon.resetHold.isNone = true := by decide +kernel

end Sys2Proof.Tests
end

section
/-! Registers: where a record's words lie in BAR0, and what a function's RC_READ and REGISTER_WRITE answer (R10 to R14, R351,
R352, R359, R373, R433). -/

namespace Sys2Proof.Machine

/-! ### The word of a record's register -/

section

variable (s : State) (fn : Nat) {k n r off : Nat}

theorem State.regWord_conv (hk : k < 4) (hr : r < 0x100) : s.regWord fn (0x400000 + 0x100 * k + r) = s.finWord k r := by
  have hrec : (0x400000 + 0x100 * k + r - 0x400000) / 0x100 = k := by omega
  have hreg : (0x400000 + 0x100 * k + r) % 0x100 = r := by omega
  unfold State.regWord
  rw [if_neg (by omega), if_neg (by omega), if_neg (by omega), if_pos (by omega), hrec, hreg]

theorem State.regWord_fout (hn : n < 16) (hr : r < 0x40) :
    s.regWord fn (0x410000 + 0x40 * n + r) = (s.fout n).word s.now n r := by
  have hrec : (0x410000 + 0x40 * n + r - 0x410000) / 0x40 = n := by omega
  have hreg : (0x410000 + 0x40 * n + r) % 0x40 = r := by omega
  unfold State.regWord
  iterate 6 rw [if_neg (by omega)]
  rw [if_pos (by omega), hrec, hreg]

/-- The region of the field loops and profile generators. -/
theorem State.regWord_loopWord (hlo : 0x430000 ≤ off) (hhi : off < 0x440000) :
    s.regWord fn off = s.loopWord off := by
  unfold State.regWord
  iterate 12 rw [if_neg (by omega)]
  exact if_pos hhi

theorem State.regWord_fieldLoop (hn : n < 16) (hr : r < 0x400) :
    s.regWord fn (0x430000 + 0x400 * n + r) = (s.fieldLoop n).word r := by
  have hrec : (0x430000 + 0x400 * n + r - 0x430000) / 0x400 = n := by omega
  have hreg : (0x430000 + 0x400 * n + r) % 0x400 = r := by omega
  rw [State.regWord_loopWord s fn (by omega) (by omega), State.loopWord, if_pos (by omega), hrec, hreg]

theorem State.regWord_prf (hn : n < 16) (hr : r < 0x40) :
    s.regWord fn (0x434000 + 0x40 * n + r) = (s.prf n).word s.now r := by
  have hrec : (0x434000 + 0x40 * n + r - 0x434000) / 0x40 = n := by omega
  have hreg : (0x434000 + 0x40 * n + r) % 0x40 = r := by omega
  rw [State.regWord_loopWord s fn (by omega) (by omega), State.loopWord, if_neg (by omega), if_pos (by omega), hrec, hreg]

/-- A register of the mailbox regions. -/
theorem State.regWord_mail (hlo : 0x100000 ≤ off) (hhi : off < 0x300000) : s.regWord fn off = s.mailWord fn off := by
  unfold State.regWord
  rw [if_neg (by omega), if_pos hhi]

theorem State.mailWord_foreignPage (hk : k < 160) (hne : k ≠ fn) (hr : r < 0x1000) :
    s.mailWord fn (0x100000 + 0x1000 * k + r) = 0 := by
  have hpage : (0x100000 + 0x1000 * k + r - 0x100000) / 0x1000 ≠ fn := by omega
  simp only [State.mailWord]
  rw [if_pos (by omega), if_neg hpage]

theorem State.mailWord_mbxErr (hfn : fn ≤ 63) :
    s.mailWord fn (0x200000 + 0x20 * fn + 0x10) = (s.chan fn).word 0x10 := by
  have hrec : (0x200000 + 0x20 * fn + 0x10 - 0x200000) / 0x20 = fn := by omega
  have hreg : (0x200000 + 0x20 * fn + 0x10) % 0x20 = 0x10 := by omega
  simp only [State.mailWord]
  rw [if_neg (by omega), if_pos (by omega), if_pos hrec, hreg]

end

/-! ### Reads (R10, R12, R351) -/

section

variable {s : State} {t fn off k n r : Nat} {w : Word}

theorem wordOff_aligned (h : off % 4 = 0) : wordOff off = off := by
  unfold wordOff
  omega

theorem regUser_fn (h : fn ≤ 63) : regUser fn = true := by
  simp [regUser, ringWriter, h]
  omega

theorem State.hostUp_iff : s.hostUp = true ↔ s.aon.power = true ∧ s.aon.inReset = false ∧ s.aon.d1Reset = false := by
  simp [State.hostUp, and_assoc]

theorem State.chanUp_of_hostUp (hup : s.hostUp = true) : s.chanUp = true := by
  obtain ⟨hpow, hreset, -⟩ := State.hostUp_iff.1 hup
  simp [State.chanUp, hpow, hreset]

/-- A function reaches every offset while D1 runs (R351, R433). -/
theorem State.reaches_fn (hfn : fn ≤ 63) (hup : s.hostUp = true) : s.reaches fn off = true := by
  obtain ⟨hpow, -, -⟩ := State.hostUp_iff.1 hup
  simp [State.reaches, hfn, hup, hpow]

/-- RC_READ of a function. -/
theorem exec_rcRead (hfn : fn ≤ 63) (hoff : off < 0x4000000) :
    exec (.rcRead t fn off) s = .next (effectRcRead fn off (s.tick t)) := by
  have hok : (regUser fn && decide (off < 0x4000000)) = true := by simp [regUser_fn hfn, hoff]
  show act (regUser fn && decide (off < 0x4000000)) t s (effectRcRead fn off) = _
  rw [hok, act_true]

/-- RC_READ of a register without a row of its own. -/
theorem exec_rcRead_plain (hfn : fn ≤ 63) (hup : s.hostUp = true) (hoff : off < 0x4000000) (hal : off % 4 = 0)
    (hlock : ¬ (0x300000 ≤ off ∧ off < 0x300100)) (hfifo : ¬ (0x400000 ≤ off ∧ off < 0x400400 ∧ off % 0x100 = 0x14))
    (hcyc : off ≠ 0x420010) :
    let y := (s.tick t).countedTo off
    exec (.rcRead t fn off) s = .next { y.clearRead fn off with
      readOut := { who := fn, data := toLe 4 ((if rcReg fn off then y.beforeEvents else y).regWord fn off).toNat } } := by
  have hreach : (s.tick t).reaches fn off = true := State.reaches_fn hfn hup
  rw [exec_rcRead hfn hoff]
  simp only [effectRcRead, wordOff_aligned hal, hreach, hlock, hfifo, hcyc]
  cases rcReg fn off <;> rfl

/-! ### What stood as the fabric cycle began (R12) -/

/-- The command at moment t begins a new fabric cycle. -/
abbrev State.newCycle (s : State) (t : Nat) : Prop := s.now / Config.cycle < max s.now t / Config.cycle

/-- The records that a new fabric cycle finds. -/
def State.records (s : State) : Snap :=
  { chans := s.chans, locks := s.locks, convs := s.convs, fouts := s.fouts, streams := s.streams
    hbmStacks := s.hbmStacks, clusters := s.clusters, loops := s.loops, prfs := s.prfs, links := s.links
    capRefused := s.loopEng.capRefused, loopDenied := s.loopEng.wrDenied, ang := s.ang
    foutDenied := s.foutDenied, images := s.fw.images }

theorem State.tick_snap : (s.tick t).snap = if s.newCycle t then s.records else s.snap := rfl

theorem State.tick_snap_chan :
    Tab.get {} (s.tick t).snap.chans n = if s.newCycle t then s.chan n else Tab.get {} s.snap.chans n := by
  rw [State.tick_snap]
  split <;> rfl

theorem State.tick_snap_locks : (s.tick t).snap.locks = if s.newCycle t then s.locks else s.snap.locks := by
  rw [State.tick_snap]
  split <;> rfl

theorem State.tick_snap_fout :
    Tab.get {} (s.tick t).snap.fouts n = if s.newCycle t then s.fout n else Tab.get {} s.snap.fouts n := by
  rw [State.tick_snap]
  split <;> rfl

/-- Only the switch counters and the link records are counted up to the moment of their read (R104, R414). -/
theorem State.countedTo_eq (h : off < 0x570000) : s.countedTo off = s := by
  unfold State.countedTo
  rw [if_neg (by omega), if_neg (by omega)]

theorem State.clearRead_eq (h : rcReg fn off = false) : s.clearRead fn off = s := by
  obtain ⟨hmbx, hlck, hfin, hfout⟩ : off ≠ 0x200000 + 0x20 * fn + 0x10 ∧ off ≠ 0x300200 ∧
      ¬ (0x400000 ≤ off ∧ off < 0x400400 ∧ off % 0x100 = 0x10) ∧ ¬ (0x410000 ≤ off ∧ off < 0x410400 ∧ off % 0x40 = 0x18) := by
    simpa [rcReg, and_assoc] using h
  unfold State.clearRead
  rw [if_neg hmbx, if_neg hlck, if_neg hfin, if_neg hfout]

/-- A page of another channel reads 0 (R352). -/
theorem exec_rcRead_foreignPage (hfn : fn ≤ 63) (hup : s.hostUp = true) (hk : k < 160) (hne : k ≠ fn) (hr : r < 0x1000)
    (hal : r % 4 = 0) :
    exec (.rcRead t fn (0x100000 + 0x1000 * k + r)) s = .next { s.tick t with readOut := { who := fn, data := toLe 4 0 } } := by
  have hrc : rcReg fn (0x100000 + 0x1000 * k + r) = false := by
    simp [rcReg]
    omega
  have hword : (s.tick t).regWord fn (0x100000 + 0x1000 * k + r) = 0 := by
    rw [State.regWord_mail _ _ (by omega) (by omega), State.mailWord_foreignPage _ _ hk hne hr]
  rw [exec_rcRead_plain hfn hup (by omega) (by omega) (by omega) (by omega) (by omega), State.countedTo_eq (by omega),
    State.clearRead_eq hrc, hrc, if_neg Bool.false_ne_true, hword]
  rfl

/-! ### Reads of RC registers (R10, R12, R349, R373) -/

theorem rcLeft_self (m : Nat) : rcLeft m m = 0 := Nat.sub_self m

theorem Tab.get_put_same {α : Type} [DecidableEq α] (d : α) (m : Tab α) (i : Nat) (v : α) :
    Tab.get d (Tab.put d m i v) i = v := by
  rw [Tab.get_put, if_pos rfl]

theorem Channel.readLeft_self (c : Channel) : Channel.readLeft c c = { c with badDb := 0, lockedWr := 0, foreign := 0 } := by
  simp [Channel.readLeft, rcLeft_self]

theorem Locks.readLeft_self (l : Locks) : Locks.readLeft l l = { l with denied := 0, deniedId := 0, deniedLock := 0 } := by
  simp [Locks.readLeft, rcLeft_self]

theorem State.clearRead_mbxErr :
    s.clearRead fn (0x200000 + 0x20 * fn + 0x10) =
      let b := Tab.get {} s.snap.chans fn
      { s.setChan fn (Channel.readLeft b (s.chan fn)) with snap := { s.snap with
        chans := Tab.put {} s.snap.chans fn { b with badDb := 0, lockedWr := 0, foreign := 0 } } } :=
  if_pos rfl

theorem State.clearRead_lckDenied (hfn : fn ≤ 63) :
    s.clearRead fn 0x300200 = { s with
      locks := Locks.readLeft s.snap.locks s.locks
      snap := { s.snap with locks := { s.snap.locks with denied := 0, deniedId := 0, deniedLock := 0 } } } := by
  unfold State.clearRead
  rw [if_neg (by omega), if_pos rfl]

theorem State.clearRead_foutCnt (hn : n < 16) :
    s.clearRead fn (0x410000 + 0x40 * n + 0x18) =
      let b := Tab.get {} s.snap.fouts n
      { s.setFout n (Fout.readLeft b (s.fout n)) with snap := { s.snap with
        fouts := Tab.put {} s.snap.fouts n { b with underflows := 0, queueDrop := 0, clkSkip := 0 } } } := by
  have hrec : (0x410000 + 0x40 * n + 0x18 - 0x410000) / 0x40 = n := by omega
  unfold State.clearRead
  rw [if_neg (by omega), if_neg (by omega), if_neg (by omega), if_pos (by omega), hrec]
  rfl

/-- A read of an RC register returns its fields as the fabric cycle began, and clears those. -/
theorem exec_rcRead_rc (hfn : fn ≤ 63) (hup : s.hostUp = true) (hoff : off < 0x420000) (hal : off % 4 = 0)
    (hrc : rcReg fn off = true) :
    let v := s.tick t
    exec (.rcRead t fn off) s = .next { v.clearRead fn off with
      readOut := { who := fn, data := toLe 4 (v.beforeEvents.regWord fn off).toNat } } := by
  have hreg : off = 0x200000 + 0x20 * fn + 0x10 ∨ off = 0x300200 ∨ (0x400000 ≤ off ∧ off < 0x400400 ∧ off % 0x100 = 0x10) ∨
      (0x410000 ≤ off ∧ off < 0x410400 ∧ off % 0x40 = 0x18) := by
    simpa [rcReg, or_assoc, and_assoc] using hrc
  have h := exec_rcRead_plain (t := t) hfn hup (by omega) hal (by omega) (by omega) (by omega)
  dsimp only at h
  rwa [State.countedTo_eq (by omega), if_pos hrc] at h

/-- A read of the own MBX_ERR (R352, R373). -/
theorem exec_rcRead_mbxErr (hfn : fn ≤ 63) (hup : s.hostUp = true) :
    let v := s.tick t
    let b := if s.newCycle t then s.chan fn else Tab.get {} s.snap.chans fn
    exec (.rcRead t fn (0x200000 + 0x20 * fn + 0x10)) s = .next { v.setChan fn (Channel.readLeft b (s.chan fn)) with
      readOut := { who := fn, data := toLe 4 (b.word 0x10).toNat }
      snap := { v.snap with chans := Tab.put {} v.snap.chans fn { b with badDb := 0, lockedWr := 0, foreign := 0 } } } := by
  intro v b
  have hrc : rcReg fn (0x200000 + 0x20 * fn + 0x10) = true := by simp [rcReg]
  have hb : Tab.get {} v.snap.chans fn = b := State.tick_snap_chan
  have hword : v.beforeEvents.regWord fn (0x200000 + 0x20 * fn + 0x10) = b.word 0x10 := by
    rw [State.regWord_mail _ _ (by omega) (by omega), State.mailWord_mbxErr _ _ hfn, ← hb]
    rfl
  rw [exec_rcRead_rc hfn hup (by omega) (by omega) hrc, State.clearRead_mbxErr, hb, hword]
  rfl

/-- A read of LCK_DENIED (R373). -/
theorem exec_rcRead_lckDenied (hfn : fn ≤ 63) (hup : s.hostUp = true) :
    let v := s.tick t
    let b := if s.newCycle t then s.locks else s.snap.locks
    exec (.rcRead t fn 0x300200) s = .next { v with
      readOut := { who := fn, data := toLe 4 b.deniedWord.toNat }
      locks := Locks.readLeft b s.locks
      snap := { v.snap with locks := { b with denied := 0, deniedId := 0, deniedLock := 0 } } } := by
  intro v b
  have hb : v.snap.locks = b := State.tick_snap_locks
  have hword : v.beforeEvents.regWord fn 0x300200 = b.deniedWord := by
    rw [← hb]
    rfl
  rw [exec_rcRead_rc hfn hup (by omega) (by omega) (by simp [rcReg]), State.clearRead_lckDenied hfn, hb, hword]
  rfl

/-- A read of FOUT_CNT of channel n (R349). -/
theorem exec_rcRead_foutCnt (hfn : fn ≤ 63) (hup : s.hostUp = true) (hn : n < 16) :
    let v := s.tick t
    let b := if s.newCycle t then s.fout n else Tab.get {} s.snap.fouts n
    exec (.rcRead t fn (0x410000 + 0x40 * n + 0x18)) s = .next { v.setFout n (Fout.readLeft b (s.fout n)) with
      readOut := { who := fn, data := toLe 4 (b.word v.now n 0x18).toNat }
      snap := { v.snap with fouts := Tab.put {} v.snap.fouts n { b with underflows := 0, queueDrop := 0, clkSkip := 0 } } } := by
  intro v b
  have hrc : rcReg fn (0x410000 + 0x40 * n + 0x18) = true := by
    simp [rcReg]
    omega
  have hb : Tab.get {} v.snap.fouts n = b := State.tick_snap_fout
  have hword : v.beforeEvents.regWord fn (0x410000 + 0x40 * n + 0x18) = b.word v.now n 0x18 := by
    rw [State.regWord_fout _ _ hn (by omega), ← hb]
    rfl
  rw [exec_rcRead_rc hfn hup (by omega) (by omega) hrc, State.clearRead_foutCnt hn, hb, hword]
  rfl

/-! ### Writes (R13, R14, R352, R359) -/

/-- REGISTER_WRITE of a function. -/
theorem exec_registerWrite (hfn : fn ≤ 63) (hoff : off < 0x4000000) :
    exec (.registerWrite t fn off w) s = .next (effectRegisterWrite fn off w (s.tick t)) := by
  have hok : (regUser fn && decide (off < 0x4000000)) = true := by simp [regUser_fn hfn, hoff]
  show act (regUser fn && decide (off < 0x4000000)) t s (effectRegisterWrite fn off w) = _
  rw [hok, act_true]

/-- No function writes the always-on registers (R433). -/
theorem effectRegisterWrite_aon (hfn : fn ≤ 63) (hoff : off < 0x100000) : effectRegisterWrite fn off w s = s := by
  have hword : wordOff off < 0x100000 := by unfold wordOff; omega
  have hpath : fn ≠ 130 := by omega
  simp [effectRegisterWrite, hword, hpath]

/-- Pages, MBX records and views are written while the channel is up. -/
theorem exec_registerWrite_mail (hfn : fn ≤ 63) (hup : s.chanUp = true) (hlo : 0x100000 ≤ off) (hhi : off < 0x300000)
    (hal : off % 4 = 0) : exec (.registerWrite t fn off w) s = .next ((s.tick t).mailWrite fn off w) := by
  have hlo' : ¬ off < 0x100000 := by omega
  have hup' : (s.tick t).chanUp = true := hup
  rw [exec_registerWrite hfn (by omega)]
  simp [effectRegisterWrite, wordOff_aligned hal, hlo', hhi, hup', hfn]

/-- LCK_DENIED is read-clear: a write is ignored (R10, R373). -/
theorem effectRegisterWrite_lckDenied : effectRegisterWrite fn 0x300200 w s = s := by
  simp [effectRegisterWrite, wordOff]

theorem State.mailWrite_foreignPage (hk : k < 160) (hne : k ≠ fn) (hr : r < 0x1000) :
    s.mailWrite fn (0x100000 + 0x1000 * k + r) w = s.setChan fn { s.chan fn with foreign := (s.chan fn).foreign + 1 } := by
  have hpage : (0x100000 + 0x1000 * k + r - 0x100000) / 0x1000 ≠ fn := by omega
  unfold State.mailWrite
  rw [if_pos (by omega), if_neg hpage]
  rfl

theorem State.mailWrite_ownPage (hfn : fn ≤ 63) (hr : r < 0x1000) :
    s.mailWrite fn (0x100000 + 0x1000 * fn + r) w = s.setChan fn (Channel.pageWrite r w (s.chan fn)) := by
  have hpage : (0x100000 + 0x1000 * fn + r - 0x100000) / 0x1000 = fn := by omega
  have hreg : (0x100000 + 0x1000 * fn + r) % 0x1000 = r := by omega
  unfold State.mailWrite
  rw [if_pos (by omega), if_pos hpage, hreg]
  rfl

/-- MBX_IN_HEAD is read-only (R373). -/
theorem State.mailWrite_inHead (hfn : fn ≤ 63) : s.mailWrite fn (0x200000 + 0x20 * fn + 4) w = s := by
  have hrec : (0x200000 + 0x20 * fn + 4 - 0x200000) / 0x20 = fn := by omega
  have hreg : (0x200000 + 0x20 * fn + 4) % 0x20 = 4 := by omega
  unfold State.mailWrite
  rw [if_neg (by omega), if_neg (by omega), if_pos (by omega), if_pos hrec, hreg]
  rfl

/-- With D1 down nothing is written but the mailbox regions, and those while the channel is up (R373, R431). -/
theorem effectRegisterWrite_down (hdown : s.hostUp = false) (hoff : 0x100000 ≤ off)
    (hchan : 0x300000 ≤ off ∨ s.chanUp = false) : effectRegisterWrite fn off w s = s := by
  have haon : ¬ wordOff off < 0x100000 := by unfold wordOff; omega
  rcases hchan with h | h
  · have hmail : ¬ wordOff off < 0x300000 := by unfold wordOff; omega
    simp [effectRegisterWrite, haon, hmail, hdown]
  · simp [effectRegisterWrite, haon, h, hdown]

/-- With D1 down no function reads beyond the always-on region (R351, R419). -/
theorem effectRcRead_down (hdown : s.hostUp = false) (hoff : 0x100000 ≤ off) : effectRcRead fn off s = s := by
  have hreach : s.reaches fn (wordOff off) = false := by
    have haon : ¬ wordOff off < 0x100000 := by unfold wordOff; omega
    simp [State.reaches, haon, hdown]
  simp [effectRcRead, hreach]

/-! ### Words of a mailbox page (R359) -/

/-- The page word at offset off belongs to the outbound half or to a committed inbound slot. -/
abbrev Channel.locksWord (c : Channel) (off : Nat) : Prop :=
  0x800 ≤ off ∨ (off / 0x40 + 32 - c.inHead.toNat % 32) % 32 < c.inFill

theorem Channel.pageWrite_locked (c : Channel) (h : c.locksWord off) :
    Channel.pageWrite off w c = { c with lockedWr := c.lockedWr + 1 } := if_pos h

theorem Channel.read_pageWrite (c : Channel) (h : ¬ c.locksWord off) (hk : k < 4) :
    (Channel.pageWrite off w c).page.read (off + k) = (toLe 4 w.toNat).getD k 0 := by
  have hin : off ≤ off + k ∧ off + k < off + (toLe 4 w.toNat).length := by simp [toLe, hk]
  rw [Channel.pageWrite, if_neg h, Memory.read_write, if_pos hin, Nat.add_sub_cancel_left]

end

/-- Settles O48: each clause is the equation of its read or write above. -/
theorem registersReadAndWrite : Obligations.RegistersReadAndWrite := by
  intro s t fn w hfn v c answer mine new
  refine ⟨fun hup => ⟨?read, ?mbxErr, ?lckDenied, ?foutCnt, ?foreign, ?own, ?readOnly⟩, fun hdown off hlo hhi => ?down⟩
  case read =>
    intro off hoff hal hlock hfifo hcyc _
    exact exec_rcRead_plain hfn hup hoff hal hlock hfifo hcyc
  case mbxErr =>
    refine ⟨_, exec_rcRead_mbxErr hfn hup, rfl, fun hnew => ?_, Tab.get_put_same .., ?_⟩
    · exact (Tab.get_put_same ..).trans (by rw [if_pos hnew, Channel.readLeft_self])
    · simp only [Tab.get_put_same, and_self]
  case lckDenied =>
    refine ⟨_, exec_rcRead_lckDenied hfn hup, rfl, rfl, rfl, rfl, fun (hnew : s.newCycle t) => ?_⟩
    simp only [if_pos hnew, Locks.readLeft_self]
  case foutCnt =>
    intro n hn
    exact ⟨_, exec_rcRead_foutCnt hfn hup hn, rfl, Tab.get_put_same ..⟩
  case foreign =>
    intro k off hk hne hoff hal
    refine ⟨⟨_, exec_rcRead_foreignPage hfn hup hk hne hoff hal, rfl⟩, ?_⟩
    rw [exec_registerWrite_mail hfn (State.chanUp_of_hostUp hup) (by omega) (by omega) (by omega),
      State.mailWrite_foreignPage hk hne hoff]
    rfl
  case own =>
    intro off hoff hal
    have hrow : exec (.registerWrite t fn (0x100000 + 0x1000 * fn + off) w) s =
        .next (v.setChan fn (Channel.pageWrite off w c)) := by
      rw [exec_registerWrite_mail hfn (State.chanUp_of_hostUp hup) (by omega) (by omega) (by omega),
        State.mailWrite_ownPage hfn hoff]
      rfl
    refine ⟨fun hheld => by rw [hrow, Channel.pageWrite_locked c hheld], fun hfree => ⟨_, hrow, fun k hk => ?_⟩⟩
    rw [State.chan_setChan, if_pos rfl, Channel.read_pageWrite c hfree hk]
  case readOnly =>
    rintro off (haon | rfl | rfl)
    · rw [exec_registerWrite hfn (by omega), effectRegisterWrite_aon hfn haon]
    · rw [exec_registerWrite_mail hfn (State.chanUp_of_hostUp hup) (by omega) (by omega) (by omega), State.mailWrite_inHead hfn]
    · rw [exec_registerWrite hfn (by omega), effectRegisterWrite_lckDenied]
  case down =>
    have hdown' : v.hostUp = false := hdown
    constructor
    · rw [exec_rcRead hfn hhi, effectRcRead_down hdown' hlo]
    · intro hchan
      rw [exec_registerWrite hfn hhi, effectRegisterWrite_down hdown' hlo hchan]

end Sys2Proof.Machine
end

section
/-! The reset state: legal, canonical, and with the values of the register tables. -/

namespace Sys2Proof.Machine

/-! ### The reset state (R15, R329, R349, R369, R402, R414, R433) -/

section

variable {n : Nat}

theorem State.reset_fieldLoop : State.reset.fieldLoop n = {} := rfl

theorem Channel.inFill_new : ({} : Channel).inFill = 0 := by decide
theorem Channel.outFill_new : ({} : Channel).outFill = 0 := by decide

/-- No received power is reported before firmware serves (R15, R414). -/
theorem State.reset_rxPower : State.reset.rxPower n = 0x8000 := if_neg (by decide)

theorem State.reset_linkPower : State.reset.linkWord n 7 = 0x8000 := by
  simp [State.linkWord, State.reset_rxPower]

theorem Channel.inBounds_new : ({} : Channel).inBounds := by
  unfold Channel.inBounds
  decide

theorem State.reset_canonical : State.reset.Canonical where
  hbm := Memory.wf_reset.1
  usable := by decide
  sram := Memory.wf_reset.2
  flash := rfl
  pages _ _ := rfl

theorem State.reset_cfgCurrent : State.reset.cfgCurrent = true := by decide

theorem State.reset_legal : State.reset.Legal where
  stage := by decide
  reset := by decide
  armed := by decide
  serving := by decide
  power := by decide
  cask := rfl
  diodes := rfl
  turn := by decide
  rings _ _ := Channel.inBounds_new
  credits _ _ := Nat.zero_le _
  locks := by decide
  cfgErr := State.reset_cfgCurrent

end

/-- Settles O60: an unlisted record holds its default, so each register reads the default's word. -/
theorem resetIsLegalWithItsValues : Obligations.ResetIsLegalWithItsValues := by
  refine ⟨State.reset_legal, State.reset_canonical, rfl, rfl, rfl, rfl, rfl, fun n => ?records, ?fixed, fun n hn => ?convs,
    fun n hn => ?fouts, fun n hn => ?loops, fun n hn => ?prfs⟩
  case records => exact ⟨rfl, rfl, rfl, Channel.inFill_new, Channel.outFill_new, rfl, State.reset_linkPower⟩
  case fixed => decide
  case convs => rw [State.regWord_conv _ _ hn (by decide)]; rfl
  case fouts => rw [State.regWord_fout _ _ hn (by decide)]; rfl
  case loops =>
    intro x hx
    have hr : x.1 < 0x400 := by revert x; decide
    rw [State.regWord_fieldLoop _ _ hn hr, State.reset_fieldLoop]
    revert x; decide
  case prfs =>
    rw [State.regWord_prf _ _ hn (by decide), State.regWord_prf _ _ hn (by decide)]
    exact ⟨rfl, rfl⟩

end Sys2Proof.Machine
end

section
/-! Sorilait commands that firmware takes: one equation for every command of the set, and the commands that only read (R360
to R364, R374 to R376, R380). -/

namespace Sys2Proof.Machine

/-! ### A command that is taken -/

/-- The answer to the front command of channel ch: what its handler leaves and replies. -/
def answerOut (ch : Nat) (b : List Byte) (x : Handled) : Out := .next (x.1.respond ch b x.2)

section

variable {s : State} {t ch op least : Nat} {form : DescForm} {b : List Byte}

@[simp] theorem State.cmdSlot_tick : (s.tick t).cmdSlot ch = s.cmdSlot ch := rfl

theorem State.takes_iff : s.takes ch op least form = true ↔
    ch < 160 ∧ s.hostUp = true ∧ s.fw.serving = true ∧ s.nextChannel = some ch ∧ slotOp (s.chan ch).nextSlot = op ∧
      s.preCheck ch (s.cmdSlot ch) least form = none := by
  simp [State.takes, State.turnOf, and_assoc]

/-- A command that is taken runs its handler on its slot and is answered. -/
theorem State.command_of_takes (h : List Byte → State → Handled) (ht : s.takes ch op least form = true) :
    s.command ch op least form h = (h (s.cmdSlot ch) s).1.respond ch (s.cmdSlot ch) (h (s.cmdSlot ch) s).2 := by
  obtain ⟨-, hup, hserv, hnext, hop, hcheck⟩ := State.takes_iff.1 ht
  rw [State.cmdSlot] at hcheck
  simp [State.command, hup, hserv, hnext, hop, hcheck, State.cmdSlot]

/-- The row of a command that is taken, whatever its handler h. -/
theorem act_command (h : List Byte → State → Handled) (ht : (s.tick t).takes ch op least form = true) :
    act (ch < 160) t s (fun s => s.command ch op least form h) = answerOut ch (s.cmdSlot ch) (h (s.cmdSlot ch) (s.tick t)) := by
  have hch : ch < 160 := (State.takes_iff.1 ht).1
  rw [decide_eq_true hch, act_true, State.command_of_takes h ht, State.cmdSlot_tick]
  rfl

/-! ### What a handler replies -/

@[simp] theorem answerOut_refuse (status detail : Nat) :
    answerOut ch b (refuse s status detail) = .next (s.refuses ch b status detail) := rfl

@[simp] theorem answerOut_okWith (result : List Byte) : answerOut ch b (okWith s result) = .next (s.answers ch b result) := rfl

@[simp] theorem answerOut_ite (p : Prop) [Decidable p] (x y : Handled) :
    answerOut ch b (if p then x else y) = if p then answerOut ch b x else answerOut ch b y := apply_ite ..

@[simp] theorem answerOut_behind_none (h : State → Handled) : answerOut ch b (behind none s h) = answerOut ch b (h s) := rfl

@[simp] theorem answerOut_behind_some (r : Reply) (h : State → Handled) :
    answerOut ch b (behind (some r) s h) = .next (s.respond ch b r) := rfl

/-! ### What the clock leaves in the records that firmware reports -/

@[simp] theorem State.wearRecord_tick (c : Cluster) : (s.tick t).wearRecord c = s.wearRecord c := rfl
@[simp] theorem State.core_tick (c k : Nat) : (s.tick t).core c k = s.core c k := rfl
@[simp] theorem State.classOf_tick (who : Nat) : (s.tick t).classOf who = s.classOf who := rfl
@[simp] theorem State.imageRefusal_tick (i : Nat) : (s.tick t).imageRefusal ch i = s.imageRefusal ch i := rfl
@[simp] theorem State.descRefused_tick (e d : Nat) : (s.tick t).descRefused ch e d = s.descRefused ch e d := rfl

end

/-! ### The commands that read (R380, R381) -/

/-- Settles O50: each reading command is taken, and its handler replies without an effect on the units. -/
theorem firmwareReadsAnswer : Obligations.FirmwareReadsAnswer := by
  intro s t ch v b n k e bad
  refine ⟨fun h => ?identify, fun h => ?health, fun h => ?clusterHealth, fun h => ?coreCounts, fun h => ?caskRead,
    fun h => ?wearRead, fun h => ?memoryHealth, fun h => ?stepStatus, fun h => ?descStatus, fun h => ?schedRead,
    fun h => ?permRead, fun h => ?linkStatus⟩
  case identify => exact act_command _ h
  case health => exact act_command _ h
  case caskRead => exact act_command _ h
  case clusterHealth => exact (act_command _ h).trans (by simp [bad, v, b, n])
  case coreCounts => exact (act_command _ h).trans (by simp [bad, v, b, n, k])
  case wearRead => exact (act_command _ h).trans (by simp [bad, v, b, n])
  case memoryHealth => exact (act_command _ h).trans (by simp [bad, v, b, e])
  case schedRead => exact (act_command _ h).trans (by simp [bad, v, b, n])
  case permRead => exact (act_command _ h).trans (by simp [bad, v, b, e])
  case linkStatus => exact (act_command _ h).trans (by simp [bad, v, b, e])
  case stepStatus =>
    have hrow : exec (.stepStatus t ch) s =
        answerOut ch b (behind (s.imageRefusal ch e) v fun s' => okWith s' (s'.image e).status) := act_command _ h
    exact ⟨fun hok => by simp [hrow, hok, v], fun r hno => by simp [hrow, hno]⟩
  case descStatus =>
    have hrow : exec (.descStatus t ch) s =
        answerOut ch b (behind (s.descRefused ch e (leAt b 10 2)) v fun s' => okWith s' (s'.desc e (leAt b 10 2)).status) :=
      act_command _ h
    exact ⟨fun hok => by simp [hrow, hok, v], fun r hno => by simp [hrow, hno]⟩

end Sys2Proof.Machine
end

section
/-! Every command: where it completes, the clock after it, what it leaves as it was (R16, R18, R172; log entries 1, 3, 4). -/

namespace Sys2Proof.Machine

/-- The senders that reach registers: the meaning's test is the well-formedness test. -/
theorem regUser_eq_wfRegUser (who : Nat) : regUser who = wfRegUser who := by
  rw [Bool.eq_iff_iff]
  simp only [regUser, ringWriter, wfRegUser, Bool.or_eq_true, Bool.and_eq_true, decide_eq_true_eq]
  omega

/-- A command is its row's effect behind the clock where it is well formed, and that effect stays inside touches: the
equation of each dispatch arm beside the frame of its effect. -/
theorem exec_eq_act (c : Instr) :
    ∃ f : State → State, (∀ s, exec c s = act c.wf c.time s f) ∧ ∀ s, State.Keeps (touches c) s (f s) := by
  cases c with
  | nop => exact ⟨_, fun _ => rfl, fun _ => effectNop_keeps⟩
  | endOp => exact ⟨_, fun _ => rfl, fun _ => effectEnd_keeps⟩
  | loop => exact ⟨_, fun _ => rfl, fun _ => effectLoop_keeps⟩
  | fence => exact ⟨_, fun _ => rfl, fun _ => effectFence_keeps⟩
  | waitang => exact ⟨_, fun _ => rfl, fun _ => effectWaitang_keeps⟩
  | event => exact ⟨_, fun _ => rfl, fun _ => effectEvent_keeps⟩
  | listFault => exact ⟨_, fun _ => rfl, fun _ => effectListFault_keeps⟩
  | feed => exact ⟨_, fun _ => rfl, fun _ => effectFeed_keeps⟩
  | wfill => exact ⟨_, fun _ => rfl, fun _ => effectWfill_keeps⟩
  | wload => exact ⟨_, fun _ => rfl, fun _ => effectWload_keeps⟩
  | swap => exact ⟨_, fun _ => rfl, fun _ => effectSwap_keeps⟩
  | rscale => exact ⟨_, fun _ => rfl, fun _ => effectRscale_keeps⟩
  | tile => exact ⟨_, fun _ => rfl, fun _ => effectTile_keeps⟩
  | reduce => exact ⟨_, fun _ => rfl, fun _ => effectReduce_keeps⟩
  | vAdd => exact ⟨_, fun _ => rfl, fun _ => effectVAdd_keeps⟩
  | vSub => exact ⟨_, fun _ => rfl, fun _ => effectVSub_keeps⟩
  | vMul => exact ⟨_, fun _ => rfl, fun _ => effectVMul_keeps⟩
  | vMax => exact ⟨_, fun _ => rfl, fun _ => effectVMax_keeps⟩
  | vMin => exact ⟨_, fun _ => rfl, fun _ => effectVMin_keeps⟩
  | vScale => exact ⟨_, fun _ => rfl, fun _ => effectVScale_keeps⟩
  | vAxpy => exact ⟨_, fun _ => rfl, fun _ => effectVAxpy_keeps⟩
  | vClamp => exact ⟨_, fun _ => rfl, fun _ => effectVClamp_keeps⟩
  | vCopy => exact ⟨_, fun _ => rfl, fun _ => effectVCopy_keeps⟩
  | vTable => exact ⟨_, fun _ => rfl, fun _ => effectVTable_keeps⟩
  | vExp => exact ⟨_, fun _ => rfl, fun _ => effectVExp_keeps⟩
  | vRecip => exact ⟨_, fun _ => rfl, fun _ => effectVRecip_keeps⟩
  | vRsqrt => exact ⟨_, fun _ => rfl, fun _ => effectVRsqrt_keeps⟩
  | vRmaxabs => exact ⟨_, fun _ => rfl, fun _ => effectVRmaxabs_keeps⟩
  | vRmax => exact ⟨_, fun _ => rfl, fun _ => effectVRmax_keeps⟩
  | vRsum => exact ⟨_, fun _ => rfl, fun _ => effectVRsum_keeps⟩
  | vBmaxabs => exact ⟨_, fun _ => rfl, fun _ => effectVBmaxabs_keeps⟩
  | vNstats => exact ⟨_, fun _ => rfl, fun _ => effectVNstats_keeps⟩
  | vNapply => exact ⟨_, fun _ => rfl, fun _ => effectVNapply_keeps⟩
  | vSmstats => exact ⟨_, fun _ => rfl, fun _ => effectVSmstats_keeps⟩
  | vSmapply => exact ⟨_, fun _ => rfl, fun _ => effectVSmapply_keeps⟩
  | vGather => exact ⟨_, fun _ => rfl, fun _ => effectVGather_keeps⟩
  | vEdgesum => exact ⟨_, fun _ => rfl, fun _ => effectVEdgesum_keeps⟩
  | vDynimg => exact ⟨_, fun _ => rfl, fun _ => effectVDynimg_keeps⟩
  | quantEncode => exact ⟨_, fun _ => rfl, fun _ => effectQuantEncode_keeps⟩
  | quantDecode => exact ⟨_, fun _ => rfl, fun _ => effectQuantDecode_keeps⟩
  | send => exact ⟨_, fun _ => rfl, fun _ => effectSend_keeps⟩
  | recv => exact ⟨_, fun _ => rfl, fun _ => effectRecv_keeps⟩
  | xfer => exact ⟨_, fun _ => rfl, fun _ => effectXfer_keeps⟩
  | fieldFill => exact ⟨_, fun _ => rfl, fun _ => effectFieldFill_keeps⟩
  | fieldScalar => exact ⟨_, fun _ => rfl, fun _ => effectFieldScalar_keeps⟩
  | fieldOutput => exact ⟨_, fun _ => rfl, fun _ => effectFieldOutput_keeps⟩
  | tokenInvalid => exact ⟨_, fun _ => rfl, fun _ => effectTokenInvalid_keeps⟩
  | creditReturn => exact ⟨_, fun _ => rfl, fun _ => effectCreditReturn_keeps⟩
  | handleFree => exact ⟨_, fun _ => rfl, fun _ => effectHandleFree_keeps⟩
  | fenceOrder => exact ⟨_, fun _ => rfl, fun _ => effectFenceOrder_keeps⟩
  | groupDrained => exact ⟨_, fun _ => rfl, fun _ => effectGroupDrained_keeps⟩
  | stall => exact ⟨_, fun _ => rfl, fun _ => effectStall_keeps⟩
  | stepAborted => exact ⟨_, fun _ => rfl, fun _ => effectStepAborted_keeps⟩
  | modelStepStart => exact ⟨_, fun _ => rfl, fun _ => effectModelStepStart_keeps⟩
  | coreCreditGrant => exact ⟨_, fun _ => rfl, fun _ => effectCoreCreditGrant_keeps⟩
  | switchGrant => exact ⟨_, fun _ => rfl, fun _ => effectSwitchGrant_keeps⟩
  | packetStart => exact ⟨_, fun _ => rfl, fun _ => effectPacketStart_keeps⟩
  | reconfigEnd => exact ⟨_, fun _ => rfl, fun _ => effectReconfigEnd_keeps⟩
  | measureEnd => exact ⟨_, fun _ => rfl, fun _ => effectMeasureEnd_keeps⟩
  | windowEnd => exact ⟨_, fun _ => rfl, fun _ => effectWindowEnd_keeps⟩
  | packetEnd => exact ⟨_, fun _ => rfl, fun _ => effectPacketEnd_keeps⟩
  | verdict => exact ⟨_, fun _ => rfl, fun _ => effectVerdict_keeps⟩
  | probePacket => exact ⟨_, fun _ => rfl, fun _ => effectProbePacket_keeps⟩
  | loadSettled => exact ⟨_, fun _ => rfl, fun _ => effectLoadSettled_keeps⟩
  | refreshDue => exact ⟨_, fun _ => rfl, fun _ => effectRefreshDue_keeps⟩
  | chainForward => exact ⟨_, fun _ => rfl, fun _ => effectChainForward_keeps⟩
  | transferIssue => exact ⟨_, fun _ => rfl, fun _ => effectTransferIssue_keeps⟩
  | transferComplete => exact ⟨_, fun _ => rfl, fun _ => effectTransferComplete_keeps⟩
  | descCompToken => exact ⟨_, fun _ => rfl, fun _ => effectDescCompToken_keeps⟩
  | hostBar2Read => exact ⟨_, fun _ => rfl, fun _ => effectHostBar2Read_keeps⟩
  | hostBar2Write => exact ⟨_, fun _ => rfl, fun _ => effectHostBar2Write_keeps⟩
  | channelMigration => exact ⟨_, fun _ => rfl, fun _ => effectChannelMigration_keeps⟩
  | migrationEnd => exact ⟨_, fun _ => rfl, fun _ => effectMigrationEnd_keeps⟩
  | innerUpdate => exact ⟨_, fun _ => rfl, fun _ => effectInnerUpdate_keeps⟩
  | outerUpdate => exact ⟨_, fun _ => rfl, fun _ => effectOuterUpdate_keeps⟩
  | feedforwardUpdate => exact ⟨_, fun _ => rfl, fun _ => effectFeedforwardUpdate_keeps⟩
  | quietWindowOpen => exact ⟨_, fun _ => rfl, fun _ => effectQuietWindowOpen_keeps⟩
  | quietClose => exact ⟨_, fun _ => rfl, fun _ => effectQuietClose_keeps⟩
  | rotationAdvance => exact ⟨_, fun _ => rfl, fun _ => effectRotationAdvance_keeps⟩
  | spareClaim => exact ⟨_, fun _ => rfl, fun _ => effectSpareClaim_keeps⟩
  | spareCopyDone => exact ⟨_, fun _ => rfl, fun _ => effectSpareCopyDone_keeps⟩
  | mirrorDone => exact ⟨_, fun _ => rfl, fun _ => effectMirrorDone_keeps⟩
  | handover => exact ⟨_, fun _ => rfl, fun _ => effectHandover_keeps⟩
  | calibrationDone => exact ⟨_, fun _ => rfl, fun _ => effectCalibrationDone_keeps⟩
  | calStarved => exact ⟨_, fun _ => rfl, fun _ => effectCalStarved_keeps⟩
  | profileMoveEnd => exact ⟨_, fun _ => rfl, fun _ => effectProfileMoveEnd_keeps⟩
  | wearSpareReady => exact ⟨_, fun _ => rfl, fun _ => effectWearSpareReady_keeps⟩
  | engineSpared => exact ⟨_, fun _ => rfl, fun _ => effectEngineSpared_keeps⟩
  | lineRemapped => exact ⟨_, fun _ => rfl, fun _ => effectLineRemapped_keeps⟩
  | combWorn => exact ⟨_, fun _ => rfl, fun _ => effectCombWorn_keeps⟩
  | clusterReturn => exact ⟨_, fun _ => rfl, fun _ => effectClusterReturn_keeps⟩
  | clusterRestartEnd => exact ⟨_, fun _ => rfl, fun _ => effectClusterRestartEnd_keeps⟩
  | loopUpdate => exact ⟨_, fun _ => rfl, fun _ => effectLoopUpdate_keeps⟩
  | loopTimer => exact ⟨_, fun _ => rfl, fun _ => effectLoopTimer_keeps⟩
  | svStale => exact ⟨_, fun _ => rfl, fun _ => effectSvStale_keeps⟩
  | loopEnable => exact ⟨_, fun _ => rfl, fun _ => effectLoopEnable_keeps⟩
  | loopDisable => exact ⟨_, fun _ => rfl, fun _ => effectLoopDisable_keeps⟩
  | loopHold => exact ⟨_, fun _ => rfl, fun _ => effectLoopHold_keeps⟩
  | loopOscRelease => exact ⟨_, fun _ => rfl, fun _ => effectLoopOscRelease_keeps⟩
  | injectionStart => exact ⟨_, fun _ => rfl, fun _ => effectInjectionStart_keeps⟩
  | injectionStop => exact ⟨_, fun _ => rfl, fun _ => effectInjectionStop_keeps⟩
  | captureArm => exact ⟨_, fun _ => rfl, fun _ => effectCaptureArm_keeps⟩
  | prfTargetWrite => exact ⟨_, fun _ => rfl, fun _ => effectPrfTargetWrite_keeps⟩
  | prfLimitWrite => exact ⟨_, fun _ => rfl, fun _ => effectPrfLimitWrite_keeps⟩
  | prfStop => exact ⟨_, fun _ => rfl, fun _ => effectPrfStop_keeps⟩
  | softwareTrigger => exact ⟨_, fun _ => rfl, fun _ => effectSoftwareTrigger_keeps⟩
  | converterTimer => exact ⟨_, fun _ => rfl, fun _ => effectConverterTimer_keeps⟩
  | triggerPinEdge => exact ⟨_, fun _ => rfl, fun _ => effectTriggerPinEdge_keeps⟩
  | conversionResult => exact ⟨_, fun _ => rfl, fun _ => effectConversionResult_keeps⟩
  | runEnd => exact ⟨_, fun _ => rfl, fun _ => effectRunEnd_keeps⟩
  | threePhaseSample => exact ⟨_, fun _ => rfl, fun _ => effectThreePhaseSample_keeps⟩
  | finFifoRead => exact ⟨_, fun _ => rfl, fun _ => effectFinFifoRead_keeps⟩
  | finIncfgWrite => exact ⟨_, fun _ => rfl, fun _ => effectFinIncfgWrite_keeps⟩
  | angleUpdate => exact ⟨_, fun _ => rfl, fun _ => effectAngleUpdate_keeps⟩
  | threePhaseLoss => exact ⟨_, fun _ => rfl, fun _ => effectThreePhaseLoss_keeps⟩
  | encoderLoss => exact ⟨_, fun _ => rfl, fun _ => effectEncoderLoss_keeps⟩
  | ppcLoss => exact ⟨_, fun _ => rfl, fun _ => effectPpcLoss_keeps⟩
  | sourceReacquired => exact ⟨_, fun _ => rfl, fun _ => effectSourceReacquired_keeps⟩
  | encoderEdge => exact ⟨_, fun _ => rfl, fun _ => effectEncoderEdge_keeps⟩
  | ppcEdge => exact ⟨_, fun _ => rfl, fun _ => effectPpcEdge_keeps⟩
  | ppsEdge => exact ⟨_, fun _ => rfl, fun _ => effectPpsEdge_keeps⟩
  | angTodSecWrite => exact ⟨_, fun _ => rfl, fun _ => effectAngTodSecWrite_keeps⟩
  | angOffsetWrite => exact ⟨_, fun _ => rfl, fun _ => effectAngOffsetWrite_keeps⟩
  | angSourceWrite => exact ⟨_, fun _ => rfl, fun _ => effectAngSourceWrite_keeps⟩
  | angCycLoRead => exact ⟨_, fun _ => rfl, fun _ => effectAngCycLoRead_keeps⟩
  | foutDataWrite => exact ⟨_, fun _ => rfl, fun _ => effectFoutDataWrite_keeps⟩
  | outputTick => exact ⟨_, fun _ => rfl, fun _ => effectOutputTick_keeps⟩
  | channelTimer => exact ⟨_, fun _ => rfl, fun _ => effectChannelTimer_keeps⟩
  | precisionCodeTake => exact ⟨_, fun _ => rfl, fun _ => effectPrecisionCodeTake_keeps⟩
  | foutRangeWrite => exact ⟨_, fun _ => rfl, fun _ => effectFoutRangeWrite_keeps⟩
  | rangeEnd => exact ⟨_, fun _ => rfl, fun _ => effectRangeEnd_keeps⟩
  | foutEnableWrite => exact ⟨_, fun _ => rfl, fun _ => effectFoutEnableWrite_keeps⟩
  | forceSafeWrite => exact ⟨_, fun _ => rfl, fun _ => effectForceSafeWrite_keeps⟩
  | readbackFaultRelease => exact ⟨_, fun _ => rfl, fun _ => effectReadbackFaultRelease_keeps⟩
  | short => exact ⟨_, fun _ => rfl, fun _ => effectShort_keeps⟩
  | safeRecordLoad => exact ⟨_, fun _ => rfl, fun _ => effectSafeRecordLoad_keeps⟩
  | doorbell => exact ⟨_, fun _ => rfl, fun _ => effectDoorbell_keeps⟩
  | mbxOutHeadWrite => exact ⟨_, fun _ => rfl, fun _ => effectMbxOutHeadWrite_keeps⟩
  | mctpMessage => exact ⟨_, fun _ => rfl, fun _ => effectMctpMessage_keeps⟩
  | lockRead => exact ⟨_, fun _ => rfl, fun _ => effectLockRead_keeps⟩
  | lockWrite => exact ⟨_, fun _ => rfl, fun _ => effectLockWrite_keeps⟩
  | rcRead t who off =>
    refine ⟨effectRcRead who off, fun s => ?_, fun _ => effectRcRead_keeps⟩
    simp only [Instr.wf, ← regUser_eq_wfRegUser]
    rfl
  | registerWrite t who off v =>
    refine ⟨effectRegisterWrite who off v, fun s => ?_, fun _ => effectRegisterWrite_keeps⟩
    simp only [Instr.wf, ← regUser_eq_wfRegUser]
    rfl
  | functionLevelReset => exact ⟨_, fun _ => rfl, fun _ => effectFunctionLevelReset_keeps⟩
  | eventDelivery => exact ⟨_, fun _ => rfl, fun _ => effectEventDelivery_keeps⟩
  | badOpcode => exact ⟨_, fun _ => rfl, fun _ => effectBadOpcode_keeps⟩
  | identify => exact ⟨_, fun _ => rfl, fun _ => effectIdentify_keeps⟩
  | health => exact ⟨_, fun _ => rfl, fun _ => effectHealth_keeps⟩
  | clusterHealth => exact ⟨_, fun _ => rfl, fun _ => effectClusterHealth_keeps⟩
  | coreCounts => exact ⟨_, fun _ => rfl, fun _ => effectCoreCounts_keeps⟩
  | caskRead => exact ⟨_, fun _ => rfl, fun _ => effectCaskRead_keeps⟩
  | wearRead => exact ⟨_, fun _ => rfl, fun _ => effectWearRead_keeps⟩
  | memoryHealth => exact ⟨_, fun _ => rfl, fun _ => effectMemoryHealth_keeps⟩
  | imageLoad => exact ⟨_, fun _ => rfl, fun _ => effectImageLoad_keeps⟩
  | imageUnload => exact ⟨_, fun _ => rfl, fun _ => effectImageUnload_keeps⟩
  | jobPlace => exact ⟨_, fun _ => rfl, fun _ => effectJobPlace_keeps⟩
  | jobRemove => exact ⟨_, fun _ => rfl, fun _ => effectJobRemove_keeps⟩
  | stepStart => exact ⟨_, fun _ => rfl, fun _ => effectStepStart_keeps⟩
  | stepAbort => exact ⟨_, fun _ => rfl, fun _ => effectStepAbort_keeps⟩
  | stepStatus => exact ⟨_, fun _ => rfl, fun _ => effectStepStatus_keeps⟩
  | memWrite => exact ⟨_, fun _ => rfl, fun _ => effectMemWrite_keeps⟩
  | memRead => exact ⟨_, fun _ => rfl, fun _ => effectMemRead_keeps⟩
  | descWrite => exact ⟨_, fun _ => rfl, fun _ => effectDescWrite_keeps⟩
  | descArm => exact ⟨_, fun _ => rfl, fun _ => effectDescArm_keeps⟩
  | descReset => exact ⟨_, fun _ => rfl, fun _ => effectDescReset_keeps⟩
  | descStatus => exact ⟨_, fun _ => rfl, fun _ => effectDescStatus_keeps⟩
  | streamLimit => exact ⟨_, fun _ => rfl, fun _ => effectStreamLimit_keeps⟩
  | qntPolicy => exact ⟨_, fun _ => rfl, fun _ => effectQntPolicy_keeps⟩
  | qntCarryReset => exact ⟨_, fun _ => rfl, fun _ => effectQntCarryReset_keeps⟩
  | counterClear => exact ⟨_, fun _ => rfl, fun _ => effectCounterClear_keeps⟩
  | calSettings => exact ⟨_, fun _ => rfl, fun _ => effectCalSettings_keeps⟩
  | quietOpen => exact ⟨_, fun _ => rfl, fun _ => effectQuietOpen_keeps⟩
  | rotAdvance => exact ⟨_, fun _ => rfl, fun _ => effectRotAdvance_keeps⟩
  | combSwitch => exact ⟨_, fun _ => rfl, fun _ => effectCombSwitch_keeps⟩
  | clusterRestart => exact ⟨_, fun _ => rfl, fun _ => effectClusterRestart_keeps⟩
  | schedWrite => exact ⟨_, fun _ => rfl, fun _ => effectSchedWrite_keeps⟩
  | schedRead => exact ⟨_, fun _ => rfl, fun _ => effectSchedRead_keeps⟩
  | clusterGroup => exact ⟨_, fun _ => rfl, fun _ => effectClusterGroup_keeps⟩
  | fieldOwner => exact ⟨_, fun _ => rfl, fun _ => effectFieldOwner_keeps⟩
  | safeWrite => exact ⟨_, fun _ => rfl, fun _ => effectSafeWrite_keeps⟩
  | eventRoute => exact ⟨_, fun _ => rfl, fun _ => effectEventRoute_keeps⟩
  | permSet => exact ⟨_, fun _ => rfl, fun _ => effectPermSet_keeps⟩
  | permRead => exact ⟨_, fun _ => rfl, fun _ => effectPermRead_keeps⟩
  | lockRelease => exact ⟨_, fun _ => rfl, fun _ => effectLockRelease_keeps⟩
  | linkStatus => exact ⟨_, fun _ => rfl, fun _ => effectLinkStatus_keeps⟩
  | routeWrite => exact ⟨_, fun _ => rfl, fun _ => effectRouteWrite_keeps⟩
  | addressSet => exact ⟨_, fun _ => rfl, fun _ => effectAddressSet_keeps⟩
  | linkMode => exact ⟨_, fun _ => rfl, fun _ => effectLinkMode_keeps⟩
  | peerReady => exact ⟨_, fun _ => rfl, fun _ => effectPeerReady_keeps⟩
  | upgradeBegin => exact ⟨_, fun _ => rfl, fun _ => effectUpgradeBegin_keeps⟩
  | upgradeData => exact ⟨_, fun _ => rfl, fun _ => effectUpgradeData_keeps⟩
  | upgradeCommit => exact ⟨_, fun _ => rfl, fun _ => effectUpgradeCommit_keeps⟩
  | powerProfile => exact ⟨_, fun _ => rfl, fun _ => effectPowerProfile_keeps⟩
  | moduleReset => exact ⟨_, fun _ => rfl, fun _ => effectModuleReset_keeps⟩
  | commandDone => exact ⟨_, fun _ => rfl, fun _ => effectCommandDone_keeps⟩
  | permitWithdrawn => exact ⟨_, fun _ => rfl, fun _ => effectPermitWithdrawn_keeps⟩
  | headerFrame => exact ⟨_, fun _ => rfl, fun _ => effectHeaderFrame_keeps⟩
  | packetLanded => exact ⟨_, fun _ => rfl, fun _ => effectPacketLanded_keeps⟩
  | ackFrame => exact ⟨_, fun _ => rfl, fun _ => effectAckFrame_keeps⟩
  | creditFrame => exact ⟨_, fun _ => rfl, fun _ => effectCreditFrame_keeps⟩
  | controlFrame => exact ⟨_, fun _ => rfl, fun _ => effectControlFrame_keeps⟩
  | packetSend => exact ⟨_, fun _ => rfl, fun _ => effectPacketSend_keeps⟩
  | packetReplay => exact ⟨_, fun _ => rfl, fun _ => effectPacketReplay_keeps⟩
  | linkTimer => exact ⟨_, fun _ => rfl, fun _ => effectLinkTimer_keeps⟩
  | linkDown => exact ⟨_, fun _ => rfl, fun _ => effectLinkDown_keeps⟩
  | laneLockLoss => exact ⟨_, fun _ => rfl, fun _ => effectLaneLockLoss_keeps⟩
  | laneErrorRate => exact ⟨_, fun _ => rfl, fun _ => effectLaneErrorRate_keeps⟩
  | spareLaneSwitch => exact ⟨_, fun _ => rfl, fun _ => effectSpareLaneSwitch_keeps⟩
  | linkUp => exact ⟨_, fun _ => rfl, fun _ => effectLinkUp_keeps⟩
  | powerGood => exact ⟨_, fun _ => rfl, fun _ => effectPowerGood_keeps⟩
  | powerLoss => exact ⟨_, fun _ => rfl, fun _ => effectPowerLoss_keeps⟩
  | supplyHold => exact ⟨_, fun _ => rfl, fun _ => effectSupplyHold_keeps⟩
  | supplyHoldRelease => exact ⟨_, fun _ => rfl, fun _ => effectSupplyHoldRelease_keeps⟩
  | perstAssert => exact ⟨_, fun _ => rfl, fun _ => effectPerstAssert_keeps⟩
  | perstDeassert => exact ⟨_, fun _ => rfl, fun _ => effectPerstDeassert_keeps⟩
  | steepEnd => exact ⟨_, fun _ => rfl, fun _ => effectSteepEnd_keeps⟩
  | hbmTrainingEnd => exact ⟨_, fun _ => rfl, fun _ => effectHbmTrainingEnd_keeps⟩
  | kilnEnd => exact ⟨_, fun _ => rfl, fun _ => effectKilnEnd_keeps⟩
  | mashEnd => exact ⟨_, fun _ => rfl, fun _ => effectMashEnd_keeps⟩
  | stageTimer => exact ⟨_, fun _ => rfl, fun _ => effectStageTimer_keeps⟩
  | stageFailure => exact ⟨_, fun _ => rfl, fun _ => effectStageFailure_keeps⟩
  | backoffEnd => exact ⟨_, fun _ => rfl, fun _ => effectBackoffEnd_keeps⟩
  | clusterBringupFail => exact ⟨_, fun _ => rfl, fun _ => effectClusterBringupFail_keeps⟩
  | heartbeat => exact ⟨_, fun _ => rfl, fun _ => effectHeartbeat_keeps⟩
  | watchdogExpiry => exact ⟨_, fun _ => rfl, fun _ => effectWatchdogExpiry_keeps⟩
  | thermalTrip => exact ⟨_, fun _ => rfl, fun _ => effectThermalTrip_keeps⟩
  | domainReset => exact ⟨_, fun _ => rfl, fun _ => effectDomainReset_keeps⟩
  | evtPulseEnd => exact ⟨_, fun _ => rfl, fun _ => effectEvtPulseEnd_keeps⟩
  | resetRelease => exact ⟨_, fun _ => rfl, fun _ => effectResetRelease_keeps⟩
  | thermalTripRelease => exact ⟨_, fun _ => rfl, fun _ => effectThermalTripRelease_keeps⟩
  | tripDiodeCrossing => exact ⟨_, fun _ => rfl, fun _ => effectTripDiodeCrossing_keeps⟩
  | evtFirstEvaluation => exact ⟨_, fun _ => rfl, fun _ => effectEvtFirstEvaluation_keeps⟩
  | shortEnd => exact ⟨_, fun _ => rfl, fun _ => effectShortEnd_keeps⟩
  | wornCombSwitch => exact ⟨_, fun _ => rfl, fun _ => effectWornCombSwitch_keeps⟩

/-- No command touches the clock beside its own moment. -/
theorem now_notMem_touches (c : Instr) : Part.now ∉ touches c := by
  cases c <;> simp [touches]

/-- A command that completes leaves its effect, which stays inside touches, on the state of its moment. -/
theorem exec_next {c : Instr} {s s' : State} (h : exec c s = .next s') : State.Keeps (touches c) (s.tick c.time) s' := by
  obtain ⟨f, hact, hkeep⟩ := exec_eq_act c
  rw [hact] at h
  unfold act at h
  split at h
  · obtain rfl := Host.Outcome.next.inj h
    exact hkeep _
  · exact nomatch h

/-- Settles O2: the empty queue is the first case of step. -/
theorem emptyQueueIdles : Obligations.EmptyQueueIdles := by
  intro s hempty
  simp only [step, hempty]

/-- Settles O3: act decides by well-formedness alone. -/
theorem wellFormedCommandsComplete : Obligations.WellFormedCommandsComplete := by
  intro c s
  obtain ⟨f, hact, -⟩ := exec_eq_act c
  exact ⟨fun hwf => ⟨f (s.tick c.time), by simp [hact, act, hwf]⟩, fun hwf => by simp [hact, act, hwf]⟩

/-- Settles O4: the clock moves with the command's moment, and no effect touches it. -/
theorem clockMovesToTheCommand : Obligations.ClockMovesToTheCommand :=
  fun c _ _ h => exec_next h .now (now_notMem_touches c)

/-- Settles O5: the tick changes the clock and the record of its fabric cycle, the effect the parts of its row. -/
theorem commandsKeepTheRest : Obligations.CommandsKeepTheRest := by
  intro c s s' h
  have htick : State.Keeps (.now :: .snap :: touches c) s (s.tick c.time) :=
    State.Keeps.into State.tick_keeps (by simp) .rfl
  exact State.Keeps.into (exec_next h) (List.subset_cons_of_subset _ (List.subset_cons_self _ _)) htick

/-! ### The reserve channel (R22, R215) -/

/-- Settles O34: a stack at rest lets its channel migrate, any other only marks it; the end brings the reserve in. -/
theorem reserveChannelMigrates : Obligations.ReserveChannelMigrates := by
  intro s t k ch hk hch m
  have hbegin : exec (.channelMigration t k ch) s = .next (effectChannelMigration k ch (s.tick t)) :=
    if_pos (by simp [hk, hch])
  have hend : exec (.migrationEnd t k) s = .next (effectMigrationEnd k (s.tick t)) := if_pos (by simp [hk])
  refine ⟨fun hused hrest => ?rest, fun hbusy => ?busy, fun c z hmig => ?ends, fun hrest => ?idle⟩
  case rest =>
    have hfree : ¬ (m.reserveUsed || m.migrating.isSome) = true := by simp [hused, hrest]
    exact hbegin.trans (congrArg (fun x => Host.Outcome.next ((s.tick t).setStack k x)) (if_neg hfree))
  case busy =>
    have htaken : (m.reserveUsed || m.migrating.isSome) = true := by
      simpa [Option.isSome_iff_ne_none] using hbusy
    exact hbegin.trans (congrArg (fun x => Host.Outcome.next ((s.tick t).setStack k x)) (if_pos htaken))
  case ends =>
    have hmig : (s.stack k).migrating = some (c, z) := hmig
    simp only [hend, effectMigrationEnd, State.stack_tick, hmig]
    rfl
  case idle =>
    have hrest : (s.stack k).migrating = none := hrest
    simp only [hend, effectMigrationEnd, State.stack_tick, hrest]

end Sys2Proof.Machine
end

section
/-! Records of a cluster after an update: feeders, cores and positions, and the same seen from State. -/

namespace Sys2Proof.Machine

theorem Tab.get_put_ne {α : Type} [DecidableEq α] (d d' : α) (m : Tab α) (i : Nat) (v : α) {j : Nat} (h : j ≠ i) :
    Tab.get d' (Tab.put d m i v) j = Tab.get d' m j := by
  unfold Tab.put
  dsimp only
  split
  · rw [Tab.get_filter, if_neg h]
  · rw [Tab.get_ins _ _ _ _ _ (by simp), if_neg h, Tab.get_filter, if_neg h]

section

variable (c : Cluster) (f g k j p q : Nat)

@[simp] theorem Cluster.feeder_setFeeder (v : Feeder) : (c.setFeeder f v).feeder g = if g = f then v else c.feeder g :=
  Tab.get_put ..
@[simp] theorem Cluster.core_setFeeder (v : Feeder) : (c.setFeeder f v).core k = c.core k := rfl
@[simp] theorem Cluster.phys_setFeeder (v : Feeder) : (c.setFeeder f v).phys p = c.phys p := rfl

@[simp] theorem Cluster.core_setCore (v : Core) : (c.setCore k v).core j = if j = k then v else c.core j := by
  unfold Cluster.core Cluster.setCore
  split
  case isTrue h => rw [h, Tab.get_put_same]
  case isFalse h => exact Tab.get_put_ne _ _ _ _ _ h
@[simp] theorem Cluster.feeder_setCore (v : Core) : (c.setCore k v).feeder f = c.feeder f := rfl
@[simp] theorem Cluster.phys_setCore (v : Core) : (c.setCore k v).phys p = c.phys p := rfl
@[simp] theorem Cluster.modCore_set (h : Core → Core) : c.modCore k h = c.setCore k (h (c.core k)) := rfl

@[simp] theorem Cluster.phys_setPhys : (c.setPhys p k).phys q = if q = p then k else c.phys q := by
  unfold Cluster.phys Cluster.setPhys
  split
  case isTrue h => rw [h, Tab.get_put_same]
  case isFalse h => exact Tab.get_put_ne _ _ _ _ _ h
@[simp] theorem Cluster.core_setPhys : (c.setPhys p k).core j = c.core j := rfl
@[simp] theorem Cluster.feeder_setPhys : (c.setPhys p k).feeder f = c.feeder f := rfl

end

section

variable (s : State) (c d f g k j : Nat)

@[simp] theorem State.core_setCluster (v : Cluster) :
    (s.setCluster c v).core d k = if d = c then v.core k else s.core d k := by
  unfold State.core
  rw [State.cluster_setCluster]
  split <;> rfl
@[simp] theorem State.feeder_setCluster (v : Cluster) :
    (s.setCluster c v).feeder d f = if d = c then v.feeder f else s.feeder d f := by
  unfold State.feeder
  rw [State.cluster_setCluster]
  split <;> rfl
@[simp] theorem State.core_setStream (i : Nat) (v : Stream) : (s.setStream i v).core c k = s.core c k := rfl
@[simp] theorem State.feeder_setStream (i : Nat) (v : Stream) : (s.setStream i v).feeder c f = s.feeder c f := rfl
@[simp] theorem State.feeder_tick (t : Nat) : (s.tick t).feeder c f = s.feeder c f := rfl
@[simp] theorem State.modCore_set (h : Core → Core) :
    s.modCore c k h = s.setCluster c ((s.cluster c).setCore k (h (s.core c k))) := rfl
@[simp] theorem State.modFeeder_set (h : Feeder → Feeder) :
    s.modFeeder c f h = s.setCluster c ((s.cluster c).setFeeder f (h (s.feeder c f))) := rfl

end

/-! ### Changes of every feeder -/

/-- A change of several feeders of a cluster, each once. -/
theorem State.feeder_each_modFeeder (h : Feeder → Feeder) {cl : Nat} {fs : List Nat} (hnodup : fs.Nodup) (s : State)
    (g : Nat) :
    (s.each fs fun s f => s.modFeeder cl f h).feeder cl g = if g ∈ fs then h (s.feeder cl g) else s.feeder cl g := by
  induction fs generalizing s with
  | nil => simp [State.each]
  | cons f fs ih =>
    obtain ⟨hf, hfs⟩ := List.nodup_cons.1 hnodup
    have hstep := ih hfs (s.modFeeder cl f h)
    simp only [State.each, List.foldl_cons] at hstep ⊢
    rw [hstep]
    rcases Decidable.em (g = f) with rfl | hne
    · simp [hf, State.feeder]
    · simp [hne, State.feeder]

/-- Such a change leaves every core and the switch map. -/
theorem State.core_each_modFeeder (h : Feeder → Feeder) (cl : Nat) (fs : List Nat) (s : State) (c k : Nat) :
    (s.each fs fun s f => s.modFeeder cl f h).core c k = s.core c k := by
  induction fs generalizing s with
  | nil => rfl
  | cons f fs ih =>
    have hstep := ih (s.modFeeder cl f h)
    simp only [State.each, List.foldl_cons] at hstep ⊢
    rw [hstep]
    rcases Decidable.em (c = cl) with rfl | hne
    · simp [State.core]
    · simp [hne]

end Sys2Proof.Machine
end

section
/-! Light: core credits and the switch's grants (R93, R98, R103, R104, R107, R146, R155, R193). -/

namespace Sys2Proof.Machine

/-! ### What a note of readiness leaves (R103, R167) -/

/-- A stream shows a firing TILE the same pool, SEQs, begun tiles and edges. -/
structure Stream.SameTiles (m m' : Stream) : Prop where
  pool : m'.pool = m.pool
  seq : m'.seq = m.seq
  tiles : m'.tiles = m.tiles
  consumers : m'.consumers = m.consumers

theorem Stream.SameTiles.rfl {m : Stream} : m.SameTiles m := ⟨Eq.refl _, Eq.refl _, Eq.refl _, Eq.refl _⟩

theorem Stream.SameTiles.trans {m x y : Stream} (a : m.SameTiles x) (b : x.SameTiles y) : m.SameTiles y :=
  ⟨b.pool.trans a.pool, b.seq.trans a.seq, b.tiles.trans a.tiles, b.consumers.trans a.consumers⟩

theorem Stream.endWait_sameTiles (now : Nat) (m : Stream) : m.SameTiles (m.endWait now) := by
  unfold Stream.endWait
  split <;> exact ⟨rfl, rfl, rfl, rfl⟩

theorem Stream.mark_sameTiles (now : Nat) (r : Ready) (os : List (Nat × UnitId × Nat)) (ps : List Nat) (m : Stream) :
    m.SameTiles (m.mark now r os ps) := by
  have hwait := m.endWait_sameTiles now
  cases r with
  | credit | handle => exact ⟨rfl, rfl, rfl, rfl⟩
  | fence | input | ready => exact ⟨hwait.pool, hwait.seq, hwait.tiles, hwait.consumers⟩

theorem Stream.endGuard_sameTiles (now : Nat) (m : Stream) : m.SameTiles (m.endGuard now) := by
  unfold Stream.endGuard
  split <;> exact ⟨rfl, rfl, rfl, rfl⟩

/-- Two states show firing TILEs the same cores, positions, streams and pools. -/
structure State.SameTiles (s s' : State) : Prop where
  cores : ∀ c k, s'.core c k = s.core c k
  phys : ∀ c p, (s'.cluster c).phys p = (s.cluster c).phys p
  streams : ∀ i, (s.stream i).SameTiles (s'.stream i)
  pools : s'.pools = s.pools

theorem State.SameTiles.rfl {s : State} : s.SameTiles s := ⟨fun _ _ => Eq.refl _, fun _ _ => Eq.refl _, fun _ => .rfl, Eq.refl _⟩

theorem State.SameTiles.trans {s x y : State} (a : s.SameTiles x) (b : x.SameTiles y) : s.SameTiles y :=
  ⟨fun c k => (b.cores c k).trans (a.cores c k), fun c p => (b.phys c p).trans (a.phys c p),
    fun i => (a.streams i).trans (b.streams i), b.pools.trans a.pools⟩

theorem State.SameTiles.each {α : Type} {s x : State} {xs : List α} {f : State → α → State}
    (h : ∀ t a, State.SameTiles t (f t a)) (g : s.SameTiles x) : s.SameTiles (x.each xs f) := by
  induction xs generalizing x with
  | nil => exact g
  | cons a xs ih => exact ih (g.trans (h x a))

theorem State.SameTiles.modStream {s x : State} {i : Nat} {f : Stream → Stream} (h : ∀ m, Stream.SameTiles m (f m))
    (g : s.SameTiles x) : s.SameTiles (x.modStream i f) := by
  refine g.trans ⟨fun _ _ => Eq.refl _, fun _ _ => Eq.refl _, fun j => ?_, Eq.refl _⟩
  rw [State.modStream_set, State.stream_setStream]
  split
  case isTrue hj => exact hj ▸ h _
  case isFalse => exact .rfl

theorem State.SameTiles.modCluster {s x : State} {cl : Nat} {h : Cluster → Cluster}
    (hcore : ∀ c k, (h c).core k = c.core k) (hphys : ∀ c p, (h c).phys p = c.phys p) (g : s.SameTiles x) :
    s.SameTiles (x.modCluster cl h) := by
  refine g.trans ⟨fun c k => ?_, fun c p => ?_, fun _ => .rfl, Eq.refl _⟩
  · rw [State.modCluster_set, State.core_setCluster]
    split
    case isTrue hc => rw [hcore, hc]; exact Eq.refl _
    case isFalse => exact Eq.refl _
  · rw [State.modCluster_set, State.cluster_setCluster]
    split
    case isTrue hc => rw [hphys, hc]
    case isFalse => exact Eq.refl _

theorem State.SameTiles.modFeeder {s x : State} {cl f : Nat} {h : Feeder → Feeder} (g : s.SameTiles x) :
    s.SameTiles (x.modFeeder cl f h) :=
  .modCluster (fun _ _ => Eq.refl _) (fun _ _ => Eq.refl _) g

/-- Only the counter of waits and its moment change as waits are counted (R104). -/
theorem Cluster.countWait_eq (now : Nat) (c : Cluster) :
    ∃ n e, c.countWait now = { c with switchWait := n, waitCounted := e } := by
  unfold Cluster.countWait
  dsimp only
  split
  · exact ⟨_, _, rfl⟩
  · exact ⟨c.switchWait, c.waitCounted, rfl⟩

theorem State.SameTiles.countWait {s x : State} {cl now : Nat} (g : s.SameTiles x) :
    s.SameTiles (x.modCluster cl (Cluster.countWait now)) := by
  refine .modCluster (fun c _ => ?_) (fun c _ => ?_) g
  all_goals
    obtain ⟨n, e, hcount⟩ := c.countWait_eq now
    rw [hcount]
    exact Eq.refl _

theorem State.markTiles_sameTiles (s : State) (ts : List (Nat × Half)) : s.SameTiles (s.markTiles ts) :=
  .each (fun _ _ => .modStream (fun m => m.mark_sameTiles _ _ _ _) .rfl) .rfl

theorem State.starve_sameTiles (s : State) (cl f : Nat) (p : Packet) : s.SameTiles (s.starve cl f p) := by
  have hguard : s.SameTiles (s.modStream p.stream (Stream.startGuard s.now)) :=
    .modStream (fun _ => ⟨rfl, rfl, rfl, rfl⟩) .rfl
  unfold State.starve
  dsimp only
  split
  · exact .modFeeder (.countWait hguard)
  · exact hguard

theorem State.noteReady_sameTiles (s : State) (cl f : Nat) : s.SameTiles (s.noteReady cl f) := by
  unfold State.noteReady
  split
  case h_1 p k _ _ =>
    dsimp only
    have hmark : s.SameTiles (if (s.cluster cl).allGrant f then s.markTiles (s.newTiles cl f) else s) := by
      split
      · exact s.markTiles_sameTiles _
      · exact .rfl
    generalize (if (s.cluster cl).allGrant f then s.markTiles (s.newTiles cl f) else s) = x at hmark ⊢
    have hguard : s.SameTiles (x.modStream p.stream (Stream.endGuard x.now)) :=
      .modStream (fun m => m.endGuard_sameTiles _) hmark
    split
    · split
      · exact hguard
      · exact hguard.modFeeder
    · exact hmark.trans (x.starve_sameTiles cl f p)
  case h_2 => exact .rfl

/-- A feeder's entry is all that entryFor may change. -/
theorem Cluster.entryFor_eq (f : Nat) (c : Cluster) : ∃ v, c.entryFor f = c ∨ c.entryFor f = c.setFeeder f v := by
  unfold Cluster.entryFor
  dsimp only
  split
  · split
    · exact ⟨c.feeder f, .inl rfl⟩
    · exact ⟨_, .inr rfl⟩
  · exact ⟨c.feeder f, .inl rfl⟩

/-- The state on which the switch decides: the readiness of all four packets noted, feeder f's entry set for its packet. -/
def State.noted (s : State) (cl f : Nat) : State :=
  (s.each (List.range 4) fun s g => s.noteReady cl g).modCluster cl (Cluster.entryFor f)

theorem State.noted_sameTiles (s : State) (cl f : Nat) : s.SameTiles (s.noted cl f) := by
  refine .modCluster (fun c _ => ?_) (fun c _ => ?_) (.each (fun t g => t.noteReady_sameTiles cl g) .rfl)
  all_goals
    obtain ⟨v, h | h⟩ := c.entryFor_eq f <;> rw [h]
    exact Eq.refl _

theorem State.noted_now (s : State) (cl f : Nat) : (s.noted cl f).now = s.now := by
  have hkeep : State.Keeps [.clusters, .streams] s (s.noted cl f) :=
    .into State.modCluster_keeps (by decide) (.each (fun _ _ => .into State.noteReady_keeps (by decide) .rfl) .rfl)
  exact hkeep .now (by decide)

/-! ### TILEs that fire (R146, R155) -/

/-- Before its core is changed, a TILE that fires leaves every cluster. -/
theorem State.fireTile_of_tile {s : State} {cl k : Nat} {r : TileRun} (h : (s.core cl k).tile = some r) :
    ∃ (x : State) (r' : TileRun), x.clusters = s.clusters ∧ s.fireTile cl k = x.modCore cl k fun c => { c with tile := some r' } := by
  unfold State.fireTile
  simp only [h]
  exact ⟨_, _, State.tileTaken_keeps .clusters (by decide), rfl⟩

theorem State.fireTile_of_none {s : State} {cl k : Nat} (h : (s.core cl k).tile = none) : s.fireTile cl k = s := by
  unfold State.fireTile
  simp only [h]

theorem State.fireTile_feeder (s : State) (cl k c g : Nat) : (s.fireTile cl k).feeder c g = s.feeder c g := by
  cases htile : (s.core cl k).tile with
  | none => rw [State.fireTile_of_none htile]
  | some r =>
    obtain ⟨x, r', hx, hfire⟩ := State.fireTile_of_tile htile
    rw [hfire, State.modCore_set, State.feeder_setCluster]
    split
    case isTrue hc => rw [Cluster.feeder_setCore, hc]; simp only [State.feeder, State.cluster, hx]
    case isFalse => simp only [State.feeder, State.cluster, hx]

theorem State.fireTile_core_ne (s : State) {cl k j : Nat} (hj : j ≠ k) : (s.fireTile cl k).core cl j = s.core cl j := by
  cases htile : (s.core cl k).tile with
  | none => rw [State.fireTile_of_none htile]
  | some r =>
    obtain ⟨x, r', hx, hfire⟩ := State.fireTile_of_tile htile
    rw [hfire, State.modCore_set, State.core_setCluster, if_pos rfl, Cluster.core_setCore, if_neg hj]
    simp only [State.core, State.cluster, hx]

/-- Core j has tile r prepared, with some handle and SEQ. -/
def State.HasTile (s : State) (cl j : Nat) (r : TileRun) : Prop :=
  ∃ h q, (s.core cl j).tile = some { r with handle := h, seq := q }

theorem State.HasTile.fireTile {s : State} {cl j : Nat} {r : TileRun} (h : s.HasTile cl j r) (k : Nat) :
    (s.fireTile cl k).HasTile cl j r := by
  rcases Decidable.em (j = k) with rfl | hne
  · obtain ⟨h, q, htile⟩ := h
    exact ⟨_, _, congrArg Core.tile (State.fireTile_core htile)⟩
  · simpa only [State.HasTile, State.fireTile_core_ne s hne] using h

theorem State.HasTile.each_fireTile {s : State} {cl j : Nat} {r : TileRun} (h : s.HasTile cl j r) (ks : List Nat) :
    (s.each ks fun s k => s.fireTile cl k).HasTile cl j r := by
  induction ks generalizing s with
  | nil => exact h
  | cons k ks ih => exact ih (h.fireTile k)

theorem State.feeder_each_fireTile (s : State) (cl : Nat) (ks : List Nat) (c g : Nat) :
    (s.each ks fun s k => s.fireTile cl k).feeder c g = s.feeder c g := by
  induction ks generalizing s with
  | nil => rfl
  | cons k ks ih => exact (ih (s.fireTile cl k)).trans (s.fireTile_feeder cl k c g)

theorem Pool.take_freeList (n i : Nat) (p : Pool) : (p.take n i).freeList = p.freeList.tail := by
  unfold Pool.take
  split
  case h_1 h => rw [h]; rfl
  case h_2 h => rw [h]; rfl

/-- A TILE whose tile no core has begun takes the handle offered next and a credit on every edge (R146, R155). -/
theorem State.fireTile_begins {s : State} {cl k : Nat} {r : TileRun} (htile : (s.core cl k).tile = some r)
    (hnew : (s.stream r.out).begunTile ((s.stream r.out).seqOf (.core cl r.pos)) = none) :
    ((s.fireTile cl k).pool (s.stream r.out).pool.toNat).freeList =
        (s.pool (s.stream r.out).pool.toNat).freeList.tail ∧
      ((s.fireTile cl k).stream r.out).consumers =
        (s.stream r.out).consumers.map fun c => { c with credits := c.credits - 1 } := by
  have hmark := (s.stream r.out).mark_sameTiles s.now .ready (s.owing [r.out]) []
  unfold State.fireTile
  simp only [htile, hnew]
  constructor
  · simp [State.markAll, State.each, State.takeHandle, hmark.pool, Pool.take_freeList]
  · simp [State.markAll, State.each, State.takeHandle, Stream.pruneTiles, Stream.setSeq, Stream.spend, hmark.consumers]

/-! ### The grant (R100, R103) -/

/-- Another feeder as the packet through cores ps is granted: its route through one of them is cleared. -/
def Feeder.yieldRoute (ps : List Nat) (x : Feeder) : Feeder :=
  match x.route with
  | some r => if r.any ps.contains then x.clearRoute else x
  | none => x

theorem Feeder.yieldRoute_eq (ps : List Nat) (x : Feeder) :
    x.yieldRoute ps = if x.route.any fun r => r.any ps.contains then x.clearRoute else x := by
  unfold Feeder.yieldRoute
  cases x.route <;> rfl

/-- The TILEs of the cores that header h names fire, the waits counted first (R104, R146). -/
def State.firing (n : State) (cl : Nat) (h : Dword) : State :=
  (n.modCluster cl (Cluster.countWait n.now)).each ((n.cluster cl).named h) fun s k => s.fireTile cl k

/-- The packet of feeder f is granted on state n. -/
def State.granted (n : State) (cl f : Nat) (p : Packet) : State :=
  let ps := (n.cluster cl).lights n.now f p.hdr
  ((n.firing cl p.hdr).modFeeder cl f fun k =>
      { k with packet := k.packet.map fun p => { p with phase := .granted, phys := ps } }).each
    ((List.range 4).filter (· ≠ f)) fun s g => s.modFeeder cl g (Feeder.yieldRoute ps)

/-- Feeder f's packet is first in line: of the others that could be granted none became ready in an earlier symbol, nor in
the same one with a lower index (R103). -/
def State.firstInLine (n : State) (cl f : Nat) : Bool :=
  let c := n.cluster cl
  (List.range 4).all fun g =>
    g = f || !n.grantable cl g || c.readySymbol f < c.readySymbol g || (c.readySymbol f = c.readySymbol g && f < g)

theorem effectSwitchGrant_refused {s : State} {cl f : Nat} (h : (s.noted cl f).grantable cl f = false) :
    effectSwitchGrant cl f s = s.noted cl f := by
  unfold State.noted at h
  simp only [effectSwitchGrant, h, Bool.false_and, Bool.false_eq_true, if_false, State.noted]

theorem effectSwitchGrant_granted {s : State} {cl f : Nat} {p : Packet} (h : (s.noted cl f).grantable cl f = true)
    (hfirst : (s.noted cl f).firstInLine cl f = true) (hp : ((s.noted cl f).feeder cl f).packet = some p) :
    effectSwitchGrant cl f s = (s.noted cl f).granted cl f p := by
  have hnoted : (s.each (List.range 4) fun s g => s.noteReady cl g).modCluster cl (Cluster.entryFor f) = s.noted cl f := rfl
  unfold effectSwitchGrant
  rw [hnoted]
  generalize s.noted cl f = n at h hfirst hp
  have hfirst : ((List.range 4).all fun g => g = f || !n.grantable cl g ||
    (n.cluster cl).readySymbol f < (n.cluster cl).readySymbol g ||
      ((n.cluster cl).readySymbol f = (n.cluster cl).readySymbol g && f < g)) = true := hfirst
  obtain ⟨w, e, hcount⟩ := (n.cluster cl).countWait_eq n.now
  have hcluster : (n.modCluster cl (Cluster.countWait n.now)).cluster cl =
      { n.cluster cl with switchWait := w, waitCounted := e } := by
    rw [State.modCluster_set, State.cluster_setCluster, if_pos rfl, hcount]
  have hhdr : (((n.modCluster cl (Cluster.countWait n.now)).feeder cl f).packet.map (·.hdr)).getD 0 = p.hdr := by
    unfold State.feeder at hp ⊢
    rw [hcluster]
    exact congrArg (fun x => (x.map Packet.hdr).getD 0) hp
  simp only [h, hfirst, Bool.and_self, if_true, hhdr, hcluster]
  rfl

theorem State.firing_feeder (n : State) (cl : Nat) (h : Dword) (g : Nat) : (n.firing cl h).feeder cl g = n.feeder cl g := by
  obtain ⟨w, e, hcount⟩ := (n.cluster cl).countWait_eq n.now
  unfold State.firing
  rw [State.feeder_each_fireTile, State.modCluster_set, hcount, State.feeder_setCluster, if_pos rfl]
  rfl

section

variable (n : State) (cl : Nat) {f : Nat} (p : Packet)

/-- The granted packet's own feeder: the packet holds its cores, the route stays. -/
theorem State.granted_feeder_self (hp : (n.feeder cl f).packet = some p) :
    (n.granted cl f p).feeder cl f =
      { n.feeder cl f with
        packet := some { p with phase := .granted, phys := (n.cluster cl).lights n.now f p.hdr } } := by
  unfold State.granted
  rw [State.feeder_each_modFeeder _ ((List.nodup_range).filter _), if_neg (by simp), State.modFeeder_set,
    State.feeder_setCluster, if_pos rfl, Cluster.feeder_setFeeder, if_pos rfl, State.firing_feeder, hp]
  rfl

theorem State.granted_feeder_ne {g : Nat} (hg : g < 4) (hne : g ≠ f) :
    (n.granted cl f p).feeder cl g = (n.feeder cl g).yieldRoute ((n.cluster cl).lights n.now f p.hdr) := by
  unfold State.granted
  rw [State.feeder_each_modFeeder _ ((List.nodup_range).filter _), if_pos (by simp [hg, hne]), State.modFeeder_set,
    State.feeder_setCluster, if_pos rfl, Cluster.feeder_setFeeder, if_neg hne]
  exact congrArg _ (n.firing_feeder cl p.hdr g)

theorem State.granted_core (k : Nat) : (n.granted cl f p).core cl k = (n.firing cl p.hdr).core cl k := by
  unfold State.granted
  rw [State.core_each_modFeeder, State.modFeeder_set, State.core_setCluster, if_pos rfl]
  rfl

/-- Behind the firing TILEs the grant changes clusters only. -/
theorem State.granted_keeps : State.Keeps [.clusters] (n.firing cl p.hdr) (n.granted cl f p) :=
  .each (fun _ _ => .into State.modFeeder_keeps (by decide) .rfl) (.into State.modFeeder_keeps (by decide) .rfl)

end

/-- A tile prepared before the switch decides has its handle and SEQ after the grant (R146). -/
theorem State.SameTiles.granted_tile {s n : State} (h : s.SameTiles n) (cl f : Nat) (p : Packet) {k : Nat} {r : TileRun}
    (htile : (s.core cl k).tile = some r) : (n.granted cl f p).HasTile cl k r := by
  have hcount : s.SameTiles (n.modCluster cl (Cluster.countWait n.now)) := h.countWait
  have hbefore : (n.modCluster cl (Cluster.countWait n.now)).HasTile cl k r :=
    ⟨r.handle, r.seq, by rw [hcount.cores, htile]⟩
  simp only [State.HasTile, State.granted_core]
  exact hbefore.each_fireTile ((n.cluster cl).named p.hdr)

/-- A packet with one named core whose tile no other core has begun: its next SEQ, the handle offered first, which the pool
has given, and a credit from every edge (R146, R155). -/
theorem State.SameTiles.granted_begins {s n : State} (h : s.SameTiles n) {cl f k hd : Nat} {p : Packet} {r : TileRun}
    (hnamed : (s.cluster cl).named p.hdr = [k]) (htile : (s.core cl k).tile = some r)
    (hnew : (s.stream r.out).begunTile ((s.stream r.out).seqOf (.core cl r.pos)) = none)
    (hhandle : s.nextHandle r.out = some hd) :
    ((n.granted cl f p).core cl k).tile =
        some { r with handle := hd, seq := (s.stream r.out).seqOf (.core cl r.pos) } ∧
      ((n.granted cl f p).pool (s.stream r.out).pool.toNat).freeList =
        (s.pool (s.stream r.out).pool.toNat).freeList.tail ∧
      ((n.granted cl f p).stream r.out).consumers =
        (s.stream r.out).consumers.map fun c => { c with credits := c.credits - 1 } := by
  have hx : s.SameTiles (n.modCluster cl (Cluster.countWait n.now)) := h.countWait
  have hfiring : n.firing cl p.hdr = (n.modCluster cl (Cluster.countWait n.now)).fireTile cl k := by
    have hnamed : (n.cluster cl).named p.hdr = [k] := by
      rw [← hnamed]
      exact List.map_congr_left fun q _ => h.phys cl q
    unfold State.firing
    rw [hnamed]
    rfl
  generalize n.modCluster cl (Cluster.countWait n.now) = x at hx hfiring
  have hm := hx.streams r.out
  have hseq : (x.stream r.out).seqOf (.core cl r.pos) = (s.stream r.out).seqOf (.core cl r.pos) := by
    simp only [Stream.seqOf, hm.seq]
  have hnew : (x.stream r.out).begunTile ((x.stream r.out).seqOf (.core cl r.pos)) = none := by
    rw [hseq, ← hnew]
    simp only [Stream.begunTile, hm.tiles]
  have hpool (i : Nat) : x.pool i = s.pool i := by simp only [State.pool, hx.pools]
  have hhandle : x.nextHandle r.out = some hd := by
    rw [← hhandle]
    simp only [State.nextHandle, hm.pool, hpool]
  have htile : (x.core cl k).tile = some r := by rw [hx.cores, htile]
  obtain ⟨hfree, hcredits⟩ := State.fireTile_begins htile hnew
  have hkeep := n.granted_keeps cl (f := f) p
  refine ⟨?_, ?_, ?_⟩
  · rw [State.granted_core, hfiring, State.fireTile_core htile, hnew, hhandle, hseq]
    rfl
  · rw [State.pool, hkeep .pools (by decide), hfiring, ← hm.pool, ← hpool]
    exact hfree
  · rw [State.stream, hkeep .streams (by decide), hfiring, ← hm.consumers]
    exact hcredits

/-- Settles O27: the core's condition is its grant's guard; the switch decides on the noted state, which shows the firing
TILEs what the state before it showed. -/
theorem packetsAreGrantedCores : Obligations.PacketsAreGrantedCores := by
  intro s t cl f pos hcl hf hpos k c n cluster
  have hcore : exec (.coreCreditGrant t cl pos) s = .next (effectCoreCreditGrant cl pos (s.tick t)) :=
    if_pos (by simp [hcl, hpos])
  have hswitch : exec (.switchGrant t cl f) s = .next (effectSwitchGrant cl f (s.tick t)) := if_pos (by simp [hcl, hf])
  have hn : (s.tick t).SameTiles n := (s.tick t).noted_sameTiles cl f
  have hnow : n.now = max s.now t := (s.tick t).noted_now cl f
  refine ⟨fun r htile hgrant hover hat hlight hactive hst hready hrestart hworks => ?grants, fun htile => ?idle,
    fun p hgrantable hp hfirst => ?granted, fun hno => ?refused⟩
  case grants =>
    have hmay : (c.grant.isNone && cluster.tileOver k && r.pos = pos && r.noLight.isNone && c.activeFrom r.slot
        && c.st = .inService && c.ready ≤ (s.tick t).now && cluster.restart.isNone && cluster.works) = true := by
      simp [hgrant, cluster, hover, hat, hlight, hactive, hst, hready, hrestart, hworks]
    have htile : (s.core cl ((s.cluster cl).phys pos)).tile = some r := htile
    rw [hcore]
    unfold effectCoreCreditGrant
    simp only [State.cluster_tick, State.core_tick, htile]
    exact congrArg _ (if_pos hmay)
  case idle =>
    have htile : (s.core cl ((s.cluster cl).phys pos)).tile = none := htile
    rw [hcore]
    unfold effectCoreCreditGrant
    simp only [State.cluster_tick, State.core_tick, htile]
  case granted =>
    have hline : n.firstInLine cl f = true := by
      simp only [State.firstInLine, List.all_eq_true, List.mem_range, Bool.or_eq_true, Bool.and_eq_true, Bool.not_eq_true',
        decide_eq_true_eq]
      intro g hg
      rcases Decidable.em (g = f) with heq | hne
      · simp [heq]
      · cases hcan : n.grantable cl g with
        | false => simp
        | true =>
          rcases hfirst g hg hne hcan with hlt | heq
          · simp [hlt]
          · simp [heq]
    refine ⟨n.granted cl f p, ?_, ?_⟩
    · rw [hswitch]
      exact congrArg _ (effectSwitchGrant_granted hgrantable hline hp)
    · dsimp only
      rw [← hnow]
      refine ⟨?_, ?_, fun g hg hne => ?_, fun j _ r htile => ?_, fun j r h hnamed htile hnew hhandle => ?_⟩
      · rw [n.granted_feeder_self cl p hp]
      · rw [n.granted_feeder_self cl p hp]
      · rw [n.granted_feeder_ne cl p hg hne, Feeder.yieldRoute_eq]
      · exact hn.granted_tile cl f p htile
      · exact hn.granted_begins hnamed htile hnew hhandle
  case refused =>
    rw [hswitch]
    exact congrArg _ (effectSwitchGrant_refused hno)

end Sys2Proof.Machine
end

section
/-! The row ADC's deviations (R37, R52, R63 to R70; log entry 9): rounding alone stays inside every figure, so that a row's
run of 2^20 windows keeps within its bound. -/

namespace Sys2Proof.Machine

/-! ### Rounding -/

/-- Rounding to nearest misses by at most half a unit. -/
theorem two_mul_roundEvenNat_sub_le (n d : Nat) (hd : 0 < d) :
    2 * (roundEvenNat n d * d) ≤ 2 * n + d ∧ 2 * n ≤ 2 * (roundEvenNat n d * d) + d := by
  have hsplit : n / d * d + n % d = n := Nat.div_add_mod' n d
  have hrest : n % d < d := Nat.mod_lt _ hd
  have hup : (n / d + 1) * d = n / d * d + d := Nat.succ_mul ..
  unfold roundEvenNat
  dsimp only
  split
  · omega
  · split
    · rw [hup]; omega
    · split
      · omega
      · rw [hup]; omega

theorem two_mul_roundEven_sub_le (n : Int) (d : Nat) (hd : 0 < d) : 2 * (roundEven n d * d - n).natAbs ≤ d := by
  obtain ⟨hlo, hhi⟩ := two_mul_roundEvenNat_sub_le n.natAbs d hd
  unfold roundEven
  generalize hq : roundEvenNat n.natAbs d * d = q at hlo hhi
  have hq : (roundEvenNat n.natAbs d : Int) * d = q := by rw [← hq]; push_cast; rfl
  split
  · rw [neg_mul, hq]; omega
  · rw [hq]; omega

/-! ### Figures and gains -/

/-- A word is below a positive number where it is negative or of smaller magnitude. -/
theorem fpLt_pos_right {a b : Word} (ha : fpIsNaN a = false) (hb : fpIsNaN b = false) (hz : fpIsZero b = false)
    (hp : fpNeg b = false) : fpLt a b = (fpNeg a || decide (fpMag a < fpMag b)) := by
  unfold fpLt
  cases hneg : fpNeg a <;> simp [ha, hb, hz, hp]

theorem fpLt_pos_left {a b : Word} (ha : fpIsNaN a = false) (hb : fpIsNaN b = false) (hz : fpIsZero b = false)
    (hp : fpNeg b = false) : fpLt b a = (!fpNeg a && decide (fpMag b < fpMag a)) := by
  unfold fpLt
  cases hneg : fpNeg a <;> simp [ha, hb, hz, hp]

/-- A gain in range is a number from 0.5 to 2.0 (R37). -/
theorem fpMag_of_calInRange {cal : Word × Word} (h : calInRange cal = true) :
    0x3F000000 ≤ fpMag cal.1 ∧ fpMag cal.1 ≤ 0x40000000 := by
  simp only [calInRange, Bool.and_eq_true, Bool.not_eq_true'] at h
  obtain ⟨⟨⟨hlow, hhigh⟩, hnan⟩, -⟩ := h
  rw [fpLt_pos_right hnan (by decide) (by decide) (by decide), Bool.or_eq_false_iff, decide_eq_false_iff_not] at hlow
  obtain ⟨hpos, hge⟩ := hlow
  rw [fpLt_pos_left hnan (by decide) (by decide) (by decide), hpos, Bool.not_false, Bool.true_and,
    decide_eq_false_iff_not] at hhigh
  exact ⟨not_lt.1 hge, not_lt.1 hhigh⟩

/-- A number below 2^23 with exponent field x as a fraction. -/
theorem fpVal_rat {w : Word} {x : Nat} (hexp : fpMag w / 2 ^ 23 = x) (hpos : 0 < x) (hx : x < 150) :
    (fpVal w).rat = (fpMag w % 2 ^ 23 + 2 ^ 23, 2 ^ (150 - x)) := by
  have he : (fpVal w).e = (x : Int) - 150 := by simp only [fpVal, hexp, if_neg (Nat.ne_of_gt hpos)]
  have hm : (fpVal w).m.natAbs = fpMag w % 2 ^ 23 + 2 ^ 23 := by
    simp only [fpVal, hexp, if_neg (Nat.ne_of_gt hpos)]
    split <;> omega
  have hshift : (-((x : Int) - 150)).toNat = 150 - x := by omega
  rw [Dyadic.rat, if_neg (by omega), hm, he, hshift]

theorem gainRat_le {cal : Word × Word} (h : calInRange cal = true) : (gainRat cal).1 ≤ 2 * (gainRat cal).2 := by
  obtain ⟨hge, hle⟩ := fpMag_of_calInRange h
  rw [gainRat, if_pos h]
  have hexp : fpMag cal.1 / 2 ^ 23 = 126 ∨ fpMag cal.1 / 2 ^ 23 = 127 ∨ fpMag cal.1 / 2 ^ 23 = 128 := by omega
  rcases hexp with hx | hx | hx <;> rw [fpVal_rat hx (by decide) (by decide)] <;> dsimp only <;> omega

theorem ebRunning_le (w : Nat) : ebRunning w ≤ 78 := by
  unfold ebRunning
  rcases Nat.lt_or_ge w 7 with hw | hw
  · interval_cases w <;> decide
  · rw [List.getD_eq_default _ _ hw]; omega

theorem ebPaused_le (w : Nat) : ebPaused w ≤ 80 := by
  have := ebRunning_le w
  unfold ebPaused
  split
  · omega
  · split
    · omega
    · split <;> omega

/-- No figure exceeds 8.0 bits (R68). -/
theorem ebFigure_le (paused : Bool) (w fan : Nat) : ebFigure paused w fan ≤ 80 := by
  have hrun := ebRunning_le w
  have hpause := ebPaused_le w
  unfold ebFigure
  split <;> omega

theorem Cluster.rowFigure_le {c : Cluster} {k : Core} {taster flagged : Bool} {w fan a e x : Nat}
    (h : c.rowFigure k taster flagged w fan a e = some x) : x ≤ 80 := by
  have hfig := ebFigure_le (c.pausedFor a e) w fan
  unfold Cluster.rowFigure at h
  split at h
  · exact nomatch h
  · split at h
    · unfold ebFactory at h
      split at h
      · cases h; omega
      · exact nomatch h
    · cases h; exact hfig

theorem ebWeight_le {x : Nat} (h : x ≤ 80) : ebWeight x ≤ roundWeight := by
  have hall : ∀ x ∈ List.range 81, ebWeight x ≤ roundWeight := by decide
  exact hall x (List.mem_range.2 (by omega))

/-! ### Weights -/

theorem errWeight_le {e : Nat × Nat} {x : Nat} (h : e.1 ≤ e.2) : errWeight e x ≤ ebWeight x := by
  unfold errWeight
  rcases Nat.eq_zero_or_pos (e.2 * e.2) with hz | hpos
  · rw [hz, Nat.div_zero]; exact Nat.zero_le _
  · have hsq : e.1 * e.1 * ebWeight x ≤ e.2 * e.2 * ebWeight x := Nat.mul_le_mul_right _ (Nat.mul_le_mul h h)
    rw [Nat.mul_comm (e.2 * e.2)] at hsq
    refine Nat.le_of_lt_succ ((Nat.div_lt_iff_lt_mul hpos).2 ?_)
    rw [Nat.succ_mul]
    omega

/-- An ADC code that is not clipped and that no deviation moved is the rounded ideal code (R52). -/
theorem adcCode_eq {sum q : Int} {full : Nat} {x : Int × Nat} (h : adcCode sum full x 0 = q) (hclip : q ≠ 511 ∧ q ≠ -511) :
    q = roundEven x.1 x.2 := by
  unfold adcCode clampInt at h
  split at h
  · omega
  · split at h <;> omega

/-- Rounding alone weighs no more than a window may always weigh (R52, R63). -/
theorem errWeight_round_le {x : Int × Nat} {cal : Word × Word} {b : Nat} (hcal : calInRange cal = true) (hb : b ≤ 80) :
    errWeight (codeError (roundEven x.1 x.2) x (gainRat cal)) b ≤ roundWeight := by
  refine le_trans ?_ (ebWeight_le hb)
  rcases Nat.eq_zero_or_pos x.2 with hz | hpos
  · simp [errWeight, codeError, hz]
  · refine errWeight_le ?_
    have hround := two_mul_roundEven_sub_le x.1 x.2 hpos
    calc (roundEven x.1 x.2 * x.2 - x.1).natAbs * (gainRat cal).1
      _ ≤ (roundEven x.1 x.2 * x.2 - x.1).natAbs * (2 * (gainRat cal).2) := Nat.mul_le_mul_left _ (gainRat_le hcal)
      _ = 2 * (roundEven x.1 x.2 * x.2 - x.1).natAbs * (gainRat cal).2 := by ring
      _ ≤ x.2 * (gainRat cal).2 := Nat.mul_le_mul_right _ hround

/-- A sampled code that weighs w leaves room in its run, or weighs no more than rounding may. -/
theorem sampleRow_weight {cal : Word × Word} {r : TileRun} {h : Dword} {codes : List Int} {block : List Byte} {k w : Nat}
    {run : Nat × Nat} {d : Int} (hfig : ∀ b, r.eb = some b → b ≤ 80) (hw : (sampleRow cal r h codes block k run d).2 = some w)
    (hclip : (sampleRow cal r h codes block k run d).1 ≠ 511 ∧ (sampleRow cal r h codes block k run d).1 ≠ -511) :
    runOk (run.1 + 1, run.2 + w) = true ∨ w ≤ roundWeight := by
  unfold sampleRow at hw hclip
  dsimp only at hw hclip
  split at hw
  case h_1 => exact nomatch hw
  case h_2 b hb =>
    obtain ⟨hcal, heb⟩ : calInRange cal = true ∧ r.eb = some b := by
      split at hb
      case isTrue hcal => exact ⟨hcal, hb⟩
      case isFalse => exact nomatch hb
    simp only [hb] at hclip
    obtain rfl := Option.some.inj hw
    by_cases hmay : mayDeviate run (errWeight (codeError (adcCode (rowProduct codes block k)
        (fullScale (hdrWidth h) r.range.toNat) (rowCode (rowProduct codes block k) (hdrWidth h) r.range.toNat cal) d)
        (rowCode (rowProduct codes block k) (hdrWidth h) r.range.toNat cal) (gainRat cal)) b) = true
    · rw [if_pos hmay]
      exact .inl hmay
    · rw [if_neg hmay] at hclip ⊢
      rw [adcCode_eq rfl hclip]
      exact .inr (errWeight_round_le hcal (hfig b heb))

/-- A run that leaves room for rounding still does after a sample. -/
theorem runOk_spendWeight {run : Nat × Nat} {clip : Bool} {w : Nat} (h : runOk run = true)
    (hw : clip = false → runOk (run.1 + 1, run.2 + w) = true ∨ w ≤ roundWeight) : runOk (spendWeight run clip w) = true := by
  unfold spendWeight
  split
  case isTrue => exact h
  case isFalse hclip =>
    split
    case isFalse => decide
    case isTrue hmore =>
      rcases hw (by simpa using hclip) with hroom | hround
      · exact hroom
      · simp only [runOk, decide_eq_true_eq] at h ⊢
        have hleft : sigmaWindows - run.1 = sigmaWindows - (run.1 + 1) + 1 := by omega
        rw [hleft, Nat.succ_mul] at h
        omega

end Sys2Proof.Machine
end

section
/-! A window of light: the rows of every lit core, the swaps behind it, the packet's next window (R44, R53, R57, R63, R87,
R126, R131, R192). -/

namespace Sys2Proof.Machine

/-! ### Records of a part that is kept -/

section

variable {L : List Part} {s x : State}

theorem State.Keeps.cluster_eq (h : State.Keeps L s x) (hL : Part.clusters ∉ L) (c : Nat) : x.cluster c = s.cluster c :=
  congrArg (Tab.get ({} : Cluster) · c) (h .clusters hL)

theorem State.Keeps.core_eq (h : State.Keeps L s x) (hL : Part.clusters ∉ L) (c k : Nat) : x.core c k = s.core c k :=
  congrArg (Cluster.core · k) (h.cluster_eq hL c)

theorem State.Keeps.feeder_eq (h : State.Keeps L s x) (hL : Part.clusters ∉ L) (c f : Nat) :
    x.feeder c f = s.feeder c f :=
  congrArg (Cluster.feeder · f) (h.cluster_eq hL c)

theorem State.Keeps.stream_eq (h : State.Keeps L s x) (hL : Part.streams ∉ L) (i : Nat) : x.stream i = s.stream i :=
  congrArg (Tab.get ({} : Stream) · i) (h .streams hL)

end

/-! ### Rows (R52, R53, R57) -/

/-- Every run of a core's deviations leaves room for what rounding may still bring. -/
def RunsOk (noise : Tab (Nat × Nat)) : Prop := ∀ e, runOk (Tab.get (0, 0) noise e) = true

theorem RowsOut.row_runsOk {b : CalBase} {c : Core} {r : TileRun} {h : Dword} {v : VecOut} {a : RowsOut}
    (hfig : ∀ x, r.eb = some x → x ≤ 80) (ha : RunsOk a.noise) (k : Nat) : RunsOk (RowsOut.row b c r h v a k).noise := by
  intro e
  unfold RowsOut.row
  dsimp only
  rw [Tab.get_put]
  split
  · split
    case h_1 w hw =>
      refine runOk_spendWeight (ha _) fun hclip => sampleRow_weight hfig hw ?_
      simpa using hclip
    case h_2 => exact ha _
  · exact ha e

theorem RowsOut.row_length (b : CalBase) (c : Core) (r : TileRun) (h : Dword) (v : VecOut) (a : RowsOut) (k : Nat) :
    (RowsOut.row b c r h v a k).res.length = a.res.length + 1 := by
  simp [RowsOut.row]

theorem RowsOut.row_st (b : CalBase) (c : Core) (r : TileRun) (h : Dword) (v : VecOut) (a : RowsOut) (k : Nat) :
    (RowsOut.row b c r h v a k).st = a.st.draw := rfl

/-- The rows of a core in a window: one result each, runs that leave room, nothing but free values drawn. -/
theorem RowsOut.rows (b : CalBase) (c : Core) (r : TileRun) (h : Dword) (v : VecOut) (hfig : ∀ x, r.eb = some x → x ≤ 80)
    (ks : List Nat) (a : RowsOut) :
    (ks.foldl (RowsOut.row b c r h v) a).res.length = a.res.length + ks.length ∧
      (RunsOk a.noise → RunsOk (ks.foldl (RowsOut.row b c r h v) a).noise) ∧
      State.Keeps [.free] a.st (ks.foldl (RowsOut.row b c r h v) a).st := by
  induction ks generalizing a with
  | nil => exact ⟨rfl, id, .rfl⟩
  | cons k ks ih =>
    obtain ⟨hlen, hruns, hkeep⟩ := ih (RowsOut.row b c r h v a k)
    refine ⟨?_, fun ha => hruns (RowsOut.row_runsOk hfig ha k), ?_⟩
    · rw [List.foldl_cons, hlen, RowsOut.row_length, List.length_cons]
      omega
    · exact State.Keeps.into hkeep (List.Subset.refl _) (.into State.draw_keeps (List.Subset.refl _) .rfl)

/-! ### A window on one core (R53, R99, R192, R194) -/

/-- What a window of packet p leaves of a core: its running tile has one result per row of ROW_MASK where its COUNT is not
used up, its runs leave room, everything else is as it was. -/
structure Core.Sampled (p : Packet) (c c' : Core) : Prop where
  same : ∃ run noise, c' = { c with run := run, noise := noise }
  runs : RunsOk c.noise → RunsOk c'.noise
  tile : ∀ r, c.run = some r → ∃ ys codes b b' x x', ys.length = (bitsOf r.rowMask).length ∧
    c'.run = some { r with
      res := if p.win < r.count then r.res ++ ys else r.res
      codes := r.codes ++ codes, unsettled := b, suspect := b', eb := x, ebIn := x' }

theorem State.tileWindow_eb_le {s : State} {cl : Nat} {c : Core} {p : Packet} {a e : Nat} {r : TileRun} {x : Nat}
    (h : (s.tileWindow cl c p a e r).eb = some x) : x ≤ 80 :=
  Cluster.rowFigure_le h

/-- What a window on core k leaves of the state, but for streams' counters and free values. -/
theorem State.coreWindow_of_run {s : State} {cl k : Nat} {r : TileRun} (p : Packet) (v : VecOut)
    (h : (s.core cl k).run = some r) :
    ∃ (x : State) (run : TileRun) (noise : Tab (Nat × Nat)) (f : Stream → Stream),
      State.Keeps [.free] s x ∧ (∀ m, (f m).qnt = m.qnt) ∧
      s.coreWindow cl p v k =
        (x.modCore cl k fun c => { c with run := some run, noise := noise }).modStream r.out f ∧
      Core.Sampled p (s.core cl k) { s.core cl k with run := some run, noise := noise } := by
  obtain ⟨hlen, hruns, hkeep⟩ := RowsOut.rows (s.calBase cl k) (s.core cl k)
    (s.tileWindow cl (s.core cl k) p (p.winEnd - packetWindow p.hdr) p.winEnd r) p.hdr v
    (fun _ => State.tileWindow_eb_le)
    (bitsOf (s.tileWindow cl (s.core cl k) p (p.winEnd - packetWindow p.hdr) p.winEnd r).rowMask)
    { st := s, noise := (s.core cl k).noise }
  unfold State.coreWindow
  simp only [h]
  refine ⟨_, _, _, _, hkeep, ?_, rfl, ⟨⟨_, _, rfl⟩, hruns, fun r' hr' => ?_⟩⟩
  · exact fun _ => rfl
  · obtain rfl : r = r' := Option.some.inj (h.symm.trans hr')
    exact ⟨_, _, _, _, _, _, hlen.trans (Nat.zero_add _), rfl⟩

theorem State.coreWindow_of_none {s : State} {cl k : Nat} (p : Packet) (v : VecOut) (h : (s.core cl k).run = none) :
    s.coreWindow cl p v k = s := by
  unfold State.coreWindow
  simp only [h]

section

variable (s : State) (cl : Nat) (p : Packet) (v : VecOut) (k : Nat)

/-- A window on core k samples it. -/
theorem State.coreWindow_core_self : Core.Sampled p (s.core cl k) ((s.coreWindow cl p v k).core cl k) := by
  cases hrun : (s.core cl k).run with
  | none =>
    rw [State.coreWindow_of_none p v hrun]
    exact ⟨⟨_, _, rfl⟩, id, fun r hr => nomatch hrun.symm.trans hr⟩
  | some r =>
    obtain ⟨x, run, noise, f, hkeep, -, hwin, hsampled⟩ := State.coreWindow_of_run p v hrun
    rw [hwin, State.modStream_set, State.core_setStream, State.core_modCore, hkeep.core_eq (by decide)]
    exact hsampled

theorem State.coreWindow_core_ne {j : Nat} (hj : j ≠ k) : (s.coreWindow cl p v k).core cl j = s.core cl j := by
  cases hrun : (s.core cl k).run with
  | none => rw [State.coreWindow_of_none p v hrun]
  | some r =>
    obtain ⟨x, run, noise, f, hkeep, -, hwin, -⟩ := State.coreWindow_of_run p v hrun
    rw [hwin, State.modStream_set, State.core_setStream, State.modCore_set, State.core_setCluster, if_pos rfl,
      Cluster.core_setCore, if_neg hj]
    exact hkeep.core_eq (by decide) cl j

theorem State.coreWindow_feeder (g : Nat) : (s.coreWindow cl p v k).feeder cl g = s.feeder cl g := by
  cases hrun : (s.core cl k).run with
  | none => rw [State.coreWindow_of_none p v hrun]
  | some r =>
    obtain ⟨x, run, noise, f, hkeep, -, hwin, -⟩ := State.coreWindow_of_run p v hrun
    rw [hwin, State.modStream_set, State.feeder_setStream, State.modCore_set, State.feeder_setCluster, if_pos rfl,
      Cluster.feeder_setCore]
    exact hkeep.feeder_eq (by decide) cl g

theorem State.coreWindow_qnt (i : Nat) : ((s.coreWindow cl p v k).stream i).qnt = (s.stream i).qnt := by
  cases hrun : (s.core cl k).run with
  | none => rw [State.coreWindow_of_none p v hrun]
  | some r =>
    obtain ⟨x, run, noise, f, hkeep, hf, hwin, -⟩ := State.coreWindow_of_run p v hrun
    rw [hwin, State.modStream_set, State.stream_setStream]
    split
    case isTrue hi => rw [hf, hi]; exact congrArg Stream.qnt (hkeep.stream_eq (by decide) r.out)
    case isFalse => exact congrArg Stream.qnt (hkeep.stream_eq (by decide) i)

end

/-! ### A window on every lit core -/

section

variable (cl : Nat) (p : Packet) (v : VecOut)

theorem State.each_coreWindow_core_of_notMem {ks : List Nat} (s : State) {j : Nat} (hj : j ∉ ks) :
    (s.each ks fun s k => s.coreWindow cl p v k).core cl j = s.core cl j := by
  induction ks generalizing s with
  | nil => rfl
  | cons k ks ih =>
    obtain ⟨hne, hrest⟩ := not_or.1 (List.mem_cons.not.1 hj)
    exact (ih _ hrest).trans (s.coreWindow_core_ne cl p v k hne)

/-- Of the cores that a window samples, each once, every one is sampled as it stood before. -/
theorem State.each_coreWindow_core {ks : List Nat} (hnodup : ks.Nodup) (s : State) {k : Nat} (hk : k ∈ ks) :
    Core.Sampled p (s.core cl k) ((s.each ks fun s k => s.coreWindow cl p v k).core cl k) := by
  induction ks generalizing s with
  | nil => exact absurd hk List.not_mem_nil
  | cons a ks ih =>
    obtain ⟨ha, hks⟩ := List.nodup_cons.1 hnodup
    rcases List.mem_cons.1 hk with rfl | hmem
    · have hlast : ((s.each (k :: ks) fun s k => s.coreWindow cl p v k).core cl k) = (s.coreWindow cl p v k).core cl k :=
        State.each_coreWindow_core_of_notMem cl p v _ ha
      rw [hlast]
      exact s.coreWindow_core_self cl p v k
    · have hne : k ≠ a := fun h => ha (h ▸ hmem)
      rw [← s.coreWindow_core_ne cl p v a hne]
      exact ih hks _ hmem

theorem State.each_coreWindow_qnt (ks : List Nat) (s : State) (i : Nat) :
    ((s.each ks fun s k => s.coreWindow cl p v k).stream i).qnt = (s.stream i).qnt := by
  induction ks generalizing s with
  | nil => rfl
  | cons k ks ih => exact (ih _).trans (s.coreWindow_qnt cl p v k i)

theorem State.each_coreWindow_shadow (ks : List Nat) (s : State) (j : Nat) :
    ((s.each ks fun s k => s.coreWindow cl p v k).core cl j).shadow = (s.core cl j).shadow := by
  induction ks generalizing s with
  | nil => rfl
  | cons k ks ih =>
    refine (ih _).trans ?_
    rcases Decidable.em (j = k) with rfl | hne
    · obtain ⟨run, noise, h⟩ := (s.coreWindow_core_self cl p v j).same
      rw [h]
    · rw [s.coreWindow_core_ne cl p v k hne]

end

/-! ### The swaps of settled refresh copies (R44) -/

section

variable (b : CalBase) (e : Nat) (c : Core)

theorem Core.refreshSwap_run : (c.refreshSwap b e).run = c.run := by
  unfold Core.refreshSwap
  split
  · dsimp only
    split <;> rfl
  · rfl

theorem Core.refreshSwap_noise : (c.refreshSwap b e).noise = c.noise := by
  unfold Core.refreshSwap
  split
  · dsimp only
    split <;> rfl
  · rfl

/-- A core that swaps does so for 1 ns. -/
theorem Core.refreshSwap_swapUntil : (c.refreshSwap b e).swapUntil = if c.shadow.isSome then e + 1 * Config.ns else c.swapUntil := by
  unfold Core.refreshSwap
  split
  case h_1 h => dsimp only; rw [h]; split <;> rfl
  case h_2 h => rw [h]; rfl

theorem Core.shadow_of_refreshDone {c : Core} {e : Nat} (h : c.refreshDone e = true) : c.shadow.isSome = true := by
  unfold Core.refreshDone at h
  split at h
  case h_1 hs => rw [hs]; rfl
  case h_2 => exact nomatch h

end

/-- Settled refresh copies of the listed cores swap in at moment e. -/
def State.swapIn (s : State) (cl e : Nat) (ks : List Nat) : State :=
  s.each ks fun s k => s.modCore cl k (Core.refreshSwap (s.calBase cl k) e)

section

variable (cl e : Nat)

theorem State.swapIn_cons (s : State) (k : Nat) (ks : List Nat) :
    s.swapIn cl e (k :: ks) = (s.modCore cl k (Core.refreshSwap (s.calBase cl k) e)).swapIn cl e ks := rfl

theorem State.swapIn_run (ks : List Nat) (s : State) (j : Nat) : ((s.swapIn cl e ks).core cl j).run = (s.core cl j).run := by
  induction ks generalizing s with
  | nil => rfl
  | cons k ks ih =>
    rw [State.swapIn_cons, ih, State.modCore_set, State.core_setCluster, if_pos rfl, Cluster.core_setCore]
    split
    case isTrue h => rw [Core.refreshSwap_run, h]
    case isFalse => rfl

theorem State.swapIn_noise (ks : List Nat) (s : State) (j : Nat) :
    ((s.swapIn cl e ks).core cl j).noise = (s.core cl j).noise := by
  induction ks generalizing s with
  | nil => rfl
  | cons k ks ih =>
    rw [State.swapIn_cons, ih, State.modCore_set, State.core_setCluster, if_pos rfl, Cluster.core_setCore]
    split
    case isTrue h => rw [Core.refreshSwap_noise, h]
    case isFalse => rfl

/-- A core that has swapped stays at the end of that swap. -/
theorem State.swapIn_swapUntil_stays (ks : List Nat) (s : State) (j : Nat)
    (h : (s.core cl j).swapUntil = e + 1 * Config.ns) :
    ((s.swapIn cl e ks).core cl j).swapUntil = e + 1 * Config.ns := by
  induction ks generalizing s with
  | nil => exact h
  | cons k ks ih =>
    rw [State.swapIn_cons]
    refine ih _ ?_
    rw [State.modCore_set, State.core_setCluster, if_pos rfl, Cluster.core_setCore]
    split
    case isTrue hj => rw [Core.refreshSwap_swapUntil, ← hj, h, ite_self]
    case isFalse => exact h

theorem State.swapIn_swapUntil {ks : List Nat} (s : State) {j : Nat} (hj : j ∈ ks)
    (h : (s.core cl j).shadow.isSome = true) : ((s.swapIn cl e ks).core cl j).swapUntil = e + 1 * Config.ns := by
  induction ks generalizing s with
  | nil => exact absurd hj List.not_mem_nil
  | cons k ks ih =>
    rw [State.swapIn_cons]
    rcases Decidable.em (j = k) with rfl | hne
    · refine State.swapIn_swapUntil_stays cl e ks _ j ?_
      rw [State.core_modCore, Core.refreshSwap_swapUntil, if_pos h]
    · refine ih _ ((List.mem_cons.1 hj).resolve_left hne) ?_
      rw [State.modCore_set, State.core_setCluster, if_pos rfl, Cluster.core_setCore, if_neg hne]
      exact h

end

/-! ### WINDOW_END -/

/-- The vector that packet p lights in its running window, converted by its header (R126). -/
def State.vector (s : State) (p : Packet) : VecOut :=
  convert p.hdr (if p.measured then none else some p.exp)
    (halvesOf (s.readBuf (s.stream p.stream).pool.toNat (p.handle.getD 0) (128 * p.win) 128))

/-- The cores of packet p after its window, before any swap. -/
def State.sampled (s : State) (cl : Nat) (p : Packet) : State :=
  ((s.modStream p.stream fun m => { m with qnt := m.qnt.countVec (s.vector p) }).each p.phys fun x k =>
    x.coreWindow cl p (s.vector p) k).modCluster cl fun c => { c with slot := c.slot.map (CalSlot.lit p.phys) }

/-- Packet p behind a window that converted vector x; ks are the lit cores on which a refresh copy swaps in. -/
def Packet.nextWindow (p : Packet) (x : VecOut) (ks : List Nat) : Packet :=
  let last := p.win + 1 = hdrCount p.hdr
  { p with
    win := p.win + 1, sat := p.sat + x.sat, under := p.under + if x.under then 1 else 0
    maxMag := BitVec.ofNat 16 (max p.maxMag.toNat x.mag.toNat), nanIn := p.nanIn || 0 < x.nans
    phase := if last then .ended p.winEnd else .running
    winEnd := if last then p.winEnd else p.winEnd + (if ks.isEmpty then 0 else 1 * Config.ns) + packetWindow p.hdr }

theorem State.sampled_shadow (s : State) (cl : Nat) (p : Packet) (k : Nat) :
    ((s.sampled cl p).core cl k).shadow = (s.core cl k).shadow := by
  unfold State.sampled
  rw [State.modCluster_set, State.core_setCluster, if_pos rfl]
  exact State.each_coreWindow_shadow cl p (s.vector p) p.phys _ k

/-- A window leaves settled refresh copies as they are. -/
theorem State.sampled_refreshDone (s : State) (cl : Nat) (p : Packet) (k e : Nat) :
    ((s.sampled cl p).core cl k).refreshDone e = (s.core cl k).refreshDone e := by
  simp only [Core.refreshDone, State.sampled_shadow]

theorem State.sampled_core {s : State} {cl : Nat} {p : Packet} (hnodup : p.phys.Nodup) {k : Nat} (hk : k ∈ p.phys) :
    Core.Sampled p (s.core cl k) ((s.sampled cl p).core cl k) := by
  unfold State.sampled
  rw [State.modCluster_set, State.core_setCluster, if_pos rfl]
  exact State.each_coreWindow_core cl p (s.vector p) hnodup
    (s.modStream p.stream fun m => { m with qnt := m.qnt.countVec (s.vector p) }) hk

theorem State.sampled_qnt (s : State) (cl : Nat) (p : Packet) :
    ((s.sampled cl p).stream p.stream).qnt = (s.stream p.stream).qnt.countVec (s.vector p) := by
  have hwin := State.each_coreWindow_qnt cl p (s.vector p) p.phys
    (s.modStream p.stream fun m => { m with qnt := m.qnt.countVec (s.vector p) }) p.stream
  rw [State.modStream_set, State.stream_setStream, if_pos rfl] at hwin
  exact hwin

theorem State.swapIn_stream (s : State) (cl e : Nat) (ks : List Nat) (i : Nat) : (s.swapIn cl e ks).stream i = s.stream i := by
  have hkeep : State.Keeps [.clusters] s (s.swapIn cl e ks) :=
    .each (fun _ _ => .into State.modCore_keeps (by decide) .rfl) .rfl
  exact hkeep.stream_eq (by decide) i

/-- The cores of packet p on which a settled refresh copy swaps in at the window's end. -/
def State.swappers (s : State) (cl : Nat) (p : Packet) : List Nat :=
  p.phys.filter fun k => (s.core cl k).refreshDone p.winEnd

theorem effectWindowEnd_running {s : State} {cl f : Nat} {p : Packet} (hp : (s.feeder cl f).packet = some p)
    (hphase : p.phase = .running) (hend : p.winEnd ≤ s.now) (hlive : (s.cluster cl).retired = false) :
    effectWindowEnd cl f s =
      ((s.sampled cl p).swapIn cl p.winEnd (s.swappers cl p)).modFeeder cl f fun k =>
        { k with packet := some (p.nextWindow (s.vector p) (s.swappers cl p)) } := by
  have hdue : (p.phase = .running && p.winEnd ≤ s.now && !(s.cluster cl).retired) = true := by
    simp [hphase, hend, hlive]
  have hswaps : (p.phys.filter fun k => ((s.sampled cl p).core cl k).refreshDone p.winEnd) = s.swappers cl p :=
    List.filter_congr fun k _ => s.sampled_refreshDone cl p k p.winEnd
  unfold effectWindowEnd
  simp only [hp]
  rw [if_pos hdue]
  rw [← hswaps]
  rfl

theorem effectWindowEnd_idle {s : State} {cl f : Nat} {p : Packet} (hp : (s.feeder cl f).packet = some p)
    (h : p.phase ≠ .running ∨ s.now < p.winEnd ∨ (s.cluster cl).retired = true) : effectWindowEnd cl f s = s := by
  have hno : ¬ (p.phase = .running && p.winEnd ≤ s.now && !(s.cluster cl).retired) = true := by
    simp only [Bool.and_eq_true, Bool.not_eq_true', decide_eq_true_eq]
    rintro ⟨⟨hphase, hend⟩, hlive⟩
    rcases h with h | h | h
    · exact h hphase
    · omega
    · rw [hlive] at h; exact Bool.false_ne_true h
  unfold effectWindowEnd
  simp only [hp]
  exact if_neg hno

/-- Settles O29: the window's own state, part by part: the packet's next window, the vector counted, every lit core sampled
and swapped. -/
theorem windowsScaleEveryRow : Obligations.WindowsScaleEveryRow := by
  intro s t cl f p hcl hf hp now vs x last swaps
  have hexec : exec (.windowEnd t cl f) s = .next (effectWindowEnd cl f (s.tick t)) := if_pos (by simp [hcl, hf])
  refine ⟨fun hphase hend hlive => ?runs, fun hidle => ?idle⟩
  case idle => rw [hexec, effectWindowEnd_idle (s := s.tick t) hp hidle]
  case runs =>
    refine ⟨effectWindowEnd cl f (s.tick t), hexec, rfl, ?_⟩
    rw [effectWindowEnd_running (s := s.tick t) hp hphase hend hlive]
    generalize hy : ((s.tick t).sampled cl p).swapIn cl p.winEnd ((s.tick t).swappers cl p) = y
    have hcore (k : Nat) : (y.modFeeder cl f fun k =>
        { k with packet := some (p.nextWindow ((s.tick t).vector p) ((s.tick t).swappers cl p)) }).core cl k = y.core cl k := by
      rw [State.modFeeder_set, State.core_setCluster, if_pos rfl]
      rfl
    refine ⟨?packet, ?qnt, fun hnodup k hk => ⟨fun hdone => ?swap, fun hruns => ?runs', fun r hrun => ?tile⟩⟩
    case packet =>
      have hswaps : (if ((s.tick t).swappers cl p).isEmpty then 0 else 1 * Config.ns) = if swaps then 1 * Config.ns else 0 := by
        have hnone : ((s.tick t).swappers cl p).isEmpty = !swaps := by
          rw [Bool.eq_iff_iff]
          simp [State.swappers, swaps, List.isEmpty_iff, List.filter_eq_nil_iff]
        rw [hnone]
        cases swaps <;> rfl
      rw [State.modFeeder_set, State.feeder_setCluster, if_pos rfl, Cluster.feeder_setFeeder, if_pos rfl,
        Packet.nextWindow, hswaps]
      rfl
    case qnt =>
      rw [← hy]
      exact (congrArg Stream.qnt (State.swapIn_stream ..)).trans ((s.tick t).sampled_qnt cl p)
    case swap =>
      rw [hcore, ← hy]
      refine State.swapIn_swapUntil cl p.winEnd _ (List.mem_filter.2 ⟨hk, hdone⟩) ?_
      rw [State.sampled_shadow]
      exact Core.shadow_of_refreshDone hdone
    case runs' =>
      rw [hcore, ← hy, State.swapIn_noise]
      exact (State.sampled_core (s := s.tick t) hnodup hk).runs hruns
    case tile =>
      rw [hcore, ← hy, State.swapIn_run]
      exact (State.sampled_core (s := s.tick t) hnodup hk).tile r hrun

end Sys2Proof.Machine
end

section
/-! Ring holding: what the shared operations on a cluster leave (R22 to R26, R100, R254, R261, R262). -/

namespace Sys2Proof.Machine

/-! ### A record written twice -/

theorem Tab.filter_ins_same {α : Type} (i : Nat) (v : α) (m : Tab α) :
    (Tab.ins i v m).filter (fun p => p.1 ≠ i) = m.filter fun p => p.1 ≠ i := by
  induction m with
  | nil => simp [Tab.ins]
  | cons p m ih =>
    obtain ⟨k, w⟩ := p
    unfold Tab.ins
    split
    · simp
    · simp only [List.filter_cons, ih]

theorem Tab.put_put {α : Type} [DecidableEq α] (d : α) (m : Tab α) (i : Nat) (v w : α) :
    Tab.put d (Tab.put d m i v) i w = Tab.put d m i w := by
  have hrest : (Tab.put d m i v).filter (fun p => p.1 ≠ i) = m.filter fun p => p.1 ≠ i := by
    unfold Tab.put
    dsimp only
    split
    · simp [List.filter_filter]
    · rw [Tab.filter_ins_same, List.filter_filter]
      simp
  unfold Tab.put at hrest ⊢
  simp only [hrest]

@[simp] theorem State.setCluster_setCluster (s : State) (c : Nat) (v w : Cluster) :
    (s.setCluster c v).setCluster c w = s.setCluster c w :=
  congrArg (fun m => { s with clusters := m }) (Tab.put_put ..)

/-! ### Changes of every feeder -/

section

variable (c : Cluster) (g : Feeder → Feeder)

/-- Only the feeders change. -/
theorem Cluster.eachFeeder_eq : c.eachFeeder g = { c with feeders := (c.eachFeeder g).feeders } := rfl

theorem Cluster.phys_eachFeeder (q : Nat) : (c.eachFeeder g).phys q = c.phys q := by
  rw [Cluster.eachFeeder_eq]
  rfl

theorem Cluster.core_eachFeeder (k : Nat) : (c.eachFeeder g).core k = c.core k := by
  rw [Cluster.eachFeeder_eq]
  rfl

theorem Cluster.feeder_eachFeeder (f : Nat) : (c.eachFeeder g).feeder f = if f < 4 then g (c.feeder f) else c.feeder f := by
  have hfour : List.range 4 = [0, 1, 2, 3] := rfl
  unfold Cluster.eachFeeder
  rw [hfour]
  simp only [List.foldl_cons, List.foldl_nil, Cluster.feeder_setFeeder]
  rcases Decidable.em (f < 4) with hf | hf
  · interval_cases f <;> simp
  · rw [if_neg hf, if_neg (by omega), if_neg (by omega), if_neg (by omega), if_neg (by omega)]

@[simp] theorem Feeder.listen_listener (k : Option Nat) (x : Feeder) : (x.listen k).listener = k := by
  unfold Feeder.listen
  split
  case isTrue h => exact h
  case isFalse => rfl
@[simp] theorem Feeder.listen_probe (k : Option Nat) (x : Feeder) : (x.listen k).probe = x.probe := by
  unfold Feeder.listen
  split <;> rfl
@[simp] theorem Feeder.listen_notBefore (k : Option Nat) (x : Feeder) : (x.listen k).notBefore = x.notBefore := by
  unfold Feeder.listen
  split <;> rfl

end

section

variable (c : Cluster) (k : Option Nat) (f j : Nat)

theorem Cluster.core_listen : (c.listen k).core j = c.core j := c.core_eachFeeder _ j
theorem Cluster.phys_listen : (c.listen k).phys j = c.phys j := c.phys_eachFeeder _ j
theorem Cluster.feeder_listen : (c.listen k).feeder f = if f < 4 then (c.feeder f).listen k else c.feeder f :=
  c.feeder_eachFeeder _ f

end

/-! ### The slot -/

/-- The cluster with another slot, or none. -/
def Cluster.setSlot (x : Option CalSlot) (c : Cluster) : Cluster := { c with slot := x }

section

variable (x : Option CalSlot) (c : Cluster) (k : Nat)

@[simp] theorem Cluster.setSlot_slot : (c.setSlot x).slot = x := rfl
@[simp] theorem Cluster.core_setSlot : (c.setSlot x).core k = c.core k := rfl
@[simp] theorem Cluster.phys_setSlot : (c.setSlot x).phys k = c.phys k := rfl
@[simp] theorem Cluster.feeder_setSlot : (c.setSlot x).feeder k = c.feeder k := rfl

end

/-! ### One cluster, one core -/

section

variable (s : State) (cl : Nat)

theorem State.cluster_modCluster (g : Cluster → Cluster) : (s.modCluster cl g).cluster cl = g (s.cluster cl) := by
  rw [State.modCluster_set, State.cluster_setCluster, if_pos rfl]

theorem State.cluster_modCore (k : Nat) (f : Core → Core) : (s.modCore cl k f).cluster cl = (s.cluster cl).modCore k f :=
  s.cluster_modCluster cl _

theorem State.core_modCluster (g : Cluster → Cluster) (j : Nat) :
    (s.modCluster cl g).core cl j = (g (s.cluster cl)).core j :=
  congrArg (Cluster.core · j) (s.cluster_modCluster cl g)

theorem State.core_setSlot (x : Option CalSlot) (j : Nat) :
    (s.modCluster cl (Cluster.setSlot x)).core cl j = s.core cl j :=
  s.core_modCluster cl _ j

theorem State.core_listenSlot (x : Option CalSlot) (k : Option Nat) (j : Nat) :
    (s.modCluster cl fun c => (c.listen k).setSlot x).core cl j = s.core cl j := by
  rw [State.core_modCluster, Cluster.core_setSlot, Cluster.core_listen]
  rfl

theorem State.core_modCore_ne {k j : Nat} (h : j ≠ k) (f : Core → Core) : (s.modCore cl k f).core cl j = s.core cl j := by
  rw [State.modCore_set, State.core_setCluster, if_pos rfl, Cluster.core_setCore, if_neg h]
  rfl

end

/-! ### A position that passes to another core -/

@[simp] theorem Cluster.core_movedFeeders (c : Cluster) (p a b k : Nat) :
    (((c.setPhys p b).dropRoutes [a, b]).unlisten b).core k = c.core k := rfl

theorem Cluster.phys_movedFeeders (c : Cluster) (p a b q : Nat) :
    (((c.setPhys p b).dropRoutes [a, b]).unlisten b).phys q = if q = p then b else c.phys q := by
  unfold Cluster.unlisten Cluster.dropRoutes
  rw [Cluster.phys_eachFeeder, Cluster.phys_eachFeeder, Cluster.phys_setPhys]

/-- Core y takes over the work of core x: its list work, its images and its credit. -/
def Core.takesOn (x : Core) (base : CalBase) (now ready : Nat) (y : Core) : Core :=
  let load (h : Held) : Held := { h with drive := y.driveCodes base h.image, start := now }
  { y with tile := x.tile, grant := x.grant, forward := x.forward, slots := x.slots, prefetch := x.prefetch
           active := x.active.map load, shadow := x.shadow.map load, ready := ready }

/-- A core that has handed its work over. -/
def Core.givesUp (y : Core) : Core :=
  { y with tile := none, grant := none, forward := [], shadow := none, prefetch := none, cut := none }

section

variable (s : State) (cl p a b ready : Nat)

theorem State.movePos_eq : s.movePos cl p a b ready =
    ((s.modCore cl b ((s.core cl a).takesOn (s.calBase cl b) s.now ready)).modCore cl a Core.givesUp).modCluster cl
      fun c => ((c.setPhys p b).dropRoutes [a, b]).unlisten b := by
  unfold State.movePos Core.takesOn Core.givesUp
  with_reducible rfl

theorem State.movePos_phys (q : Nat) :
    ((s.movePos cl p a b ready).cluster cl).phys q = if q = p then b else (s.cluster cl).phys q := by
  rw [State.movePos_eq, State.cluster_modCluster, State.cluster_modCore, State.cluster_modCore, Cluster.phys_movedFeeders,
    Cluster.modCore_set, Cluster.phys_setCore, Cluster.modCore_set, Cluster.phys_setCore]

theorem State.movePos_core (k : Nat) : (s.movePos cl p a b ready).core cl k =
    ((s.modCore cl b ((s.core cl a).takesOn (s.calBase cl b) s.now ready)).modCore cl a Core.givesUp).core cl k := by
  rw [State.movePos_eq, State.core_modCluster]
  exact Cluster.core_movedFeeders ..

variable {a b}

/-- The core that takes the position. -/
theorem State.movePos_core_new (h : a ≠ b) :
    (s.movePos cl p a b ready).core cl b = (s.core cl a).takesOn (s.calBase cl b) s.now ready (s.core cl b) := by
  rw [State.movePos_core, State.core_modCore_ne _ _ (Ne.symm h), State.core_modCore]

theorem State.movePos_core_old (h : a ≠ b) : (s.movePos cl p a b ready).core cl a = (s.core cl a).givesUp := by
  rw [State.movePos_core, State.core_modCore, State.core_modCore_ne _ _ h]

theorem State.movePos_core_else {k : Nat} (ha : k ≠ a) (hb : k ≠ b) :
    (s.movePos cl p a b ready).core cl k = s.core cl k := by
  rw [State.movePos_core, State.core_modCore_ne _ _ ha, State.core_modCore_ne _ _ hb]

end
end Sys2Proof.Machine
end

section
/-! The rotation: advances, the mirror, the handover, the calibration and its starvation (R252 to R257, R266). -/

namespace Sys2Proof.Machine

/-! ### ROTATION_ADVANCE -/

section

variable {s : State} {cl : Nat}

theorem effectRotationAdvance_due (hup : (s.cluster cl).up = true) (hsched : s.scheduled cl = false)
    (hdue : (s.cluster cl).rotFrom + (s.cluster cl).rotMs.toNat * Config.ms ≤ s.now) :
    effectRotationAdvance cl s = (s.modCluster cl fun c => { c with rotFrom := s.now }).advance cl := by
  unfold effectRotationAdvance
  exact if_pos (by simp [hup, hsched, hdue])

theorem State.advance_holds (hup : (s.cluster cl).up = true) (hheld : (s.cluster cl).rotationHeld = true)
    (hadv : (s.cluster cl).advHeld = false) : s.advance cl = s.modCluster cl fun c => { c with advHeld := true } := by
  unfold State.advance
  simp only [hup, hheld, hadv, Bool.not_true, Bool.false_eq_true, if_false, if_true]

theorem State.advance_overruns (hup : (s.cluster cl).up = true) (hheld : (s.cluster cl).rotationHeld = true)
    (hadv : (s.cluster cl).advHeld = true) :
    s.advance cl = s.modCluster cl fun c => { c with rotOverrun := satInc c.rotOverrun } := by
  unfold State.advance
  simp only [hup, hheld, hadv, Bool.not_true, Bool.false_eq_true, if_false, if_true]

theorem State.advance_starts (hup : (s.cluster cl).up = true) (hheld : (s.cluster cl).rotationHeld = false) {k sp : Nat}
    (hturn : (s.cluster cl).turn = some k) (hspare : (s.cluster cl).readySpare = some sp) :
    s.advance cl = s.startSlot cl k sp := by
  unfold State.advance State.runAdvance
  simp only [hup, hheld, hturn, hspare, Bool.not_true, Bool.false_eq_true, if_false]

/-- The cluster with a slot that has just begun for core k and the spare sp. -/
def Cluster.slotted (now k sp : Nat) (self : Bool) (c : Cluster) : Cluster :=
  { c with slot := some { core := k, step := if self then .calibrate else .mirror, selfCal := self, startedAt := now
                          stepEnd := now + Config.ms }
           spareCore := sp
           spareFor := if self && k ≠ sp then none else some (k, .calibration)
           rotNext := if c.repeatTurn.contains k then c.rotNext else (k + 1) % 34
           repeatTurn := c.repeatTurn.erase k }

/-- A core with a position is mirrored to the spare. -/
theorem State.startSlot_cluster_mirror {k : Nat} (sp : Nat) (h : (s.core cl k).st ≠ .spareReady) :
    (s.startSlot cl k sp).cluster cl = (s.cluster cl).slotted s.now k sp false := by
  unfold State.startSlot Cluster.slotted
  simp only [h, decide_false, Bool.false_eq_true, if_false]
  exact State.cluster_modCluster ..

/-- A spare whose turn it is calibrates itself. -/
theorem State.startSlot_cluster_self {k : Nat} (sp : Nat) (h : (s.core cl k).st = .spareReady) :
    (s.startSlot cl k sp).cluster cl =
      (((s.cluster cl).slotted s.now k sp true).modCore k fun c => { c with st := .calibrating }).listen (some k) := by
  unfold State.startSlot Cluster.slotted
  simp only [h, decide_true, if_true]
  rw [State.cluster_modCluster, State.cluster_modCore, State.cluster_modCluster]

/-! ### MIRROR_DONE -/

theorem effectMirrorDone_mirror {x : CalSlot} (hslot : (s.cluster cl).slot = some x) (hrecov : (s.cluster cl).recov = none)
    (hstep : x.step = .mirror) (hpaused : x.pausedAt = none) (hrec : x.recFrom = none) (hend : x.stepEnd ≤ s.now) :
    effectMirrorDone cl s =
      (s.modCore cl (s.cluster cl).spareCore fun y => { y with slots := (s.core cl x.core).slots }).modCluster cl
        (Cluster.setSlot (some { x with step := .handover })) := by
  unfold effectMirrorDone
  simp only [hslot, hrecov, hpaused, hrec, decide_eq_true hend, Option.isNone_none, Bool.and_self, if_true]
  rw [hstep]
  rfl

/-! ### HANDOVER -/

theorem effectHandover_slotOut {x : CalSlot} {p : Nat} (hslot : (s.cluster cl).slot = some x)
    (hnext : (s.cluster cl).spareNext = none) (hself : x.selfCal = false) (hstep : x.step = .handover)
    (hpos : (s.cluster cl).posOf x.core = some p) (hpaused : x.pausedAt = none)
    (hbound : (s.cluster cl).atBoundary x.core = true)
    (hspare : ((s.cluster cl).core (s.cluster cl).spareCore).st = .spareReady)
    (hleaving : ((s.cluster cl).core x.core).st ≠ .leaving) : effectHandover cl s = s.slotOut cl p x := by
  have hother : (s.cluster cl).slot.filter (fun x => !x.selfCal) = some x := by
    rw [hslot, Option.filter_some, if_pos (by simp [hself])]
  unfold effectHandover
  simp only [hnext, hother, hstep, hpos]
  exact if_pos (by simp [hslot, hpaused, hbound, hspare, hleaving])

/-- A core that carries a position. -/
def Core.serves (y : Core) : Core := { y with st := y.serviceState }

/-- A core whose slot has begun, with the position p that it takes back. -/
def Core.calibrates (p : Nat) (y : Core) : Core := { y with st := .calibrating, home := some p }

/-- The cluster c, position passed, once the slot's core calibrates and the spare sp serves. -/
def Cluster.servedBy (sp p : Nat) (x : CalSlot) (c : Cluster) : Cluster :=
  (((c.modCore sp Core.serves).modCore x.core (Core.calibrates p)).listen (some x.core)).setSlot
    (some { x with step := .calibrate })

section

variable (c : Cluster) {sp p : Nat} {x : CalSlot}

theorem Cluster.servedBy_phys (q : Nat) : (c.servedBy sp p x).phys q = c.phys q := by
  unfold Cluster.servedBy
  rw [Cluster.phys_setSlot, Cluster.phys_listen, Cluster.modCore_set, Cluster.phys_setCore, Cluster.modCore_set,
    Cluster.phys_setCore]

theorem Cluster.servedBy_core (h : x.core ≠ sp) : (c.servedBy sp p x).core x.core = (c.core x.core).calibrates p := by
  unfold Cluster.servedBy
  rw [Cluster.core_setSlot, Cluster.core_listen, Cluster.modCore_set, Cluster.core_setCore, if_pos rfl, Cluster.modCore_set,
    Cluster.core_setCore, if_neg h]

theorem Cluster.servedBy_spare (h : x.core ≠ sp) : (c.servedBy sp p x).core sp = (c.core sp).serves := by
  unfold Cluster.servedBy
  rw [Cluster.core_setSlot, Cluster.core_listen, Cluster.modCore_set, Cluster.core_setCore, if_neg (Ne.symm h),
    Cluster.modCore_set, Cluster.core_setCore, if_pos rfl]

theorem Cluster.servedBy_listener {f : Nat} (hf : f < 4) : ((c.servedBy sp p x).feeder f).listener = some x.core := by
  unfold Cluster.servedBy
  rw [Cluster.feeder_setSlot, Cluster.feeder_listen, if_pos hf, Feeder.listen_listener]

end

theorem State.slotOut_cluster {x : CalSlot} {p : Nat} : (s.slotOut cl p x).cluster cl =
    ((s.movePos cl p x.core (s.cluster cl).spareCore (s.now + 73 * Config.ns)).cluster cl).servedBy
      (s.cluster cl).spareCore p x := by
  unfold State.slotOut Cluster.servedBy Core.serves Core.calibrates Cluster.setSlot
  dsimp only
  rw [State.cluster_modCluster, State.cluster_modCore, State.cluster_modCore]
  rfl

/-! ### CALIBRATION_DONE and CAL_STARVED -/

theorem State.slotBack_mirror {x : CalSlot} (h : x.selfCal = false) : s.slotBack cl x =
    s.modCluster cl fun c => (c.listen none).setSlot
      (some { x with step := .mirrorBack, stepEnd := s.now + Config.ms }) := by
  unfold State.slotBack
  rw [h]
  exact if_neg Bool.false_ne_true

/-- The engines of a core that the values of its calibration show as failed. -/
def Core.foundFailed (vals : CalValues) (y : Core) : List Nat :=
  ((failedEngines vals).filter fun e => y.engines.contains e).eraseDups

section

variable {x : CalSlot} (vals : CalValues) (hslot : (s.cluster cl).slot = some x) (hstep : x.step = .calibrate)
  (hlight : 2 ^ 16 ≤ x.light) (hready : x.ready ≤ s.now) (hpaused : x.pausedAt = none)
  (hchecked : s.lineChecked cl x = true)

include hslot hstep hlight hready hpaused hchecked

theorem effectCalibrationDone_sound (hbad : (s.core cl x.core).foundFailed vals = []) :
    effectCalibrationDone cl x.core vals s = (s.modCore cl x.core fun y => { y with calNew := some vals }).slotBack cl x := by
  unfold effectCalibrationDone
  simp only [hslot]
  exact (if_pos (by simpa [hstep, hready, hpaused, hchecked] using hlight)).trans (if_pos (List.isEmpty_iff.2 hbad))

/-- The core with the engines that its calibration has shown as failed marked so. -/
theorem effectCalibrationDone_mends {z : State} (hbad : (s.core cl x.core).foundFailed vals ≠ [])
    (hz : (s.modCore cl x.core fun y =>
      { y with engFailed := y.engFailed ++ (s.core cl x.core).foundFailed vals }) = z)
    (hsound : (z.core cl x.core).broken = false) : effectCalibrationDone cl x.core vals s =
      ((z.mend cl x.core).modCluster cl (Cluster.setSlot (some { x with ready := s.now + 150 * Config.ms }))).ringEvent
        0x8027 cl x.core 0 (((s.core cl x.core).foundFailed vals).headD 0) := by
  subst hz
  unfold effectCalibrationDone
  simp only [hslot]
  exact (if_pos (by simpa [hstep, hready, hpaused, hchecked] using hlight)).trans
    ((if_neg (fun h => hbad (List.isEmpty_iff.1 h))).trans (if_neg (Bool.eq_false_iff.1 hsound)))

end

/-- The engine spare comes in for the failed engine of a core that it can make good. -/
theorem State.mend_core {k : Nat} {es : List Nat} (h : (s.core cl k).spareEngine = some es) :
    ((s.mend cl k).core cl k).engines = es ∧ ((s.mend cl k).core cl k).engFailed = (s.core cl k).engFailed := by
  unfold State.mend
  simp only [h]
  split
  case isTrue hes => exact ⟨hes.symm, rfl⟩
  case isFalse =>
    rw [State.core_modCore]
    exact ⟨rfl, rfl⟩

theorem effectCalStarved_due {x : CalSlot} (hslot : (s.cluster cl).slot = some x) (hstep : x.step = .calibrate)
    (hlight : x.light < 2 ^ 16) (hrec : x.recFrom = none) (hdue : x.startedAt + 200 * Config.ms ≤ s.now)
    (hpaused : x.pausedAt = none) : effectCalStarved cl s =
      (((s.modCluster cl fun c => { c with calStarved := satInc c.calStarved }).ringEvent 0x8023 cl x.core 0 x.light).modCore
        cl x.core fun y => { y with calNew := none }).slotBack cl x := by
  unfold effectCalStarved
  simp only [hslot]
  exact if_pos (by simpa [hstep, hrec, hdue, hpaused] using hlight)

end

section

variable {s : State} {t cl : Nat}

/-- An advance that is due while no slot may begin. -/
theorem exec_rotationAdvance_held (hcl : cl < 832) (hup : (s.cluster cl).up = true) (hsched : s.scheduled cl = false)
    (hdue : (s.cluster cl).rotFrom + (s.cluster cl).rotMs.toNat * Config.ms ≤ max s.now t)
    (hheld : (s.cluster cl).rotationHeld = true) :
    ((s.cluster cl).advHeld = false → exec (.rotationAdvance t cl) s =
      .next ((s.tick t).setCluster cl { s.cluster cl with rotFrom := max s.now t, advHeld := true })) ∧
    ((s.cluster cl).advHeld = true → exec (.rotationAdvance t cl) s =
      .next ((s.tick t).setCluster cl
        { s.cluster cl with rotFrom := max s.now t, rotOverrun := satInc (s.cluster cl).rotOverrun })) := by
  have hexec : exec (.rotationAdvance t cl) s = .next (effectRotationAdvance cl (s.tick t)) := if_pos (by simp [hcl])
  rw [hexec, effectRotationAdvance_due (s := s.tick t) hup hsched hdue]
  have hc : ((s.tick t).modCluster cl fun c => { c with rotFrom := (s.tick t).now }).cluster cl =
      { s.cluster cl with rotFrom := max s.now t } := State.cluster_modCluster ..
  refine ⟨fun hadv => ?_, fun hadv => ?_⟩
  · rw [State.advance_holds (by rw [hc]; exact hup) (by rw [hc]; exact hheld) (by rw [hc]; exact hadv), State.modCluster_set,
      hc, State.modCluster_set, State.setCluster_setCluster]
  · rw [State.advance_overruns (by rw [hc]; exact hup) (by rw [hc]; exact hheld) (by rw [hc]; exact hadv),
      State.modCluster_set, hc, State.modCluster_set, State.setCluster_setCluster]

end

/-- Settles O35: each row's guard holds, and the step it takes is read off the updated cluster. -/
theorem rotationsCalibrateACore : Obligations.RotationsCalibrateACore := by
  intro s t cl hcl v now c busy
  refine ⟨fun hup hsched hdue => ⟨fun hheld => ?hold, fun hheld => ?drop, fun k sp hfree hturn hspare => ?start⟩,
    fun x hslot hpaused => ⟨fun hrecov hrec hstep hend => ?mirror,
      fun p hnext hself hstep hpos hne hbound hspare hleaving => ?handover,
      fun vals hstep hlight hready hchecked hk => ?calibrated,
      fun hstep hlight hrec hdue hself => ?starved⟩⟩
  case hold => exact (exec_rotationAdvance_held hcl hup hsched hdue hheld).1
  case drop => exact (exec_rotationAdvance_held hcl hup hsched hdue hheld).2
  case start =>
    refine ⟨effectRotationAdvance cl v, if_pos (by simp [hcl]), ?_⟩
    rw [effectRotationAdvance_due (s := v) hup hsched hdue]
    have hc : (v.modCluster cl fun c => { c with rotFrom := v.now }).cluster cl = { c with rotFrom := now } :=
      State.cluster_modCluster ..
    generalize hy : (v.modCluster cl fun c => { c with rotFrom := v.now }) = y at hc ⊢
    have hnow : y.now = now := by rw [← hy]; rfl
    have hcore : y.core cl k = c.core k := (congrArg (Cluster.core · k) hc).trans rfl
    rw [State.advance_starts (by rw [hc]; exact hup) (by rw [hc]; exact hfree) (by rw [hc]; exact hturn)
      (by rw [hc]; exact hspare)]
    dsimp only
    rcases Decidable.em ((c.core k).st = .spareReady) with hself | hother
    · rw [State.startSlot_cluster_self sp (hcore ▸ hself), hc, hnow]
      refine ⟨rfl, rfl, fun h => absurd hself h, fun _ => ⟨?_, rfl⟩⟩
      unfold Cluster.listen
      rw [Cluster.core_eachFeeder, Cluster.modCore_set, Cluster.core_setCore, if_pos rfl]
    · rw [State.startSlot_cluster_mirror sp (hcore ▸ hother), hc, hnow]
      exact ⟨rfl, rfl, fun _ => ⟨rfl, rfl, rfl⟩, fun h => absurd h hother⟩
  case mirror =>
    refine ⟨effectMirrorDone cl v, if_pos (by simp [hcl]), ?_⟩
    rw [effectMirrorDone_mirror (s := v) hslot hrecov hstep hpaused hrec hend]
    dsimp only
    rw [State.core_setSlot, State.cluster_modCluster]
    exact ⟨(congrArg Core.slots State.core_modCore).trans rfl, rfl⟩
  case handover =>
    refine ⟨effectHandover cl v, if_pos (by simp [hcl]), ?_⟩
    rw [effectHandover_slotOut (s := v) hslot hnext hself hstep hpos hpaused hbound hspare hleaving]
    have hserved : (v.slotOut cl p x).cluster cl =
        ((v.movePos cl p x.core c.spareCore (now + 73 * Config.ns)).cluster cl).servedBy c.spareCore p x :=
      State.slotOut_cluster
    generalize hm : v.movePos cl p x.core c.spareCore (now + 73 * Config.ns) = m at hserved
    have hphys (q : Nat) : (m.cluster cl).phys q = if q = p then c.spareCore else c.phys q := hm ▸ State.movePos_phys ..
    have hnew : m.core cl c.spareCore = (s.core cl x.core).takesOn (v.calBase cl c.spareCore) now (now + 73 * Config.ns)
      (s.core cl c.spareCore) := hm ▸ State.movePos_core_new _ _ _ _ hne
    unfold State.core State.feeder
    dsimp only
    rw [hserved, Cluster.servedBy_core _ hne, Cluster.servedBy_spare _ hne]
    refine ⟨?_, fun q hq => ?_, ?_, ?_, rfl, rfl, fun f hf => Cluster.servedBy_listener _ hf, rfl⟩
    · rw [Cluster.servedBy_phys, hphys, if_pos rfl]
    · rw [Cluster.servedBy_phys, hphys, if_neg hq]
    · exact (congrArg Core.slots hnew :)
    · exact (congrArg Core.serviceState hnew :)
  case calibrated =>
    intro y bad
    refine ⟨fun hbad hself => ?done, fun es hbad hes => ?engine⟩
    case done =>
      refine ⟨effectCalibrationDone cl x.core vals v, if_pos (by simp [hcl, hk]), ?_⟩
      rw [effectCalibrationDone_sound (s := v) vals hslot hstep hlight hready hpaused hchecked hbad,
        State.slotBack_mirror hself]
      dsimp only
      rw [State.core_listenSlot, State.cluster_modCluster]
      exact ⟨congrArg Core.calNew State.core_modCore, rfl⟩
    case engine =>
      refine ⟨effectCalibrationDone cl x.core vals v, if_pos (by simp [hcl, hk]), ?_⟩
      have hfailed : (v.modCore cl x.core fun z => { z with engFailed := z.engFailed ++ y.foundFailed vals }).core cl x.core =
          { y with engFailed := y.engFailed ++ bad } := State.core_modCore
      generalize hz : (v.modCore cl x.core fun z => { z with engFailed := z.engFailed ++ y.foundFailed vals }) = z at hfailed
      have hmakes : (z.core cl x.core).spareEngine = some es := hfailed ▸ hes
      obtain ⟨hengines, hengFailed⟩ := State.mend_core hmakes
      rw [effectCalibrationDone_mends (s := v) vals hslot hstep hlight hready hpaused hchecked hbad hz
        (by simp [Core.broken, hmakes])]
      dsimp only
      unfold State.core
      rw [State.ringEvent_keeps.cluster_eq (by decide), State.cluster_modCluster, Cluster.core_setSlot]
      exact ⟨hengines, hengFailed.trans (congrArg Core.engFailed hfailed), rfl⟩
  case starved =>
    refine ⟨effectCalStarved cl v, if_pos (by simp [hcl]), ?_⟩
    have hring : State.Keeps [.chans] _ _ := State.ringEvent_keeps (s := v.modCluster cl fun c =>
      { c with calStarved := satInc c.calStarved }) (code := 0x8023) (cl := cl) (k := x.core) (r := 0) (v := x.light)
    rw [effectCalStarved_due (s := v) hslot hstep hlight hrec hdue hpaused, State.slotBack_mirror hself]
    generalize (v.modCluster cl fun c => { c with calStarved := satInc c.calStarved }).ringEvent 0x8023 cl x.core 0 x.light = u
      at hring
    have hc : u.cluster cl = { c with calStarved := satInc c.calStarved } :=
      (hring.cluster_eq (by decide) cl).trans (State.cluster_modCluster ..)
    have hnow : (u.modCore cl x.core fun y => { y with calNew := none }).now = now := hring .now (by decide)
    refine ⟨?_, ?_, ?_⟩
    · rw [State.cluster_modCluster, State.cluster_modCore, hc]
      rfl
    · rw [State.core_listenSlot, State.core_modCore]
    · rw [State.cluster_modCluster, hnow]
      rfl

end Sys2Proof.Machine
end

section
/-! Ring holding: what claims, recoveries, retirements and handovers leave of a cluster: its service, its probes, the
calibrations of its cores (R22 to R26, R107 to R109, R260 to R264). -/

namespace Sys2Proof.Machine

/-! ### A cluster that goes on in service -/

/-- A core that has been calibrated and is not cold. -/
def Core.Warmed (c : Core) : Prop := c.calibrated = true ∧ c.st ≠ .cold

/-- Cluster d goes on where c was: its warmed cores are warmed, its feeders' probes and its service are the same. -/
structure Cluster.Continues (c d : Cluster) : Prop where
  warmed : ∀ k, (c.core k).Warmed → (d.core k).Warmed
  probe : ∀ f, (d.feeder f).probe = (c.feeder f).probe ∧ (d.feeder f).notBefore = (c.feeder f).notBefore
  service : d.restart = c.restart ∧ d.locked = c.locked ∧ d.calibrated = c.calibrated ∧ d.taster = c.taster ∧
    d.parked = c.parked ∧ d.parkedHeat = c.parkedHeat

theorem Feeder.cleared_if (x : Feeder) (b : Bool) : (if b then x.clearRoute else x).probe = x.probe ∧
    (if b then x.clearRoute else x).notBefore = x.notBefore := by
  split <;> exact ⟨rfl, rfl⟩

namespace Cluster.Continues

variable {c d e : Cluster}

theorem refl (c : Cluster) : c.Continues c := ⟨fun _ h => h, fun _ => ⟨rfl, rfl⟩, rfl, rfl, rfl, rfl, rfl, rfl⟩

theorem trans (h : c.Continues d) (g : d.Continues e) : c.Continues e where
  warmed k hk := g.warmed k (h.warmed k hk)
  probe f := ⟨(g.probe f).1.trans (h.probe f).1, (g.probe f).2.trans (h.probe f).2⟩
  service := by
    obtain ⟨h1, h2, h3, h4, h5, h6⟩ := h.service
    obtain ⟨g1, g2, g3, g4, g5, g6⟩ := g.service
    exact ⟨g1.trans h1, g2.trans h2, g3.trans h3, g4.trans h4, g5.trans h5, g6.trans h6⟩

/-- A change of the record that leaves the cores, the feeders and the service. -/
theorem record (hcores : d.cores = c.cores := by rfl) (hfeeders : d.feeders = c.feeders := by rfl)
    (hservice : d.restart = c.restart ∧ d.locked = c.locked ∧ d.calibrated = c.calibrated ∧ d.taster = c.taster ∧
      d.parked = c.parked ∧ d.parkedHeat = c.parkedHeat := by exact ⟨rfl, rfl, rfl, rfl, rfl, rfl⟩) : c.Continues d where
  warmed k hk := by
    have hcore : d.core k = c.core k := congrArg (fun m => Tab.get (Core.reset k) m k) hcores
    rwa [hcore]
  probe f := by
    have hfeeder : d.feeder f = c.feeder f := congrArg (fun m => Tab.get ({} : Feeder) m f) hfeeders
    rw [hfeeder]
    exact ⟨rfl, rfl⟩
  service := hservice

theorem ite {p : Prop} [Decidable p] (hd : c.Continues d) (he : c.Continues e) : c.Continues (if p then d else e) := by
  split
  · exact hd
  · exact he

theorem modCore (k : Nat) {f : Core → Core} (hf : ∀ x, x.Warmed → (f x).Warmed) : c.Continues (c.modCore k f) where
  warmed j hj := by
    rw [Cluster.modCore_set, Cluster.core_setCore]
    split
    case isTrue h => exact hf _ (h ▸ hj)
    case isFalse => exact hj
  probe _ := ⟨rfl, rfl⟩
  service := ⟨rfl, rfl, rfl, rfl, rfl, rfl⟩

theorem eachFeeder {g : Feeder → Feeder} (hg : ∀ x, (g x).probe = x.probe ∧ (g x).notBefore = x.notBefore) :
    c.Continues (c.eachFeeder g) where
  warmed k hk := by rwa [Cluster.core_eachFeeder]
  probe f := by
    rw [Cluster.feeder_eachFeeder]
    split
    · exact hg _
    · exact ⟨rfl, rfl⟩
  service := ⟨rfl, rfl, rfl, rfl, rfl, rfl⟩

theorem listen (k : Option Nat) : c.Continues (c.listen k) := eachFeeder fun x => ⟨x.listen_probe k, x.listen_notBefore k⟩

theorem listened (k : Option Nat) {g : Cluster → Cluster} (hg : ∀ d : Cluster, d.Continues (g d)) :
    c.Continues (g (c.listen k)) := (listen k).trans (hg _)

theorem unlisten (k : Nat) : c.Continues (c.unlisten k) :=
  eachFeeder fun x => by
    split
    · exact ⟨x.listen_probe none, x.listen_notBefore none⟩
    · exact ⟨rfl, rfl⟩

theorem dropRoutes (ks : List Nat) : c.Continues (c.dropRoutes ks) :=
  eachFeeder fun x => x.cleared_if _

theorem callWear (now : Nat) : c.Continues (c.callWear now) := by
  unfold Cluster.callWear
  split
  · exact record
  · exact record

theorem toWear (now : Nat) (x : Nat × ClaimRank) : c.Continues (c.toWear now x) := (callWear now).trans record

end Cluster.Continues

/-- Cluster cl goes on in state s as it was in state r. -/
def State.Continues (cl : Nat) (r s : State) : Prop := (r.cluster cl).Continues (s.cluster cl)

namespace State.Continues

variable {cl : Nat} {r s : State}

theorem refl (cl : Nat) (s : State) : Continues cl s s := Cluster.Continues.refl _

theorem keeps {L : List Part} {x : State} (h : Continues cl r s) (hs : State.Keeps L s x) (hL : Part.clusters ∉ L) :
    Continues cl r x := by
  unfold Continues
  rw [hs.cluster_eq hL]
  exact h

theorem modCluster {g : Cluster → Cluster} (h : Continues cl r s) (hg : (s.cluster cl).Continues (g (s.cluster cl))) :
    Continues cl r (s.modCluster cl g) := by
  unfold Continues
  rw [State.cluster_modCluster]
  exact h.trans hg

theorem modCore {f : Core → Core} (h : Continues cl r s) (k : Nat) (hf : ∀ x, x.Warmed → (f x).Warmed) :
    Continues cl r (s.modCore cl k f) := h.modCluster (.modCore k hf)

/-! ### Claims -/

theorem retireCheck (h : Continues cl r s) : Continues cl r (s.retireCheck cl) := by
  unfold State.retireCheck
  dsimp only
  split
  · exact h.modCluster .record
  · exact h

theorem claimWear (h : Continues cl r s) (x : Nat × ClaimRank) : Continues cl r (s.claimWear cl x) :=
  (h.modCluster (.toWear _ x)).retireCheck

theorem dropSlot (h : Continues cl r s) (x : CalSlot) : Continues cl r (s.dropSlot cl x) :=
  (h.modCluster (Cluster.Continues.trans (.listen none) .record)).modCore x.core fun y hy => by
    refine ⟨hy.1, ?_⟩
    dsimp only [Core.slotOver]
    split
    · exact CoreState.noConfusion
    · exact hy.2

theorem yieldClaim (h : Continues cl r s) (y : Nat × ClaimRank) : Continues cl r (s.yieldClaim cl y) := by
  unfold State.yieldClaim
  split
  · exact h.dropSlot _
  · exact h
  · exact h.claimWear y

theorem waitForSpare (h : Continues cl r s) (x : Nat × ClaimRank) : Continues cl r (s.waitForSpare cl x) := by
  unfold State.waitForSpare
  split
  · exact h.modCluster .record
  · split
    · exact (h.modCluster .record).claimWear _
    · exact h.claimWear x

theorem claim (h : Continues cl r s) (x : Nat × ClaimRank) : Continues cl r (s.claim cl x) := by
  unfold State.claim
  dsimp only
  split
  · split
    · exact h.modCluster .record
    · exact h.claimWear x
  · split
    · exact h.claimWear x
    · split
      · split
        · exact h.claimWear x
        · exact h.waitForSpare x
      · exact modCluster (h.yieldClaim _) .record

/-! ### The rotation and the free spare -/

theorem startSlot (h : Continues cl r s) (k sp : Nat) : Continues cl r (s.startSlot cl k sp) := by
  have hslotted (self : Bool) : (s.cluster cl).Continues ((s.cluster cl).slotted s.now k sp self) := .record
  unfold Continues
  rcases Decidable.em ((s.core cl k).st = .spareReady) with hself | hother
  · rw [State.startSlot_cluster_self sp hself]
    refine (h.trans (hslotted true)).trans (Cluster.Continues.trans (.modCore k fun y hy => ?_) (.listen _))
    exact ⟨hy.1, CoreState.noConfusion⟩
  · rw [State.startSlot_cluster_mirror sp hother]
    exact h.trans (hslotted false)

theorem runAdvance (h : Continues cl r s) : Continues cl r (s.runAdvance cl) := by
  unfold State.runAdvance
  split
  · exact h.startSlot _ _
  · exact h

theorem heldAdvance (h : Continues cl r s) : Continues cl r (s.heldAdvance cl) := by
  unfold State.heldAdvance
  dsimp only
  split
  · exact (h.modCluster .record).runAdvance
  · exact h

theorem freeSpare (h : Continues cl r s) : Continues cl r (s.freeSpare cl) := by
  have hfree : Continues cl r (s.modCluster cl fun c => { c with spareFor := none, copyEnd := none }) := h.modCluster .record
  unfold State.freeSpare
  dsimp only
  split
  · exact (hfree.modCluster .record).claim _
  · exact hfree.heldAdvance

theorem spareBack (h : Continues cl r s) (k : Nat) : Continues cl r (s.spareBack cl k) := by
  have hback : Continues cl r (s.modCore cl k fun c =>
      { c with st := .spareReady, cause := none, home := none, probeFails := 0 }) := h.modCore k fun _ hy => ⟨hy.1, nofun⟩
  unfold State.spareBack
  dsimp only
  split
  · exact hback.freeSpare
  · split
    · exact (hback.modCluster .record).freeSpare
    · split
      · exact hback.modCluster .record
      · exact hback

end State.Continues

end Sys2Proof.Machine
end

section
/-! Ring holding: retirement, leaving, recovery and probes leave a cluster's service going (R22, R251, R260 to R264, R274). -/

namespace Sys2Proof.Machine

/-! ### A core that is retired -/

/-- A retired core. -/
def Core.retires (c : Core) : Core := { c with st := .retired, cause := none, home := none, calNew := none }

/-- No entry and no turn names core k any more. -/
def Cluster.turnless (k : Nat) (c : Cluster) : Cluster :=
  { c.unlisten k with repeatTurn := c.repeatTurn.filter (· ≠ k) }

/-- The spare serves core k no longer. -/
def Cluster.unclaimed (k : Nat) (c : Cluster) : Cluster :=
  if c.spareFor.any fun y => y.1 = k then
    { c with spareFor := none, copyEnd := none, spareNext := none, waiting := c.waiting ++ c.spareNext.toList }
  else c

/-- The wear spare is called where no spare is ready or a claim waits. -/
def Cluster.recalled (now : Nat) (c : Cluster) : Cluster :=
  if c.readySpare.isNone || !c.waiting.isEmpty then c.callWear now else c

theorem State.retireCore_eq (s : State) (cl k : Nat) : ∃ n, s.retireCore cl k =
    (((s.modCore cl k Core.retires).modCluster cl fun c =>
      ((c.turnless k).unclaimed k).recalled s.now).ringEvent 0x8028 cl k 0 n).retireCheck cl := ⟨_, rfl⟩

theorem Cluster.Continues.turnless (k : Nat) (c : Cluster) : c.Continues (c.turnless k) := (unlisten k).trans record

theorem Cluster.Continues.unclaimed (k : Nat) (c : Cluster) : c.Continues (c.unclaimed k) := ite record (refl c)

theorem Cluster.Continues.recalled (now : Nat) (c : Cluster) : c.Continues (c.recalled now) := ite (callWear now) (refl c)

namespace State.Continues

variable {cl : Nat} {r s : State}

theorem retireCore (h : Continues cl r s) (k : Nat) : Continues cl r (s.retireCore cl k) := by
  obtain ⟨n, hn⟩ := s.retireCore_eq cl k
  rw [hn]
  have hretired : Continues cl r (s.modCore cl k Core.retires) := h.modCore k fun _ hy => ⟨hy.1, nofun⟩
  exact ((hretired.modCluster (((Cluster.Continues.turnless k _).trans (.unclaimed k _)).trans
    (.recalled s.now _))).keeps State.ringEvent_keeps (by decide)).retireCheck

theorem mend (h : Continues cl r s) (k : Nat) : Continues cl r (s.mend cl k) := by
  unfold State.mend
  dsimp only
  split
  · split
    · exact h
    · exact modCore (h.keeps State.wears_keeps (by decide)) k fun _ hy => hy
  · exact h

theorem moveRing (h : Continues cl r s) (k i : Nat) (d : Int) : Continues cl r (s.moveRing cl k i d) := by
  unfold State.moveRing
  dsimp only
  split
  · exact h
  · exact h.modCore k fun _ hy => hy

theorem each {α : Type} {f : State → α → State} (hf : ∀ z a, Continues cl r z → Continues cl r (f z a)) (xs : List α)
    (h : Continues cl r s) : Continues cl r (s.each xs f) := by
  induction xs generalizing s with
  | nil => exact h
  | cons x xs ih => exact ih (hf s x h)

theorem moveMislocked (h : Continues cl r s) (k : Nat) : Continues cl r (s.moveMislocked cl k) :=
  (each (fun _ _ hz => hz.moveRing k _ _) _ h).modCore k fun _ hy => hy

theorem leave (h : Continues cl r s) (k : Nat) (home : Option Nat) : Continues cl r (s.leave cl k home) := by
  unfold State.leave
  dsimp only
  split
  · split
    · exact h.retireCore k
    · refine mend ?_ k
      exact h.modCore k fun _ hy => ⟨hy.1, nofun⟩
  · exact h.retireCore k
  · split
    · exact h.retireCore k
    · refine moveMislocked (mend ?_ k) k
      exact h.modCore k fun _ hy => ⟨hy.1, nofun⟩
  · split
    · exact h.retireCore k
    · refine moveMislocked (mend ?_ k) k
      exact h.modCore k fun _ hy => ⟨hy.1, nofun⟩
  · exact h.modCore k fun _ hy => ⟨hy.1, nofun⟩

theorem movePos (h : Continues cl r s) (p a b ready : Nat) : Continues cl r (s.movePos cl p a b ready) := by
  rw [State.movePos_eq]
  refine modCluster ?_ (.trans (.trans .record (.dropRoutes [a, b])) (.unlisten b))
  refine modCore (modCore h b ?_) a ?_
  · exact fun _ hy => hy
  · exact fun _ hy => hy

/-! ### Checks and recoveries -/

theorem strike (h : Continues cl r s) (k : Nat) (cause : LeaveCause) : Continues cl r (s.strike cl k cause) := by
  have hleaves : Continues cl r (s.modCore cl k (Core.depart cause)) := h.modCore k fun _ hy => ⟨hy.1, nofun⟩
  unfold State.strike
  dsimp only
  split
  · split
    · refine modCluster ?_ (.listened none (g := fun d => { d with slot := _, repeatTurn := _ }) fun _ => .record)
      exact hleaves.modCore _ fun _ hy => hy
    · exact hleaves
  · exact hleaves

theorem spareLost (h : Continues cl r s) (k : Nat) : Continues cl r (s.spareLost cl k) := by
  unfold State.spareLost
  dsimp only
  split
  · split
    · exact modCluster (h.yieldClaim _) .record
    · exact h
  · exact h

theorem modSlot (h : Continues cl r s) (k : Nat) (f : CalSlot → CalSlot) :
    Continues cl r (s.modCluster cl (Cluster.modSlot k f)) := h.modCluster .record

theorem mislocked (h : Continues cl r s) (k : Nat) (xs : List (Nat × Int)) : Continues cl r (s.mislocked cl k xs) := by
  have hrings (c : Core) (hc : c.Warmed) :
      (xs.foldl (fun c x => c.setRing x.1 { c.ring x.1 with mislock := x.2, found := true }) c).Warmed := by
    induction xs generalizing c with
    | nil => exact hc
    | cons x xs ih => exact ih _ hc
  unfold State.mislocked
  split
  · exact h
  · dsimp only
    have hraised : Continues cl r (if (s.core cl k).mislockActs then s.raiseMislock cl k xs else s) := by
      split
      · exact h.keeps State.raiseMislock_keeps (by decide)
      · exact h
    generalize (if (s.core cl k).mislockActs then s.raiseMislock cl k xs else s) = y at hraised
    have hfound := (hraised.modCluster (g := fun c => { c with mislocks := satAdd c.mislocks xs.length }) .record).modCore k
      hrings
    generalize (State.modCore _ cl k _) = z at hfound ⊢
    split
    · exact hfound.strike k _
    · exact hfound.strike k _
    · exact (hfound.modSlot k _).moveMislocked k
    · refine moveMislocked ?_ k
      exact modCore (hfound.spareLost k) k fun _ hy => ⟨hy.1, nofun⟩
    · refine moveMislocked ?_ k
      exact hfound.modCluster .record
    · exact hfound

theorem checked (h : Continues cl r s) (k : Nat) (xs : List (Nat × Int)) : Continues cl r (s.checked cl k xs) := by
  refine mislocked ?_ k xs
  exact h.modCore k fun _ hy => hy

theorem verified (h : Continues cl r s) (k : Nat) : Continues cl r (s.verified cl k) := by
  refine checked ?_ k []
  exact h.modCore k fun _ hy => hy

theorem recovered (h : Continues cl r s) (k : Nat) : Continues cl r (s.recovered cl k) := by
  unfold State.recovered
  split
  · split
    · exact h.modCluster .record
    · exact h
  · exact h.spareBack k

theorem recoveryFailed (h : Continues cl r s) (k : Nat) (wrong : List (Nat × Int)) :
    Continues cl r (s.recoveryFailed cl k wrong) := by
  unfold State.recoveryFailed
  dsimp only
  split
  · exact modCore (h.checked k wrong) k fun _ hy => hy
  · exact modCluster ((h.checked k wrong).retireCore k) .record

theorem loseSlot (h : Continues cl r s) (x : CalSlot) : Continues cl r (s.loseSlot cl x) := by
  have hlost : Continues cl r (((s.modCluster cl fun c => { c.listen none with slot := none }).modCore cl x.core
      Core.slotOver).retireCore cl x.core) := by
    refine retireCore (modCore ?_ x.core ?_) x.core
    · exact h.modCluster (.listened none (g := fun d => { d with slot := none }) fun _ => .record)
    · exact fun _ hy => hy
  unfold State.loseSlot
  dsimp only
  split
  · exact hlost.freeSpare
  · exact hlost

theorem probeSlot (h : Continues cl r s) (k : Nat) (x : CalSlot) (seen : List (Nat × Nat)) :
    Continues cl r (s.probeSlot cl k x seen) := by
  unfold State.probeSlot
  dsimp only
  split
  · exact h
  · have hlight : Continues cl r (if x.step = .calibrate then
        s.modCluster cl (Cluster.modSlot k fun x => { x with light := x.light + 64 }) else s) := by
      split
      · exact h.modSlot k _
      · exact h
    generalize (if x.step = .calibrate then
        s.modCluster cl (Cluster.modSlot k fun x => { x with light := x.light + 64 }) else s) = z at hlight ⊢
    split
    · exact hlight
    · split
      · refine modSlot ?_ k _
        exact modCore (hlight.verified k) k fun _ hy => hy
      · generalize (z.core cl k).probeFails + (if x.recFrom.isSome then 1 else 0) = n
        have hchecked : Continues cl r ((z.checked cl k (probeWrong seen)).modCore cl k fun c => { c with probeFails := n }) :=
          modCore (hlight.checked k (probeWrong seen)) k fun _ hy => hy
        generalize (z.checked cl k (probeWrong seen)).modCore cl k (fun c => { c with probeFails := n }) = w at hchecked ⊢
        split
        · split
          · exact hchecked
          · exact hchecked.loseSlot _
        · exact hchecked

end State.Continues

end Sys2Proof.Machine
end

section
/-! Ring holding: what retiring or leaving one core leaves of the others and of the switch map; a full calibration's faults;
the wear spare in use (R22, R25, R37, R251, R264). -/

namespace Sys2Proof.Machine

/-! ### Changes of one core -/

/-- In cluster d all is as it was in c but for core k and the claims: other cores, positions, the wear spare, the count of
mislocked rings; the spare serves no new claim. -/
structure Cluster.Apart (k : Nat) (c d : Cluster) : Prop where
  core : ∀ j, j ≠ k → d.core j = c.core j
  phys : ∀ p, d.phys p = c.phys p
  wear : d.wear = c.wear
  mislocks : d.mislocks = c.mislocks
  spareFor : c.spareFor = none → d.spareFor = none

namespace Cluster.Apart

variable {k : Nat} {c d e : Cluster}

theorem refl (k : Nat) (c : Cluster) : c.Apart k c := ⟨fun _ _ => rfl, fun _ => rfl, rfl, rfl, id⟩

theorem trans (h : c.Apart k d) (g : d.Apart k e) : c.Apart k e where
  core j hj := (g.core j hj).trans (h.core j hj)
  phys p := (g.phys p).trans (h.phys p)
  wear := g.wear.trans h.wear
  mislocks := g.mislocks.trans h.mislocks
  spareFor hc := g.spareFor (h.spareFor hc)

theorem ite {p : Prop} [Decidable p] (hd : c.Apart k d) (he : c.Apart k e) : c.Apart k (if p then d else e) := by
  split
  · exact hd
  · exact he

theorem modCore (f : Core → Core) : c.Apart k (c.modCore k f) where
  core j hj := by rw [Cluster.modCore_set, Cluster.core_setCore, if_neg hj]
  phys p := by rw [Cluster.modCore_set, Cluster.phys_setCore]
  wear := rfl
  mislocks := rfl
  spareFor := id

theorem callWear (now : Nat) : c.Apart k (c.callWear now) := by
  unfold Cluster.callWear
  split
  · exact ⟨fun _ _ => rfl, fun _ => rfl, rfl, rfl, id⟩
  · exact ⟨fun _ _ => rfl, fun _ => rfl, rfl, rfl, id⟩

theorem waits (c : Cluster) (xs : List (Nat × ClaimRank)) : c.Apart k { c with waiting := xs } :=
  ⟨fun _ _ => rfl, fun _ => rfl, rfl, rfl, id⟩

theorem toWear (now : Nat) (x : Nat × ClaimRank) : c.Apart k (c.toWear now x) := (callWear now).trans (waits _ _)

theorem unlisten (a : Nat) : c.Apart k (c.unlisten a) where
  core j _ := c.core_eachFeeder _ j
  phys p := c.phys_eachFeeder _ p
  wear := rfl
  mislocks := rfl
  spareFor := id

theorem turnless : c.Apart k (c.turnless k) :=
  (unlisten k).trans ⟨fun _ _ => rfl, fun _ => rfl, rfl, rfl, id⟩

theorem unclaimed : c.Apart k (c.unclaimed k) :=
  ite ⟨fun _ _ => rfl, fun _ => rfl, rfl, rfl, fun _ => rfl⟩ (refl k c)

theorem recalled (now : Nat) : c.Apart k (c.recalled now) := ite (callWear now) (refl k c)

end Cluster.Apart

/-- In state s cluster cl is as it was in r but for core k and the claims. -/
def State.Apart (cl k : Nat) (r s : State) : Prop := (r.cluster cl).Apart k (s.cluster cl)

namespace State.Apart

variable {cl k : Nat} {r s : State}

theorem refl (cl k : Nat) (s : State) : Apart cl k s s := Cluster.Apart.refl _ _

theorem core (h : Apart cl k r s) {j : Nat} (hj : j ≠ k) : s.core cl j = r.core cl j := Cluster.Apart.core h j hj

theorem keeps {L : List Part} {x : State} (h : Apart cl k r s) (hs : State.Keeps L s x) (hL : Part.clusters ∉ L) :
    Apart cl k r x := by
  unfold Apart
  rw [hs.cluster_eq hL]
  exact h

theorem modCluster {g : Cluster → Cluster} (h : Apart cl k r s) (hg : (s.cluster cl).Apart k (g (s.cluster cl))) :
    Apart cl k r (s.modCluster cl g) := by
  unfold Apart
  rw [State.cluster_modCluster]
  exact h.trans hg

theorem modCore (h : Apart cl k r s) (f : Core → Core) : Apart cl k r (s.modCore cl k f) := h.modCluster (.modCore f)

theorem retireCheck (h : Apart cl k r s) : Apart cl k r (s.retireCheck cl) := by
  unfold State.retireCheck
  dsimp only
  split
  · exact h.modCluster ⟨fun _ _ => rfl, fun _ => rfl, rfl, rfl, id⟩
  · exact h

theorem claimWear (h : Apart cl k r s) (x : Nat × ClaimRank) : Apart cl k r (s.claimWear cl x) :=
  (h.modCluster (.toWear s.now x)).retireCheck

theorem retireCore (h : Apart cl k r s) : Apart cl k r (s.retireCore cl k) := by
  obtain ⟨n, hn⟩ := s.retireCore_eq cl k
  rw [hn]
  exact (((h.modCore Core.retires).modCluster ((Cluster.Apart.turnless.trans .unclaimed).trans (.recalled s.now))).keeps
    State.ringEvent_keeps (by decide)).retireCheck

theorem mend (h : Apart cl k r s) : Apart cl k r (s.mend cl k) := by
  unfold State.mend
  dsimp only
  split
  · split
    · exact h
    · exact (h.keeps State.wears_keeps (by decide)).modCore _
  · exact h

theorem moveRing (h : Apart cl k r s) (i : Nat) (d : Int) : Apart cl k r (s.moveRing cl k i d) := by
  unfold State.moveRing
  dsimp only
  split
  · exact h
  · exact h.modCore _

theorem each {α : Type} {f : State → α → State} (hf : ∀ z a, Apart cl k r z → Apart cl k r (f z a)) (xs : List α)
    (h : Apart cl k r s) : Apart cl k r (s.each xs f) := by
  induction xs generalizing s with
  | nil => exact h
  | cons x xs ih => exact ih (hf s x h)

theorem moveMislocked (h : Apart cl k r s) : Apart cl k r (s.moveMislocked cl k) :=
  modCore (each (fun _ _ hz => hz.moveRing _ _) _ h) _

theorem leave (h : Apart cl k r s) (home : Option Nat) : Apart cl k r (s.leave cl k home) := by
  unfold State.leave
  dsimp only
  split
  · split
    · exact h.retireCore
    · exact (h.modCore _).mend
  · exact h.retireCore
  · split
    · exact h.retireCore
    · exact (h.modCore _).mend.moveMislocked
  · split
    · exact h.retireCore
    · exact (h.modCore _).mend.moveMislocked
  · exact h.modCore _

end State.Apart

/-! ### States of single cores -/

section

variable {s : State} {cl k : Nat}

theorem Cluster.core_retiring (c : Cluster) (k : Nat) :
    ({ c with retired := true, permit := false } : Cluster).core k = c.core k := rfl

theorem State.retireCheck_core (s : State) (cl k : Nat) : (s.retireCheck cl).core cl k = s.core cl k := by
  have hretiring : (s.modCluster cl fun c => { c with retired := true, permit := false }).core cl k = s.core cl k :=
    (State.core_modCluster ..).trans (Cluster.core_retiring _ k)
  unfold State.retireCheck
  dsimp only
  split
  · exact hretiring
  · rfl

theorem Cluster.callWear_core (now k : Nat) (c : Cluster) : (c.callWear now).core k = c.core k := by
  unfold Cluster.callWear
  split <;> rfl

theorem State.claimWear_core (s : State) (cl k : Nat) (x : Nat × ClaimRank) : (s.claimWear cl x).core cl k = s.core cl k := by
  unfold State.claimWear
  rw [State.retireCheck_core, State.core_modCluster]
  exact Cluster.callWear_core ..

theorem State.retireCore_core (s : State) (cl k : Nat) : (s.retireCore cl k).core cl k = (s.core cl k).retires := by
  obtain ⟨n, hn⟩ := s.retireCore_eq cl k
  have hclaims (c : Cluster) : (((c.turnless k).unclaimed k).recalled s.now).core k = c.core k := by
    have hrecalled (d : Cluster) : (d.recalled s.now).core k = d.core k := by
      unfold Cluster.recalled
      split
      · exact d.callWear_core ..
      · rfl
    have hunclaimed (d : Cluster) : (d.unclaimed k).core k = d.core k := by
      unfold Cluster.unclaimed
      split <;> rfl
    have hturns (d : Cluster) (xs : List Nat) : ({ d with repeatTurn := xs } : Cluster).core k = d.core k := rfl
    rw [hrecalled, hunclaimed]
    exact (hturns _ _).trans (c.core_eachFeeder _ k)
  rw [hn, State.retireCheck_core, State.ringEvent_keeps.core_eq (by decide), State.core_modCluster, hclaims]
  exact State.core_modCore

theorem State.mend_st (s : State) (cl k j : Nat) : ((s.mend cl k).core cl j).st = (s.core cl j).st := by
  rcases Decidable.em (j = k) with rfl | hj
  · unfold State.mend
    dsimp only
    split
    · split
      · rfl
      · rw [State.core_modCore]
        rfl
    · rfl
  · rw [(State.Apart.refl cl k s).mend.core hj]

end

/-! ### What a full calibration finds failed -/

/-- The engines of core k that a full calibration with index n finds failed anew. -/
def State.newFaults (s : State) (cl n k : Nat) : List Nat :=
  (s.core cl k).engines.filter fun e => Config.calFails n cl k e && !(s.core cl k).engFailed.contains e

/-- Core k with the engines marked that a full calibration finds failed. -/
def State.faultsFound (s : State) (cl n k : Nat) : State :=
  s.modCore cl k fun y => { y with engFailed := y.engFailed ++ s.newFaults cl n k }

/-- A core that must leave for good once another can take its position. -/
def Core.mustGo (c : Core) : Core := { c with st := .leaving, cause := some .retire }

/-- All that a full calibration can do about a core's engines: nothing; hand its position to a ready spare and retire it; keep
it, leaving, until the wear spare comes; retire it without a position; bring in the engine spare. -/
theorem State.calFaults_cases (s : State) (cl n k : Nat) :
    s.calFaults cl n k = s ∨ (s.core cl k).warm = true ∧ let z := s.faultsFound cl n k
      (∃ p sp, (z.cluster cl).posOf k = some p ∧ (z.cluster cl).readySpare = some sp ∧
        s.calFaults cl n k = (((z.movePos cl p k sp s.now).wears 1).modCore cl sp Core.serves).retireCore cl k) ∨
      s.calFaults cl n k = (z.modCore cl k Core.mustGo).claimWear cl (k, .retirement) ∨
      s.calFaults cl n k = z.retireCore cl k ∨
      ∃ w, State.Keeps [.chans] (z.mend cl k) w ∧ s.calFaults cl n k = w := by
  unfold State.calFaults
  dsimp only
  split
  case isTrue => exact .inl rfl
  case isFalse hfound =>
    refine .inr ⟨by simp_all, ?_⟩
    split
    case isTrue =>
      split
      case h_1 p sp hpos hspare => exact .inl ⟨p, sp, hpos, hspare, rfl⟩
      case h_2 => exact .inr (.inl rfl)
      case h_3 => exact .inr (.inr (.inl rfl))
    case isFalse =>
      refine .inr (.inr (.inr ⟨_, ?_, rfl⟩))
      split
      · exact State.ringEvent_keeps
      · exact .rfl

end Sys2Proof.Machine
end

section
/-! Ring holding: full calibrations, the wear spare's service, probe checks and struck cores (R22, R25, R37, R109, R260 to
R264, R274). -/

namespace Sys2Proof.Machine

/-! ### Full calibrations -/

@[simp] theorem Core.fullCal_calibrated (b : CalBase) (heat : Int) (mash : Option Nat) (c : Core) :
    (c.fullCal b heat mash).calibrated = true := by
  unfold Core.fullCal
  cases mash <;> rfl

@[simp] theorem Core.fullCal_st (b : CalBase) (heat : Int) (mash : Option Nat) (c : Core) :
    (c.fullCal b heat mash).st = c.st := by
  unfold Core.fullCal
  cases mash <;> rfl

theorem State.Continues.calFaults {cl : Nat} {r s : State} (h : Continues cl r s) (n k : Nat) :
    Continues cl r (s.calFaults cl n k) := by
  have hfound : Continues cl r (s.faultsFound cl n k) := h.modCore k fun _ hy => hy
  rcases s.calFaults_cases cl n k with hstays | ⟨-, ⟨p, sp, -, hspare, hmoves⟩ | hwaits | hretires | ⟨w, hkeeps, hmends⟩⟩
  · rw [hstays]
    exact h
  · have hserves (y : Core) (hy : y.Warmed) : y.serves.Warmed := by
      refine ⟨hy.1, ?_⟩
      unfold Core.serves Core.serviceState
      dsimp only
      split <;> nofun
    rw [hmoves]
    exact retireCore (modCore ((hfound.movePos p k sp _).keeps State.wears_keeps (by decide)) sp hserves) k
  · rw [hwaits]
    refine claimWear ?_ _
    exact hfound.modCore k fun _ hy => ⟨hy.1, nofun⟩
  · rw [hretires]
    exact hfound.retireCore k
  · rw [hmends]
    exact (hfound.mend k).keeps hkeeps (by decide)

/-! ### The relock of a cluster -/

theorem Cluster.st_of_readySpare {c : Cluster} {sp : Nat} (h : c.readySpare = some sp) : (c.core sp).st = .spareReady := by
  unfold Cluster.readySpare at h
  dsimp only at h
  split at h
  case isTrue hready =>
    rw [← Option.some.inj h]
    exact of_decide_eq_true hready
  case isFalse => simpa using List.find?_some h

theorem Cluster.phys_of_posOf {c : Cluster} {k p : Nat} (h : c.posOf k = some p) : c.phys p = k := by
  unfold Cluster.posOf at h
  simpa using List.find?_some h

/-- Every position of cluster cl is on the core that the map m names, or that core is retired. -/
def State.Positions (cl : Nat) (m : Nat → Nat) (s : State) : Prop :=
  ∀ p, (s.cluster cl).phys p = m p ∨ (s.core cl (m p)).st = .retired

theorem State.Positions.mono {cl : Nat} {m : Nat → Nat} {s z : State} (h : s.Positions cl m)
    (hphys : ∀ p, (z.cluster cl).phys p = (s.cluster cl).phys p ∨ (z.core cl ((s.cluster cl).phys p)).st = .retired)
    (hst : ∀ j, (s.core cl j).st = .retired → (z.core cl j).st = .retired) : z.Positions cl m := by
  intro p
  rcases h p with hp | hp
  · rw [← hp]
    exact hphys p
  · exact .inr (hst _ hp)

/-- What a full calibration finds moves a position only from a core that it retires. -/
theorem State.Positions.calFaults {cl : Nat} {m : Nat → Nat} {s : State} (h : s.Positions cl m) (n k : Nat) :
    (s.calFaults cl n k).Positions cl m := by
  have hmark : State.Apart cl k s (s.faultsFound cl n k) := (State.Apart.refl cl k s).modCore _
  have hst (j : Nat) : ((s.faultsFound cl n k).core cl j).st = (s.core cl j).st := by
    rcases Decidable.em (j = k) with rfl | hj
    · exact (congrArg Core.st State.core_modCore).trans rfl
    · rw [hmark.core hj]
  have hfound : (s.faultsFound cl n k).Positions cl m :=
    h.mono (fun p => .inl (hmark.phys p)) fun j hj => (hst j).trans hj
  rcases s.calFaults_cases cl n k with
    hstays | ⟨hwarm, ⟨p, sp, hpos, hspare, hmoves⟩ | hwaits | hretires | ⟨w, hkeeps, hmends⟩⟩
  · rw [hstays]
    exact h
  · rw [hmoves]
    generalize s.faultsFound cl n k = z at hfound hpos hspare
    have hretired : State.Apart cl k (((z.movePos cl p k sp s.now).wears 1).modCore cl sp Core.serves)
        ((((z.movePos cl p k sp s.now).wears 1).modCore cl sp Core.serves).retireCore cl k) := (State.Apart.refl ..).retireCore
    refine hfound.mono (fun q => ?_) fun j hj => ?_
    · have hphys : ((((z.movePos cl p k sp s.now).wears 1).modCore cl sp Core.serves).cluster cl).phys q =
          if q = p then sp else (z.cluster cl).phys q := by
        rw [State.cluster_modCore, Cluster.modCore_set, Cluster.phys_setCore, State.wears_keeps.cluster_eq (by decide),
          State.movePos_phys]
      rcases Decidable.em (q = p) with rfl | hq
      · right
        rw [Cluster.phys_of_posOf hpos, State.retireCore_core]
        rfl
      · left
        rw [hretired.phys, hphys, if_neg hq]
    · rcases Decidable.em (j = k) with rfl | hjk
      · rw [State.retireCore_core]
        rfl
      · have hready : (z.core cl sp).st = .spareReady := Cluster.st_of_readySpare hspare
        have hjsp : j ≠ sp := fun heq => by simp [heq, hready] at hj
        rw [hretired.core hjk, State.core_modCore_ne _ _ hjsp, State.wears_keeps.core_eq (by decide),
          State.movePos_core_else _ _ _ _ hjk hjsp]
        exact hj
  · rw [hwaits]
    have hwaiting : State.Apart cl k (s.faultsFound cl n k)
        (((s.faultsFound cl n k).modCore cl k Core.mustGo).claimWear cl (k, .retirement)) :=
      ((State.Apart.refl ..).modCore _).claimWear _
    refine hfound.mono (fun p => .inl (hwaiting.phys p)) fun j hj => ?_
    have hjk : j ≠ k := fun heq => by simp [Core.warm, ← heq, (hst j).symm.trans hj] at hwarm
    rw [hwaiting.core hjk]
    exact hj
  · rw [hretires]
    have hretired : State.Apart cl k (s.faultsFound cl n k) ((s.faultsFound cl n k).retireCore cl k) :=
      (State.Apart.refl ..).retireCore
    refine hfound.mono (fun p => .inl (hretired.phys p)) fun j hj => ?_
    rcases Decidable.em (j = k) with rfl | hjk
    · rw [State.retireCore_core]
      rfl
    · rw [hretired.core hjk]
      exact hj
  · rw [hmends]
    have hmend : State.Apart cl k (s.faultsFound cl n k) w := (State.Apart.refl ..).mend.keeps hkeeps (by decide)
    refine hfound.mono (fun p => .inl (hmend.phys p)) fun j hj => ?_
    rw [hkeeps.core_eq (by decide), State.mend_st]
    exact hj

theorem State.calFaults_spareFor {s : State} {cl : Nat} (h : (s.cluster cl).spareFor = none) (n k : Nat) :
    ((s.calFaults cl n k).cluster cl).spareFor = none := by
  have hmark : State.Apart cl k s (s.faultsFound cl n k) := (State.Apart.refl cl k s).modCore _
  rcases s.calFaults_cases cl n k with hstays | ⟨-, ⟨p, sp, -, -, hmoves⟩ | hwaits | hretires | ⟨w, hkeeps, hmends⟩⟩
  · rw [hstays]
    exact h
  · rw [hmoves]
    refine (State.Apart.refl cl k _).retireCore.spareFor ?_
    have hcore (c : Cluster) (j : Nat) (f : Core → Core) : (c.modCore j f).spareFor = c.spareFor := rfl
    have hmoved (c : Cluster) : (((c.setPhys p sp).dropRoutes [k, sp]).unlisten sp).spareFor = c.spareFor := rfl
    rw [State.cluster_modCore, hcore, State.wears_keeps.cluster_eq (by decide), State.movePos_eq, State.cluster_modCluster,
      hmoved, State.cluster_modCore, hcore, State.cluster_modCore, hcore]
    exact hmark.spareFor h
  · rw [hwaits]
    exact ((hmark.modCore _).claimWear _).spareFor h
  · rw [hretires]
    exact hmark.retireCore.spareFor h
  · rw [hmends]
    exact (hmark.mend.keeps hkeeps (by decide)).spareFor h

end Sys2Proof.Machine
end

section
/-! Ring holding: the wear spare in use, probe checks, struck cores, and the end of a restart (R22, R25, R109, R260 to R264,
R274, R431, R438). -/

namespace Sys2Proof.Machine

/-! ### The wear spare -/

section

variable {s : State} {cl w : Nat}

theorem Cluster.nextClaim_none {c : Cluster} (h : c.waiting = []) : c.nextClaim = none := by
  simp [Cluster.nextClaim, h]

theorem Core.serves_warmed {y : Core} (h : y.Warmed) : y.serves.Warmed := by
  refine ⟨h.1, ?_⟩
  unfold Core.serves Core.serviceState
  dsimp only
  split <;> nofun

theorem State.Continues.useWear {r : State} (h : Continues cl r s) (w : Nat) : Continues cl r (s.useWear cl w) := by
  unfold State.useWear
  dsimp only
  split
  case h_1 x _ =>
    split
    · split
      · refine leave (modCore (modCluster (movePos ?_ _ _ _ _) .record) w fun _ hy => Core.serves_warmed hy) x.1 _
        split
        · split
          · exact h.dropSlot _
          · exact h
        · exact h
      · exact h
    · exact h.modCluster .record
  case h_2 =>
    split
    · exact freeSpare (h.modCluster .record)
    · exact h.modCluster .record

theorem State.freeSpare_idle (hwaiting : (s.cluster cl).waiting = []) (hadv : (s.cluster cl).advHeld = false) :
    s.freeSpare cl = s.modCluster cl fun c => { c with spareFor := none, copyEnd := none } := by
  have hc : (s.modCluster cl fun c => { c with spareFor := none, copyEnd := none }).cluster cl =
      { s.cluster cl with spareFor := none, copyEnd := none } := State.cluster_modCluster ..
  have hnext : ((s.modCluster cl fun c => { c with spareFor := none, copyEnd := none }).cluster cl).nextClaim = none := by
    rw [hc]
    exact Cluster.nextClaim_none hwaiting
  have hheld : ((s.modCluster cl fun c => { c with spareFor := none, copyEnd := none }).cluster cl).advHeld = false := by
    rw [hc]
    exact hadv
  unfold State.freeSpare State.heldAdvance
  simp only [hnext, hheld, Bool.false_and, Bool.false_eq_true, if_false]

/-- A warm core w, with no claim waiting and no spare ready, becomes the rotation spare. -/
theorem State.useWear_idle (hwaiting : (s.cluster cl).waiting = []) (hadv : (s.cluster cl).advHeld = false)
    (hfor : (s.cluster cl).spareFor = none) (hspare : ((s.cluster cl).core (s.cluster cl).spareCore).st ≠ .spareReady) :
    (s.useWear cl w).cluster cl =
      { s.cluster cl with wear := none, wearWarm := none, spareCore := w, spareFor := none, copyEnd := none } := by
  have hc : (s.modCluster cl fun c => { c with wear := none, wearWarm := none, spareCore := w }).cluster cl =
      { s.cluster cl with wear := none, wearWarm := none, spareCore := w } := State.cluster_modCluster ..
  unfold State.useWear
  simp only [Cluster.nextClaim_none hwaiting]
  rw [if_pos (by simpa [hfor] using hspare), State.freeSpare_idle (by rw [hc]; exact hwaiting) (by rw [hc]; exact hadv),
    State.cluster_modCluster, hc]

/-- The wear spare w takes the position of the core whose claim ranks highest. -/
theorem State.useWear_claim {x : Nat × ClaimRank} {p : Nat} (hclaim : (s.cluster cl).nextClaim = some x)
    (hpos : (s.cluster cl).posOf x.1 = some p) (hdone : (s.cluster cl).tilesDone x.1 = true)
    (hslot : (s.cluster cl).slot = none) : ∃ home, s.useWear cl w =
      (((s.movePos cl p x.1 w (s.now + 73 * Config.ns)).modCluster cl fun c =>
        { c with wear := none, wearWarm := none, waiting := c.waiting.erase x }).modCore cl w Core.serves).leave cl x.1 home := by
  unfold State.useWear
  simp only [hclaim, hpos, hslot]
  rw [if_pos hdone]
  exact ⟨_, rfl⟩

/-- A cold wear spare whose heaters have ramped warms up, and what follows leaves it warm. -/
theorem effectWearSpareReady_cold {e : Nat} (hwarm : (s.cluster cl).wearWarm = some e) (hwear : (s.cluster cl).wear = some w)
    (hup : (s.cluster cl).up = true) (hdue : e ≤ s.now) (hcold : ((s.cluster cl).core w).st = .cold)
    (hramped : ramped (s.cluster cl).wearLim (s.cluster cl).lockDraw cl (e - 250 * Config.ms) s.now = true) :
    State.Continues cl (s.warmUp cl w) (effectWearSpareReady cl s) := by
  unfold effectWearSpareReady
  simp only [hwarm, hwear, if_pos hcold, hramped]
  rw [if_pos (by simp [hdue, hup])]
  have hwarmed := State.Continues.refl cl (s.warmUp cl w)
  split
  · exact hwarmed.modCluster .record
  · split
    · exact hwarmed.useWear w
    · exact hwarmed

theorem effectWearSpareReady_warm {e : Nat} (hwarm : (s.cluster cl).wearWarm = some e) (hwear : (s.cluster cl).wear = some w)
    (hup : (s.cluster cl).up = true) (hdue : e ≤ s.now) (hst : ((s.cluster cl).core w).st = .spareReady)
    (hready : ((s.cluster cl).core w).ready ≤ s.now) : effectWearSpareReady cl s = s.useWear cl w := by
  have hcore : s.core cl w = (s.cluster cl).core w := rfl
  unfold effectWearSpareReady
  simp only [hwarm, hwear, hst, reduceCtorEq, if_false]
  rw [if_pos (by simp [hdue, hup, hready]), if_neg (by rw [hcore, hst]; nofun), hcore, if_pos hready]

/-- The wear spare is calibrated once it is warm. -/
theorem State.warmUp_warmed (s : State) (cl w : Nat) : ((s.warmUp cl w).core cl w).Warmed := by
  unfold State.warmUp
  dsimp only
  refine (State.Continues.refl cl _).calFaults _ w |>.warmed w ?_
  rw [State.wears_keeps.cluster_eq (by decide)]
  refine (congrArg Core.Warmed State.core_modCore).mpr ⟨Core.fullCal_calibrated .., ?_⟩
  rw [Core.fullCal_st]
  nofun

end

/-! ### Probe packets -/

section

variable {s : State} {cl f k : Nat} {seen : List (Nat × Nat)}

/-- The state once a probe packet lights core k. -/
def State.probed (s : State) (cl f k : Nat) : State :=
  let z := s.modCluster cl (Cluster.probe s.now f k)
  z.modCore cl k (Core.holdTest (z.calBase cl k) s.now)

theorem effectProbePacket_continues (hmay : s.mayProbe cl f k = true) :
    State.Continues cl (s.probed cl f k) (effectProbePacket cl f k seen s) := by
  unfold effectProbePacket
  rw [if_pos hmay]
  dsimp only
  generalize hz : State.modCore _ cl k _ = z
  have hprobed : State.Continues cl (s.probed cl f k) z := by
    rw [← hz]
    exact .refl cl _
  split
  · split
    · exact hprobed
    · split
      · exact (hprobed.verified k).recovered k
      · exact hprobed.recoveryFailed k _
  · exact hprobed.probeSlot k _ seen
  · split
    · exact hprobed.verified k
    · split
      · exact hprobed
      · exact hprobed.checked k _

theorem State.probed_core : (s.probed cl f k).core cl k =
    (s.core cl k).holdTest ((s.modCluster cl (Cluster.probe s.now f k)).calBase cl k) s.now := by
  have hcore : (s.modCluster cl (Cluster.probe s.now f k)).core cl k = s.core cl k := by
    rw [State.core_modCluster]
    exact (Cluster.core_setFeeder ..).trans (Cluster.core_eachFeeder ..)
  unfold State.probed
  dsimp only
  rw [State.core_modCore, hcore]

theorem State.probed_feeder : ((s.probed cl f k).feeder cl f).probe = some (k, (s.cluster cl).probeEnd s.now f k) ∧
    ((s.probed cl f k).feeder cl f).notBefore = (s.cluster cl).probeEnd s.now f k ∧
    ((s.probed cl f k).feeder cl f).listener = some k := by
  have hfeeder : (s.probed cl f k).feeder cl f = { (s.cluster cl).probeEntry f k with
      probe := some (k, (s.cluster cl).probeEnd s.now f k), notBefore := (s.cluster cl).probeEnd s.now f k
      route := some [k] } := by
    unfold State.probed State.feeder
    dsimp only
    rw [State.cluster_modCore, Cluster.modCore_set, Cluster.feeder_setCore, State.cluster_modCluster]
    exact (Cluster.feeder_setFeeder ..).trans (if_pos rfl)
  rw [hfeeder]
  exact ⟨rfl, rfl, Feeder.listen_listener ..⟩

/-- The moment of a check: time of day in s and ns, angle cycle. -/
def State.moment (s : State) : Nat × Nat × Nat := ((s.ang.todSeconds s.now).toNat, s.ang.todNanos s.now, s.ang.cycLo.toNat)

theorem State.checked_nil : s.checked cl k [] = s.modCore cl k (Core.noteCheck s.moment []) := rfl

/-- The probe check of a ready spare. -/
theorem effectProbePacket_spare (hmay : s.mayProbe cl f k = true) (hst : (s.core cl k).st = .spareReady) :
    effectProbePacket cl f k seen s = if probePassed seen then (s.probed cl f k).verified cl k
      else if (probeWrong seen).isEmpty then s.probed cl f k else (s.probed cl f k).checked cl k (probeWrong seen) := by
  have hprobed : ((s.probed cl f k).core cl k).st = .spareReady := (congrArg Core.st State.probed_core).trans hst
  unfold effectProbePacket
  rw [if_pos hmay]
  dsimp only
  generalize hz : State.modCore _ cl k _ = z
  obtain rfl : z = s.probed cl f k := hz.symm
  simp only [hprobed]

theorem probePassed_of_wrong (h : probeWrong seen ≠ []) : probePassed seen = false := by
  by_contra hpassed
  have hall := List.all_eq_true.1 (Bool.eq_true_of_not_eq_false hpassed)
  exact h (List.filterMap_eq_nil_iff.2 fun x hx => if_pos (by simp [of_decide_eq_true (hall x hx)]))

/-! ### Mislocked rings of a ready spare -/

theorem State.dropSlot_mislocks (x : CalSlot) : ((s.dropSlot cl x).cluster cl).mislocks = (s.cluster cl).mislocks := by
  have hcore (c : Cluster) (j : Nat) (f : Core → Core) : (c.modCore j f).mislocks = c.mislocks := rfl
  have hslot (c : Cluster) (xs : List Nat) : ({ c with slot := none, repeatTurn := xs } : Cluster).mislocks = c.mislocks := rfl
  unfold State.dropSlot
  rw [State.cluster_modCore, hcore, State.cluster_modCluster]
  exact hslot _ _

theorem State.spareLost_mislocks : ((s.spareLost cl k).cluster cl).mislocks = (s.cluster cl).mislocks := by
  have hyield (y : Nat × ClaimRank) : ((s.yieldClaim cl y).cluster cl).mislocks = (s.cluster cl).mislocks := by
    unfold State.yieldClaim
    split
    · exact State.dropSlot_mislocks _
    · rfl
    · exact ((State.Apart.refl cl k s).claimWear y).mislocks
  unfold State.spareLost
  dsimp only
  split
  · split
    · rw [State.cluster_modCluster]
      exact hyield _
    · rfl
  · rfl

theorem State.moveMislocked_st : ((s.moveMislocked cl k).core cl k).st = (s.core cl k).st := by
  have hring (z : State) (r : Nat) (d : Int) : ((z.moveRing cl k r d).core cl k).st = (z.core cl k).st := by
    unfold State.moveRing
    dsimp only
    split
    · rfl
    · exact (congrArg Core.st State.core_modCore).trans rfl
  have hrings (rs : List Nat) (g : Nat → Int) (z : State) :
      ((z.each rs fun z r => z.moveRing cl k r (g r)).core cl k).st = (z.core cl k).st := by
    induction rs generalizing z with
    | nil => rfl
    | cons r rs ih => exact (ih _).trans (hring z r _)
  exact (congrArg Core.st State.core_modCore).trans (hrings _ _ s)

theorem State.mislocked_spare {xs : List (Nat × Int)} (hxs : xs ≠ []) (hst : (s.core cl k).st = .spareReady) :
    ((s.mislocked cl k xs).core cl k).st = .recovering ∧
      ((s.mislocked cl k xs).cluster cl).mislocks = satAdd (s.cluster cl).mislocks xs.length := by
  have hrings (c : Core) :
      (xs.foldl (fun c x => c.setRing x.1 { c.ring x.1 with mislock := x.2, found := true }) c).st = c.st := by
    induction xs generalizing c with
    | nil => rfl
    | cons x xs ih =>
      rcases Decidable.em (xs = []) with rfl | hne
      · rfl
      · exact ih hne _
  unfold State.mislocked
  rw [if_neg (by simpa [List.isEmpty_iff] using hxs)]
  dsimp only
  have hy : State.Keeps [.chans] s (if (s.core cl k).mislockActs then s.raiseMislock cl k xs else s) :=
    .ite (fun _ => State.raiseMislock_keeps) fun _ => .rfl
  generalize (if (s.core cl k).mislockActs then s.raiseMislock cl k xs else s) = y at hy
  generalize hz : State.modCore _ cl k _ = z
  have hst' : (z.core cl k).st = .spareReady := by
    rw [← hz, State.core_modCore, hrings, State.core_modCluster]
    exact (congrArg Core.st (hy.core_eq (by decide) cl k)).trans hst
  have hmislocks : (z.cluster cl).mislocks = satAdd (s.cluster cl).mislocks xs.length := by
    rw [← hz, State.cluster_modCore, State.cluster_modCluster, hy.cluster_eq (by decide)]
    rfl
  simp only [hst']
  refine ⟨State.moveMislocked_st.trans (congrArg Core.st State.core_modCore), ?_⟩
  refine ((((State.Apart.refl cl k _).modCore _).moveMislocked).mislocks).trans ?_
  exact State.spareLost_mislocks.trans hmislocks

end

/-! ### Struck cores -/

section

variable {s : State} {cl k : Nat} {cause : LeaveCause}

theorem State.strike_core : ∃ v, (s.strike cl k cause).core cl k = { (s.core cl k).depart cause with calNew := v } := by
  have hleaves : (s.modCore cl k (Core.depart cause)).core cl k = (s.core cl k).depart cause := State.core_modCore
  unfold State.strike
  dsimp only
  generalize s.modCore cl k (Core.depart cause) = z at hleaves ⊢
  split
  case h_1 x _ =>
    split
    · have hslot (d : Cluster) (y : Option CalSlot) (xs : List Nat) :
          ({ d with slot := y, repeatTurn := xs } : Cluster).core k = d.core k := rfl
      rw [State.core_modCluster, hslot, Cluster.core_listen]
      rcases Decidable.em (k = x.core) with hk | hk
      · have hclear (f : Core → Core) : ((z.modCore cl x.core f).cluster cl).core k = f (z.core cl k) := by
          rw [hk]
          exact State.core_modCore
        rw [hclear, hleaves]
        exact ⟨none, rfl⟩
      · exact ⟨_, (State.core_modCore_ne z cl hk _).trans hleaves⟩
    · exact ⟨_, hleaves⟩
  case h_2 => exact ⟨_, hleaves⟩

theorem State.strike_slot {x : CalSlot} (hslot : (s.cluster cl).slot = some x) (hspare : k = (s.cluster cl).spareCore)
    (hcarried : x.carried = true) : ((s.strike cl k cause).cluster cl).slot = some { x with step := .handBack } ∧
      ((s.strike cl k cause).cluster cl).repeatTurn = (s.cluster cl).repeatTurn ++ [x.core] := by
  have hc : (s.modCore cl k (Core.depart cause)).cluster cl = (s.cluster cl).modCore k (Core.depart cause) :=
    State.cluster_modCore ..
  have hslot' : ((s.modCore cl k (Core.depart cause)).cluster cl).slot = some x := by
    rw [hc]
    exact hslot
  unfold State.strike
  simp only [hslot']
  rw [if_pos (by rw [hc]; exact Bool.and_eq_true_iff.2 ⟨decide_eq_true hspare, hcarried⟩), State.cluster_modCluster,
    State.cluster_modCore, hc]
  exact ⟨rfl, rfl⟩

end

/-! ### The end of a restart -/

section

variable {s : State} {cl : Nat}

theorem State.each_parked (b : Bool) (cs : List Nat) (s : State) : ∃ p,
    (s.each cs fun s c => s.modCluster c fun k => { k with parked := b }).cluster cl = { s.cluster cl with parked := p } ∧
      (b = false → (s.cluster cl).parked = false → p = false) := by
  induction cs generalizing s with
  | nil => exact ⟨_, rfl, fun _ h => h⟩
  | cons c cs ih =>
    obtain ⟨p, hp, hclear⟩ := ih (s.modCluster c fun k => { k with parked := b })
    rcases Decidable.em (cl = c) with rfl | hne
    · rw [State.cluster_modCluster] at hp hclear
      exact ⟨p, hp, fun hb _ => hclear hb hb⟩
    · rw [State.modCluster_set, State.cluster_setCluster, if_neg hne] at hp hclear
      exact ⟨p, hp, hclear⟩

/-- Settling the profile's count of clusters parks or unparks, and parks none where the profile is full. -/
theorem State.settleProfile_cluster (s : State) : ∃ p, s.settleProfile.cluster cl = { s.cluster cl with parked := p } ∧
    (s.aon.profile = 0 → (s.cluster cl).parked = false → p = false) := by
  unfold State.settleProfile
  dsimp only
  split
  · exact ⟨_, rfl, fun _ h => h⟩
  · split
    case isTrue hover =>
      obtain ⟨p, hp, -⟩ := State.each_parked (cl := cl) true _ s
      refine ⟨p, hp, fun hfull => ?_⟩
      have hcount : s.unparked.length ≤ 832 := (List.length_filter_le ..).trans (by simp)
      rw [hfull] at hover
      exact absurd hover (Nat.not_lt.2 hcount)
    case isFalse =>
      obtain ⟨p, hp, hclear⟩ := State.each_parked (cl := cl) false _ s
      exact ⟨p, hp, fun _ => hclear rfl⟩

end

end Sys2Proof.Machine
end

section
/-! Claims, spares, probes, struck cores and restarts of a cluster (R22, R25, R100, R109, R247, R260 to R264, R270, R274). -/

namespace Sys2Proof.Machine

section

variable {s : State} {cl k : Nat}

/-! ### SPARE_CLAIM -/

theorem orderClaims_mislock : ∀ k, k < 34 → orderClaims [(k, .mislock)] = [(k, .mislock)] := by decide

theorem effectSpareClaim_mislock (hk : k < 34) (hst : ((s.cluster cl).core k).st = .leaving)
    (hcause : ((s.cluster cl).core k).cause = some .mislock) (hfor : (s.cluster cl).spareFor = none)
    (hnext : (s.cluster cl).spareNext = none) (hslot : (s.cluster cl).slot = none)
    (hwaiting : (s.cluster cl).waiting.any (fun x => x.1 = k) = false) :
    effectSpareClaim cl [(k, .mislock)] s = s.claim cl (k, .mislock) := by
  have hknown : (s.cluster cl).waiting.any (fun y => y.1 = k && claimOrder .mislock ≤ claimOrder y.2) = false := by
    simp only [List.any_eq_false, decide_eq_true_eq] at hwaiting
    simp only [List.any_eq_false, Bool.and_eq_true, decide_eq_true_eq]
    exact fun y hy h => hwaiting y hy h.1
  have hrank : ((s.cluster cl).core k).claimRank = .mislock := by simp [Core.claimRank, hcause]
  unfold effectSpareClaim State.each
  rw [orderClaims_mislock k hk, List.foldl_cons, List.foldl_nil]
  dsimp only
  rw [if_neg (by nofun), if_pos (by simp [hst, hrank, hfor, hnext, hslot, hknown])]

theorem State.claim_ready {x : Nat × ClaimRank} {sp : Nat} (hfor : (s.cluster cl).spareFor = none)
    (hready : (s.cluster cl).readySpare = some sp) :
    s.claim cl x = s.modCluster cl (Cluster.takeSpare s.now sp x) := by
  unfold State.claim
  simp only [hfor, hready]

theorem State.claim_waits {x : Nat × ClaimRank} (hfor : (s.cluster cl).spareFor = none)
    (hready : (s.cluster cl).readySpare = none) : s.claim cl x = s.claimWear cl x := by
  unfold State.claim
  simp only [hfor, hready]

/-- The claims that wait once one more goes to the wear spare. -/
theorem State.claimWear_cluster (x : Nat × ClaimRank) :
    ((s.claimWear cl x).cluster cl).waiting = (s.cluster cl).waiting ++ [x] ∧
      ((s.claimWear cl x).cluster cl).wearWarm = ((s.cluster cl).callWear s.now).wearWarm ∧
      ((s.claimWear cl x).cluster cl).cores = (s.cluster cl).cores := by
  have hcores' : ((s.cluster cl).callWear s.now).cores = (s.cluster cl).cores := by
    unfold Cluster.callWear
    split <;> rfl
  have hcheck (z : State) : ((z.retireCheck cl).cluster cl).waiting = (z.cluster cl).waiting ∧
      ((z.retireCheck cl).cluster cl).wearWarm = (z.cluster cl).wearWarm ∧
      ((z.retireCheck cl).cluster cl).cores = (z.cluster cl).cores := by
    unfold State.retireCheck
    dsimp only
    split
    · rw [State.cluster_modCluster]
      exact ⟨rfl, rfl, rfl⟩
    · exact ⟨rfl, rfl, rfl⟩
  obtain ⟨hw, hwarm, hcores⟩ := hcheck (s.modCluster cl (Cluster.toWear s.now x))
  rw [State.cluster_modCluster] at hw hwarm hcores
  exact ⟨hw, hwarm, hcores.trans hcores'⟩

/-! ### SPARE_COPY_DONE, ENGINE_SPARED, PROFILE_MOVE_END -/

theorem effectSpareCopyDone_due {e : Nat} {x : Nat × ClaimRank} (hcopy : (s.cluster cl).copyEnd = some e)
    (hfor : (s.cluster cl).spareFor = some x) (hdue : e ≤ s.now) : effectSpareCopyDone cl s =
      (s.modCluster cl fun c => { c with copyEnd := none }).modCore cl (s.cluster cl).spareCore fun y =>
        { y with slots := ((s.cluster cl).core x.1).slots, ready := e + 72 * Config.ns } := by
  unfold effectSpareCopyDone
  simp only [hcopy, hfor]
  exact if_pos hdue

/-- A core with engine e marked as failed. -/
def Core.marks (e : Nat) (c : Core) : Core :=
  { c with engFailed := if c.engFailed.contains e then c.engFailed else c.engFailed ++ [e] }

theorem Core.mem_marks (e : Nat) (c : Core) : e ∈ (c.marks e).engFailed ∧ ∀ x ∈ c.engFailed, x ∈ (c.marks e).engFailed := by
  unfold Core.marks
  dsimp only
  split
  case isTrue h => exact ⟨List.contains_iff_mem.1 h, fun _ hx => hx⟩
  case isFalse => exact ⟨by simp, fun x hx => List.mem_append_left _ hx⟩

/-- A fault in a core in service strikes it. -/
theorem effectEngineSpared_struck (row : Nat) (hup : (s.cluster cl).up = true)
    (hst : (s.core cl k).st = .inService ∨ (s.core cl k).st = .unsettled) :
    State.Keeps [.chans] ((s.modCore cl k (Core.marks ((s.core cl k).engines.getD row 0))).strike cl k .engineFault)
      (effectEngineSpared cl k row s) := by
  have hwarm : (s.core cl k).warm = true := by rcases hst with h | h <;> simp [Core.warm, h]
  unfold effectEngineSpared Core.marks
  dsimp only
  rw [if_pos (by rw [hup, hwarm]; rfl)]
  rcases hst with h | h
  · simp only [h]
    exact .ite (fun _ => .rfl) fun _ => State.ringEvent_keeps
  · simp only [h]
    exact .ite (fun _ => .rfl) fun _ => State.ringEvent_keeps

theorem Core.ring_setRing_self (c : Core) (r : Nat) (x : Ring) : (c.setRing r x).ring r = x := Tab.get_put_same ..

theorem effectProfileMoveEnd_due {r e : Nat} {goal : Int} (hmove : ((s.core cl k).ring r).moving = some (goal, e))
    (hdue : e ≤ s.now) (hrestart : (s.cluster cl).restart = none ∨ (s.cluster cl).remap = true) :
    effectProfileMoveEnd cl k r s = s.modCore cl k fun c =>
      { c.setRing r { (s.core cl k).ring r with
          prof := goal, moving := none, resumeAt := e + 1998 * Config.us, good := false, found := false } with goodRun := 0 } := by
  unfold effectProfileMoveEnd
  simp only [hmove]
  exact if_pos (by rcases hrestart with h | h <;> simp [hdue, h])

/-! ### CLUSTER_RETURN and CLUSTER_RESTART_END -/

/-- The feeders of a cluster that keeps no route. -/
theorem Cluster.feeder_clearRoutes (c : Cluster) {f : Nat} (hf : f < 4) :
    (c.clearRoutes.feeder f).route = none ∧ (c.clearRoutes.feeder f).listener = none := by
  unfold Cluster.clearRoutes
  rw [Cluster.feeder_eachFeeder, if_pos hf]
  exact ⟨rfl, rfl⟩

section

variable (g : Nat → Core) (ks : List Nat) (c : Cluster)

theorem Cluster.core_foldl_setCore (j : Nat) :
    (ks.foldl (fun d k => d.setCore k (g k)) c).core j = if j ∈ ks then g j else c.core j := by
  induction ks generalizing c with
  | nil => simp
  | cons k ks ih =>
    rw [List.foldl_cons, ih, Cluster.core_setCore]
    rcases Decidable.em (j = k) with rfl | hne
    · simp
    · simp [hne]

theorem Cluster.phys_foldl_setCore (p : Nat) : (ks.foldl (fun d k => d.setCore k (g k)) c).phys p = c.phys p := by
  induction ks generalizing c with
  | nil => rfl
  | cons k ks ih => rw [List.foldl_cons, ih, Cluster.phys_setCore]

end

/-- A warm core after the full calibration of its cluster's relock, any other as it was. -/
def Cluster.relockedCore (c : Cluster) (b : Nat → CalBase) (mash : Option Nat) (k : Nat) : Core :=
  if (c.core k).warm then (c.relockCore k (c.core k)).fullCal (b k) c.heat mash else c.core k

theorem Cluster.relockedCore_warmed (c : Cluster) (b : Nat → CalBase) (mash : Option Nat) {k : Nat}
    (h : (c.core k).warm = true) : (c.relockedCore b mash k).Warmed := by
  unfold Cluster.relockedCore
  rw [if_pos h]
  refine ⟨Core.fullCal_calibrated .., ?_⟩
  rw [Core.fullCal_st]
  unfold Cluster.relockCore
  rw [if_pos h]
  dsimp only
  split <;> nofun

theorem Cluster.phys_congr {c d : Cluster} (h : d.posMap = c.posMap) (p : Nat) : d.phys p = c.phys p :=
  congrArg (Tab.get p · p) h

theorem Cluster.core_congr {c d : Cluster} (h : d.cores = c.cores) (k : Nat) : d.core k = c.core k :=
  congrArg (Tab.get (Core.reset k) · k) h

/-- The cluster with every warm core relocked. -/
def Cluster.relockedCores (c : Cluster) (b : Nat → CalBase) (mash : Option Nat) : Cluster :=
  (List.range 34).foldl (fun d k => d.setCore k (c.relockedCore b mash k)) c

theorem Cluster.phys_relockedCores (c : Cluster) (b : Nat → CalBase) (mash : Option Nat) (p : Nat) :
    (c.relockedCores b mash).phys p = c.phys p := Cluster.phys_foldl_setCore ..

theorem Cluster.relockedCores_warmed (c : Cluster) (b : Nat → CalBase) (mash : Option Nat) {k : Nat} (hk : k < 34)
    (h : (c.core k).warm = true) : ((c.relockedCores b mash).core k).Warmed := by
  unfold Cluster.relockedCores
  rw [Cluster.core_foldl_setCore, if_pos (List.mem_range.2 hk)]
  exact c.relockedCore_warmed b mash h

/-- The cluster d, its cores relocked, back in service with the rotation spare sp. -/
def Cluster.backInService (sp lock n : Nat) (noIdle : Bool) (d : Cluster) : Cluster :=
  { d.clearRoutes with
    restart := none, locked := true, calibrated := true, rotates := false, taster := false, parked := false, parkedHeat := false
    spareCore := sp, spareFor := none, waiting := [], wearWarm := if noIdle then d.wearWarm else none
    lockDraw := lock, calDraw := n, outerDraw := 0, remap := false }

section

variable (d : Cluster) (sp lock n : Nat) (noIdle : Bool)

theorem Cluster.phys_backInService (p : Nat) : (d.backInService sp lock n noIdle).phys p = d.phys p :=
  (Cluster.phys_congr (c := d.clearRoutes) rfl p).trans (Cluster.phys_eachFeeder ..)

theorem Cluster.core_backInService (k : Nat) : (d.backInService sp lock n noIdle).core k = d.core k :=
  (Cluster.core_congr (c := d.clearRoutes) rfl k).trans (Cluster.core_eachFeeder ..)

end

/-- Warm cores of a cluster that carry no position. -/
def Cluster.idleCores (c : Cluster) : List Nat := (List.range 34).filter fun k => (c.posOf k).isNone && (c.core k).warm

/-- The draw at which a cluster's rings lock after its restart. -/
def Cluster.lockedAt (c : Cluster) : Nat := if c.remap then c.lockDraw else c.relockDraw

/-- The record with which cluster cl goes back into service, calibration draw n. -/
def Cluster.relocked (n cl : Nat) (c : Cluster) : Cluster :=
  (c.relockedCores (fun k => { draw := n, cl := cl, k := k }) (if c.calibrated then none else some c.lockedAt)).backInService
    (if c.idleCores.contains c.spareCore then c.spareCore else c.idleCores.headD c.spareCore) c.lockedAt n c.idleCores.isEmpty

theorem State.relock_eq (s : State) (cl : Nat) : s.relock cl =
    ((s.draw.setCluster cl ((s.cluster cl).relocked (s.free + 1) cl)).each (List.range 34) fun z k =>
      (z.noteDrift cl k).calFaults cl (s.free + 1) k).settleProfile := by
  unfold State.relock Cluster.relocked Cluster.backInService Cluster.relockedCores Cluster.relockedCore Cluster.idleCores
    Cluster.lockedAt
  with_reducible rfl

/-- The full calibrations of several cores. -/
theorem State.each_calFaults (n : Nat) {m : Nat → Nat} (ks : List Nat) {s : State} (hfor : (s.cluster cl).spareFor = none)
    (hpos : s.Positions cl m) : let w := s.each ks fun z k => (z.noteDrift cl k).calFaults cl n k
    State.Continues cl s w ∧ (w.cluster cl).spareFor = none ∧ w.Positions cl m ∧ w.aon = s.aon := by
  induction ks generalizing s with
  | nil => exact ⟨.refl cl s, hfor, hpos, rfl⟩
  | cons k ks ih =>
    have hnote : (s.noteDrift cl k).cluster cl =
        { s.cluster cl with heaterDrift := BitVec.ofNat 32 (max (s.cluster cl).heaterDrift.toNat (s.drift cl k)) } :=
      State.cluster_modCluster ..
    have hdrift : State.Continues cl s (s.noteDrift cl k) := (State.Continues.refl cl s).modCluster .record
    have hpos' : (s.noteDrift cl k).Positions cl m := by
      unfold State.Positions State.core
      rw [hnote]
      exact hpos
    obtain ⟨hcontinues, hfree, hpositions, haon⟩ := ih (State.calFaults_spareFor (by rw [hnote]; exact hfor) n k)
      (hpos'.calFaults n k)
    exact ⟨(hdrift.calFaults n k).trans hcontinues, hfree, hpositions,
      haon.trans ((State.calFaults_keeps .aon (by decide)).trans (State.noteDrift_keeps .aon (by decide)))⟩

/-- A cluster that relocks goes back into service with its warm cores calibrated; a position leaves its core only where
that core is retired. -/
theorem State.relock_cluster (s : State) (cl : Nat) : ∃ (y : Cluster) (p : Bool),
    (s.relock cl).cluster cl = { y with parked := p } ∧ (s.aon.profile = 0 → p = false) ∧
    y.restart = none ∧ y.locked = true ∧ y.calibrated = true ∧ y.taster = false ∧ y.parkedHeat = false ∧ y.spareFor = none ∧
    (∀ k, k < 34 → ((s.cluster cl).core k).warm = true → (y.core k).calibrated = true) ∧
    ∀ q, y.phys q = (s.cluster cl).phys q ∨ (y.core ((s.cluster cl).phys q)).st = .retired := by
  have heq := s.relock_eq cl
  have hphys (q : Nat) : ((s.cluster cl).relocked (s.free + 1) cl).phys q = (s.cluster cl).phys q :=
    (Cluster.phys_backInService ..).trans (Cluster.phys_relockedCores ..)
  have hwarm (k : Nat) (hk : k < 34) (hwarm : ((s.cluster cl).core k).warm = true) :
      (((s.cluster cl).relocked (s.free + 1) cl).core k).Warmed :=
    (congrArg Core.Warmed (Cluster.core_backInService ..)).mpr (Cluster.relockedCores_warmed _ _ _ hk hwarm)
  have hservice : ∀ C, C = (s.cluster cl).relocked (s.free + 1) cl → C.restart = none ∧ C.locked = true ∧
      C.calibrated = true ∧ C.taster = false ∧ C.parked = false ∧ C.parkedHeat = false ∧ C.spareFor = none := by
    rintro C rfl
    exact ⟨rfl, rfl, rfl, rfl, rfl, rfl, rfl⟩
  generalize (s.cluster cl).relocked (s.free + 1) cl = C at heq hphys hwarm hservice
  obtain ⟨hrestart, hlocked, hcal, htaster, hparked, hheat, hfor⟩ := hservice C rfl
  generalize hn : s.free + 1 = n at heq
  have hC : (s.draw.setCluster cl C).cluster cl = C := by rw [State.cluster_setCluster, if_pos rfl]
  obtain ⟨hcontinues, hfree, hpositions, haon⟩ := State.each_calFaults n (m := (s.cluster cl).phys) (List.range 34)
    (s := s.draw.setCluster cl C)
    (by rw [hC]; exact hfor) fun p => .inl (by rw [hC]; exact hphys p)
  obtain ⟨p, hp, hfull⟩ := State.settleProfile_cluster (cl := cl)
    ((s.draw.setCluster cl C).each (List.range 34) fun s k => (s.noteDrift cl k).calFaults cl n k)
  obtain ⟨hr, hl, hca, hta, hpa, hhe⟩ := hcontinues.service
  rw [hC] at hr hl hca hta hpa hhe
  refine ⟨_, p, by rw [heq]; exact hp, fun hprofile => hfull (by rw [haon]; exact hprofile) (hpa.trans hparked),
    hr.trans hrestart, hl.trans hlocked, hca.trans hcal, hta.trans htaster, hhe.trans hheat, hfree, fun k hk hk' => ?_,
    hpositions⟩
  exact (hcontinues.warmed k (by rw [hC]; exact hwarm k hk hk')).1

end

section

variable {s : State} {cl k f w : Nat}

/-- The wear spare w carries the position of the core whose claim it serves. -/
theorem State.useWear_serves {x : Nat × ClaimRank} {p : Nat} (hclaim : (s.cluster cl).nextClaim = some x)
    (hpos : (s.cluster cl).posOf x.1 = some p) (hdone : (s.cluster cl).tilesDone x.1 = true) (hne : x.1 ≠ w)
    (hslot : (s.cluster cl).slot = none) :
    ((s.useWear cl w).cluster cl).phys p = w ∧ ((s.useWear cl w).cluster cl).wear = none ∧
      ((s.useWear cl w).core cl w).slots = (s.core cl x.1).slots ∧
      ((s.useWear cl w).core cl w).st = (s.core cl w).serviceState := by
  obtain ⟨home, heq⟩ := State.useWear_claim (s := s) (w := w) hclaim hpos hdone hslot
  have hnew := State.movePos_core_new s cl p (s.now + 73 * Config.ns) hne
  have hphys := State.movePos_phys s cl p x.1 w (s.now + 73 * Config.ns) p
  generalize s.movePos cl p x.1 w (s.now + 73 * Config.ns) = m at heq hnew hphys
  generalize hu : (m.modCluster cl fun c => { c with wear := none, wearWarm := none, waiting := c.waiting.erase x }) = u at heq
  have hc : u.cluster cl =
      { m.cluster cl with wear := none, wearWarm := none, waiting := (m.cluster cl).waiting.erase x } := by
    rw [← hu]
    exact State.cluster_modCluster ..
  have hcore : (u.modCore cl w Core.serves).core cl w = (m.core cl w).serves :=
    State.core_modCore.trans (congrArg Core.serves ((congrArg (Cluster.core · w) hc).trans (Cluster.core_congr rfl w)))
  have hapart : State.Apart cl x.1 (u.modCore cl w Core.serves) (s.useWear cl w) := heq ▸ (State.Apart.refl ..).leave home
  rw [hapart.core (Ne.symm hne), hcore, hnew, hapart.phys, hapart.wear, State.cluster_modCore, hc]
  exact ⟨(Cluster.phys_congr rfl p).trans (hphys.trans (if_pos rfl)), rfl, rfl, rfl⟩

/-! ### Probes of a ready spare -/

theorem State.probed_verified : (((s.probed cl f k).verified cl k).feeder cl f).listener = some k ∧
    (((s.probed cl f k).verified cl k).core cl k).active.map (·.image) = some testImage ∧
    (((s.probed cl f k).verified cl k).core cl k).lastGood = s.moment := by
  have hverified : (s.probed cl f k).verified cl k =
      ((s.probed cl f k).modCore cl k Core.verified).modCore cl k (Core.noteCheck s.moment []) := by
    have hmoment (z : State) (g : Core → Core) : (z.modCore cl k g).moment = z.moment := rfl
    have hprobed : (s.probed cl f k).moment = s.moment := hmoment ..
    unfold State.verified
    rw [State.checked_nil, hmoment, hprobed]
  have hfeeder (z : State) (g : Core → Core) : (z.modCore cl k g).feeder cl f = z.feeder cl f := by
    unfold State.feeder
    rw [State.cluster_modCore, Cluster.modCore_set, Cluster.feeder_setCore]
  rw [hverified, hfeeder, hfeeder, State.core_modCore, State.core_modCore, State.probed_core]
  exact ⟨State.probed_feeder.2.2, rfl, rfl⟩

theorem State.probed_wrong {seen : List (Nat × Nat)} (hst : (s.core cl k).st = .spareReady) (hwrong : probeWrong seen ≠ []) :
    (((s.probed cl f k).checked cl k (probeWrong seen)).core cl k).st = .recovering ∧
      (((s.probed cl f k).checked cl k (probeWrong seen)).cluster cl).mislocks =
        satAdd (s.cluster cl).mislocks (probeWrong seen).length := by
  have hnoted : (((s.probed cl f k).modCore cl k (Core.noteCheck (s.probed cl f k).moment (probeWrong seen))).core cl k).st =
      .spareReady := by
    rw [State.core_modCore, State.probed_core]
    exact hst
  have hset (c : Cluster) (x : Feeder) : (c.setFeeder f x).mislocks = c.mislocks := rfl
  have hdrop (c : Cluster) : (c.dropRoutes [k]).mislocks = c.mislocks := rfl
  have hcore (c : Cluster) (g : Core → Core) : (c.modCore k g).mislocks = c.mislocks := rfl
  have hmislocks : (((s.probed cl f k).modCore cl k (Core.noteCheck (s.probed cl f k).moment (probeWrong seen))).cluster
      cl).mislocks = (s.cluster cl).mislocks := by
    unfold State.probed
    dsimp only
    rw [State.cluster_modCore, hcore, State.cluster_modCore, hcore, State.cluster_modCluster]
    unfold Cluster.probe
    dsimp only
    rw [hset, hdrop]
  have hchecked (z : State) : z.checked cl k (probeWrong seen) =
      (z.modCore cl k (Core.noteCheck z.moment (probeWrong seen))).mislocked cl k (probeWrong seen) := rfl
  rw [hchecked, ← hmislocks]
  exact State.mislocked_spare hwrong hnoted

/-! ### Tiles of a struck core -/

theorem Core.depart_run {c : Core} {r : TileRun} (h : (c.depart .engineFault).run = some r) : r.suspect = true := by
  obtain ⟨x, -, hx⟩ := Option.map_eq_some_iff.1 h
  rw [← hx]
  simp

theorem Core.depart_tile {c : Core} {r : TileRun} (hgrant : c.grant.isSome = true) (h : (c.depart .engineFault).tile = some r) :
    r.suspect = true := by
  unfold Core.depart at h
  dsimp only at h
  rw [if_pos hgrant] at h
  obtain ⟨x, -, hx⟩ := Option.map_eq_some_iff.1 h
  rw [← hx]
  simp

/-! ### The beginning and the end of a restart -/

theorem effectClusterReturn_due {b : Nat} (hband : (s.cluster cl).bandSince = some b) (hheat : (s.cluster cl).parkedHeat = true)
    (hup : (s.cluster cl).up = true) (hdue : b + Config.sec ≤ s.now) :
    effectClusterReturn cl s = (s.abortUsing cl 5).beginRestart cl := by
  unfold effectClusterReturn
  simp only [hband]
  exact if_pos (by simp [hheat, hup, hdue])

theorem State.beginRestart_cluster : let d := ((s.abortUsing cl 5).beginRestart cl).cluster cl
    d.restart = some (s.now + 300 * Config.ms) ∧ d.slot = none ∧ d.recov = none ∧ d.quiet = none ∧ d.advHeld = false ∧
      d.cores = (s.cluster cl).cores ∧ ∀ f, f < 4 → (d.feeder f).route = none ∧ (d.feeder f).listener = none := by
  have hc : (s.abortUsing cl 5).cluster cl = s.cluster cl := State.abortUsing_keeps.cluster_eq (by decide) cl
  have hnow : (s.abortUsing cl 5).now = s.now := State.abortUsing_keeps .now (by decide)
  generalize s.abortUsing cl 5 = z at hc hnow
  unfold State.beginRestart
  dsimp only
  rw [State.cluster_modCluster, State.draw_keeps.cluster_eq (by decide), hc]
  have hcores : (s.cluster cl).clearRoutes.cores = (s.cluster cl).cores := rfl
  have hfeeders (f : Nat) (hf : f < 4) := (s.cluster cl).feeder_clearRoutes hf
  generalize (s.cluster cl).clearRoutes = d at hcores hfeeders ⊢
  exact ⟨congrArg (fun m => some (m + 300 * Config.ms)) hnow, rfl, rfl, rfl, rfl, hcores, hfeeders⟩

theorem effectClusterRestartEnd_due {e : Nat} (hrestart : (s.cluster cl).restart = some e) (hdue : e ≤ s.now)
    (hretired : (s.cluster cl).retired = false)
    (hmoved : (s.cluster cl).remap = true → (s.cluster cl).movesOver s.now = true)
    (hramped : (s.cluster cl).remap = false → e - 300 * Config.ms + s.restartTu cl ≤ s.now) :
    effectClusterRestartEnd cl s = s.relock cl := by
  unfold effectClusterRestartEnd
  simp only [hrestart]
  refine if_pos ?_
  cases hremap : (s.cluster cl).remap with
  | true => simp [hdue, hretired, hmoved hremap]
  | false => simp [hdue, hretired, hramped hremap]

end

/-- Settles O36: each row's guard holds; what follows it in the row keeps the probes, the calibrations and the service of the
cluster (`Cluster.Continues`), and the cores other than the one that leaves (`Cluster.Apart`). -/
theorem sparesServeClaims : Obligations.SparesServeClaims := by
  intro s t cl k hcl hk v now c y
  refine ⟨fun hst hcause hfor hnext hslot hwaiting => ?claim, fun e x hcopy hfor hdue => ?copy,
    fun e w hwarm hwear hup hdue => ⟨fun hwaiting hadv hcold hramped => ?cold, fun hst hready =>
      ⟨fun hwaiting hadv hfor hspare => ?idle, fun x p hclaim hpos hdone hne hslot => ?serve⟩⟩,
    fun f seen hf hseen hmay => ?probe, fun row hrow hup hst => ?struck, fun r goal e hr hmove hdue hrestart => ?moved,
    fun b hband hheat hup hdue => ?back, fun e hrestart hdue hretired hmoved hramped => ?relocked⟩
  case claim =>
    have hexec : exec (.spareClaim t cl [(k, .mislock)]) s = .next (v.claim cl (k, .mislock)) := by
      rw [← effectSpareClaim_mislock (s := v) hk hst hcause hfor hnext hslot hwaiting]
      exact if_pos (by simp [hcl, hk])
    refine ⟨fun sp hready => ?_, fun hready => ⟨_, hexec, ?_⟩⟩
    · rw [hexec, State.claim_ready (s := v) hfor hready]
      rfl
    · rw [State.claim_waits (s := v) hfor hready]
      exact State.claimWear_cluster _
  case copy =>
    refine ⟨effectSpareCopyDone cl v, if_pos (by simp [hcl]), ?_⟩
    rw [effectSpareCopyDone_due (s := v) hcopy hfor hdue]
    exact ⟨State.core_modCore.trans (by rw [State.core_modCluster]; rfl),
      by rw [State.cluster_modCore, State.cluster_modCluster]; rfl⟩
  case cold =>
    refine ⟨effectWearSpareReady cl v, if_pos (by simp [hcl]), ?_⟩
    exact (effectWearSpareReady_cold (s := v) hwarm hwear hup hdue hcold hramped).warmed w (State.warmUp_warmed ..)
  case idle =>
    refine ⟨effectWearSpareReady cl v, if_pos (by simp [hcl]), ?_⟩
    have hc := State.useWear_idle (s := v) (w := w) hwaiting hadv hfor hspare
    rw [effectWearSpareReady_warm (s := v) hwarm hwear hup hdue hst hready]
    unfold State.core
    dsimp only
    rw [hc]
    exact ⟨rfl, rfl, rfl, hst⟩
  case serve =>
    refine ⟨effectWearSpareReady cl v, if_pos (by simp [hcl]), ?_⟩
    rw [effectWearSpareReady_warm (s := v) hwarm hwear hup hdue hst hready]
    exact State.useWear_serves (s := v) hclaim hpos hdone hne hslot
  case probe =>
    refine ⟨effectProbePacket cl f k seen v, if_pos (by simpa [hcl, hk, hf] using hseen), ?_⟩
    obtain ⟨hprobe, hnotBefore, -⟩ := State.probed_feeder (s := v) (cl := cl) (f := f) (k := k)
    obtain ⟨hprobe', hnotBefore'⟩ := (effectProbePacket_continues (seen := seen) hmay).probe f
    refine ⟨hprobe'.trans hprobe, hnotBefore'.trans hnotBefore, fun hst hpassed => ?passed, fun hst hwrong => ?wrong⟩
    case passed =>
      rw [effectProbePacket_spare (s := v) hmay hst, if_pos hpassed]
      exact State.probed_verified
    case wrong =>
      rw [effectProbePacket_spare (s := v) hmay hst, if_neg (by rw [probePassed_of_wrong hwrong]; nofun),
        if_neg (by simpa [List.isEmpty_iff] using hwrong)]
      exact State.probed_wrong hst hwrong
  case struck =>
    refine ⟨effectEngineSpared cl k row v, if_pos (by simp [hcl, hk, hrow]), ?_⟩
    have hkeeps := effectEngineSpared_struck (s := v) row hup hst
    generalize effectEngineSpared cl k row v = s' at hkeeps
    have hmarked : (v.modCore cl k (Core.marks (y.engines.getD row 0))).core cl k = y.marks (y.engines.getD row 0) :=
      State.core_modCore
    have hc : (v.modCore cl k (Core.marks (y.engines.getD row 0))).cluster cl = c.modCore k (Core.marks (y.engines.getD row 0)) :=
      State.cluster_modCore ..
    obtain ⟨vals, hcore⟩ := State.strike_core (s := v.modCore cl k (Core.marks (y.engines.getD row 0))) (cl := cl) (k := k)
      (cause := .engineFault)
    have hz : s'.core cl k = { (y.marks (y.engines.getD row 0)).depart .engineFault with calNew := vals } := by
      rw [hkeeps.core_eq (by decide), ← hmarked]
      exact hcore
    obtain ⟨hmem, hmems⟩ := y.mem_marks (y.engines.getD row 0)
    dsimp only
    rw [hz, hkeeps.cluster_eq (by decide)]
    refine ⟨rfl, rfl, hmem, hmems, fun r hr => Core.depart_run hr, fun hgrant r hr => Core.depart_tile hgrant hr,
      fun x hslot hspare hcarried => ?_⟩
    obtain ⟨hslot', hrepeat⟩ := State.strike_slot (s := v.modCore cl k (Core.marks (y.engines.getD row 0))) (cl := cl) (k := k)
      (cause := .engineFault) (x := x) (by rw [hc]; exact hslot) (by rw [hc]; exact hspare) hcarried
    exact ⟨hslot', hrepeat.trans (by rw [hc]; rfl)⟩
  case moved =>
    refine ⟨effectProfileMoveEnd cl k r v, if_pos (by simp [hcl, hk, hr]), ?_⟩
    rw [effectProfileMoveEnd_due (s := v) hmove hdue hrestart]
    dsimp only
    rw [State.core_modCore]
    exact ⟨rfl, Core.ring_setRing_self ..⟩
  case back =>
    refine ⟨effectClusterReturn cl v, if_pos (by simp [hcl]), ?_⟩
    rw [effectClusterReturn_due (s := v) hband hheat hup hdue]
    exact State.beginRestart_cluster (s := v)
  case relocked =>
    refine ⟨effectClusterRestartEnd cl v, if_pos (by simp [hcl]), ?_⟩
    rw [effectClusterRestartEnd_due (s := v) hrestart hdue hretired hmoved hramped]
    obtain ⟨d, p, hd, hparked, hrest, hlocked, hcal, htaster, hheat, hfor, hwarm, hphys⟩ := v.relock_cluster cl
    dsimp only
    rw [hd]
    exact ⟨hrest, hlocked, hcal, htaster, hparked, hheat, hfor, hwarm, hphys⟩

end Sys2Proof.Machine
end
section
/-! A reset in the fabric cycle in which a tick met a channel in HIZ and its safe record was loaded after that tick. The
reset is put before the tick (`Fout.beforeTick`, R347), and the state that the tick began with is HIZ: it comes back, although
the channel stands in SAFE. -/

namespace Sys2Proof.Machine

open Sys2Proof.Config

/-- The module in Tap at 1 ms, its watchdog armed with a limit of 0 ms; output 0 is in HIZ, a tick of its sample clock waits. -/
def hizWithTickWaiting : State :=
  { now := ms, fouts := [(0, { tickWait := true })], aon := { inReset := false, stage := 3, armed := true, wdgNow := 0 } }

/-- The tick has acted on the channel in HIZ. -/
def tickedInHiz : State := effectOutputTick 0 hizWithTickWaiting

/-- In the same fabric cycle the channel has loaded its safe record: it is in SAFE. -/
def safeAfterTickInHiz : State := effectSafeRecordLoad 0 tickedInHiz

/-- OUTPUT_TICK and SAFE_RECORD_LOAD lead to the state of the counterexample. -/
theorem exec_outputTick_safeRecordLoad :
    exec (.outputTick ms 0) hizWithTickWaiting = .next tickedInHiz ∧
      exec (.safeRecordLoad ms 0) tickedInHiz = .next safeAfterTickInHiz :=
  ⟨rfl, rfl⟩

theorem safeAfterTickInHiz_st : (safeAfterTickInHiz.fout 0).st = .safe := by decide +kernel

theorem safeAfterTickInHiz_source : (safeAfterTickInHiz.fout 0).source = 0 := by decide +kernel

/-- The watchdog's reset in that cycle brings the channel back to HIZ. -/
theorem safeAfterTickInHiz_expiry_st :
    ((effectWatchdogExpiry (safeAfterTickInHiz.tick ms)).fout 0).st = .hiz := by decide +kernel

theorem exec_watchdogExpiry (t : Nat) (s : State) :
    exec (.watchdogExpiry t) s = .next (effectWatchdogExpiry (s.tick t)) := rfl

/-- What O57 says of a watchdog expiry with the domains running: D1 to D4 have gone into reset. -/
theorem resetFrom_effectWatchdogExpiry (h : Obligations.StagesWatchdogAndEventOutputs) {s : State} {t : Nat}
    (armed : s.aon.armed = true) (late : s.aon.beatAt / ms + s.aon.wdgNow + 1 ≤ max s.now t / ms)
    (running : s.aon.inReset = false ∧ s.aon.d1Reset = false) :
    s.ResetFrom (effectWatchdogExpiry (s.tick t)) := by
  obtain ⟨-, -, -, -, -, -, -, -, -, -, -, -, -, -, -, -, -, expiry, -⟩ := h s t
  obtain ⟨s', hs', -, -, -, -, -, -, -, hreset⟩ := expiry armed late running
  obtain rfl : effectWatchdogExpiry (s.tick t) = s' := by simpa [exec_watchdogExpiry] using hs'
  exact hreset

/-- Refutes O57: the outputs' part of a reset. Output 0 ticks in HIZ, loads its safe record and so stands in SAFE, and the
watchdog expires, all in one fabric cycle: the statement has the channel in SAFE after the reset, the model puts the reset before
the tick and leaves it in HIZ. -/
theorem not_stagesWatchdogAndEventOutputs : ¬ Obligations.StagesWatchdogAndEventOutputs := by
  intro h
  have reset : safeAfterTickInHiz.ResetFrom (effectWatchdogExpiry (safeAfterTickInHiz.tick ms)) :=
    resetFrom_effectWatchdogExpiry h (by decide +kernel) (by decide +kernel) (by decide +kernel)
  obtain ⟨-, -, hst⟩ := reset.outputs 0 (by decide)
  simp [safeAfterTickInHiz_st, safeAfterTickInHiz_source, safeAfterTickInHiz_expiry_st] at hst

end Sys2Proof.Machine
end

section
/-! Operations of a core's list: what goes on at a listed operation, weight slots, lists of units that hold one job at a time
(R177, R181, R189, R459). -/

namespace Sys2Proof.Machine

/-! ### The operation a unit stands at (R177, R181) -/

/-- A row that takes place only at its operation has its effect where the unit stands at that operation. -/
theorem act_of_stands {s : State} {t : Nat} {u : UnitId} {img code : Nat} (h : s.stands t u img code = true)
    (f : State → Dword → State) :
    act (unitOk u) t s (fun s => s.onOp u img code f) = .next (f (s.tick t) (s.prog u img).op) := by
  obtain ⟨hu, hrun, hcode, hlisted⟩ := State.stands_iff.1 h
  simp [act, hu, State.onOp, hrun, hcode, hlisted]

theorem opOutputs_vop {o : Dword} (h : opcode o = opVop) : opOutputs o = [field o 40 12] := by
  simp [opOutputs, h]

/-! ### Lists of units that hold one job at a time (R459) -/

theorem State.nextTurn_alone {u : UnitId} (hu : unitAlone u = true) (s : State) (img : Nat) :
    s.nextTurn u img = (s.prog u img).fired :=
  if_pos hu

/-- Such a unit's completed operation moves its list on and leaves no mark of a turn. -/
theorem State.finish_alone {u : UnitId} (hu : unitAlone u = true) (s : State) (img e : Nat) :
    s.finish u img e = s.setProg u img { s.prog u img with pos := (s.prog u img).pos + 1, busyUntil := e } := by
  simp only [State.finish, State.nextTurn_alone hu, State.modProg_set]

theorem State.setProg_setProg (s : State) (u : UnitId) (img : Nat) (p q : Prog) :
    (s.setProg u img p).setProg u img q = s.setProg u img q := by
  simp only [State.setProg, Tab.put_put]

theorem State.Keeps.prog_eq {L : List Part} {s x : State} (h : State.Keeps L s x) (hL : Part.progs ∉ L) (u : UnitId)
    (img : Nat) : x.prog u img = s.prog u img :=
  congrArg (Tab.get ({} : Prog) · (progKey u img)) (h .progs hL)

/-! ### Cores (R189) -/

@[simp] theorem Core.slotAt_setSlot (c : Core) (i j : Nat) (w : WImage) :
    (c.setSlot i w).slotAt j = if j = i then w else c.slotAt j :=
  Tab.get_put ..

theorem State.core_finish (s : State) (u : UnitId) (img e c k : Nat) : (s.finish u img e).core c k = s.core c k := rfl

/-- What two changes of a core make of its present record is all that tells them apart. -/
theorem State.modCore_congr {s : State} {cl k : Nat} {f g : Core → Core} (h : f (s.core cl k) = g (s.core cl k)) :
    s.modCore cl k f = s.modCore cl k g := by
  rw [State.modCore_set, State.modCore_set, h]

end Sys2Proof.Machine
end

section
/-! Dynamic images: what DYNIMG reads, where it waits and what it leaves in its slot (R60, R145, R189, R206). -/

namespace Sys2Proof.Machine

/-- The operands of a VOP depend on its tokens and on the buffers alone. -/
theorem State.SamePlaces.vopIn {s s' : State} (h : s.SamePlaces s') (p : Prog) (o : Dword) (toks : List Dword) :
    s'.vopIn p o toks = s.vopIn p o toks := by
  simp only [State.vopIn, h.readBuf, h.streams, h.bufSize]

/-- The 8 rows of 64 that DYNIMG builds from its operands. -/
def VopIn.dynRows (x : VopIn) : List (Int × List Int × Nat × Bool) :=
  (List.range 8).map fun r => dynRow ((x.a.drop (64 * r)).take 64)

/-- A core as DYNIMG leaves it: the image of these rows in a slot, their special values counted. -/
def Core.dynimg (slot : Nat) (rows : List (Int × List Int × Nat × Bool)) (c : Core) : Core :=
  { c.setSlot slot
      { code := rows.flatMap fun r => r.2.1.flatMap fun c => toLe 1 (wrapTo 8 c), trailer := dynTrailer rows } with
    dynimgSpecial := satAdd c.dynimgSpecial ((rows.map (·.2.2.1)).foldl (· + ·) 0) }

@[simp] theorem Core.dynimg_slotAt (slot : Nat) (rows : List (Int × List Int × Nat × Bool)) (c : Core) :
    (c.dynimg slot rows).slotAt slot =
      { code := rows.flatMap fun r => r.2.1.flatMap fun c => toLe 1 (wrapTo 8 c), trailer := dynTrailer rows } :=
  Tab.get_put_same ..

/-- The work of a DYNIMG that writes slot of physical core k. -/
def dynimgWork (cl k slot : Nat) (p : Prog) (o : Dword) (s : State) (toks : List Dword) (_ : List (Nat × Nat)) : Work :=
  { st := s.modCore cl k (Core.dynimg slot (s.vopIn p o toks).dynRows)
    dur := (24 + 2 * perCycle 512 8) * Config.cycle
    code := if (s.vopIn p o toks).dynRows.any (·.2.2.2) then some ecNan else none }

section

variable {s : State} {t cl pos img : Nat}

/-- DYNIMG leaves all as it is while its slot is held. -/
theorem exec_vDynimg_waits (h : s.stands t (.vu cl pos) img opVop = true) :
    let o := (s.prog (.vu cl pos) img).op
    vopFunc o = 0x30 → (s.core cl ((s.cluster cl).phys pos)).slotHeld (field o 52 6 % 32) = true →
      exec (.vDynimg t (.vu cl pos) img) s = .next (s.tick t) := by
  intro o hfunc hheld
  refine (act_of_stands h _).trans (congrArg _ ?_)
  exact (if_pos hfunc).trans (if_pos hheld)

/-- DYNIMG is a step that fires where its slot is not held. -/
theorem exec_vDynimg_fires (h : s.stands t (.vu cl pos) img opVop = true) :
    let u := UnitId.vu cl pos
    let p := s.prog u img
    let k := (s.cluster cl).phys pos
    let slot := field p.op 52 6 % 32
    vopFunc p.op = 0x30 → (s.core cl k).slotHeld slot = false →
      exec (.vDynimg t u img) s = .next ((s.tick t).fire u img (opInputs p.op) [field p.op 40 12]
        (dynimgWork cl k slot p p.op)) := by
  intro u p k slot hfunc hfree
  obtain ⟨-, -, hcode, -⟩ := State.stands_iff.1 h
  refine (act_of_stands h _).trans (congrArg _ ?_)
  rw [← opOutputs_vop hcode]
  exact (if_pos hfunc).trans (if_neg (by simp [slot, p, u, k, hfree]))

end

/-- Settles O10: a held slot makes DYNIMG wait; else it is a step whose work changes its core alone. -/
theorem dynimgFillsItsSlot : Obligations.DynimgFillsItsSlot := by
  intro s t cl pos img u o out x rows k slot hfires hfunc
  obtain ⟨⟨hstands, hready⟩, hnoError⟩ := State.fires_iff.1 hfires
  refine ⟨fun hheld => exec_vDynimg_waits hstands hfunc hheld, fun hfree => ?fires⟩
  case fires =>
    have hexec := exec_vDynimg_fires hstands hfunc hfree
    have hkeep := exec_next hexec
    have htaken := (s.tick t).taken_keeps u (opInputs o) [out]
    have hx : ((s.tick t).taken u (opInputs o) [out]).vopIn (s.prog u img) o ((s.tick t).tokensOf u (opInputs o)) = x :=
      ((s.tick t).taken_places u (opInputs o) [out]).vopIn ..
    have hcore : (((s.tick t).fire u img (opInputs o) [out] (dynimgWork cl k slot (s.prog u img) o)).core cl k) =
        (s.core cl k).dynimg slot rows := by
      rw [(State.fire_rest hready hnoError).core_eq (by decide), dynimgWork, State.core_modCore, hx,
        htaken.core_eq (by decide)]
      rfl
    refine ⟨_, hexec, ?fired, ?image, ?special, hkeep .hbm (by simp [touches]), hkeep .sram (by simp [touches])⟩
    case fired =>
      exact State.fired_plain hready hnoError (fun _ _ => ⟨State.modCore_keeps, fun _ => rfl⟩) (by decide) fun _ _ => rfl
    case image =>
      rw [hcore]
      exact Core.dynimg_slotAt slot rows _
    case special => rw [hcore]; rfl

end Sys2Proof.Machine
end

section
/-! WFILL, WLOAD, SWAP and RSCALE at the position of a core (R42, R44, R45, R48, R61, R189 to R192). -/

namespace Sys2Proof.Machine

/-! ### WFILL (R189, R231) -/

/-- The image that a WFILL of slot on stream i finds behind its token: that of the token's handle, or the one that landed in
the slot by chain. -/
def State.filledFrom (s : State) (c : Core) (slot i : Nat) (tok : Dword) : WImage :=
  if tokHandle tok = 0xFFFF then { c.slotAt slot with filling := false }
  else imageOf (s.readBuf (s.stream i).pool.toNat (tokHandle tok) 0 576)

/-- The moment at which unit u has its image complete: 6 ns from now, or from the first bytes of a chain's image. -/
def State.filledAt (s : State) (u : UnitId) (i : Nat) (tok : Dword) : Nat :=
  max s.now ((if tokHandle tok = 0xFFFF then ((s.head i u).map (·.due)).getD s.now else s.now) + 6 * Config.ns)

/-- The state behind a WFILL that keeps its image for its own core. -/
def State.filled (s : State) (cl k pos img slot i : Nat) (tok : Dword) : State :=
  let u := UnitId.core cl pos
  let e := s.filledAt u i tok
  (((s.takeHead u i).releaseTok i tok e).modCore cl k fun c =>
    c.setSlot slot { s.filledFrom (s.core cl k) slot i tok with filling := false }).finish u img e

theorem State.filled_core (s : State) (cl k pos img slot i : Nat) (tok : Dword) :
    (s.filled cl k pos img slot i tok).core cl k =
      (s.core cl k).setSlot slot { s.filledFrom (s.core cl k) slot i tok with filling := false } := by
  have hkeep : State.Keeps [.streams, .pools] s
      ((s.takeHead (.core cl pos) i).releaseTok i tok (s.filledAt (.core cl pos) i tok)) :=
    .into State.releaseTok_keeps (by decide) (.into State.takeHead_keeps (by decide) .rfl)
  rw [State.filled, State.core_finish, State.core_modCore, hkeep.core_eq (by decide)]

theorem State.filled_prog (s : State) (cl k pos img slot i : Nat) (tok : Dword) :
    (s.filled cl k pos img slot i tok).prog (.core cl pos) img =
      { s.prog (.core cl pos) img with
        pos := (s.prog (.core cl pos) img).pos + 1, busyUntil := s.filledAt (.core cl pos) i tok } := by
  have hkeep (f : Core → Core) : State.Keeps [.streams, .pools, .clusters] s
      (((s.takeHead (.core cl pos) i).releaseTok i tok (s.filledAt (.core cl pos) i tok)).modCore cl k f) :=
    .into State.modCore_keeps (by decide)
      (.into State.releaseTok_keeps (by decide) (.into State.takeHead_keeps (by decide) .rfl))
  rw [State.filled, State.finish_alone rfl, State.prog_setProg_same, (hkeep _).prog_eq (by decide)]

/-! ### SWAP and the shadow (R44, R191) -/

/-- What a SWAP with nothing in its way makes of the image in the shadow: one that the list has loaded is swapped in where it
has settled and waited for where it has not; without one the list goes on. -/
def State.swapShadow (s : State) (cl k pos img : Nat) : State :=
  match (s.core cl k).shadow with
  | some x =>
    if x.byList then
      if x.usable then (s.modCore cl k (Core.swapIn x)).finish (.core cl pos) img (symbolEdge s.now + 1 * Config.ns) else s
    else s.finish (.core cl pos) img s.now
  | none => s.finish (.core cl pos) img s.now

section

variable {s : State} {cl k pos img : Nat} {x : Held}

theorem State.swapShadow_usable (hx : (s.core cl k).shadow = some x) (hlist : x.byList = true) (huse : x.usable = true) :
    s.swapShadow cl k pos img =
      (s.modCore cl k (Core.swapIn x)).finish (.core cl pos) img (symbolEdge s.now + 1 * Config.ns) := by
  simp only [State.swapShadow, hx, hlist, huse, if_true]

theorem State.swapShadow_unsettled (hx : (s.core cl k).shadow = some x) (hlist : x.byList = true)
    (huse : x.usable = false) : s.swapShadow cl k pos img = s := by
  simp only [State.swapShadow, hx, hlist, huse, if_true, Bool.false_eq_true, if_false]

theorem State.swapShadow_notLoaded (h : ∀ x, (s.core cl k).shadow = some x → x.byList = false) :
    s.swapShadow cl k pos img = s.finish (.core cl pos) img s.now := by
  unfold State.swapShadow
  split
  case h_1 x hx => rw [h x hx, if_neg Bool.false_ne_true]
  case h_2 => rfl

end

/-! ### The four operations at their core -/

section

variable {s : State} {t cl pos img k : Nat} {o : Dword}

section

variable (ho : (s.prog (.core cl pos) img).op = o) (hk : (s.cluster cl).phys pos = k)

include ho hk

/-- WFILL waits for its slot and for a token. -/
theorem exec_wfill_waits (h : s.stands t (.core cl pos) img opWfill = true)
    (hwait : (s.core cl k).slotHeld (field o 20 5) = true ∨ (s.tick t).dataAt (field o 8 12) (.core cl pos) = none) :
    exec (.wfill t (.core cl pos) img) s = .next (s.tick t) := by
  subst ho hk
  refine (act_of_stands h _).trans (congrArg _ ?_)
  dsimp only
  split
  case isTrue => rfl
  case isFalse hfree => rw [hwait.resolve_left hfree]

/-- WFILL of a free slot with a token of data keeps the image. -/
theorem exec_wfill_fills (h : s.stands t (.core cl pos) img opWfill = true) {tok : Dword}
    (hfree : (s.core cl k).slotHeld (field o 20 5) = false) (hlocal : flag o 25 = false)
    (htok : (s.tick t).dataAt (field o 8 12) (.core cl pos) = some tok) (hdata : tokType tok ≠ tyError) :
    exec (.wfill t (.core cl pos) img) s =
      .next ((s.tick t).filled cl k pos img (field o 20 5) (field o 8 12) tok) := by
  subst ho hk
  refine (act_of_stands h _).trans (congrArg _ ?_)
  dsimp only
  rw [State.cluster_tick, State.core_tick, hfree, htok, hlocal]
  exact if_neg hdata

/-- Where a WLOAD may begin, it waits while a load runs, else starts its own and lets the list go on. -/
theorem exec_wload (h : (unitOk (.core cl pos) && (s.tick t).mayLoad (.core cl pos) img && opcode o = opWload
      && opListed (.core cl pos) o) = true) :
    exec (.wload t (.core cl pos) img) s = .next
      (if (s.core cl k).loading then s.tick t
      else ((s.tick t).modCore cl k fun c =>
        c.startLoad (s.calBase cl k) (field o 8 5) (max s.now t) (c.slotAt (field o 8 5)) false true).finish
          (.core cl pos) img (max (max s.now t) (s.prog (.core cl pos) img).busyUntil)) := by
  subst ho hk
  simp only [Bool.and_eq_true] at h
  obtain ⟨⟨⟨hu, hmay⟩, hcode⟩, hlisted⟩ := h
  refine (if_pos hu).trans (congrArg _ ?_)
  exact if_pos (by simp only [Bool.and_eq_true]; exact ⟨⟨hmay, hcode⟩, hlisted⟩)

end

section

variable (hk : (s.cluster cl).phys pos = k)

include hk

/-- SWAP waits for the TILEs before it. -/
theorem exec_swap_behind_tile (h : s.stands t (.core cl pos) img opSwap = true)
    (htile : ((s.core cl k).tile.isSome || (s.core cl k).run.isSome) = true) :
    exec (.swap t (.core cl pos) img) s = .next (s.tick t) := by
  subst hk
  exact (act_of_stands h _).trans (congrArg _ (if_pos htile))

/-- Behind the TILEs, SWAP takes the image that a refresh of this nanosecond has discarded. -/
theorem exec_swap_rescued (h : s.stands t (.core cl pos) img opSwap = true)
    (htile : ((s.core cl k).tile.isSome || (s.core cl k).run.isSome) = false) {x : Held} {n : Word}
    (hcut : (s.core cl k).rescued (max s.now t) = some (x, n)) :
    exec (.swap t (.core cl pos) img) s = .next
      (((s.tick t).modCore cl k fun c => { c.swapIn x with prefetch := none, prefetchDiscard := n }).finish
        (.core cl pos) img (symbolEdge (max s.now t) + 1 * Config.ns)) := by
  subst hk
  refine (act_of_stands h _).trans (congrArg _ ?_)
  dsimp only
  rw [State.cluster_tick, State.core_tick, htile, State.tick_now, hcut]
  rfl

/-- Where no refresh has discarded an image in this nanosecond, SWAP waits for a prefetch that is to load again. -/
theorem exec_swap_behind_prefetch (h : s.stands t (.core cl pos) img opSwap = true)
    (htile : ((s.core cl k).tile.isSome || (s.core cl k).run.isSome) = false)
    (hcut : (s.core cl k).rescued (max s.now t) = none) (hpre : (s.core cl k).prefetch.isSome = true) :
    exec (.swap t (.core cl pos) img) s = .next (s.tick t) := by
  subst hk
  refine (act_of_stands h _).trans (congrArg _ ?_)
  dsimp only
  rw [State.cluster_tick, State.core_tick, htile, State.tick_now, hcut, hpre]
  rfl

/-- A SWAP with nothing in its way turns to the shadow. -/
theorem exec_swap_clear (h : s.stands t (.core cl pos) img opSwap = true)
    (hclear : ((s.core cl k).tile.isSome || (s.core cl k).run.isSome || (s.core cl k).prefetch.isSome) = false)
    (hcut : (s.core cl k).rescued (max s.now t) = none) :
    exec (.swap t (.core cl pos) img) s = .next ((s.tick t).swapShadow cl k pos img) := by
  subst hk
  obtain ⟨htile, hpre⟩ := Bool.or_eq_false_iff.1 hclear
  refine (act_of_stands h _).trans (congrArg _ ?_)
  dsimp only
  rw [State.cluster_tick, State.core_tick, htile, State.tick_now, hcut, hpre]
  rfl

end

/-- RSCALE sets ROW_MASK and RAW, and the list goes on. -/
theorem exec_rscale (ho : (s.prog (.core cl pos) img).op = o)
    (h : s.stands t (.core cl pos) img opRscale = true) :
    exec (.rscale t (.core cl pos) img) s = .next ((s.tick t).setProg (.core cl pos) img
      { s.prog (.core cl pos) img with
        pos := (s.prog (.core cl pos) img).pos + 1, busyUntil := max s.now t
        rowMask := BitVec.ofNat 8 (field o 8 8), raw := flag o 16 }) := by
  subst ho
  refine (act_of_stands h _).trans (congrArg _ ?_)
  rw [State.finish_alone rfl, State.modProg_set, State.prog_setProg_same, State.setProg_setProg]
  rfl

end

/-- Settles O18: each operation's own equation, clause by clause. -/
theorem weightsMoveIntoTheCore : Obligations.WeightsMoveIntoTheCore := by
  intro s t cl pos img u p o k c v now
  refine ⟨fun tok h hfree hlocal htok hdata => ?fills, exec_wfill_waits rfl rfl, fun h => ?wload, fun h => ?swap,
    exec_rscale rfl⟩
  case fills =>
    refine ⟨_, exec_wfill_fills rfl rfl h hfree hlocal htok hdata, ?_⟩
    have hcore := v.filled_core cl k pos img (field o 20 5) (field o 8 12) tok
    refine ⟨?slot, fun x hx => ?others, (congrArg Core.active hcore).trans rfl,
      (congrArg Core.shadow hcore).trans rfl, ?list⟩
    case slot =>
      rw [hcore, Core.slotAt_setSlot, if_pos rfl, State.filledFrom]
      split <;> rfl
    case others =>
      rw [hcore, Core.slotAt_setSlot, if_neg hx]
      rfl
    case list =>
      rw [State.filled_prog, State.filledAt]
      split
      · rfl
      · rw [max_eq_right (Nat.le_add_right ..)]
        rfl
  case wload =>
    have hexec := exec_wload rfl rfl h
    exact ⟨fun hload => hexec.trans (congrArg _ (if_pos hload)),
      fun hload => hexec.trans (congrArg _ (if_neg (Bool.eq_false_iff.1 hload)))⟩
  case swap =>
    refine ⟨exec_swap_behind_tile rfl h, fun x n htile hcut => exec_swap_rescued rfl h htile hcut,
      exec_swap_behind_prefetch rfl h, fun hclear hcut => ?clear⟩
    have hexec := exec_swap_clear rfl h hclear hcut
    exact ⟨fun x hx hlist huse => hexec.trans (congrArg _ (State.swapShadow_usable hx hlist huse)),
      fun x hx hlist huse => hexec.trans (congrArg _ (State.swapShadow_unsettled hx hlist huse)),
      fun hnone => hexec.trans (congrArg _ (State.swapShadow_notLoaded hnone))⟩

end Sys2Proof.Machine
end

section
/-! Settling shadows, refreshes and images kept for a chain (R42 to R48, R231, R232). -/

namespace Sys2Proof.Machine

/-! ### A shadow that settles (R43, R44, R46) -/

section

variable {c : Core} {b : CalBase} {now e : Nat} {lit : Bool} {x : Held}

theorem Core.settle_usable (hx : c.shadow = some x) (hdue : x.start + loadTu ≤ now) (hstay : (x.refresh && !lit) = false) :
    c.settle b now e lit = { c with shadow := some { x with usable := true } } := by
  simp only [Core.settle, hx, hdue, hstay, if_true, Bool.false_eq_true, if_false]

theorem Core.settle_swaps (hx : c.shadow = some x) (hdue : x.start + loadTu ≤ now) (hswap : (x.refresh && !lit) = true) :
    c.settle b now e lit = c.refreshSwap b e := by
  simp only [Core.settle, hx, hdue, hswap, if_true]

theorem Core.settle_young (h : ∀ x, c.shadow = some x → now < x.start + loadTu) : c.settle b now e lit = c := by
  unfold Core.settle
  split
  case h_1 x hx => exact if_neg (Nat.not_le.2 (h x hx))
  case h_2 => rfl

theorem Core.refreshDone_of_due (hx : c.shadow = some x) (hdue : x.start + loadTu ≤ now) :
    c.refreshDone now = x.refresh := by
  simp only [Core.refreshDone, hx, hdue, decide_true, Bool.and_true]

theorem Core.refreshDone_young (h : ∀ x, c.shadow = some x → now < x.start + loadTu) : c.refreshDone now = false := by
  unfold Core.refreshDone
  split
  case h_1 x hx => rw [decide_eq_false (Nat.not_le.2 (h x hx)), Bool.and_false]
  case h_2 => rfl

/-- A refresh copy becomes the active image. -/
theorem Core.refreshSwap_plain (hx : c.shadow = some x) (hpre : c.prefetch = none) :
    c.refreshSwap b e = { c with
      active := some { x with usable := true, byList := false, refresh := false }, shadow := none
      swapUntil := e + 1 * Config.ns, cut := none } := by
  simp only [Core.refreshSwap, hx, hpre]

/-- A refresh copy becomes the active image, and the prefetch that it discarded starts its load again. -/
theorem Core.refreshSwap_prefetch {slot : Nat} {byList : Bool} (hx : c.shadow = some x)
    (hpre : c.prefetch = some (slot, byList)) :
    c.refreshSwap b e = { c.startLoad b slot e (c.slotAt slot) false byList with
      active := some { x with usable := true, byList := false, refresh := false }, prefetch := none
      swapUntil := e + 1 * Config.ns, cut := none } := by
  simp only [Core.refreshSwap, hx, hpre]
  rfl

end

/-! ### LOAD_SETTLED -/

section

variable {s : State} {t cl k : Nat} {x : Held}

/-- Core k behind LOAD_SETTLED at its boundary, before a swap holds a probe packet. -/
def State.settled (s : State) (cl k : Nat) : State :=
  s.modCore cl k (Core.settle (s.calBase cl k) s.now (s.boundary cl k s.now) (s.packetOn cl k).isSome)

theorem exec_loadSettled (hcl : cl < 832) (hk : k < 34) :
    exec (.loadSettled t cl k) s = .next (effectLoadSettled cl k (s.tick t)) :=
  if_pos (by simp [hcl, hk])

theorem effectLoadSettled_stays (h : (!(s.packetOn cl k).isSome && (s.core cl k).refreshDone s.now) = false) :
    effectLoadSettled cl k s = s.settled cl k :=
  if_neg (Bool.eq_false_iff.1 h)

theorem effectLoadSettled_swaps (h : (!(s.packetOn cl k).isSome && (s.core cl k).refreshDone s.now) = true) :
    effectLoadSettled cl k s = (s.settled cl k).holdProbe cl k (s.boundary cl k s.now) :=
  if_pos h

/-- Holding a probe packet leaves every core. -/
theorem State.core_holdProbe (s : State) (cl k e c j : Nat) : (s.holdProbe cl k e).core c j = s.core c j := by
  unfold State.holdProbe
  split
  · split
    · rw [State.modFeeder_set, State.core_setCluster]
      split
      case isTrue h => rw [h, Cluster.core_setFeeder, State.core]
      case isFalse => rfl
    · rfl
  · rfl

/-- A swap before the probe packet's end holds it for 1 ns. -/
theorem State.holdProbe_probe {e f y : Nat} (hprobe : s.probeOn cl k = some (f, y)) (he : e < y) :
    ((s.holdProbe cl k e).feeder cl f).probe = some (k, y + 1 * Config.ns) := by
  simp [State.holdProbe, hprobe, he]

/-- With no light on the core its boundaries are the symbol edges. -/
theorem State.boundary_dark (hpacket : (s.packetOn cl k).isSome = false) (hprobe : s.probeOn cl k = none) (e : Nat) :
    s.boundary cl k e = symbolEdge e := by
  simp only [Option.isSome_eq_false_iff, Option.isNone_iff_eq_none] at hpacket
  simp only [State.boundary, hpacket, hprobe]

end

/-! ### REFRESH_DUE (R46 to R48) -/

/-- A core whose refresh falls due: what its shadow held is kept as prefetch and counted as discarded. -/
def Core.cutBy (now : Nat) (c : Core) : Core :=
  match c.shadow with
  | some x => { c with prefetch := some (x.slot, x.byList), prefetchDiscard := satInc c.prefetchDiscard
                       cut := some (x, c.prefetchDiscard, now) }
  | none => { c with cut := none }

section

variable (now : Nat) {c : Core} {x : Held}

theorem Core.cutBy_some (hx : c.shadow = some x) :
    c.cutBy now = { c with prefetch := some (x.slot, x.byList), prefetchDiscard := satInc c.prefetchDiscard
                           cut := some (x, c.prefetchDiscard, now) } := by
  simp only [Core.cutBy, hx]

theorem Core.cutBy_none (hx : c.shadow = none) : c.cutBy now = { c with cut := none } := by
  simp only [Core.cutBy, hx]

theorem Core.cutBy_active (c : Core) : (c.cutBy now).active = c.active := by
  unfold Core.cutBy
  split <;> rfl

theorem Core.cutBy_driveCodes (c : Core) (b : CalBase) (w : WImage) : (c.cutBy now).driveCodes b w = c.driveCodes b w := by
  unfold Core.cutBy
  split <;> rfl

end

/-- The refresh of image a begins: its reload starts so that the settle ends at a boundary. -/
def Core.refreshes (b : CalBase) (now start : Nat) (a : Held) (c : Core) : Core :=
  (c.cutBy now).startLoad b a.slot start a.image true false

section

variable {s : State} {t cl k : Nat} {a : Held}

theorem exec_refreshDue (hcl : cl < 832) (hk : k < 34) :
    exec (.refreshDue t cl k) s = .next (effectRefreshDue cl k (s.tick t)) :=
  if_pos (by simp [hcl, hk])

theorem effectRefreshDue_due (ha : (s.core cl k).active = some a) (hage : a.start + 7800 * Config.ns ≤ s.now)
    (hbusy : ∀ x, (s.core cl k).shadow = some x → x.refresh = false) (hasked : s.swapAsked cl k = false) :
    effectRefreshDue cl k s = s.modCore cl k
      (Core.refreshes (s.calBase cl k) s.now (s.boundary cl k (s.now + loadTu) - loadTu) a) := by
  unfold effectRefreshDue
  dsimp only
  rw [ha]
  cases hx : (s.core cl k).shadow with
  | none => exact if_pos (by simp [hage, hasked])
  | some x => exact if_pos (by simp [hage, hbusy x hx, hasked])

theorem effectRefreshDue_idle (h : ∀ a, (s.core cl k).active = some a → s.now < a.start + 7800 * Config.ns ∨
      (∃ x, (s.core cl k).shadow = some x ∧ x.refresh = true) ∨ s.swapAsked cl k = true) :
    effectRefreshDue cl k s = s := by
  unfold effectRefreshDue
  dsimp only
  cases ha : (s.core cl k).active with
  | none => rfl
  | some a =>
    rcases h a ha with hyoung | ⟨x, hx, hrefresh⟩ | hasked
    · exact if_neg (by simp [hyoung])
    · exact if_neg (by simp [hx, hrefresh])
    · exact if_neg (by simp [hasked])

end

/-! ### CHAIN_FORWARD (R231, R232) -/

section

variable {s : State} {t cl k : Nat}

theorem exec_chainForward (hcl : cl < 832) (hk : k < 34) :
    exec (.chainForward t cl k) s = .next (effectChainForward cl k (s.tick t)) :=
  if_pos (by simp [hcl, hk])

theorem effectChainForward_forwards {x : Forward} {pos : Nat} (hx : s.nextForward (s.core cl k) = some x)
    (hpos : (s.cluster cl).posOf k = some pos) :
    effectChainForward cl k s =
      (s.forwardImage (.core cl pos) cl ((s.stream x.stream).img.getD 0) x.stream ((s.core cl k).slotAt x.slot) x.tok
        x.last).modCore cl k fun y =>
          { y.setSlot x.slot { (s.core cl k).slotAt x.slot with filling := false } with forward := y.forward.erase x } := by
  unfold effectChainForward
  dsimp only
  rw [hx, hpos]

theorem effectChainForward_idle (h : s.nextForward (s.core cl k) = none) : effectChainForward cl k s = s := by
  unfold effectChainForward
  dsimp only
  rw [h]

end

/-- Settles O19: a settle by what the shadow holds, a refresh by what it discards, a forward by the chain's credit. -/
theorem imagesSettleAndRefresh : Obligations.ImagesSettleAndRefresh := by
  intro s t cl k hcl hk c v now b lit e
  have hsettled : exec (.loadSettled t cl k) s = .next (effectLoadSettled cl k v) := exec_loadSettled hcl hk
  have hrefreshed : exec (.refreshDue t cl k) s = .next (effectRefreshDue cl k v) := exec_refreshDue hcl hk
  have hchained : exec (.chainForward t cl k) s = .next (effectChainForward cl k v) := exec_chainForward hcl hk
  refine ⟨fun x hx hdue => ?settles, fun hlit hprobe => State.boundary_dark (s := v) hlit hprobe now,
    fun f y hprobe he => State.holdProbe_probe hprobe he, fun hyoung => ?young,
    fun a ha hage hbusy hasked => ?refreshes, fun hidle => ?idle,
    fun x pos hx hpos => hchained.trans (congrArg _ (effectChainForward_forwards hx hpos)),
    fun hnone => hchained.trans (congrArg _ (effectChainForward_idle hnone))⟩
  case settles =>
    have hdone : (!lit && c.refreshDone now) = (x.refresh && !lit) := by
      rw [Core.refreshDone_of_due hx hdue, Bool.and_comm]
    refine ⟨fun hstay => ?usable, fun hswap hpre => ?swaps, fun slot byList hswap hpre => ?reloads⟩
    case usable =>
      rw [hsettled, effectLoadSettled_stays (hdone.trans hstay)]
      exact congrArg _ (State.modCore_congr (Core.settle_usable hx hdue hstay))
    case swaps =>
      have hcore := (Core.settle_swaps hx hdue hswap).trans (Core.refreshSwap_plain (b := b) (e := e) hx hpre)
      rw [hsettled, effectLoadSettled_swaps (hdone.trans hswap)]
      exact congrArg (fun y => Host.Outcome.next (State.holdProbe y cl k e)) (State.modCore_congr hcore)
    case reloads =>
      have hcore : (effectLoadSettled cl k v).core cl k = c.refreshSwap b e := by
        rw [effectLoadSettled_swaps (hdone.trans hswap), State.core_holdProbe, State.settled, State.core_modCore]
        exact Core.settle_swaps hx hdue hswap
      refine ⟨_, hsettled, ?_⟩
      dsimp only
      rw [hcore, Core.refreshSwap_prefetch hx hpre]
      exact ⟨rfl, rfl, rfl, rfl⟩
  case young =>
    have hno : (!lit && c.refreshDone now) = false := by rw [Core.refreshDone_young hyoung, Bool.and_false]
    refine ⟨_, hsettled, ?_⟩
    dsimp only
    rw [effectLoadSettled_stays hno, State.settled, State.core_modCore]
    exact Core.settle_young hyoung
  case refreshes =>
    have hcore : (effectRefreshDue cl k v).core cl k =
        c.refreshes b now (v.boundary cl k (now + loadTu) - loadTu) a := by
      rw [effectRefreshDue_due (s := v) ha hage hbusy hasked, State.core_modCore]
      rfl
    refine ⟨_, hrefreshed, ?_⟩
    dsimp only
    rw [hcore]
    refine ⟨?shadow, (c.cutBy_active now).trans ha, fun x hx => ?cut, fun hx => ?kept⟩
    case shadow => rw [← c.cutBy_driveCodes now b a.image]; rfl
    case cut => rw [Core.refreshes, Core.cutBy_some now hx]; exact ⟨rfl, rfl⟩
    case kept => rw [Core.refreshes, Core.cutBy_none now hx]; exact ⟨rfl, rfl⟩
  case idle => exact hrefreshed.trans (congrArg _ (effectRefreshDue_idle hidle))

end Sys2Proof.Machine
end

section
/-! Firmware's commands on images, jobs and model steps (R84, R171, R178, R376, R377, R380, R382, R383, R439). -/

namespace Sys2Proof.Machine

@[simp] theorem answerOut_accept {s : State} {ch : Nat} {b : List Byte} (done : Reply) (when_ : DoneWhen) :
    answerOut ch b (accept s ch b done when_) = .next (s.accepts ch b done when_) := rfl

/-! ### A model step that starts (R178, R382) -/

section

variable {s : State} {ch i : Nat}

theorem State.placed_of_jobRefusal (h : s.jobRefusal ch i = none) :
    s.imageRefusal ch i = none ∧ (s.image i).placed.isSome = true := by
  unfold State.jobRefusal at h
  split at h
  case h_1 => exact nomatch h
  case h_2 hok =>
    split at h
    case isTrue hplaced => exact ⟨hok, hplaced⟩
    case isFalse => exact nomatch h

/-- The record of an image whose model step starts now. -/
def ImgRec.begins (now : Nat) (r : ImgRec) : ImgRec :=
  { r with running := true, starts := r.starts + 1, startedAt := now, abort := none }

/-- Beside its record a step's start changes streams and lists only. -/
theorem State.startStep_begins (hplaced : (s.image i).placed.isSome = true) (hwait : (s.image i).waiting = false)
    (hreset : s.jobInReset i = false) (hidle : (s.image i).running = false) :
    State.Keeps [.streams, .progs] (s.modImage i (ImgRec.begins s.now)) (s.startStep i) := by
  have hmay : ((s.image i).placed.isNone || (s.image i).waiting || s.jobInReset i) = false := by
    simp [hwait, hreset, hplaced]
  unfold State.startStep
  simp only [hmay, hidle, Bool.false_eq_true, if_false]
  exact .each (fun _ _ => .into State.modProg_keeps (by decide) .rfl)
    (.each (fun _ _ => .into State.modStream_keeps (by decide) .rfl) .rfl)

theorem State.startStep_starts (hplaced : (s.image i).placed.isSome = true) (hwait : (s.image i).waiting = false)
    (hreset : s.jobInReset i = false) (hidle : (s.image i).running = false) :
    ((s.startStep i).image i).starts = (s.image i).starts + 1 := by
  have hfw := State.startStep_begins hplaced hwait hreset hidle .fw (by decide)
  have himage : (s.startStep i).image i = (s.modImage i (ImgRec.begins s.now)).image i :=
    congrArg (fun f : Fw => Tab.get ({} : ImgRec) f.images i) hfw
  rw [himage, State.modImage_set, State.image_setImage, if_pos rfl]
  rfl

end

/-! ### What the clock leaves -/

section

variable (s : State) (t : Nat)

@[simp] theorem State.jobRefusal_tick (ch i : Nat) : (s.tick t).jobRefusal ch i = s.jobRefusal ch i := rfl
@[simp] theorem State.jobInReset_tick (i : Nat) : (s.tick t).jobInReset i = s.jobInReset i := rfl
@[simp] theorem State.freeImage_tick : (s.tick t).freeImage = s.freeImage := rfl
@[simp] theorem State.notReady_tick (b : Bool) : (s.tick t).notReady b = s.notReady b := rfl
@[simp] theorem State.stageByte_tick : (s.tick t).stageByte = s.stageByte := rfl

theorem State.notReady_of_tap (h : s.aon.stage = 3) (b : Bool) : s.notReady b = false := by
  simp [State.notReady, h]

theorem State.notReady_of_stage (h : s.aon.stage ≠ 3) (htaster : s.aon.taster = false) (b : Bool) : s.notReady b = true := by
  rw [State.notReady, decide_eq_false h, htaster]; rfl

end

/-- Settles O51: each command is taken and its handler replies by the first check that fails. -/
theorem firmwareRunsImagesAndJobs : Obligations.FirmwareRunsImagesAndJobs := by
  intro s t ch
  dsimp only
  refine ⟨fun h => ?load, fun h hok => ?unload, fun x h hno => ?unloadRefused, fun h hpin => ?place, fun h hok => ?remove,
    fun x h hno => ?removeRefused, fun h => ?start, fun h hok => ?abort⟩
  case load =>
    have hrow (im : Fetched Image) : exec (.imageLoad t ch im) s = _ := act_command (handleImageLoad ch im) h
    refine ⟨fun k => (hrow _).trans rfl, fun x hfull => ?_, fun x k hfree => ?_⟩
    · simp only [hrow, handleImageLoad, State.freeImage_tick, hfull]; rfl
    · simp only [hrow, handleImageLoad, State.freeImage_tick, hfree]; rfl
  case unload =>
    have hrow : exec (.imageUnload t ch) s = _ := act_command _ h
    rw [hrow]
    simp only [State.imageRefusal_tick, hok, answerOut_behind_none, answerOut_ite]; rfl
  case unloadRefused =>
    have hrow : exec (.imageUnload t ch) s = _ := act_command _ h
    rw [hrow]
    simp only [State.imageRefusal_tick, hno, answerOut_behind_some]
  case place =>
    have hrow : exec (.jobPlace t ch) s = _ := act_command _ h
    rw [hrow]
    simp only [hpin, Bool.false_and, Bool.false_eq_true, if_false]
    refine ⟨fun hstage htaster => ?_, fun htap hok => ⟨fun hplaced => ?_, fun hfree => ?_⟩⟩
    · simp [State.notReady_of_stage s hstage htaster]
    · simp [State.notReady_of_tap s htap, hok, Option.isSome_iff_ne_none.2 hplaced]
    · have hstage : (s.tick t).aon.stage = 3 := htap
      have hok : (s.tick t).imageRefusal ch (leAt (s.cmdSlot ch) 8 1) = none := hok
      have hfree : ((s.tick t).image (leAt (s.cmdSlot ch) 8 1)).placed = none := hfree
      simp only [State.notReady_of_tap _ hstage, hok, hfree, Option.isSome_none, Bool.false_eq_true, if_false,
        answerOut_behind_none, State.place, answerOut_ite, answerOut_refuse, answerOut_accept]
      rfl
  case remove =>
    have hrow : exec (.jobRemove t ch) s = _ := act_command _ h
    rw [hrow]
    simp only [State.jobRefusal_tick, hok, answerOut_behind_none, answerOut_accept]
  case removeRefused =>
    have hrow : exec (.jobRemove t ch) s = _ := act_command _ h
    rw [hrow]
    simp only [State.jobRefusal_tick, hno, answerOut_behind_some]
  case start =>
    have hrow : exec (.stepStart t ch) s = _ := act_command _ h
    rw [hrow]
    refine ⟨fun hstage htaster => ?_, fun htap hok => ⟨fun hwait => ?_, fun hwait hreset => ?_,
      fun hwait hreset hruns => ?_, fun hwait hreset hidle => ?_⟩⟩
    · simp [State.notReady_of_stage s hstage htaster]
    · simp [State.notReady_of_tap s htap, hok, hwait]
    · simp [State.notReady_of_tap s htap, hok, hwait, hreset]
    · simp [State.notReady_of_tap s htap, hok, hwait, hreset, hruns]; rfl
    · obtain ⟨-, hplaced⟩ := State.placed_of_jobRefusal hok
      simp [State.notReady_of_tap s htap, hok, hwait, hreset, hidle, (s.tick t).startStep_starts hplaced hwait hreset hidle]
  case abort =>
    have hrow : exec (.stepAbort t ch) s = _ := act_command _ h
    rw [hrow]
    refine ⟨fun hruns => ?_, fun hidle => ?_⟩
    · simp [hok, hruns]
    · simp [hok, hidle]

end Sys2Proof.Machine
end

section
/-! Firmware's control commands: calibration settings, quiet windows, restarts, the schedule, cluster groups, power profiles
and resets (R73, R171, R253, R275, R323, R325, R380, R429, R431, R438, R439). -/

namespace Sys2Proof.Machine

/-! ### Groups and schedule entries -/

/-- A cluster range of a group that is out of order or beyond the last cluster (R325). -/
def badRange (r : Nat × Nat) : Bool := r.2 < r.1 || 832 ≤ r.2

theorem findIdx?_badRange_none {rs : List (Nat × Nat)} (h : (rs.all fun r => r.1 ≤ r.2 && r.2 < 832) = true) :
    rs.findIdx? badRange = none := by
  simp only [List.findIdx?_eq_none_iff]
  intro r hr
  have hok : (r.1 ≤ r.2 && r.2 < 832) = true := List.all_eq_true.1 h r hr
  simp only [Bool.and_eq_true, decide_eq_true_eq] at hok
  simp [badRange, hok]

/-! ### Power profiles (R438, R439) -/

/-- Parking clusters leaves every other record of a cluster, and parks exactly the listed ones. -/
theorem State.cluster_each_park (cs : List Nat) (s : State) (c : Nat) :
    (s.each cs fun s c => s.modCluster c fun k => { k with parked := true }).cluster c =
      { s.cluster c with parked := (s.cluster c).parked || cs.contains c } := by
  induction cs generalizing s with
  | nil => simp [State.each]
  | cons a cs ih =>
    refine (ih (s.modCluster a fun k => { k with parked := true })).trans ?_
    rw [State.modCluster_set, State.cluster_setCluster]
    split
    case isTrue h => simp [h]
    case isFalse h => simp [h]

theorem State.unparked_each_park (cs : List Nat) (s : State) :
    (s.each cs fun s c => s.modCluster c fun k => { k with parked := true }).unparked =
      s.unparked.filter fun c => !cs.contains c := by
  unfold State.unparked
  rw [List.filter_filter]
  refine List.filter_congr fun c _ => ?_
  rw [State.cluster_each_park]
  cases (s.cluster c).parked <;> cases (s.cluster c).retired <;> simp

/-- The idle clusters that a profile parks: from the highest number down, as many as stand above its count. -/
def State.toPark (s : State) : List Nat :=
  (s.unparked.reverse.filter fun c => !s.usedClusters.contains c).take (s.unparked.length - profileClusters s.aon.profile)

theorem State.settleProfile_parks {s : State} (hgone : (s.clusters.all fun x => !x.2.permitGoing) = true)
    (hover : profileClusters s.aon.profile < s.unparked.length) :
    s.settleProfile = s.each s.toPark fun s c => s.modCluster c fun k => { k with parked := true } := by
  have hnone : ¬ (s.clusters.any fun x => x.2.permitGoing) = true := by
    rw [← List.not_any_eq_all_not, Bool.not_eq_true'] at hgone
    simp [hgone]
  unfold State.settleProfile
  rw [if_neg hnone]
  exact if_pos hover

/-! ### What the clock leaves -/

section

variable (s : State) (t g : Nat)

@[simp] theorem State.groupClusters_tick : (s.tick t).groupClusters g = s.groupClusters g := rfl
@[simp] theorem State.usedClusters_tick : (s.tick t).usedClusters = s.usedClusters := rfl

end

/-- Promised permits are taken back outside the full profile, before any cluster changes. -/
theorem State.clusters_unpromiseUnless (s : State) (p : Prop) [Decidable p] :
    (if p then s else s.unpromise).clusters = s.clusters := by
  split <;> rfl

/-- Settles O53: each command is taken and its handler replies by the first check that fails; a profile parks idle clusters. -/
theorem firmwareCalibratesAndResets : Obligations.FirmwareCalibratesAndResets := by
  intro s t ch
  dsimp only
  refine ⟨fun h => ?settings, fun h => ?quiet, fun h => ?advance, fun h => ?comb, fun h => ?restart,
    fun h => ?sched, fun h => ?group, fun h => ?profile, fun cl hcl => ?withdrawn, fun hgone hover => ?parks, fun h => ?reset⟩
  case settings =>
    have hrow : exec (.calSettings t ch) s = _ := act_command _ h
    rw [hrow]
    refine ⟨fun hno => ?_, fun cl hcl => ⟨fun off hoff => ?_, fun hok => ?_⟩⟩
    · simp only [hno]; rfl
    · simp only [hcl, hoff]; rfl
    · simp only [hcl, hok]; rfl
  case quiet =>
    have hrow : exec (.quietOpen t ch) s = _ := act_command _ h
    rw [hrow, answerOut_okWith]
    rfl
  case advance =>
    have hrow : exec (.rotAdvance t ch) s = _ := act_command _ h
    rw [hrow, answerOut_okWith]
    rfl
  case comb =>
    have hrow : exec (.combSwitch t ch) s = _ := act_command _ h
    rw [hrow]
    refine ⟨fun hno => ?_, fun cl hcl => ?_⟩
    · simp only [hno]; rfl
    · simp only [hcl, answerOut_ite]; rfl
  case restart =>
    have hrow : exec (.clusterRestart t ch) s = _ := act_command _ h
    rw [hrow]
    refine ⟨fun hno => ?_, fun cl hcl => ?_⟩
    · simp only [hno]; rfl
    · simp only [hcl, answerOut_ite]; rfl
  case sched =>
    have hrow : exec (.schedWrite t ch) s = _ := act_command _ h
    rw [hrow]
    simp only [answerOut_ite, Bool.and_eq_true, decide_eq_true_eq]; rfl
  case group =>
    have hrow : exec (.clusterGroup t ch) s = _ := act_command _ h
    rw [hrow]
    refine ⟨fun hg => ?_, fun hg hk => ?_, fun hg hk hk' hlen => ?_, fun hg hk hk' hlen => ⟨fun i hi => ?_, fun hall => ?_⟩⟩
    · simp only [hg, if_true]; rfl
    · simp only [hg, if_false, hk, if_true]; rfl
    · simp only [hg, if_false, Nat.not_lt.2 hk, Nat.not_lt.2 hk', or_false, hlen, if_true]; rfl
    · simp only [hg, if_false, Nat.not_lt.2 hk, Nat.not_lt.2 hk', or_false, Nat.not_lt.2 hlen, hi]; rfl
    · have hnone := findIdx?_badRange_none hall
      unfold badRange at hnone
      simp only [hg, if_false, Nat.not_lt.2 hk, Nat.not_lt.2 hk', or_false, Nat.not_lt.2 hlen, hnone]; rfl
  case profile =>
    have hrow : exec (.powerProfile t ch) s = _ := act_command _ h
    rw [hrow]
    simp only [answerOut_ite, answerOut_refuse, answerOut_accept, State.usedClusters_tick, State.clusters_unpromiseUnless,
      State.modAon_clusters]
  case withdrawn => exact (if_pos (decide_eq_true hcl))
  case parks => rw [State.settleProfile_parks hgone hover, State.unparked_each_park]; rfl
  case reset =>
    have hrow : exec (.moduleReset t ch) s = _ := act_command _ h
    rw [hrow]
    refine ⟨fun hg => ?scope, fun hlo hhi hlen => ?short, fun hg hlen hk => ?quarter, fun hg hlen hk => ?link,
      fun hg => ?d1, fun hg hlen hk => ?d2, fun hg hlen hk => ?d3, fun hg hlen hk => ?d4, fun hg => ?all⟩
    case scope => simp only [hg, if_true]; rfl
    case short =>
      have hscope : ¬ (leAt (s.cmdSlot ch) 8 1 < 1 ∨ 5 < leAt (s.cmdSlot ch) 8 1) := by omega
      simp only [hscope, hlo, hhi, hlen, decide_true, Bool.and_self, if_true, if_false]; rfl
    case quarter =>
      rcases hg with hg | hg
      · simp [hg, Nat.not_lt.2 hlen, hk]
      · simp [hg, Nat.not_lt.2 hlen, hk]
    case link => simp [hg, Nat.not_lt.2 hlen, hk]
    case d1 => simp [hg]
    case d2 => simp [hg, Nat.not_lt.2 hlen, Nat.not_lt.2 hk]
    case d3 => simp [hg, Nat.not_lt.2 hlen, Nat.not_lt.2 hk]
    case d4 => simp [hg, Nat.not_lt.2 hlen, Nat.not_lt.2 hk]
    case all => simp [hg]

end Sys2Proof.Machine
end

section
/-! Fences: one found where a step was to fire, and a group that is drained (R82, R161 to R165, R230, R439). -/

namespace Sys2Proof.Machine

/-! ### What credits and drained clusters depend on -/

section

variable {L : List Part} {s x : State} (h : State.Keeps L s x)

/-- A core's list waits for no other job's turn. -/
theorem State.mayRun_core (s : State) (cl p img : Nat) : s.mayRun (.core cl p) img =
    ((s.prog (.core cl p) img).free s.now && (!s.aon.d2Reset.getLsbD (cl / 208) && (s.cluster cl).works)) := by
  simp only [State.mayRun, State.inTurn, unitAlone, Bool.true_or, Bool.and_true]
  rfl

include h

theorem State.Keeps.chainEnd_eq (hprogs : Part.progs ∉ L) (hclusters : Part.clusters ∉ L) (hnow : Part.now ∉ L)
    (haon : Part.aon ∉ L) (img o : Nat) (c : Consumer) : x.chainEnd img o c = s.chainEnd img o c := by
  have hclock : x.now = s.now := h .now hnow
  have hd2 : x.aon = s.aon := h .aon haon
  unfold State.chainEnd
  split
  case h_1 cl p hunit =>
    simp only [hunit, State.mayRun_core, h.prog_eq hprogs, h.cluster_eq hclusters, h.core_eq hclusters, hclock, hd2]
  case h_2 => rfl

/-- Whether a producer holds its credits on a stream depends on streams, lists, clusters, the clock and the resets alone. -/
theorem State.Keeps.creditOn_eq (hstreams : Part.streams ∉ L) (hprogs : Part.progs ∉ L) (hclusters : Part.clusters ∉ L)
    (hnow : Part.now ∉ L) (haon : Part.aon ∉ L) (img o : Nat) : x.creditOn img o = s.creditOn img o := by
  simp only [State.creditOn, State.chainCredit, h.stream_eq hstreams, h.chainEnd_eq hprogs hclusters hnow haon]

/-- Whether a cluster is drained depends on jobs and lists alone. -/
theorem State.Keeps.undrained_eq (hfw : Part.fw ∉ L) (hprogs : Part.progs ∉ L) (c : Nat) : x.undrained c = s.undrained c := by
  have hjobs : x.fw = s.fw := h .fw hfw
  simp only [State.undrained, State.jobsOn, State.jobs, State.clustersOf, State.worksOn, State.unitsOf, State.image, hjobs,
    h.prog_eq hprogs]

end

/-! ### FENCE_ORDER (R165) -/

/-- The outputs that get their error token now: they hold a credit and have had none. -/
def State.owedError (s : State) (img : Nat) (done outs : List Nat) : List Nat :=
  outs.filter fun o => !done.contains o && s.creditOn img o

/-- The error tokens of a step that found a fence on stream i, and its mark at every output. -/
def State.orderErrors (s : State) (u : UnitId) (img i : Nat) (outs done owed : List Nat) : State :=
  ((s.each owed fun s o => s.sendError u [o] { err := some ecFenceOrder } ((s.stream o).seqOf u)).markAll outs
    (.fence i)).modProg u img fun p => { p with orderSent := some (done ++ owed) }

section

variable {s : State} {t : Nat} {u : UnitId} {img i : Nat} {outs : List Nat}

theorem exec_fenceOrder (hu : unitOk u = true) :
    exec (.fenceOrder t u img) s = .next (effectFenceOrder u img (s.tick t)) := if_pos hu

theorem effectFenceOrder_none (hfound : s.fenceFound u img = none) : effectFenceOrder u img s = s := by
  simp only [effectFenceOrder, hfound]

theorem effectFenceOrder_first (hfound : s.fenceFound u img = some (i, outs)) (hfirst : (s.prog u img).orderSent = none) :
    effectFenceOrder u img s = ((s.raise 0x8003 (toLe 2 i)).markAbort img 3 i).orderErrors u img i outs []
      (s.owedError img [] outs) := by
  have hkeep : State.Keeps [.fw, .chans] s ((s.raise 0x8003 (toLe 2 i)).markAbort img 3 i) :=
    .into State.markAbort_keeps (by decide) (.into State.raise_keeps (by decide) .rfl)
  have howed : ((s.raise 0x8003 (toLe 2 i)).markAbort img 3 i).owedError img [] outs = s.owedError img [] outs :=
    List.filter_congr fun o _ => by
      rw [hkeep.creditOn_eq (by decide) (by decide) (by decide) (by decide) (by decide)]
  unfold effectFenceOrder
  rw [← howed, hfound]
  dsimp only
  rw [hfirst]
  rfl

theorem effectFenceOrder_later (hfound : s.fenceFound u img = some (i, outs)) {done : List Nat}
    (hsent : (s.prog u img).orderSent = some done) :
    effectFenceOrder u img s = s.orderErrors u img i outs done (s.owedError img done outs) := by
  unfold effectFenceOrder
  rw [hfound]
  dsimp only
  rw [hsent]
  rfl

end

/-! ### GROUP_DRAINED (R163, R164) -/

/-- A list that stands drained at the fence of group g goes on past it. -/
def Prog.passFence (g : Nat) (p : Prog) : Prog :=
  if p.drained = some g then { p with drained := none, pos := p.pos + 1 } else p

theorem Prog.passFence_passFence (g : Nat) (p : Prog) : (p.passFence g).passFence g = p.passFence g := by
  unfold Prog.passFence
  split
  · rfl
  · rfl

/-- A cluster whose unit passes a fence: a permit that awaits it goes where no unit works there undrained. -/
def Cluster.passFence (undrained : Bool) (c : Cluster) : Cluster :=
  if c.permitGoing && !undrained then { c with permit := false, permitGoing := false, fencePassed := true } else c

theorem Cluster.passFence_passFence (b : Bool) (c : Cluster) : (c.passFence b).passFence b = c.passFence b := by
  unfold Cluster.passFence
  split
  · rfl
  · rfl

/-- Two units of one word hold one list. -/
theorem State.prog_modProg (s : State) (u w : UnitId) (img : Nat) (f : Prog → Prog) :
    (s.modProg u img f).prog w img = if unitWord u = unitWord w then f (s.prog w img) else s.prog w img := by
  have hkey : progKey w img = progKey u img ↔ unitWord u = unitWord w := by simp [progKey, eq_comm]
  simp only [State.modProg, State.setProg, State.prog, Tab.get_put, hkey]
  split
  case isTrue h => rw [hkey.2 h]
  case isFalse => rfl

theorem State.prog_each_passFence (g img : Nat) (us : List UnitId) (s : State) (w : UnitId) :
    (s.each us fun s u => s.modProg u img (Prog.passFence g)).prog w img =
      if ∃ u ∈ us, unitWord u = unitWord w then (s.prog w img).passFence g else s.prog w img := by
  induction us generalizing s with
  | nil => simp [State.each]
  | cons u us ih =>
    have hstep := ih (s.modProg u img (Prog.passFence g))
    simp only [State.each, List.foldl_cons] at hstep ⊢
    rw [hstep, State.prog_modProg]
    rcases Decidable.em (unitWord u = unitWord w) with heq | hne
    · simp [heq, Prog.passFence_passFence]
    · simp [hne]

theorem State.cluster_passFence (s : State) (u : UnitId) (c : Nat) :
    (s.passFence u).cluster c =
      if unitCluster u = some c then (s.cluster c).passFence (s.undrained c) else s.cluster c := by
  unfold State.passFence
  split
  case h_1 d hd =>
    rcases Decidable.em (d = c) with rfl | hne
    · rw [if_pos hd, Cluster.passFence]
      split
      · exact s.cluster_modCluster d _
      · rfl
    · have hother : ¬ unitCluster u = some c := fun heq => hne (Option.some.inj (hd.symm.trans heq))
      rw [if_neg (c := unitCluster u = some c) hother]
      split
      · rw [State.modCluster_set, State.cluster_setCluster, if_neg (Ne.symm hne)]
      · rfl
  case h_2 h => simp [h]

theorem State.cluster_each_passFence (us : List UnitId) (s : State) (c : Nat) :
    (s.each us State.passFence).cluster c =
      if ∃ u ∈ us, unitCluster u = some c then (s.cluster c).passFence (s.undrained c) else s.cluster c := by
  induction us generalizing s with
  | nil => simp [State.each]
  | cons u us ih =>
    have hstep := ih (s.passFence u)
    have hdrain : (s.passFence u).undrained c = s.undrained c :=
      (State.passFence_keeps (s := s) (u := u)).undrained_eq (by decide) (by decide) c
    simp only [State.each, List.foldl_cons] at hstep ⊢
    rw [hstep, hdrain, State.cluster_passFence]
    rcases Decidable.em (unitCluster u = some c) with heq | hne
    · simp [heq, Cluster.passFence_passFence]
    · simp [hne]

/-- The group's units have passed their fence. -/
def State.groupPassed (s : State) (img g : Nat) : State :=
  (s.each (s.groupOf img g) State.passFence).each (s.groupOf img g) fun s u => s.modProg u img (Prog.passFence g)

section

variable {s : State} {t img g : Nat}

theorem exec_groupDrained (himg : img < 256) (hg : g < 4096) :
    exec (.groupDrained t img g) s = .next (effectGroupDrained img g (s.tick t)) := if_pos (by simp [himg, hg])

theorem effectGroupDrained_passes (h : ((s.image img).running && s.groupIsDrained img g) = true) :
    effectGroupDrained img g s = s.groupPassed img g := by
  have hkeep : State.Keeps [.clusters] s (s.each (s.groupOf img g) State.passFence) :=
    .each (fun _ _ => State.passFence_keeps) .rfl
  have hgroup : (s.each (s.groupOf img g) State.passFence).groupOf img g = s.groupOf img g := by
    exact congrArg (fun f : Fw => ({ s with fw := f } : State).groupOf img g) (hkeep .fw (by decide))
  refine (if_pos h).trans ?_
  dsimp only
  rw [hgroup]
  rfl

theorem State.groupPassed_prog (w : UnitId) : (s.groupPassed img g).prog w img =
    if ∃ u ∈ s.groupOf img g, unitWord u = unitWord w then (s.prog w img).passFence g else s.prog w img := by
  have hkeep : State.Keeps [.clusters] s (s.each (s.groupOf img g) State.passFence) :=
    .each (fun _ _ => State.passFence_keeps) .rfl
  rw [State.groupPassed, State.prog_each_passFence, hkeep.prog_eq (by decide)]

theorem State.groupPassed_cluster (c : Nat) : (s.groupPassed img g).cluster c =
    if ∃ u ∈ s.groupOf img g, unitCluster u = some c then (s.cluster c).passFence (s.undrained c) else s.cluster c := by
  have hkeep : State.Keeps [.progs] (s.each (s.groupOf img g) State.passFence) (s.groupPassed img g) :=
    .each (fun _ _ => State.modProg_keeps) .rfl
  rw [hkeep.cluster_eq (by decide), State.cluster_each_passFence]

end

/-- Settles O21: a fence where a step was to fire is reported at first and answered at every output with a credit; a drained
group passes its fence unit by unit, each list and each cluster once. -/
theorem fencesOutOfOrderAndDrain : Obligations.FencesOutOfOrderAndDrain := by
  intro s t u img g hu himg hg v done open_ send noted
  have horder : exec (.fenceOrder t u img) s = .next (effectFenceOrder u img v) := exec_fenceOrder hu
  have hdrained : exec (.groupDrained t img g) s = .next (effectGroupDrained img g v) := exec_groupDrained himg hg
  refine ⟨fun hnone => ?none, fun i outs hfound hfirst => ?first, fun i outs hfound hsent => ?later, fun hready => ?passes,
    fun hno => hdrained.trans (congrArg _ (if_neg (Bool.eq_false_iff.1 hno)))⟩
  case none => exact horder.trans (congrArg _ (effectFenceOrder_none hnone))
  case first =>
    have hdone : done = [] := congrArg (Option.getD · []) hfirst
    rw [horder, effectFenceOrder_first hfound hfirst]
    simp only [noted, send, open_, hdone]
    rfl
  case later =>
    obtain ⟨d, hd⟩ := Option.ne_none_iff_exists'.1 hsent
    have hdone : done = d := congrArg (Option.getD · []) hd
    rw [horder, effectFenceOrder_later hfound hd, ← hdone]
    rfl
  case passes =>
    have hall : ∀ w ∈ s.groupOf img g, (s.prog w img).drained = some g := by
      simp only [Bool.and_eq_true, State.groupIsDrained, List.all_eq_true, decide_eq_true_eq] at hready
      obtain ⟨-, ⟨hall, -⟩, -⟩ := hready
      exact hall
    refine ⟨v.groupPassed img g, hdrained.trans (congrArg _ (effectGroupDrained_passes hready)), fun w hw => ?_,
      fun w _ hne => ?_, fun w hw c hc => ?_⟩
    · rw [State.groupPassed_prog, if_pos ⟨w, hw, rfl⟩]
      exact if_pos (hall w hw)
    · rw [State.groupPassed_prog, if_neg fun ⟨x, hx, heq⟩ => hne x hx heq]
      rfl
    · rw [State.groupPassed_cluster, if_pos ⟨w, hw, hc⟩]
      rfl

end Sys2Proof.Machine
end

section
/-! FEED: the packet of its header, what it waits for, and its end without light (R83, R95 to R97, R105, R157, R167, R188). -/

namespace Sys2Proof.Machine

/-- The feeder's packet, if it has one, holds no cores yet. -/
def Feeder.waits (x : Feeder) : Prop := ∀ p, x.packet = some p → p.phase = .waiting

/-- The state with a packet of this header, image and stream at feeder f, where it has none yet. -/
def State.buildPacket (s : State) (cl f img i : Nat) (h : Dword) : State :=
  if (s.feeder cl f).packet.isSome then s
  else s.modFeeder cl f fun k => { k with packet := some { hdr := h, img := img, stream := i } }

/-- What a FEED makes of the state on which its packet is noted: an error token that every core could take ends it. -/
def State.feedNoted (n : State) (cl f img i : Nat) (h : Dword) : State :=
  match n.packetTok cl f with
  | some k => if tokType k = tyError && n.coresReady cl f then n.feedNoLight cl f img h k i (tokCode k) true else n
  | none => n

/-- What a FEED with a header that is not valid makes of its head token. -/
def State.feedInvalid (s : State) (cl f img i : Nat) (h : Dword) : State :=
  match s.dataAt i (.feeder cl f) with
  | some k =>
    if tokType k = tyError then s.feedNoLight cl f img h k i (tokCode k) true
    else s.feedNoLight cl f img h k i ecInvalid false
  | none => s

section

variable {n : State} {cl f img i : Nat} {h k : Dword}

/-- A token that lets the packet wait for its grant. -/
theorem State.feedNoted_data (hdata : ∀ k, n.packetTok cl f = some k → tokType k ≠ tyError) :
    n.feedNoted cl f img i h = n := by
  unfold State.feedNoted
  split
  case h_1 k htok => exact if_neg (by simp [hdata k htok])
  case h_2 => rfl

theorem State.feedNoted_lacks (hlack : n.coresReady cl f = false) : n.feedNoted cl f img i h = n := by
  unfold State.feedNoted
  split
  case h_1 => exact if_neg (by simp [hlack])
  case h_2 => rfl

theorem State.feedNoted_error (htok : n.packetTok cl f = some k) (herror : tokType k = tyError)
    (hready : n.coresReady cl f = true) :
    n.feedNoted cl f img i h = n.feedNoLight cl f img h k i (tokCode k) true := by
  unfold State.feedNoted
  rw [htok]
  exact if_pos (by simp [herror, hready])

theorem State.feedInvalid_idle (htok : n.dataAt i (.feeder cl f) = none) : n.feedInvalid cl f img i h = n := by
  simp only [State.feedInvalid, htok]

theorem State.feedInvalid_error (htok : n.dataAt i (.feeder cl f) = some k) (herror : tokType k = tyError) :
    n.feedInvalid cl f img i h = n.feedNoLight cl f img h k i (tokCode k) true := by
  simp only [State.feedInvalid, htok, if_pos herror]

theorem State.feedInvalid_data (htok : n.dataAt i (.feeder cl f) = some k) (hdata : tokType k ≠ tyError) :
    n.feedInvalid cl f img i h = n.feedNoLight cl f img h k i ecInvalid false := by
  simp only [State.feedInvalid, htok, if_neg hdata]

end

section

variable {s : State} {t cl f img : Nat} {o h : Dword}

/-- A packet that holds its cores is left to them. -/
theorem exec_feed_held (hstands : s.stands t (.feeder cl f) img opFeed = true) {p : Packet}
    (hp : (s.feeder cl f).packet = some p) (hheld : p.phase ≠ .waiting) :
    exec (.feed t (.feeder cl f) img) s = .next (s.tick t) := by
  refine (act_of_stands hstands _).trans (congrArg _ ?_)
  simp only [State.feeder_tick, hp]
  exact if_pos (decide_eq_true hheld)

/-- A FEED whose packet still waits goes by its header. -/
theorem exec_feed_waiting (ho : (s.prog (.feeder cl f) img).op = o)
    (hh : feedHeader (s.prog (.feeder cl f) img) (s.cluster cl).permit o = h)
    (hstands : s.stands t (.feeder cl f) img opFeed = true) (hwaits : (s.feeder cl f).waits) :
    exec (.feed t (.feeder cl f) img) s = .next
      (if hdrInvalid h then (s.tick t).feedInvalid cl f img (field o 8 12) h
      else (((s.tick t).buildPacket cl f img (field o 8 12) h).noteReady cl f).feedNoted cl f img (field o 8 12) h) := by
  subst ho hh
  refine (act_of_stands hstands _).trans (congrArg _ ?_)
  cases hp : (s.feeder cl f).packet with
  | none =>
    simp only [State.feeder_tick, State.cluster_tick, State.prog_tick, hp, Bool.false_eq_true, if_false, State.buildPacket]
    rfl
  | some p =>
    have hfree : p.holds = false := decide_eq_false (not_not.2 (hwaits p hp))
    simp only [State.feeder_tick, State.cluster_tick, State.prog_tick, hp, hfree, Bool.false_eq_true, if_false,
      State.buildPacket]
    rfl

end

/-- Settles O25: a FEED acts by its header and by the token at the head of its stream. -/
theorem feedBuildsItsPacket : Obligations.FeedBuildsItsPacket := by
  intro s t cl f img u o i h v built noted waits hstands
  refine ⟨fun hwaits hvalid => ?valid, fun hwaits hinvalid => ?invalid, fun p hp hheld => exec_feed_held hstands hp hheld⟩
  case valid =>
    have hfeed : exec (.feed t u img) s = .next (noted.feedNoted cl f img i h) :=
      (exec_feed_waiting rfl rfl hstands hwaits).trans (congrArg _ (if_neg (Bool.eq_false_iff.1 hvalid)))
    rw [hfeed]
    exact ⟨fun hdata => congrArg _ (State.feedNoted_data hdata), fun hlack => congrArg _ (State.feedNoted_lacks hlack),
      fun k htok herror hready => congrArg _ (State.feedNoted_error htok herror hready)⟩
  case invalid =>
    have hfeed : exec (.feed t u img) s = .next (v.feedInvalid cl f img i h) :=
      (exec_feed_waiting rfl rfl hstands hwaits).trans (congrArg _ (if_pos hinvalid))
    rw [hfeed]
    exact ⟨fun hnone => congrArg _ (State.feedInvalid_idle hnone),
      fun k htok => ⟨fun herror => congrArg _ (State.feedInvalid_error htok herror),
        fun hdata => congrArg _ (State.feedInvalid_data htok hdata)⟩⟩

end Sys2Proof.Machine
end

section
/-! A granted packet: its handle, its reconfiguration, its measuring, its windows and the tiles that start with them (R26, R83,
R97, R99 to R102, R128, R129, R181). -/

namespace Sys2Proof.Machine

/-! ### Tiles that start (R97, R181) -/

/-- Core k has started tile r under a packet with header h. -/
def State.TileStarted (s : State) (cl k : Nat) (h : Dword) (r : TileRun) : Prop :=
  (s.core cl k).tile = none ∧ ∃ run, (s.core cl k).run = some run ∧ run.codes = startCodes h r ∧
    run.handle = r.handle ∧ run.seq = r.seq ∧ run.count = r.count ∧ run.rowMask = r.rowMask

/-- Tile r as it starts under packet p, with the gains of its core's rows. -/
def TileRun.starts (p : Packet) (gains : List Word) (r : TileRun) : TileRun :=
  { r with codes := startCodes p.hdr r, gains := gains
           tokFlags := mkTok 0 0 0 0 { joinFlags [r.tokFlags, p.tok] with last := tokLast r.tokFlags } }

/-- A core whose prepared tile has started as run. -/
def Core.runs (run : TileRun) (c : Core) : Core := { c with tile := none, run := some run, grant := none }

section

variable {s : State} {cl f k : Nat} {p : Packet} {r : TileRun}

theorem State.startTile_none (htile : (s.core cl k).tile = none) : s.startTile cl f p k = s := by
  simp only [State.startTile, htile]

theorem State.startTile_other (htile : (s.core cl k).tile = some r) (hfeeder : r.feeder ≠ f) : s.startTile cl f p k = s := by
  simp only [State.startTile, htile, if_neg hfeeder]

/-- Counting a demoted tile and moving its list on leave every core. -/
theorem State.startTile_core (htile : (s.core cl k).tile = some r) (hfeeder : r.feeder = f) (j : Nat) :
    (s.startTile cl f p k).core cl j =
      (s.modCore cl k (Core.runs
        (r.starts p ((s.core cl k).gains (s.calBase cl k) (hdrWidth p.hdr) r.range.toNat)))).core cl j := by
  simp only [State.startTile, htile, if_pos hfeeder, State.core_finish]
  split
  · rfl
  · rfl

theorem State.startTile_core_ne (s : State) (cl f : Nat) (p : Packet) {k j : Nat} (hj : j ≠ k) :
    (s.startTile cl f p k).core cl j = s.core cl j := by
  cases htile : (s.core cl k).tile with
  | none => rw [State.startTile_none htile]
  | some r =>
    rcases Decidable.em (r.feeder = f) with hf | hf
    · rw [State.startTile_core htile hf, State.core_modCore_ne _ _ hj]
    · rw [State.startTile_other htile hf]

/-- A prepared tile that names the feeder starts. -/
theorem State.startTile_starts (htile : (s.core cl k).tile = some r) (hfeeder : r.feeder = f) :
    (s.startTile cl f p k).TileStarted cl k p.hdr r := by
  rw [State.TileStarted, State.startTile_core htile hfeeder, State.core_modCore]
  exact ⟨rfl, _, rfl, rfl, rfl, rfl, rfl, rfl⟩

theorem State.TileStarted.startTile (h : s.TileStarted cl k p.hdr r) (j : Nat) :
    (s.startTile cl f p j).TileStarted cl k p.hdr r := by
  rcases Decidable.em (k = j) with rfl | hne
  · rwa [State.startTile_none h.1]
  · rwa [State.TileStarted, State.startTile_core_ne s cl f p hne]

theorem State.TileStarted.each_startTile (h : s.TileStarted cl k p.hdr r) (ks : List Nat) :
    (s.each ks fun s k => s.startTile cl f p k).TileStarted cl k p.hdr r := by
  induction ks generalizing s with
  | nil => exact h
  | cons j ks ih => exact ih (h.startTile j)

/-- Of a list of cores each one's tile starts, however often the list names it. -/
theorem State.each_startTile_starts {ks : List Nat} (hk : k ∈ ks) (htile : (s.core cl k).tile = some r)
    (hfeeder : r.feeder = f) : (s.each ks fun s k => s.startTile cl f p k).TileStarted cl k p.hdr r := by
  induction ks generalizing s with
  | nil => exact nomatch hk
  | cons j ks ih =>
    rcases Decidable.em (k = j) with rfl | hne
    · exact (State.startTile_starts htile hfeeder).each_startTile ks
    · refine ih ((List.mem_cons.1 hk).resolve_left hne) ?_
      rw [State.startTile_core_ne s cl f p hne, htile]

end

/-! ### Windows that begin (R44, R97, R107) -/

/-- The moment of the first window: e, or the end of the last swap on the packet's cores. -/
def State.firstWindow (s : State) (cl : Nat) (p : Packet) (e : Nat) : Nat :=
  (p.phys.map fun k => (s.core cl k).swapUntil).foldl max e

/-- Feeder x as its packet's windows begin at moment e: it keeps the route, unless a core of it has changed its place. -/
def Feeder.begins (p : Packet) (e : Nat) (x : Feeder) : Feeder :=
  { x with route := if p.unrouted then none else some p.phys
           packet := some { p with phase := .running, winEnd := e + packetWindow p.hdr } }

section

variable {s : State} {cl f e : Nat} {p : Packet}

theorem State.beginWindows_first (hp : (s.feeder cl f).packet = some p) (hfirst : p.replay = false) :
    s.beginWindows cl f e = (s.each (p.phys.filter ((s.cluster cl).named p.hdr).contains) fun s k =>
      s.startTile cl f p k).modFeeder cl f (Feeder.begins p (s.firstWindow cl p e)) := by
  simp only [State.beginWindows, hp]
  rw [if_neg (Bool.eq_false_iff.1 hfirst)]
  rfl

theorem State.lightAt_measured (hp : (s.feeder cl f).packet = some p) (hm : p.measured = true) :
    s.lightAt cl f e = s.modFeeder cl f fun k =>
      { k with packet := some { p with phase := .measuring (e + 40 * Config.ns) } } := by
  simp only [State.lightAt, hp, hm, if_true]

theorem State.lightAt_carried (hp : (s.feeder cl f).packet = some p) (hm : p.measured = false) :
    s.lightAt cl f e = s.beginWindows cl f e := by
  simp only [State.lightAt, hp, hm, Bool.false_eq_true, if_false]

theorem State.feeder_modFeeder (s : State) (cl f : Nat) (g : Feeder → Feeder) :
    (s.modFeeder cl f g).feeder cl f = g (s.feeder cl f) := by
  rw [State.modFeeder_set, State.feeder_setCluster, if_pos rfl, Cluster.feeder_setFeeder, if_pos rfl]

theorem State.core_modFeeder (s : State) (cl f : Nat) (g : Feeder → Feeder) (k : Nat) :
    (s.modFeeder cl f g).core cl k = s.core cl k := by
  rw [State.modFeeder_set, State.core_setCluster, if_pos rfl, Cluster.core_setFeeder]
  rfl

end

/-! ### The three rows of a packet's start -/

section

variable {s : State} {cl f : Nat} {p : Packet}

/-- What a granted packet takes with it: its head token, and the stream's quantisation record moves on (R97, R128 to R130). -/
def State.takesPacket (s : State) (cl f : Nat) (p : Packet) : State :=
  (s.takeHead (.feeder cl f) p.stream).modStream p.stream fun m => { m with qnt := ((s.stream p.stream).qnt.mode cl).2 }

/-- The packet with its handle, its scale mode and the stream's policy and thresholds. -/
def State.startedPacket (s : State) (cl f : Nat) (p : Packet) (ph : PacketPhase) : Packet :=
  let tok := (s.dataAt p.stream (.feeder cl f)).getD 0
  let q := (s.stream p.stream).qnt
  { p with handle := some (tokHandle tok), tok := tok, measured := (q.mode cl).1.isNone, exp := (q.mode cl).1.getD 0
           policy := q.policy, satThresh := q.satThresh, underThresh := q.underThresh, phase := ph }

theorem State.takesPacket_keeps : State.Keeps [.streams] s (s.takesPacket cl f p) :=
  .into State.modStream_keeps (by decide) (.into State.takeHead_keeps (by decide) .rfl)

theorem effectPacketStart_granted (hp : (s.feeder cl f).packet = some p) (hgranted : p.phase = .granted)
    (hlive : (s.cluster cl).retired = false) :
    effectPacketStart cl f s =
      if (s.feeder cl f).route = some p.phys then
        ((s.takesPacket cl f p).modFeeder cl f fun k => { k with packet := some (s.startedPacket cl f p .granted) }).lightAt cl f
          (symbolEdge s.now)
      else (s.takesPacket cl f p).modFeeder cl f fun k =>
        { k with packet := some (s.startedPacket cl f p (.reconfig (symbolEdge s.now + 2 * Config.ns))) } := by
  have hkeep := State.takesPacket_keeps (s := s) (cl := cl) (f := f) (p := p)
  have hroute : ((s.takesPacket cl f p).feeder cl f).route = (s.feeder cl f).route := by rw [hkeep.feeder_eq (by decide)]
  have hnow : (s.takesPacket cl f p).now = s.now := hkeep .now (by decide)
  have hmay : (decide (p.phase = .granted) && !(s.cluster cl).retired) = true := by simp [hgranted, hlive]
  rw [← hroute, ← hnow]
  simp only [effectPacketStart, hp]
  rw [if_pos hmay]
  split
  case isTrue hsame => exact (if_pos hsame).symm
  case isFalse hother => exact (if_neg hother).symm

end

/-- Settles O28: each row of a packet's start acts at its moment; the windows that begin start every named core's tile. -/
theorem packetsStartTheirTiles : Obligations.PacketsStartTheirTiles := by
  intro s t cl f p hcl hf hp v now u tok q x begun put
  have hv : (v.feeder cl f).packet = some p := hp
  have hstart : exec (.packetStart t cl f) s = .next (effectPacketStart cl f v) := if_pos (by simp [hcl, hf])
  have hreconfig : exec (.reconfigEnd t cl f) s = .next (effectReconfigEnd cl f v) := if_pos (by simp [hcl, hf])
  have hmeasure : exec (.measureEnd t cl f) s = .next (effectMeasureEnd cl f v) := if_pos (by simp [hcl, hf])
  refine ⟨fun hgranted hlive hroute => ?newRoute, fun hgranted hlive hroute => ?keptRoute, fun hno => ?notGranted,
    fun e hphase he => ?reconfigured, fun e hphase he => ?reconfiguring, fun e hphase he => ?measuring,
    fun e hphase he hfirst => ?measured⟩
  case newRoute =>
    rw [hstart, effectPacketStart_granted hv hgranted hlive]
    exact congrArg _ (if_neg hroute)
  case keptRoute =>
    rw [hstart, effectPacketStart_granted hv hgranted hlive]
    exact congrArg _ (if_pos hroute)
  case notGranted =>
    have hmay : ¬ (decide (p.phase = .granted) && !(v.cluster cl).retired) = true := by
      rcases hno with hphase | hretired
      · simp [hphase]
      · simp [v, hretired]
    rw [hstart]
    simp only [effectPacketStart, hv]
    exact congrArg _ (if_neg hmay)
  case reconfigured =>
    have hlight : effectReconfigEnd cl f v = v.lightAt cl f e := by
      simp only [effectReconfigEnd, hv, hphase]
      exact if_pos he
    rw [hreconfig, hlight]
    exact ⟨fun hm => congrArg _ (State.lightAt_measured hv hm), fun hm => congrArg _ (State.lightAt_carried hv hm)⟩
  case reconfiguring =>
    rw [hreconfig]
    simp only [effectReconfigEnd, hv, hphase]
    exact congrArg _ (if_neg (Nat.not_le.2 he))
  case measuring =>
    rw [hmeasure]
    simp only [effectMeasureEnd, hv, hphase]
    exact congrArg _ (if_neg (Nat.not_le.2 he))
  case measured =>
    have hbegins : effectMeasureEnd cl f v = v.beginWindows cl f e := by
      simp only [effectMeasureEnd, hv, hphase]
      exact if_pos he
    refine ⟨_, hmeasure, ?_⟩
    dsimp only
    rw [hbegins, State.beginWindows_first hv hfirst, State.feeder_modFeeder]
    refine ⟨rfl, rfl, fun k hk hnamed r htile hfeeder => ?_⟩
    have hmem : k ∈ p.phys.filter ((s.cluster cl).named p.hdr).contains := by simp [hk, hnamed]
    have hstarted := State.each_startTile_starts (s := v) (p := p) hmem htile hfeeder
    rw [State.core_modFeeder]
    exact hstarted

end Sys2Proof.Machine
end

section
/-! Ring loops: what claims, slots, strikes and moves leave of a cluster's timers, settings and lines, and of what its cores
read (R22 to R26, R241 to R243, R261, R268). -/

namespace Sys2Proof.Machine

/-! ### What a core reads -/

/-- Ring y reads as ring x: the same LOCK_ERR, good or not. -/
def Ring.Reads (x y : Ring) : Prop := y.lockErr = x.lockErr ∧ y.good = x.good

/-- The rings of table n read as those of table m. -/
def RingsRead (m n : Tab Ring) : Prop := ∀ r, (Tab.get {} m r).Reads (Tab.get {} n r)

namespace RingsRead

theorem refl (m : Tab Ring) : RingsRead m m := fun _ => ⟨rfl, rfl⟩

theorem trans {m n o : Tab Ring} (h : RingsRead m n) (g : RingsRead n o) : RingsRead m o :=
  fun r => ⟨(g r).1.trans (h r).1, (g r).2.trans (h r).2⟩

/-- A change of every listed ring that leaves what it reads. -/
theorem map {f : Nat × Ring → Nat × Ring} (hkey : ∀ p, (f p).1 = p.1) (hread : ∀ p : Nat × Ring, p.2.Reads (f p).2)
    (m : Tab Ring) :
    RingsRead m (m.map f) := by
  intro r
  induction m with
  | nil => exact ⟨rfl, rfl⟩
  | cons p m ih =>
    simp only [List.map_cons, Tab.get, hkey]
    split
    · exact hread p
    · exact ih

theorem put {m : Tab Ring} {r : Nat} {x : Ring} (h : (Tab.get {} m r).Reads x) : RingsRead m (Tab.put {} m r x) := by
  intro j
  rw [Tab.get_put]
  split
  case isTrue hj => exact hj ▸ h
  case isFalse => exact ⟨rfl, rfl⟩

theorem foldl {α : Type} {f : Tab Ring → α → Tab Ring} (hf : ∀ m a, RingsRead m (f m a)) (xs : List α) (m : Tab Ring) :
    RingsRead m (xs.foldl f m) := by
  induction xs generalizing m with
  | nil => exact refl m
  | cons x xs ih => exact (hf m x).trans (ih _)

end RingsRead

/-- Core d reads as core c: the same feedforward term, last inner update and ring errors. -/
structure Core.Reads (c d : Core) : Prop where
  ff : d.ff = c.ff
  lastInner : d.lastInner = c.lastInner
  rings : RingsRead c.rings d.rings

namespace Core.Reads

variable {c d e : Core}

theorem refl (c : Core) : c.Reads c := ⟨rfl, rfl, .refl _⟩

theorem trans (h : c.Reads d) (g : d.Reads e) : c.Reads e :=
  ⟨g.ff.trans h.ff, g.lastInner.trans h.lastInner, h.rings.trans g.rings⟩

/-- A change of the record that leaves the rings. -/
theorem record (hrings : d.rings = c.rings := by rfl) (hff : d.ff = c.ff := by rfl)
    (hlast : d.lastInner = c.lastInner := by rfl) : c.Reads d := ⟨hff, hlast, hrings ▸ .refl _⟩

theorem slotOver (c : Core) : c.Reads c.slotOver := by
  refine ⟨rfl, rfl, RingsRead.map ?_ ?_ _⟩
  · exact fun _ => rfl
  · exact fun _ => ⟨rfl, rfl⟩

theorem factory (heat : Int) (c : Core) : c.Reads (c.factory heat) := by
  unfold Core.factory
  dsimp only
  split
  · refine ⟨rfl, rfl, RingsRead.map ?_ ?_ _⟩
    · exact fun _ => rfl
    · exact fun _ => ⟨rfl, rfl⟩
  · exact refl c

theorem noteCheck (g : Nat × Nat × Nat) (xs : List (Nat × Int)) (c : Core) : c.Reads (c.noteCheck g xs) := by
  refine ⟨rfl, rfl, RingsRead.trans (RingsRead.foldl (fun m r => ?_) (xs.map (·.1)) _) (RingsRead.map ?_ ?_ _)⟩
  · exact RingsRead.put ⟨rfl, rfl⟩
  · exact fun _ => rfl
  · exact fun _ => ⟨rfl, rfl⟩

theorem setRing {r : Nat} {x : Ring} (h : (c.ring r).Reads x) : c.Reads (c.setRing r x) := ⟨rfl, rfl, .put h⟩

theorem found (xs : List (Nat × Int)) (c : Core) :
    c.Reads (xs.foldl (fun c x => c.setRing x.1 { c.ring x.1 with mislock := x.2, found := true }) c) := by
  induction xs generalizing c with
  | nil => exact refl c
  | cons x xs ih =>
    have hset : c.Reads (c.setRing x.1 { c.ring x.1 with mislock := x.2, found := true }) := setRing ⟨rfl, rfl⟩
    exact hset.trans (ih _)

end Core.Reads

theorem Core.st_found (xs : List (Nat × Int)) (c : Core) :
    (xs.foldl (fun c x => c.setRing x.1 { c.ring x.1 with mislock := x.2, found := true }) c).st = c.st := by
  induction xs generalizing c with
  | nil => rfl
  | cons x xs ih => exact ih _

/-! ### A steady cluster -/

/-- Cluster d has the timers, settings and lines of cluster c; where q holds, no ring has been moved, and its cores read as
they did. -/
structure Cluster.Steady (q : Prop) (c d : Cluster) : Prop where
  cores : q → ∀ k, (c.core k).Reads (d.core k)
  timers : d.sensors = c.sensors ∧ d.lastFf = c.lastFf ∧ d.lastOuter = c.lastOuter
  settings : d.settleThresh = c.settleThresh ∧ d.mislockFrac = c.mislockFrac
  lines : d.spareLines = c.spareLines ∧ d.lineShift = c.lineShift ∧ d.comb = c.comb

namespace Cluster.Steady

variable {q : Prop} {c d e : Cluster}

theorem refl (q : Prop) (c : Cluster) : c.Steady q c :=
  ⟨fun _ _ => .refl _, ⟨rfl, rfl, rfl⟩, ⟨rfl, rfl⟩, ⟨rfl, rfl, rfl⟩⟩

theorem trans (h : c.Steady q d) (g : d.Steady q e) : c.Steady q e where
  cores hq k := (h.cores hq k).trans (g.cores hq k)
  timers := by
    obtain ⟨h1, h2, h3⟩ := h.timers
    obtain ⟨g1, g2, g3⟩ := g.timers
    exact ⟨g1.trans h1, g2.trans h2, g3.trans h3⟩
  settings := ⟨g.settings.1.trans h.settings.1, g.settings.2.trans h.settings.2⟩
  lines := by
    obtain ⟨h1, h2, h3⟩ := h.lines
    obtain ⟨g1, g2, g3⟩ := g.lines
    exact ⟨g1.trans h1, g2.trans h2, g3.trans h3⟩

/-- A change of the record that leaves the cores, the timers, the settings and the lines. -/
theorem record (hcores : d.cores = c.cores := by rfl)
    (htimers : d.sensors = c.sensors ∧ d.lastFf = c.lastFf ∧ d.lastOuter = c.lastOuter := by exact ⟨rfl, rfl, rfl⟩)
    (hsettings : d.settleThresh = c.settleThresh ∧ d.mislockFrac = c.mislockFrac := by exact ⟨rfl, rfl⟩)
    (hlines : d.spareLines = c.spareLines ∧ d.lineShift = c.lineShift ∧ d.comb = c.comb := by exact ⟨rfl, rfl, rfl⟩) :
    c.Steady q d where
  cores _ k := by
    rw [Cluster.core_congr hcores]
    exact .refl _
  timers := htimers
  settings := hsettings
  lines := hlines

theorem modCore (k : Nat) {f : Core → Core} (hf : q → ∀ x : Core, x.Reads (f x)) : c.Steady q (c.modCore k f) where
  cores hq j := by
    rw [Cluster.modCore_set, Cluster.core_setCore]
    split
    case isTrue h => exact h ▸ hf hq _
    case isFalse => exact .refl _
  timers := ⟨rfl, rfl, rfl⟩
  settings := ⟨rfl, rfl⟩
  lines := ⟨rfl, rfl, rfl⟩

theorem eachFeeder (g : Feeder → Feeder) : c.Steady q (c.eachFeeder g) := record

theorem unlisten (k : Nat) : c.Steady q (c.unlisten k) := eachFeeder _

theorem listened (k : Option Nat) {g : Cluster → Cluster} (hg : ∀ d : Cluster, d.Steady q (g d)) :
    c.Steady q (g (c.listen k)) := (eachFeeder _).trans (hg _)

theorem callWear (now : Nat) : c.Steady q (c.callWear now) := by
  unfold Cluster.callWear
  split
  · exact record
  · exact record

theorem toWear (now : Nat) (x : Nat × ClaimRank) : c.Steady q (c.toWear now x) := (callWear now).trans record

theorem foldlCores {f : Nat → Core → Core} (hf : ∀ k x, Core.Reads x (f k x)) (ks : List Nat) (c : Cluster) :
    c.Steady q (ks.foldl (fun c k => c.modCore k (f k)) c) := by
  induction ks generalizing c with
  | nil => exact refl q c
  | cons k ks ih => exact (modCore k fun _ => hf k).trans (ih _)

end Cluster.Steady

/-- Cluster cl is steady from state r to state s, at the same moment. -/
structure State.Steady (q : Prop) (cl : Nat) (r s : State) : Prop where
  now : s.now = r.now
  cluster : (r.cluster cl).Steady q (s.cluster cl)

namespace State.Steady

variable {q : Prop} {cl : Nat} {r s : State}

theorem refl (q : Prop) (cl : Nat) (s : State) : Steady q cl s s := ⟨rfl, .refl q _⟩

theorem keeps {L : List Part} {x : State} (h : Steady q cl r s) (hs : State.Keeps L s x) (hc : Part.clusters ∉ L)
    (hn : Part.now ∉ L) : Steady q cl r x := by
  refine ⟨(hs .now hn).trans h.now, ?_⟩
  rw [hs.cluster_eq hc]
  exact h.cluster

theorem modCluster {g : Cluster → Cluster} (h : Steady q cl r s) (hg : (s.cluster cl).Steady q (g (s.cluster cl))) :
    Steady q cl r (s.modCluster cl g) := by
  refine ⟨h.now, ?_⟩
  rw [State.cluster_modCluster]
  exact h.cluster.trans hg

theorem modCore {f : Core → Core} (h : Steady q cl r s) (k : Nat) (hf : q → ∀ x : Core, x.Reads (f x)) :
    Steady q cl r (s.modCore cl k f) := h.modCluster (.modCore k hf)

theorem each {α : Type} {f : State → α → State} (hf : ∀ z a, Steady q cl r z → Steady q cl r (f z a)) (xs : List α)
    (h : Steady q cl r s) : Steady q cl r (s.each xs f) := by
  induction xs generalizing s with
  | nil => exact h
  | cons x xs ih => exact ih (hf s x h)

/-! ### Claims -/

theorem retireCheck (h : Steady q cl r s) : Steady q cl r (s.retireCheck cl) := by
  unfold State.retireCheck
  dsimp only
  split
  · exact h.modCluster .record
  · exact h

theorem claimWear (h : Steady q cl r s) (x : Nat × ClaimRank) : Steady q cl r (s.claimWear cl x) :=
  (h.modCluster (.toWear _ x)).retireCheck

theorem dropSlot (h : Steady q cl r s) (x : CalSlot) : Steady q cl r (s.dropSlot cl x) :=
  (h.modCluster (.listened none (g := fun d => { d with slot := none, repeatTurn := _ }) fun _ => .record)).modCore
    x.core fun _ y =>
    (Core.Reads.slotOver y).trans .record

theorem yieldClaim (h : Steady q cl r s) (y : Nat × ClaimRank) : Steady q cl r (s.yieldClaim cl y) := by
  unfold State.yieldClaim
  split
  · exact h.dropSlot _
  · exact h
  · exact h.claimWear y

theorem waitForSpare (h : Steady q cl r s) (x : Nat × ClaimRank) : Steady q cl r (s.waitForSpare cl x) := by
  unfold State.waitForSpare
  split
  · exact h.modCluster .record
  · split
    · exact (h.modCluster .record).claimWear _
    · exact h.claimWear x

theorem claim (h : Steady q cl r s) (x : Nat × ClaimRank) : Steady q cl r (s.claim cl x) := by
  unfold State.claim
  dsimp only
  split
  · split
    · exact h.modCluster .record
    · exact h.claimWear x
  · split
    · exact h.claimWear x
    · split
      · split
        · exact h.claimWear x
        · exact h.waitForSpare x
      · exact modCluster (h.yieldClaim _) .record

/-! ### The rotation and the free spare -/

theorem startSlot (h : Steady q cl r s) (k sp : Nat) : Steady q cl r (s.startSlot cl k sp) := by
  unfold State.startSlot
  dsimp only
  have hslot (g : Cluster → Cluster) (hg : (s.cluster cl).Steady q (g (s.cluster cl))) := h.modCluster hg
  split
  · exact ((hslot _ .record).modCore k fun _ _ => .record).modCluster (.eachFeeder _)
  · exact hslot _ .record

theorem runAdvance (h : Steady q cl r s) : Steady q cl r (s.runAdvance cl) := by
  unfold State.runAdvance
  split
  · exact h.startSlot _ _
  · exact h

theorem heldAdvance (h : Steady q cl r s) : Steady q cl r (s.heldAdvance cl) := by
  unfold State.heldAdvance
  dsimp only
  split
  · exact (h.modCluster .record).runAdvance
  · exact h

theorem freeSpare (h : Steady q cl r s) : Steady q cl r (s.freeSpare cl) := by
  have hfree : Steady q cl r (s.modCluster cl fun c => { c with spareFor := none, copyEnd := none }) := h.modCluster .record
  unfold State.freeSpare
  dsimp only
  split
  · exact (hfree.modCluster .record).claim _
  · exact hfree.heldAdvance

/-! ### Struck cores and moved rings -/

theorem strike (h : Steady q cl r s) (k : Nat) (cause : LeaveCause) : Steady q cl r (s.strike cl k cause) := by
  have hleaves : Steady q cl r (s.modCore cl k (Core.depart cause)) := h.modCore k fun _ _ => .record
  unfold State.strike
  dsimp only
  split
  · split
    · refine modCluster ?_ (.listened none (g := fun d => { d with slot := _, repeatTurn := _ }) fun _ => .record)
      exact hleaves.modCore _ fun _ _ => .record
    · exact hleaves
  · exact hleaves

theorem spareLost (h : Steady q cl r s) (k : Nat) : Steady q cl r (s.spareLost cl k) := by
  unfold State.spareLost
  dsimp only
  split
  · split
    · exact modCluster (h.yieldClaim _) .record
    · exact h
  · exact h

/-- A move changes a ring: no claim is made about what the cores read. -/
theorem moveRing (hq : ¬ q) (h : Steady q cl r s) (k i : Nat) (d : Int) : Steady q cl r (s.moveRing cl k i d) := by
  unfold State.moveRing
  dsimp only
  split
  · exact h
  · exact h.modCore k fun hq' => absurd hq' hq

theorem moveMislocked (hq : ¬ q) (h : Steady q cl r s) (k : Nat) : Steady q cl r (s.moveMislocked cl k) :=
  (each (fun _ _ hz => hz.moveRing hq k _ _) _ h).modCore k fun _ _ => .record

theorem shiftLines (hq : ¬ q) (h : Steady q cl r s) (j : Nat) : Steady q cl r (s.shiftLines cl j) :=
  each (fun _ _ hz => each (fun _ _ hw => hw.moveRing hq _ _ _) _ hz) _ h

/-- Where the cores' readings are to stay, the core must be in service: only a core out of service has its rings moved. -/
theorem mislocked (h : Steady q cl r s) (k : Nat) (hst : q → (s.core cl k).st = .unsettled) (xs : List (Nat × Int)) :
    Steady q cl r (s.mislocked cl k xs) := by
  unfold State.mislocked
  split
  · exact h
  · dsimp only
    have hraised : State.Keeps [.chans] s (if (s.core cl k).mislockActs then s.raiseMislock cl k xs else s) :=
      .ite (fun _ => State.raiseMislock_keeps) fun _ => .rfl
    generalize (if (s.core cl k).mislockActs then s.raiseMislock cl k xs else s) = y at hraised ⊢
    have hfound := ((h.keeps hraised (by decide) (by decide)).modCluster
      (g := fun c => { c with mislocks := satAdd c.mislocks xs.length }) .record).modCore k fun _ => Core.Reads.found xs
    have hst' : q → (((y.modCluster cl fun c => { c with mislocks := satAdd c.mislocks xs.length }).modCore cl k fun c =>
        xs.foldl (fun c x => c.setRing x.1 { c.ring x.1 with mislock := x.2, found := true }) c).core cl k).st =
        .unsettled := fun hq => by
      rw [State.core_modCore, Core.st_found, State.core_modCluster]
      exact (congrArg Core.st (hraised.core_eq (by decide) cl k)).trans (hst hq)
    generalize (State.modCore _ cl k _) = z at hfound hst' ⊢
    have hmoves {st : CoreState} (hz : (z.core cl k).st = st) (hne : st ≠ .unsettled) : ¬ q :=
      fun hq => hne (hz.symm.trans (hst' hq))
    split
    case h_1 => exact hfound.strike k _
    case h_2 => exact hfound.strike k _
    case h_3 hz => exact (hfound.modCluster .record).moveMislocked (hmoves hz nofun) k
    case h_4 hz => exact ((hfound.spareLost k).modCore k fun _ _ => .record).moveMislocked (hmoves hz nofun) k
    case h_5 hz => exact (hfound.modCluster .record).moveMislocked (hmoves hz nofun) k
    case h_6 => exact hfound

theorem checked (h : Steady q cl r s) (k : Nat) (hst : q → (s.core cl k).st = .unsettled) (xs : List (Nat × Int)) :
    Steady q cl r (s.checked cl k xs) := by
  refine (h.modCore k fun _ => Core.Reads.noteCheck s.moment xs).mislocked k (fun hq => ?_) xs
  rw [State.core_modCore]
  exact hst hq

/-! ### A core out of its heater range -/

/-- The core is HELD_OUT at once. -/
theorem outAtOnce (h : Steady q cl r s) (k : Nat) : Steady q cl r ((s.modCore cl k fun c =>
    { c.slotOver with st := .heldOut, cause := some .thermal, home := none, calNew := none }).modCluster cl
      (Cluster.unlisten k)) :=
  (h.modCore k fun _ x => (Core.Reads.slotOver x).trans .record).modCluster (.unlisten k)

theorem slotlessOut (h : Steady q cl r s) (k : Nat) : Steady q cl r (((s.modCore cl k fun c =>
    { c.slotOver with st := .heldOut, cause := some .thermal, home := none, calNew := none }).modCluster cl
      (Cluster.unlisten k)).modCluster cl fun c => { c.listen none with slot := none }) :=
  (h.outAtOnce k).modCluster (.listened none (g := fun d => { d with slot := none }) fun _ => .record)

theorem heldOut (h : Steady q cl r s) (k : Nat) : Steady q cl r (s.heldOut cl k) := by
  unfold State.heldOut
  dsimp only
  split
  · exact h.strike k _
  · exact h.strike k _
  · split
    · exact (h.slotlessOut k).freeSpare
    · exact (h.slotlessOut k).modCluster .record
  · exact (h.outAtOnce k).modCluster .record
  · exact (h.spareLost k).outAtOnce k
  · exact h

theorem thermalOut (h : Steady q cl r s) (k i : Nat) : Steady q cl r (s.thermalOut cl k i) := by
  have hcounted := (h.heldOut k).modCluster (g := fun c => { c with thermalRange := satInc c.thermalRange }) .record
  unfold State.thermalOut
  dsimp only
  refine ((hcounted.keeps State.ringEvent_keeps (by decide) (by decide)).keeps State.abortUsing_keeps (by decide)
    (by decide)).modCluster (Cluster.Steady.trans ?_ (.foldlCores (fun _ => Core.Reads.factory _) _ _))
  exact .record

end State.Steady

end Sys2Proof.Machine
end

section
/-! Ring loops: an inner update, ring by ring (R240 to R246, R248, R249). -/

namespace Sys2Proof.Machine

/-! ### What an inner update leaves of the record that it reads -/

/-- Ring y has the lock slope and the moves of ring x. -/
structure Ring.SameMoves (x y : Ring) : Prop where
  slope : y.slope = x.slope
  moving : y.moving = x.moving
  resumeAt : y.resumeAt = x.resumeAt

/-- Core k of cluster cl has in state z the record of samples, the calibration and the rings' moves that it has in state s. -/
structure State.SameRecord (cl k : Nat) (s z : State) : Prop where
  now : z.now = s.now
  thresh : (z.cluster cl).settleThresh = (s.cluster cl).settleThresh
  clusterDraw : (z.cluster cl).calDraw = (s.cluster cl).calDraw
  coreDraw : (z.core cl k).calDraw = (s.core cl k).calDraw
  mon : (z.core cl k).mon = (s.core cl k).mon
  monAt : (z.core cl k).monAt = (s.core cl k).monAt
  engines : (z.core cl k).engines = (s.core cl k).engines
  ring : ∀ r, ((s.core cl k).ring r).SameMoves ((z.core cl k).ring r)

namespace State.SameRecord

variable {cl k : Nat} {s z w : State}

theorem refl (cl k : Nat) (s : State) : SameRecord cl k s s :=
  ⟨rfl, rfl, rfl, rfl, rfl, rfl, rfl, fun _ => ⟨rfl, rfl, rfl⟩⟩

theorem trans (h : SameRecord cl k s z) (g : SameRecord cl k z w) : SameRecord cl k s w where
  now := g.now.trans h.now
  thresh := g.thresh.trans h.thresh
  clusterDraw := g.clusterDraw.trans h.clusterDraw
  coreDraw := g.coreDraw.trans h.coreDraw
  mon := g.mon.trans h.mon
  monAt := g.monAt.trans h.monAt
  engines := g.engines.trans h.engines
  ring r := ⟨(g.ring r).slope.trans (h.ring r).slope, (g.ring r).moving.trans (h.ring r).moving,
    (g.ring r).resumeAt.trans (h.ring r).resumeAt⟩

theorem calBase_eq (h : SameRecord cl k s z) : z.calBase cl k = s.calBase cl k := by
  unfold State.calBase
  rw [h.clusterDraw, h.coreDraw]

theorem inPhase_eq (h : SameRecord cl k s z) (r : Nat) : (z.core cl k).inPhase cl k r = (s.core cl k).inPhase cl k r := by
  unfold Core.inPhase Core.leakOf Core.toneAt Core.lightAt Core.darkEngine
  simp only [h.mon, h.monAt, h.engines]

/-- LOCK_ERR of a ring with a slope is read off the record. -/
theorem lockErrOf_eq (h : SameRecord cl k s z) {r : Nat}
    (hslope : ((s.core cl k).ring r).slope.getD ((s.calBase cl k).slope r) ≠ 0) : z.lockErrOf cl k r = s.lockErrOf cl k r := by
  have hslope' : ((z.core cl k).ring r).slope.getD ((z.calBase cl k).slope r) =
      ((s.core cl k).ring r).slope.getD ((s.calBase cl k).slope r) := by rw [(h.ring r).slope, h.calBase_eq]
  unfold State.lockErrOf
  dsimp only
  rw [hslope', if_neg hslope, if_neg hslope, h.inPhase_eq]

end State.SameRecord

/-! ### One ring -/

/-- A LOCK_ERR within the cluster's SETTLE_THRESH. -/
def Cluster.inThresh (err : Int) (c : Cluster) : Bool := err.natAbs ≤ c.settleThresh.toNat * 65536

/-- What an inner update makes of ring x: its LOCK_ERR and whether that is good; its slope and its moves stay. -/
structure Ring.Looped (err : Int) (good : Bool) (x y : Ring) : Prop extends x.SameMoves y where
  lockErr : y.lockErr = err
  good_eq : y.good = good

section

variable {s : State} {cl k r : Nat} {err : Int}

/-- A ring that moves, or whose record is not full again, has no update. -/
theorem State.innerRing_held (h : ((s.core cl k).ring r).moving.isSome = true ∨ s.now < ((s.core cl k).ring r).resumeAt) :
    s.innerRing cl k r err = s := by
  unfold State.innerRing
  exact if_pos (by simpa [State.core] using h)

/-- A state whose core k has one ring changed in it, drawing free values, counting and reporting apart. -/
def State.RingSet (cl k r : Nat) (s : State) (y : Ring) (z : State) : Prop :=
  z.now = s.now ∧ z.core cl k = (s.core cl k).setRing r y ∧
    (z.cluster cl).settleThresh = (s.cluster cl).settleThresh ∧ (z.cluster cl).calDraw = (s.cluster cl).calDraw

/-- Free values drawn, then the ring changed. -/
theorem State.RingSet.drawn {z : State} (hk : State.Keeps [.free] s z) (y : Ring) :
    State.RingSet cl k r s y (z.modCore cl k fun c => c.setRing r y) := by
  refine ⟨hk .now (by decide), ?_, ?_, ?_⟩
  · rw [State.core_modCore, hk.core_eq (by decide)]
  · rw [State.cluster_modCore, hk.cluster_eq (by decide)]
    rfl
  · rw [State.cluster_modCore, hk.cluster_eq (by decide)]
    rfl

/-- An oscillation is counted and reported besides. -/
theorem State.RingSet.oscillates {z : State} (hk : State.Keeps [.free] s z) (y : Ring) (code v : Nat) :
    State.RingSet cl k r s y (((z.modCluster cl fun c => { c with lockOsc := satInc c.lockOsc }).modCore cl k fun c =>
      c.setRing r y).ringEvent code cl k r v) := by
  refine ⟨(State.ringEvent_keeps .now (by decide)).trans (hk .now (by decide)), ?_, ?_, ?_⟩
  · rw [State.ringEvent_keeps.core_eq (by decide), State.core_modCore, State.core_modCluster, ← hk.core_eq (by decide)]
    rfl
  · rw [State.ringEvent_keeps.cluster_eq (by decide), State.cluster_modCore, State.cluster_modCluster,
      hk.cluster_eq (by decide)]
    rfl
  · rw [State.ringEvent_keeps.cluster_eq (by decide), State.cluster_modCore, State.cluster_modCluster,
      hk.cluster_eq (by decide)]
    rfl

theorem State.innerRing_ringSet (hmove : ((s.core cl k).ring r).moving = none)
    (hres : ((s.core cl k).ring r).resumeAt ≤ s.now) : ∃ y, State.RingSet cl k r s y (s.innerRing cl k r err) ∧
      ((s.core cl k).ring r).Looped err ((s.cluster cl).inThresh err) y := by
  have hruns : ¬ (((s.core cl k).ring r).moving.isSome || decide (s.now < ((s.core cl k).ring r).resumeAt)) = true := by
    simpa [hmove] using hres
  unfold State.innerRing
  dsimp only
  refine (if_neg hruns).symm ▸ ?_
  split
  · exact ⟨_, .drawn .rfl _, ⟨⟨rfl, rfl, rfl⟩, rfl, rfl⟩⟩
  · have hk : State.Keeps [.free] s (s.toSignal (s.ringSp cl k r - err)).1 := State.toSignal_keeps
    generalize s.toSignal (s.ringSp cl k r - err) = a at hk ⊢
    split
    · exact ⟨_, .oscillates hk _ _ _, ⟨⟨rfl, rfl, rfl⟩, rfl, rfl⟩⟩
    · exact ⟨_, .drawn hk _, ⟨⟨rfl, rfl, rfl⟩, rfl, rfl⟩⟩

theorem Core.ring_setRing (c : Core) (r j : Nat) (x : Ring) : (c.setRing r x).ring j = if j = r then x else c.ring j :=
  Tab.get_put ..

theorem State.RingSet.sameRecord {y : Ring} {z : State} (h : State.RingSet cl k r s y z)
    (hy : ((s.core cl k).ring r).SameMoves y) : State.SameRecord cl k s z := by
  obtain ⟨hnow, hcore, hthresh, hdraw⟩ := h
  refine ⟨hnow, hthresh, hdraw, by rw [hcore]; rfl, by rw [hcore]; rfl, by rw [hcore]; rfl, by rw [hcore]; rfl, fun j => ?_⟩
  rw [hcore, Core.ring_setRing]
  split
  case isTrue hj => exact hj ▸ hy
  case isFalse => exact ⟨rfl, rfl, rfl⟩

/-- An update of a ring either is held or sets that ring alone. -/
theorem State.innerRing_cases (s : State) (cl k r : Nat) (err : Int) : s.innerRing cl k r err = s ∨ ∃ y,
    State.RingSet cl k r s y (s.innerRing cl k r err) ∧
      ((s.core cl k).ring r).Looped err ((s.cluster cl).inThresh err) y := by
  rcases Decidable.em (((s.core cl k).ring r).moving.isSome = true ∨ s.now < ((s.core cl k).ring r).resumeAt) with h | h
  · exact .inl (State.innerRing_held h)
  · obtain ⟨hmove, hres⟩ := not_or.1 h
    exact .inr (State.innerRing_ringSet (Option.not_isSome_iff_eq_none.1 hmove) (Nat.not_lt.1 hres))

theorem State.innerRing_sameRecord (s : State) (cl k r : Nat) (err : Int) :
    State.SameRecord cl k s (s.innerRing cl k r err) := by
  rcases s.innerRing_cases cl k r err with h | ⟨y, hset, hy⟩
  · rw [h]
    exact .refl cl k s
  · exact hset.sameRecord hy.toSameMoves

theorem State.innerRing_ring_ne (s : State) (cl k : Nat) {r j : Nat} (hj : j ≠ r) (err : Int) :
    ((s.innerRing cl k r err).core cl k).ring j = (s.core cl k).ring j := by
  rcases s.innerRing_cases cl k r err with h | ⟨y, ⟨-, hcore, -⟩, -⟩
  · rw [h]
  · rw [hcore, Core.ring_setRing, if_neg hj]

end

/-! ### All rings of a core -/

/-- The inner loops of the given rings of core k update in turn. -/
def State.innerLoops (s : State) (cl k : Nat) (rs : List Nat) : State :=
  s.each rs fun s r => s.innerRing cl k r (s.lockErrOf cl k r)

theorem State.innerLoops_sameRecord (s : State) (cl k : Nat) (rs : List Nat) :
    State.SameRecord cl k s (s.innerLoops cl k rs) := by
  induction rs generalizing s with
  | nil => exact .refl cl k s
  | cons r rs ih => exact (s.innerRing_sameRecord cl k r _).trans (ih _)

/-- A ring that may update has the LOCK_ERR of the record v once its turn has come, whatever rings come before and after. -/
theorem State.innerLoops_ring {v : State} {cl k r : Nat} (hmove : ((v.core cl k).ring r).moving = none)
    (hres : ((v.core cl k).ring r).resumeAt ≤ v.now)
    (hslope : ((v.core cl k).ring r).slope.getD ((v.calBase cl k).slope r) ≠ 0) (rs : List Nat) {s : State}
    (hv : State.SameRecord cl k v s)
    (hr : r ∈ rs ∨ ((v.core cl k).ring r).Looped (v.lockErrOf cl k r) ((v.cluster cl).inThresh (v.lockErrOf cl k r))
      ((s.core cl k).ring r)) :
    ((v.core cl k).ring r).Looped (v.lockErrOf cl k r) ((v.cluster cl).inThresh (v.lockErrOf cl k r))
      (((s.innerLoops cl k rs).core cl k).ring r) := by
  induction rs generalizing s with
  | nil => exact hr.resolve_left List.not_mem_nil
  | cons j rs ih =>
    refine ih (hv.trans (s.innerRing_sameRecord cl k j _)) ?_
    rcases Decidable.em (r = j) with rfl | hne
    · have hsame := hv.ring r
      obtain ⟨y, ⟨-, hcore, -⟩, hy⟩ := State.innerRing_ringSet (err := s.lockErrOf cl k r) (hsame.moving.trans hmove)
        (by rw [hsame.resumeAt, hv.now]; exact hres)
      have hthresh (err : Int) : (s.cluster cl).inThresh err = (v.cluster cl).inThresh err := by
        unfold Cluster.inThresh
        rw [hv.thresh]
      rw [hcore, Core.ring_setRing, if_pos rfl]
      rw [hv.lockErrOf_eq hslope, hthresh] at hy
      exact .inr ⟨⟨hy.slope.trans hsame.slope, hy.moving.trans hsame.moving, hy.resumeAt.trans hsame.resumeAt⟩, hy.lockErr,
        hy.good_eq⟩
    · rw [State.innerRing_ring_ne s cl k hne]
      exact hr.imp_left fun hmem => (List.mem_cons.1 hmem).resolve_left hne

/-! ### INNER_UPDATE -/

/-- The core once its inner loops have updated. -/
def Core.innerDone (now : Nat) (y : Core) : Core := { y.settleStep with lastInner := now }

section

variable {s : State} {cl k : Nat} (xs : List (List Nat)) (hup : (s.cluster cl).up = true)
  (hwarm : ((s.cluster cl).core k).warm = true)

/-- The inner loops of core k are due with its record v. -/
def State.innerDue (s v : State) (cl k : Nat) : Prop :=
  (s.cluster cl).quiet = none ∧ (s.cluster cl).innerOff ≤ s.now ∧
    ((s.cluster cl).core k).lastInner + 999 * Config.us ≤ s.now ∧ (v.core cl k).recordFull = true

include hup hwarm

theorem effectInnerUpdate_early (hdue : ¬ s.innerDue (s.modCore cl k (Core.sample s.now xs)) cl k) :
    effectInnerUpdate cl k xs s = s.modCore cl k (Core.sample s.now xs) := by
  unfold effectInnerUpdate
  dsimp only
  rw [if_pos (by simp [hup, hwarm])]
  refine if_neg fun h => hdue ?_
  simp only [Bool.and_eq_true, decide_eq_true_eq, Option.isNone_iff_eq_none, and_assoc] at h
  exact h

/-- After the loops a core that leaves its heater range goes, an unsettled one is checked; neither moves a ring. -/
theorem effectInnerUpdate_due (hdue : s.innerDue (s.modCore cl k (Core.sample s.now xs)) cl k) :
    State.Steady True cl (((s.modCore cl k (Core.sample s.now xs)).innerLoops cl k ((s.cluster cl).core k).active8).modCore
      cl k (Core.innerDone s.now)) (effectInnerUpdate cl k xs s) := by
  have hnow : ((s.modCore cl k (Core.sample s.now xs)).innerLoops cl k ((s.cluster cl).core k).active8).now = s.now :=
    (State.innerLoops_sameRecord ..).now
  unfold effectInnerUpdate
  dsimp only
  rw [if_pos (by simp [hup, hwarm]), if_pos (by
    simp only [Bool.and_eq_true, decide_eq_true_eq, Option.isNone_iff_eq_none, and_assoc]
    exact hdue)]
  unfold State.innerLoops at hnow ⊢
  rw [hnow]
  generalize hz : State.modCore _ cl k _ = z
  obtain rfl : State.modCore _ cl k _ = z := hz
  split
  · exact (State.Steady.refl ..).thermalOut k _
  · exact (State.Steady.refl ..).checked k (fun _ => ‹_›) _
  · exact .refl ..

end

end Sys2Proof.Machine
end

section
/-! Ring loops: quiet windows, comb lines and combs, outer and feedforward updates (R73 to R79, R242, R243, R271 to R273). -/

namespace Sys2Proof.Machine

/-! ### INNER_UPDATE: what a ring reads afterwards -/

theorem Cluster.settleThresh_modCore (c : Cluster) (k : Nat) (f : Core → Core) :
    (c.modCore k f).settleThresh = c.settleThresh := rfl
theorem Cluster.calDraw_modCore (c : Cluster) (k : Nat) (f : Core → Core) : (c.modCore k f).calDraw = c.calDraw := rfl
theorem Core.calDraw_sample (now : Nat) (xs : List (List Nat)) (c : Core) : (c.sample now xs).calDraw = c.calDraw := by
  unfold Core.sample
  rfl
theorem Core.rings_sample (now : Nat) (xs : List (List Nat)) (c : Core) : (c.sample now xs).rings = c.rings := by
  unfold Core.sample
  rfl
theorem Core.ring_sample (now : Nat) (xs : List (List Nat)) (c : Core) (r : Nat) : (c.sample now xs).ring r = c.ring r :=
  congrArg (fun m => Tab.get ({} : Ring) m r) (c.rings_sample now xs)
theorem Core.ring_innerDone (now : Nat) (c : Core) (r : Nat) : (c.innerDone now).ring r = c.ring r := rfl

section

variable {s : State} {cl k r : Nat}

theorem effectInnerUpdate_reads (xs : List (List Nat)) (hup : (s.cluster cl).up = true)
    (hwarm : ((s.cluster cl).core k).warm = true) (hdue : s.innerDue (s.modCore cl k (Core.sample s.now xs)) cl k) :
    ((effectInnerUpdate cl k xs s).core cl k).lastInner = s.now ∧
      ∀ r ∈ ((s.cluster cl).core k).active8, (((s.cluster cl).core k).ring r).moving = none →
        (((s.cluster cl).core k).ring r).resumeAt ≤ s.now →
        (((s.cluster cl).core k).ring r).slope.getD ((s.calBase cl k).slope r) ≠ 0 →
        let err := (s.modCore cl k (Core.sample s.now xs)).lockErrOf cl k r
        (((effectInnerUpdate cl k xs s).core cl k).ring r).lockErr = err ∧
          (((effectInnerUpdate cl k xs s).core cl k).ring r).good = (s.cluster cl).inThresh err := by
  have hsteady := effectInnerUpdate_due xs hup hwarm hdue
  generalize effectInnerUpdate cl k xs s = s' at hsteady
  have hring (r : Nat) : ((s.modCore cl k (Core.sample s.now xs)).core cl k).ring r = ((s.cluster cl).core k).ring r := by
    rw [State.core_modCore, Core.ring_sample]
    rfl
  have hbase : (s.modCore cl k (Core.sample s.now xs)).calBase cl k = s.calBase cl k := by
    unfold State.calBase
    rw [State.core_modCore, State.cluster_modCore, Core.calDraw_sample, Cluster.calDraw_modCore]
  have hthresh (err : Int) :
      ((s.modCore cl k (Core.sample s.now xs)).cluster cl).inThresh err = (s.cluster cl).inThresh err := by
    unfold Cluster.inThresh
    rw [State.cluster_modCore, Cluster.settleThresh_modCore]
  have hnow : (s.modCore cl k (Core.sample s.now xs)).now = s.now := rfl
  generalize s.modCore cl k (Core.sample s.now xs) = v at *
  have hreads := hsteady.cluster.cores trivial k
  have hdone : ((v.innerLoops cl k ((s.cluster cl).core k).active8).modCore cl k (Core.innerDone s.now)).core cl k =
      ((v.innerLoops cl k ((s.cluster cl).core k).active8).core cl k).innerDone s.now := State.core_modCore
  refine ⟨hreads.lastInner.trans (congrArg Core.lastInner hdone), fun r hr hmove hres hslope => ?_⟩
  have hlooped := State.innerLoops_ring (v := v) (cl := cl) (k := k) (r := r) (by rw [hring]; exact hmove)
    (by rw [hring, hnow]; exact hres) (by rw [hring, hbase]; exact hslope) _ (.refl cl k v) (.inl hr)
  have hlast : (((v.innerLoops cl k ((s.cluster cl).core k).active8).modCore cl k (Core.innerDone s.now)).core cl k).ring r =
      ((v.innerLoops cl k ((s.cluster cl).core k).active8).core cl k).ring r := by
    rw [hdone, Core.ring_innerDone]
  obtain ⟨herr, hgood⟩ : Ring.Reads ((((v.innerLoops cl k ((s.cluster cl).core k).active8).modCore cl k
    (Core.innerDone s.now)).core cl k).ring r) ((s'.core cl k).ring r) := hreads.rings r
  rw [hlast] at herr hgood
  exact ⟨herr.trans hlooped.lockErr, hgood.trans (hlooped.good_eq.trans (hthresh _))⟩

end

/-! ### OUTER_UPDATE -/

section

variable {s : State} {cl : Nat} (hup : (s.cluster cl).up = true)

include hup

section

variable (hdue : (s.cluster cl).lastOuter + 10 * Config.ms ≤ s.now)

include hdue

theorem effectOuterUpdate_quiet (hquiet : (s.cluster cl).quiet ≠ none) :
    effectOuterUpdate cl s = s.setCluster cl { s.cluster cl with lastOuter := s.now } := by
  unfold effectOuterUpdate
  dsimp only
  rw [if_pos (by simp [hup, hdue]), if_pos (Option.isSome_iff_ne_none.2 hquiet)]
  rfl

/-- New settings take effect; the checks that follow leave them. -/
theorem effectOuterUpdate_settings (hquiet : (s.cluster cl).quiet = none) :
    ((effectOuterUpdate cl s).cluster cl).lastOuter = s.now ∧
      ((effectOuterUpdate cl s).cluster cl).settleThresh = (s.cluster cl).settleNext ∧
      ((effectOuterUpdate cl s).cluster cl).mislockFrac = (s.cluster cl).fracNext := by
  have hupdated : (s.draw.modCluster cl fun c => { c with
      lastOuter := s.now, outerDraw := s.free + 1, settleThresh := c.settleNext, mislockFrac := c.fracNext }).cluster cl =
      { s.cluster cl with lastOuter := s.now, outerDraw := s.free + 1, settleThresh := (s.cluster cl).settleNext
                          mislockFrac := (s.cluster cl).fracNext } := by
    rw [State.cluster_modCluster, State.draw_keeps.cluster_eq (by decide)]
  unfold effectOuterUpdate
  dsimp only
  rw [if_pos (by simp [hup, hdue]), if_neg (by simp [hquiet])]
  generalize hz : State.modCluster _ cl _ = z
  have hupdated' : z.cluster cl = _ := (congrArg (State.cluster · cl) hz).symm.trans hupdated
  have hsteady : State.Steady False cl z (z.each ((List.range 34).filter fun k => ((z.cluster cl).core k).warm)
      fun s k => s.checked cl k (s.heaterCheck cl k)) :=
    .each (fun _ _ hw => hw.checked _ False.elim _) _ (.refl ..)
  have hwarm : (fun k => ((s.cluster cl).core k).warm) = fun k => ((z.cluster cl).core k).warm := by
    rw [hupdated']
    rfl
  rw [hwarm]
  obtain ⟨-, -, hlast⟩ := hsteady.cluster.timers
  obtain ⟨hthresh, hfrac⟩ := hsteady.cluster.settings
  rw [hlast, hthresh, hfrac, hupdated']
  exact ⟨rfl, rfl, rfl⟩

end

end

/-! ### Quiet windows -/

section

variable {s : State} {cl n : Nat}

theorem State.openQuiet1_refused (h : (s.cluster cl).quiet ≠ none ∨
    ∃ e, (s.cluster cl).quietClosed = some e ∧ s.now < e + 9 * Config.ms) : s.openQuiet1 n cl =
      (s.setCluster cl { s.cluster cl with quietRefused := satInc (s.cluster cl).quietRefused }).raise 0x8029 (toLe 2 cl) := by
  unfold State.openQuiet1
  refine if_pos (Bool.or_eq_true_iff.2 ?_)
  rcases h with h | ⟨e, he, hlate⟩
  · exact .inl (Option.isSome_iff_ne_none.2 h)
  · exact .inr ((Option.any_eq_true _ _).2 ⟨e, he, decide_eq_true hlate⟩)

theorem State.openQuiet1_opens (hquiet : (s.cluster cl).quiet = none)
    (hclosed : ∀ e, (s.cluster cl).quietClosed = some e → e + 9 * Config.ms ≤ s.now) : s.openQuiet1 n cl =
      s.setCluster cl { s.cluster cl with
        quiet := some { openedAt := s.now, len := max 1 (min n 100) * 10 * Config.us, base := (s.cluster cl).sensors }
        quietClip := if 100 < n then satInc (s.cluster cl).quietClip else (s.cluster cl).quietClip
        slot := (s.cluster cl).slot.map fun x => { x with pausedAt := some s.now } } := by
  unfold State.openQuiet1
  refine if_neg (Bool.not_eq_true _ ▸ Bool.or_eq_false_iff.2 ⟨Option.isSome_eq_false_iff.2 (hquiet ▸ rfl), ?_⟩)
  exact (Option.any_eq_false _ _).2 fun e he => decide_eq_false (Nat.not_lt.2 (hclosed e he))

theorem State.Steady.closeQuiet (s : State) (cl e : Nat) : Steady True cl s (s.closeQuiet cl e) :=
  ((State.Steady.refl True cl s).modCluster .record).heldAdvance

/-- With no advance held nothing starts. -/
theorem State.closeQuiet_cluster (e : Nat) {q : Quiet} (hquiet : (s.cluster cl).quiet = some q)
    (hadv : (s.cluster cl).advHeld = false) : ((s.closeQuiet cl e).cluster cl).quiet = none ∧
      ((s.closeQuiet cl e).cluster cl).quietClosed = some e ∧
      ((s.closeQuiet cl e).cluster cl).innerOff = e + 2 * Config.ms ∧
      ((s.closeQuiet cl e).cluster cl).quietLast = some (q.openedAt, e) := by
  unfold State.closeQuiet
  dsimp only
  generalize hz : State.modCluster _ cl _ = z
  have hc := (congrArg (State.cluster · cl) hz).symm.trans (s.cluster_modCluster cl _)
  have hheld : z.heldAdvance cl = z := by
    unfold State.heldAdvance
    refine if_neg ?_
    rw [hc]
    simp [hadv]
  rw [hheld]
  rw [hc]
  exact ⟨rfl, rfl, rfl, by rw [hquiet]; rfl⟩

theorem effectQuietClose_due {q : Quiet} (hquiet : (s.cluster cl).quiet = some q) (hdue : q.openedAt + q.len ≤ s.now) :
    effectQuietClose cl s = s.closeQuiet cl (q.openedAt + q.len) := by
  unfold effectQuietClose
  simp only [hquiet]
  exact if_pos hdue

end

end Sys2Proof.Machine
end

section
/-! Ring loops: feedforward updates, comb lines and combs; the obligation on ring loops (R73, R78, R243, R271 to R273). -/

namespace Sys2Proof.Machine

/-! ### FEEDFORWARD_UPDATE -/

section

variable {s : State} {cl : Nat}

/-- A change of several cores of a cluster, each once. -/
theorem State.core_each_modCore (f : Core → Core) {ks : List Nat} (hnodup : ks.Nodup) (s : State) {k : Nat} (hk : k ∈ ks) :
    (s.each ks fun s k => s.modCore cl k f).core cl k = f (s.core cl k) := by
  have hrest (ks : List Nat) (s : State) {j : Nat} (hj : j ∉ ks) :
      (s.each ks fun s k => s.modCore cl k f).core cl j = s.core cl j := by
    induction ks generalizing s with
    | nil => rfl
    | cons k ks ih =>
      obtain ⟨hne, hj⟩ := not_or.1 (List.mem_cons.not.1 hj)
      exact (ih _ hj).trans (s.core_modCore_ne cl hne f)
  induction ks generalizing s with
  | nil => exact absurd hk List.not_mem_nil
  | cons a ks ih =>
    obtain ⟨ha, hks⟩ := List.nodup_cons.1 hnodup
    rcases List.mem_cons.1 hk with rfl | hmem
    · exact (hrest ks _ ha).trans State.core_modCore
    · have hne : k ≠ a := fun h => ha (h ▸ hmem)
      exact (ih hks _ hmem).trans (congrArg f (s.core_modCore_ne cl hne f))

/-- Four sensors are all that a cluster has. -/
theorem four_getD {xs : List Int} (h : xs.length = 4) (base : List Int) :
    ((List.range 4).map fun i => xs.getD i (base.getD i 0)) = xs := by
  match xs, h with
  | [_, _, _, _], _ => rfl

/-- The cluster with new readings of its four sensors. -/
def Cluster.sensed (now : Nat) (xs : List Int) (c : Cluster) : Cluster :=
  { c with
    sensors := xs, lastFf := now
    bandSince := if (List.range 4).all fun i => inBand (c.sensors.getD i 0) (xs.getD i 0) then some (c.bandSince.getD now)
      else none
    slew := ((List.range 4).map fun i => 10 * (xs.getD i 0 - c.sensors.getD i 0).natAbs).foldl max 0 }

theorem Cluster.core_sensed (now : Nat) (xs : List Int) (c : Cluster) (k : Nat) : (c.sensed now xs).core k = c.core k := rfl

/-- The terms move, then a quiet window may close, which leaves them. -/
theorem effectFeedforwardUpdate_due {xs : List Int} (hxs : xs.length = 4) (hup : (s.cluster cl).up = true)
    (hdue : (s.cluster cl).lastFf + 100 * Config.us ≤ s.now) {z : State}
    (hz : s.modCluster cl (Cluster.sensed s.now xs) = z) :
    State.Steady True cl (z.each ((List.range 34).filter fun k => ((s.cluster cl).core k).warm) fun s k =>
      s.modCore cl k (Core.feedForward xs.sum)) (effectFeedforwardUpdate cl xs s) := by
  unfold effectFeedforwardUpdate
  dsimp only
  rw [if_pos (Bool.and_eq_true_iff.2 ⟨hup, decide_eq_true hdue⟩), four_getD hxs]
  generalize hy : State.modCluster s cl _ = y
  obtain rfl : y = z := hy.symm.trans hz
  have hheat : (y.cluster cl).heat = xs.sum := by
    rw [← hz, State.cluster_modCluster, List.sum_eq_foldl]
    rfl
  rw [hheat]
  split
  · split
    · exact (State.Steady.closeQuiet ..).keeps State.raise_keeps (by decide) (by decide)
    · exact .refl ..
  · exact .refl ..

theorem effectFeedforwardUpdate_terms {xs : List Int} (hxs : xs.length = 4) (hup : (s.cluster cl).up = true)
    (hdue : (s.cluster cl).lastFf + 100 * Config.us ≤ s.now) :
    ((effectFeedforwardUpdate cl xs s).cluster cl).sensors = xs ∧
      ((effectFeedforwardUpdate cl xs s).cluster cl).lastFf = s.now ∧
      ∀ k, k < 34 → ((s.cluster cl).core k).warm = true →
        ((effectFeedforwardUpdate cl xs s).core cl k).ff = (((s.cluster cl).core k).feedForward xs.sum).ff := by
  have hc : (s.modCluster cl (Cluster.sensed s.now xs)).cluster cl = (s.cluster cl).sensed s.now xs :=
    s.cluster_modCluster cl _
  have hsteady := effectFeedforwardUpdate_due hxs hup hdue rfl
  generalize s.modCluster cl (Cluster.sensed s.now xs) = z at hsteady hc
  have heach : State.Steady False cl z (z.each ((List.range 34).filter fun k => ((s.cluster cl).core k).warm) fun s k =>
      s.modCore cl k (Core.feedForward xs.sum)) := .each (fun _ _ hw => hw.modCore _ False.elim) _ (.refl ..)
  obtain ⟨hsensors, hlast, -⟩ := hsteady.cluster.timers
  obtain ⟨hsensors', hlast', -⟩ := heach.cluster.timers
  refine ⟨hsensors.trans (hsensors'.trans (congrArg Cluster.sensors hc)),
    hlast.trans (hlast'.trans (congrArg Cluster.lastFf hc)), fun k hk hwarm => ?_⟩
  have hmem : k ∈ (List.range 34).filter fun k => ((s.cluster cl).core k).warm :=
    List.mem_filter.2 ⟨List.mem_range.2 hk, hwarm⟩
  refine (hsteady.cluster.cores trivial k).ff.trans ?_
  refine congrArg Core.ff ((State.core_each_modCore _ (List.nodup_range.filter _) z hmem).trans ?_)
  exact congrArg (Core.feedForward xs.sum)
    ((congrArg (Cluster.core · k) hc).trans ((s.cluster cl).core_sensed s.now xs k))

end

/-! ### Lines and combs -/

section

variable {s : State} {cl : Nat}

/-- What a restart that begins makes of its cluster's lines. -/
theorem State.beginRestart_lines (s : State) (cl : Nat) :
    ((s.beginRestart cl).cluster cl).restart = some (s.now + 300 * Config.ms) ∧
      ((s.beginRestart cl).cluster cl).spareLines = (s.cluster cl).spareLines ∧
      ((s.beginRestart cl).cluster cl).lineShift = (s.cluster cl).lineShift ∧
      ((s.beginRestart cl).cluster cl).comb = (s.cluster cl).comb ∧
      ((s.beginRestart cl).cluster cl).combWorn = (s.cluster cl).combWorn := by
  unfold State.beginRestart
  dsimp only
  rw [State.cluster_modCluster, State.draw_keeps.cluster_eq (by decide)]
  have hclear : (s.cluster cl).clearRoutes.spareLines = (s.cluster cl).spareLines ∧
      (s.cluster cl).clearRoutes.lineShift = (s.cluster cl).lineShift ∧
      (s.cluster cl).clearRoutes.comb = (s.cluster cl).comb ∧
      (s.cluster cl).clearRoutes.combWorn = (s.cluster cl).combWorn := ⟨rfl, rfl, rfl, rfl⟩
  generalize (s.cluster cl).clearRoutes = d at hclear ⊢
  exact ⟨rfl, hclear⟩

/-- The standby comb takes over and the cluster restarts on it. -/
theorem State.switched_cluster (s : State) (cl n : Nat) :
    let d := (((s.wears n).modCluster cl Cluster.switchComb).beginRestart cl).cluster cl
    d.comb = 1 ∧ d.combWorn = false ∧ d.spareLines = 4 ∧ d.restart = some (s.now + 300 * Config.ms) := by
  obtain ⟨hrestart, hspare, -, hcomb, hworn⟩ := ((s.wears n).modCluster cl Cluster.switchComb).beginRestart_lines cl
  rw [State.cluster_modCluster] at hspare hcomb hworn
  have hnow : ((s.wears n).modCluster cl Cluster.switchComb).now = s.now :=
    State.wears_keeps (s := s) (kind := n) .now (by decide)
  rw [hnow] at hrestart
  exact ⟨hcomb, hworn, hspare, hrestart⟩

variable {line : Nat}

theorem effectLineRemapped_unused (h : (s.cluster cl).usedLines.contains line = false) : effectLineRemapped cl line s = s := by
  unfold effectLineRemapped
  dsimp only
  rw [h, Bool.and_false]
  exact if_neg Bool.false_ne_true

/-- The cluster stops: its tiles carry SUSPECT and its steps are to be aborted. -/
def State.lineLost (s : State) (cl : Nat) : State := (s.modCluster cl Cluster.suspectAll).abortUsing cl 6

theorem State.lineLost_cluster : (s.lineLost cl).cluster cl = (s.cluster cl).suspectAll := by
  unfold State.lineLost
  rw [State.abortUsing_keeps.cluster_eq (by decide), State.cluster_modCluster]

theorem State.lineLost_now : (s.lineLost cl).now = s.now := State.abortUsing_keeps .now (by decide)

/-- The restart in which a spare line takes over. -/
def State.remapped (s : State) (cl line j : Nat) : State :=
  (((((s.wears 3).shiftLines cl j).modCluster cl fun c =>
    { c with spareLines := c.spareLines - 1, lineShift := c.lineShift ++ [line] }).beginRestart cl).modCluster cl fun c =>
      { c with remap := true })

theorem State.remapped_cluster (s : State) (cl line j : Nat) :
    let d := (s.remapped cl line j).cluster cl
    d.spareLines = (s.cluster cl).spareLines - 1 ∧ d.lineShift = (s.cluster cl).lineShift ++ [line] ∧
      d.comb = (s.cluster cl).comb ∧ d.restart = some (s.now + 300 * Config.ms) := by
  have hshift : State.Steady False cl s ((s.wears 3).shiftLines cl j) :=
    State.Steady.shiftLines id ((State.Steady.refl False cl s).keeps State.wears_keeps (by decide) (by decide)) j
  unfold State.remapped
  generalize (s.wears 3).shiftLines cl j = y at hshift ⊢
  obtain ⟨hspare, hlines, hcomb⟩ := hshift.cluster.lines
  obtain ⟨hrestart, hspare', hlines', hcomb', -⟩ := State.beginRestart_lines (y.modCluster cl fun c =>
    { c with spareLines := c.spareLines - 1, lineShift := c.lineShift ++ [line] }) cl
  rw [State.cluster_modCluster] at hspare' hlines' hcomb'
  have hnow : (y.modCluster cl fun c =>
    { c with spareLines := c.spareLines - 1, lineShift := c.lineShift ++ [line] }).now = s.now := hshift.now
  rw [hnow] at hrestart
  dsimp only at hspare' hlines' hcomb' ⊢
  rw [hspare] at hspare'
  rw [hlines] at hlines'
  rw [hcomb] at hcomb'
  rw [State.cluster_modCluster]
  exact ⟨hspare', hlines', hcomb', hrestart⟩

section

variable (hup : (s.cluster cl).up = true) (hused : (s.cluster cl).usedLines.contains line = true)

include hup hused

theorem effectLineRemapped_spare (hspare : (s.cluster cl).spareLines ≠ 0) : effectLineRemapped cl line s =
    ((s.lineLost cl).remapped cl line ((s.cluster cl).usedLines.findIdx (· = line))).ringEvent 0x8026 cl 0 line
      ((s.cluster cl).spareLines - 1) := by
  unfold effectLineRemapped
  dsimp only
  rw [if_pos (by rw [hup, hused]; rfl), if_pos hspare]
  rfl

theorem effectLineRemapped_standby (hspare : (s.cluster cl).spareLines = 0) (hcomb : (s.cluster cl).comb = 0) :
    effectLineRemapped cl line s = (((s.lineLost cl).wears 4).modCluster cl Cluster.switchComb).beginRestart cl := by
  unfold effectLineRemapped
  dsimp only
  rw [if_pos (by rw [hup, hused]; rfl), if_neg (not_not.2 hspare), if_pos hcomb]
  rfl

theorem effectLineRemapped_retired (hspare : (s.cluster cl).spareLines = 0) (hcomb : (s.cluster cl).comb ≠ 0) :
    effectLineRemapped cl line s = (s.lineLost cl).modCluster cl fun c => { c with retired := true, permit := false } := by
  unfold effectLineRemapped
  dsimp only
  rw [if_pos (by rw [hup, hused]; rfl), if_neg (not_not.2 hspare), if_neg hcomb]
  rfl

end

/-- What LINE_REMAPPED of a line in use leaves of its cluster. -/
theorem effectLineRemapped_cluster (hup : (s.cluster cl).up = true)
    (hused : (s.cluster cl).usedLines.contains line = true) :
    let c := s.cluster cl
    let d := (effectLineRemapped cl line s).cluster cl
    (c.spareLines ≠ 0 → d.spareLines = c.spareLines - 1 ∧ d.lineShift = c.lineShift ++ [line] ∧ d.comb = c.comb ∧
      d.restart = some (s.now + 300 * Config.ms)) ∧
    (c.spareLines = 0 → c.comb = 0 → d.comb = 1 ∧ d.spareLines = 4 ∧ d.restart = some (s.now + 300 * Config.ms)) ∧
    (c.spareLines = 0 → c.comb ≠ 0 → d.retired = true ∧ d.permit = false ∧ d.restart = c.restart) := by
  have hsuspect (c : Cluster) : c.suspectAll.spareLines = c.spareLines ∧ c.suspectAll.lineShift = c.lineShift ∧
      c.suspectAll.comb = c.comb ∧ c.suspectAll.restart = c.restart := ⟨rfl, rfl, rfl, rfl⟩
  obtain ⟨hlines, hshift, hcombs, hrestarts⟩ := hsuspect (s.cluster cl)
  rw [← State.lineLost_cluster] at hlines hshift hcombs hrestarts
  refine ⟨fun hspare => ?spare, fun hspare hcomb => ?standby, fun hspare hcomb => ?retired⟩
  case spare =>
    obtain ⟨h1, h2, h3, h4⟩ :=
      (s.lineLost cl).remapped_cluster cl line ((s.cluster cl).usedLines.findIdx (· = line))
    rw [effectLineRemapped_spare hup hused hspare, State.ringEvent_keeps.cluster_eq (by decide)]
    exact ⟨h1.trans (congrArg (· - 1) hlines), h2.trans (congrArg (· ++ [line]) hshift), h3.trans hcombs,
      h4.trans (by rw [State.lineLost_now])⟩
  case standby =>
    obtain ⟨h1, -, h3, h4⟩ := (s.lineLost cl).switched_cluster cl 4
    rw [effectLineRemapped_standby hup hused hspare hcomb]
    exact ⟨h1, h3, h4.trans (by rw [State.lineLost_now])⟩
  case retired =>
    rw [effectLineRemapped_retired hup hused hspare hcomb, State.cluster_modCluster]
    exact ⟨rfl, rfl, hrestarts⟩

/-- The cluster after the 10 s check of its comb. -/
def Cluster.combSeen (now n : Nat) (c : Cluster) : Cluster :=
  { c with combCheck := now, combRatio := BitVec.ofNat 16 n, combWorn := c.combWorn || 1600 < n }

theorem effectCombWorn_due (n : Nat) (hup : (s.cluster cl).up = true)
    (hdue : (s.cluster cl).combCheck + 10 * Config.sec ≤ s.now) : effectCombWorn cl n s =
      if 1600 < n ∧ (s.cluster cl).combWorn = false then
        (s.setCluster cl ((s.cluster cl).combSeen s.now n)).ringEvent 0x8025 cl 0 0 n
      else s.setCluster cl ((s.cluster cl).combSeen s.now n) := by
  have hseen : s.modCluster cl (Cluster.combSeen s.now n) = s.setCluster cl ((s.cluster cl).combSeen s.now n) := rfl
  unfold effectCombWorn
  dsimp only
  rw [if_pos (Bool.and_eq_true_iff.2 ⟨hup, decide_eq_true hdue⟩), ← hseen]
  simp only [Bool.and_eq_true, decide_eq_true_eq, Bool.not_eq_true']
  rfl

theorem effectWornCombSwitch_due (hup : (s.cluster cl).up = true) (hworn : (s.cluster cl).combWorn = true)
    (hcomb : (s.cluster cl).comb = 0) (huse : s.inUse cl = false)
    (hidle : (s.cluster cl).idleSince + 300 * Config.ms ≤ s.now) :
    effectWornCombSwitch cl s = ((s.wears 4).modCluster cl Cluster.switchComb).beginRestart cl := by
  unfold effectWornCombSwitch
  dsimp only
  refine if_pos (Bool.and_eq_true_iff.2 ⟨?_, decide_eq_true hidle⟩)
  simp [hup, hworn, hcomb, huse]

end

/-! ### The obligation -/

/-- Settles O37: each row's guard holds; what follows the change that the row names (claims, slots, strikes, moves) leaves the
cluster's timers, settings and lines, and, where no ring is moved, what its cores read (`State.Steady`). -/
theorem ringLoopsAndQuietWindows : Obligations.RingLoopsAndQuietWindows := by
  intro s t cl hcl hup v now c
  refine ⟨fun k xs hk hwarm => ?inner, fun hdue => ⟨fun hquiet => ?skipped, fun hquiet => ?outer⟩, fun xs hxs hdue => ?ff,
    fun n => ⟨fun hbusy => ?refused, fun hquiet hclosed => ?opens⟩, fun q hquiet hdue hadv => ?closes,
    fun line hline hunused => ?unused, fun line hline hused => ?line,
    fun n hn hdue => ⟨fun hworn hnew => ?worn, fun hold => ?seen⟩, fun hworn hcomb huse hidle => ?switch⟩
  case inner =>
    have hexec : exec (.innerUpdate t cl k xs) s = .next (effectInnerUpdate cl k xs v) := if_pos (by simp [hcl, hk])
    refine ⟨fun hearly => ?_, fun hdue => ⟨_, hexec, effectInnerUpdate_reads (s := v) xs hup hwarm hdue⟩⟩
    rw [hexec, effectInnerUpdate_early (s := v) xs hup hwarm hearly]
    rfl
  case skipped =>
    have hexec : exec (.outerUpdate t cl) s = .next (effectOuterUpdate cl v) := if_pos (by simp [hcl])
    rw [hexec, effectOuterUpdate_quiet (s := v) hup hdue hquiet]
    rfl
  case outer =>
    exact ⟨effectOuterUpdate cl v, if_pos (by simp [hcl]), effectOuterUpdate_settings (s := v) hup hdue hquiet⟩
  case ff =>
    exact ⟨effectFeedforwardUpdate cl xs v, if_pos (by simp [hcl]), effectFeedforwardUpdate_terms (s := v) hxs hup hdue⟩
  case refused =>
    have hexec : exec (.quietWindowOpen t [cl] n) s = .next (v.openQuiet1 n cl) := if_pos (by simp [hcl])
    rw [hexec, State.openQuiet1_refused (s := v) hbusy]
    rfl
  case opens =>
    have hexec : exec (.quietWindowOpen t [cl] n) s = .next (v.openQuiet1 n cl) := if_pos (by simp [hcl])
    rw [hexec, State.openQuiet1_opens (s := v) hquiet hclosed]
    rfl
  case closes =>
    refine ⟨effectQuietClose cl v, if_pos (by simp [hcl]), ?_⟩
    rw [effectQuietClose_due (s := v) hquiet hdue]
    exact State.closeQuiet_cluster (s := v) _ hquiet hadv
  case unused =>
    have hexec : exec (.lineRemapped t cl line) s = .next (effectLineRemapped cl line v) := if_pos (by simp [hcl, hline])
    rw [hexec, effectLineRemapped_unused (s := v) hunused]
  case line =>
    exact ⟨effectLineRemapped cl line v, if_pos (by simp [hcl, hline]), effectLineRemapped_cluster (s := v) hup hused⟩
  case worn =>
    have hexec : exec (.combWorn t cl n) s = .next (effectCombWorn cl n v) := if_pos (by simp [hcl, hn])
    rw [hexec, effectCombWorn_due (s := v) n hup hdue, if_pos ⟨hworn, hnew⟩]
    rfl
  case seen =>
    have hexec : exec (.combWorn t cl n) s = .next (effectCombWorn cl n v) := if_pos (by simp [hcl, hn])
    rw [hexec, effectCombWorn_due (s := v) n hup hdue, if_neg]
    · rfl
    · rintro ⟨hworn, hnew⟩
      exact hold.elim (fun h => absurd hworn (Nat.not_lt.2 h)) fun h => Bool.false_ne_true (hnew.symm.trans h)
  case switch =>
    refine ⟨effectWornCombSwitch cl v, if_pos (by simp [hcl]), ?_⟩
    rw [effectWornCombSwitch_due (s := v) hup hworn hcomb huse hidle]
    exact v.switched_cluster cl 4

end Sys2Proof.Machine
end

section
/-! TILE: the core it prepares, its wait for light, and its end without light (R96, R145 to R147, R155, R157, R193, R194). -/

namespace Sys2Proof.Machine

/-! ### The operation at its core -/

/-- The TILE that the list's operation prepares at a position, with no handle yet. -/
def Prog.tileRun (p : Prog) (img pos : Nat) : TileRun :=
  { img := img, pos := pos, slot := field p.op 8 5, win := BitVec.ofNat 3 (field p.op 13 3)
    width := BitVec.ofNat 3 (field p.op 16 3), range := BitVec.ofNat 2 (field p.op 19 2), feeder := field p.op 21 2
    out := field p.op 23 12, handle := 0xFFFF, count := field p.op 35 16 + 1, slice := field p.op 51 5
    rowMask := p.rowMask, raw := p.raw, tokFlags := mkTok 0 0 0 0 { last := p.lastFor (field p.op 23 12) } }

/-- A core with TILE r prepared. -/
def Core.prepare (r : TileRun) (c : Core) : Core := { c with tile := some r }

/-- A core with no TILE prepared. -/
def Core.dropTile (c : Core) : Core := { c with tile := none }

/-- The state as TILE r finds its output: an output without a wait shows that it waits for the packet (R174). -/
def State.showInput (s : State) (cl k : Nat) (r : TileRun) : State :=
  if (s.stream r.out).wait.isNone && (s.core cl k).run.isNone then s.modStream r.out fun m => { m with hq := 2 } else s

theorem State.showInput_keeps {s : State} {cl k : Nat} {r : TileRun} : State.Keeps [.streams] s (s.showInput cl k r) :=
  .ite (fun _ => .into State.modStream_keeps (by decide) .rfl) fun _ => .rfl

theorem State.showInput_sameTiles (s : State) (cl k : Nat) (r : TileRun) : s.SameTiles (s.showInput cl k r) := by
  unfold State.showInput
  split
  · exact .modStream (fun _ => ⟨rfl, rfl, rfl, rfl⟩) .rfl
  · exact .rfl

section

variable {s : State} {t cl pos img k : Nat} (hk : (s.cluster cl).phys pos = k)
  (hstands : s.stands t (.core cl pos) img opTile = true)

include hk hstands

theorem exec_tile_prepares (htile : (s.core cl k).tile = none) :
    let r := (s.prog (.core cl pos) img).tileRun img pos
    exec (.tile t (.core cl pos) img) s = .next (((s.tick t).showInput cl k r).modCore cl k (Core.prepare r)) := by
  subst hk
  refine (act_of_stands hstands _).trans (congrArg _ ?_)
  simp only [State.cluster_tick, State.core_tick, htile]
  rfl

theorem exec_tile_prepared {r : TileRun} (htile : (s.core cl k).tile = some r) :
    exec (.tile t (.core cl pos) img) s = .next ((s.tick t).tileNoLight cl k) := by
  subst hk
  refine (act_of_stands hstands _).trans (congrArg _ ?_)
  simp only [State.cluster_tick, State.core_tick, htile]

end

/-! ### A TILE without light (R96, R145, R157) -/

theorem Stream.seqOf_setSeq (m : Stream) (u : UnitId) (q : Half) : (m.setSeq u q).seqOf u = q := by
  have hold : (m.seq.filter fun x => x.1 ≠ u).find? (fun x => x.1 = u) = none := by
    simp [List.find?_eq_none]
  unfold Stream.seqOf Stream.setSeq
  rw [List.find?_append, hold]
  simp

section

variable {s : State} {cl k : Nat} {r : TileRun} {x : Nat × Option Half} (htile : (s.core cl k).tile = some r)

include htile

/-- The unit's next SEQ on the output moves on by one as its TILE fires (R142, R155). -/
theorem State.fireTile_seqOf : ((s.fireTile cl k).stream r.out).seqOf (.core cl r.pos) =
    (s.stream r.out).seqOf (.core cl r.pos) + 1 := by
  unfold State.fireTile
  simp only [htile]
  rw [(State.modCore_keeps).stream_eq (by decide), State.modStream_set, State.stream_setStream, if_pos rfl]
  exact Stream.seqOf_setSeq ..

/-- A TILE that shares the handle of a tile that another core has begun takes none (R155). -/
theorem State.fireTile_joins (hbegun : (s.stream r.out).begunTile ((s.stream r.out).seqOf (.core cl r.pos)) ≠ none) :
    (s.fireTile cl k).pools = s.pools := by
  unfold State.fireTile
  simp only [htile, Option.isSome_iff_ne_none.2 hbegun, if_true]
  rfl

theorem State.tileNoLight_waits (hlight : r.noLight = none) : s.tileNoLight cl k = s := by
  simp only [State.tileNoLight, htile, hlight]

theorem State.tileNoLight_lacks (hdark : r.noLight = some x)
    (hnew : (s.stream r.out).begunTile ((s.stream r.out).seqOf (.core cl r.pos)) = none) :
    let ts := [(r.out, (s.stream r.out).seqOf (.core cl r.pos))]
    s.tileLack ts r.out ≠ .ready → s.tileNoLight cl k =
      s.modStream r.out (Stream.mark s.now (s.tileLack ts r.out) (s.tileOwing ts r.out) (s.poolsFor [r.out])) := by
  intro ts hlack
  simp only [State.tileNoLight, htile, hdark, hnew]
  exact if_pos hlack

/-- With nothing lacking the TILE fires, its token goes out, its core has none prepared and its list goes on. -/
theorem State.tileNoLight_ends (hdark : r.noLight = some x) :
    let q := (s.stream r.out).seqOf (.core cl r.pos)
    ((s.stream r.out).begunTile q ≠ none ∨ s.tileLack [(r.out, q)] r.out = .ready) → ∃ tok due e, s.tileNoLight cl k =
      (((s.fireTile cl k).sendOn (.core cl r.pos) r.out tok due (tile := q)).modCore cl k Core.dropTile).finish
        (.core cl r.pos) r.img e := by
  intro q hready
  have hlack : ¬ (if ((s.stream r.out).begunTile q).isSome then Ready.ready else s.tileLack [(r.out, q)] r.out) ≠ .ready := by
    rcases hready with hbegun | hall
    · simp [Option.isSome_iff_ne_none.2 hbegun]
    · simp [hall]
  obtain ⟨code, seq⟩ := x
  simp only [State.tileNoLight, htile, hdark]
  exact ⟨_, _, _, if_neg hlack⟩

end

theorem State.sendOn_seqOf (s : State) (u w : UnitId) (o : Nat) (tok : Dword) (due : Nat) (tile : Half) :
    ((s.sendOn u o tok due (tile := tile)).stream o).seqOf w = (s.stream o).seqOf w := by
  unfold State.sendOn
  rw [State.modStream_set, State.stream_setStream, if_pos rfl]
  rfl

/-- The TILE prepared on core k is over: its core has none, its list stands at the next entry, its SEQ has moved on; its pools
are as they were when it fired. -/
structure State.TileOver (s s' : State) (cl k : Nat) (r : TileRun) : Prop where
  tile : (s'.core cl k).tile = none
  pos : (s'.prog (.core cl r.pos) r.img).pos = (s.prog (.core cl r.pos) r.img).pos + 1
  seq : (s'.stream r.out).seqOf (.core cl r.pos) = (s.stream r.out).seqOf (.core cl r.pos) + 1
  pools : s'.pools = (s.fireTile cl k).pools

theorem State.tileNoLight_over {s : State} {cl k : Nat} {r : TileRun} {x : Nat × Option Half}
    (htile : (s.core cl k).tile = some r) (hdark : r.noLight = some x) :
    let q := (s.stream r.out).seqOf (.core cl r.pos)
    ((s.stream r.out).begunTile q ≠ none ∨ s.tileLack [(r.out, q)] r.out = .ready) →
      s.TileOver (s.tileNoLight cl k) cl k r := by
  intro q hready
  obtain ⟨tok, due, e, hend⟩ := State.tileNoLight_ends htile hdark hready
  have hfire : State.Keeps [.clusters, .streams, .pools] s (s.fireTile cl k) := State.fireTile_keeps
  have hseq : (((s.fireTile cl k).sendOn (.core cl r.pos) r.out tok due (tile := q)).stream r.out).seqOf (.core cl r.pos) =
      q + 1 := (State.sendOn_seqOf ..).trans (State.fireTile_seqOf htile)
  have hsend : State.Keeps [.streams] (s.fireTile cl k)
      ((s.fireTile cl k).sendOn (.core cl r.pos) r.out tok due (tile := q)) := State.sendOn_keeps
  rw [hend]
  generalize (s.fireTile cl k).sendOn (.core cl r.pos) r.out tok due (tile := q) = y at hseq hsend ⊢
  have hdrop : State.Keeps [.clusters] y (y.modCore cl k Core.dropTile) := State.modCore_keeps
  exact {
    tile := congrArg Core.tile State.core_modCore
    pos := by
      rw [State.finish_alone rfl, State.prog_setProg_same, hdrop.prog_eq (by decide), hsend.prog_eq (by decide),
        hfire.prog_eq (by decide)]
    seq := by
      rw [State.finish_keeps.stream_eq (by decide), hdrop.stream_eq (by decide)]
      exact hseq
    pools := hsend .pools (by decide) }

/-- Settles O26: TILE prepares its core; one that ended without light waits marked, or fires, sends its token and goes on. -/
theorem tilePreparesItsCore : Obligations.TilePreparesItsCore := by
  intro s t cl pos img u p o k c out v run hstands
  refine ⟨fun htile => ?prepares, fun r htile hlight => ?waits, fun r x htile hdark hpos himg => ?dark⟩
  case prepares =>
    have hsame := v.showInput_sameTiles cl k run
    refine ⟨_, exec_tile_prepares rfl hstands htile, ?_, ?_, hsame.pools, fun i => ?_⟩
    · exact State.core_modCore.trans (congrArg (Core.prepare run) (hsame.cores cl k))
    · exact State.showInput_keeps.prog_eq (by decide) u img
    · exact ⟨(hsame.streams i).consumers, (hsame.streams i).seq, (hsame.streams i).tiles⟩
  case waits =>
    exact (exec_tile_prepared rfl hstands htile).trans (congrArg _ (State.tileNoLight_waits (s := v) htile hlight))
  case dark =>
    intro m q lack
    subst hpos himg
    have hexec := exec_tile_prepared rfl hstands htile
    refine ⟨fun hnew hlack => ?lacks, fun hready => ?ends⟩
    case lacks => exact hexec.trans (congrArg _ (State.tileNoLight_lacks (s := v) htile hdark hnew hlack))
    case ends =>
      have hover : v.TileOver (v.tileNoLight cl k) cl k r := State.tileNoLight_over (s := v) htile hdark hready
      refine ⟨_, hexec, hover.tile, hover.pos, hover.seq, fun hnew => ?takes, fun hbegun => ?joins⟩
      case takes =>
        obtain ⟨hfree, -⟩ := State.fireTile_begins (s := v) htile hnew
        exact (congrArg (fun ps => (Tab.get ({} : Pool) ps m.pool.toNat).freeList) hover.pools).trans hfree
      case joins => exact hover.pools.trans (State.fireTile_joins (s := v) htile hbegun)

end Sys2Proof.Machine
end

section
/-! The end of a packet: results delivered and the packet closed, or one replay of it (R99, R129, R130, R134 to R138, R194). -/

namespace Sys2Proof.Machine

/-! ### Results delivered (R54, R155, R194) -/

/-- A core whose tile has been delivered has noted what it wrote and runs none. -/
def Core.delivered (o : Nat) (q : Half) (c : Core) : Core := { c.logWrite o q with run := none }

theorem Core.delivered_grant (o : Nat) (q : Half) (c : Core) : (c.delivered o q).grant = c.grant := by
  unfold Core.delivered Core.logWrite
  split <;> rfl

theorem Core.delivered_tile (o : Nat) (q : Half) (c : Core) : (c.delivered o q).tile = c.tile := by
  unfold Core.delivered Core.logWrite
  split <;> rfl

/-- What delivering tiles leaves of a core: its grant and its prepared TILE; a core that runs no tile goes on running none. -/
structure Core.Delivers (c c' : Core) : Prop where
  grant : c'.grant = c.grant
  tile : c'.tile = c.tile
  run : c.run = none → c'.run = none

theorem Core.Delivers.rfl {c : Core} : c.Delivers c := ⟨Eq.refl _, Eq.refl _, id⟩

theorem Core.Delivers.trans {c d e : Core} (h : c.Delivers d) (g : d.Delivers e) : c.Delivers e :=
  ⟨g.grant.trans h.grant, g.tile.trans h.tile, fun hrun => g.run (h.run hrun)⟩

theorem Core.delivers_delivered (o : Nat) (q : Half) (c : Core) : c.Delivers (c.delivered o q) :=
  ⟨c.delivered_grant o q, c.delivered_tile o q, fun _ => rfl⟩

section

variable {s : State} {cl e k : Nat} {p : Packet} {r : TileRun}

theorem State.deliver_none (hrun : (s.core cl k).run = none) : s.deliver cl p e k = s := by
  simp only [State.deliver, hrun]

/-- Writing the results, sending the token and counting an unsettled tile leave every core. -/
theorem State.deliver_some (hrun : (s.core cl k).run = some r) :
    ∃ x : State, (∀ j, x.core cl j = s.core cl j) ∧ s.deliver cl p e k = x.modCore cl k (Core.delivered r.out r.seq) := by
  simp only [State.deliver, hrun]
  refine ⟨_, fun j => ?_, rfl⟩
  split
  · rw [State.core_modCluster]
    exact (State.sendOn_keeps.core_eq (by decide) cl j).trans (State.writeBuf_keeps.core_eq (by decide) cl j)
  · exact (State.sendOn_keeps.core_eq (by decide) cl j).trans (State.writeBuf_keeps.core_eq (by decide) cl j)

end

section

variable (cl e : Nat) (p : Packet)

theorem State.deliver_core (s : State) (k j : Nat) : (s.core cl j).Delivers ((s.deliver cl p e k).core cl j) := by
  cases hrun : (s.core cl k).run with
  | none =>
    rw [State.deliver_none hrun]
    exact .rfl
  | some r =>
    obtain ⟨x, hx, hdeliver⟩ := State.deliver_some (p := p) (e := e) hrun
    rw [hdeliver, ← hx j]
    rcases Decidable.em (j = k) with rfl | hne
    · rw [State.core_modCore]
      exact Core.delivers_delivered ..
    · rw [State.core_modCore_ne x cl hne]
      exact .rfl

theorem State.deliver_run (s : State) (k : Nat) : ((s.deliver cl p e k).core cl k).run = none := by
  cases hrun : (s.core cl k).run with
  | none => rw [State.deliver_none hrun, hrun]
  | some r =>
    obtain ⟨x, -, hdeliver⟩ := State.deliver_some (p := p) (e := e) hrun
    rw [hdeliver, State.core_modCore]
    rfl

/-- The tiles of the listed cores delivered. -/
def State.deliverAll (s : State) (ks : List Nat) : State := s.each ks fun s k => s.deliver cl p e k

theorem State.deliverAll_cons (s : State) (k : Nat) (ks : List Nat) :
    s.deliverAll cl e p (k :: ks) = (s.deliver cl p e k).deliverAll cl e p ks := rfl

theorem State.deliverAll_keeps {s : State} (ks : List Nat) :
    State.Keeps [.hbm, .bad, .sram, .clusters, .streams] s (s.deliverAll cl e p ks) :=
  .each (fun _ _ => State.deliver_keeps) .rfl

theorem State.deliverAll_core (ks : List Nat) (s : State) (j : Nat) :
    (s.core cl j).Delivers ((s.deliverAll cl e p ks).core cl j) := by
  induction ks generalizing s with
  | nil => exact .rfl
  | cons k ks ih => exact (s.deliver_core cl e p k j).trans (ih _)

theorem State.deliverAll_run {ks : List Nat} (s : State) {j : Nat} (hj : j ∈ ks) :
    ((s.deliverAll cl e p ks).core cl j).run = none := by
  induction ks generalizing s with
  | nil => exact absurd hj List.not_mem_nil
  | cons k ks ih =>
    rw [State.deliverAll_cons]
    rcases List.mem_cons.1 hj with rfl | hmem
    · exact (State.deliverAll_core cl e p ks _ j).run (s.deliver_run cl e p j)
    · exact ih _ hmem

end

/-! ### A packet that closes (R129, R130, R134, R135) -/

/-- The packet's pass exceeds one of its thresholds (R134). -/
def Packet.beyond (p : Packet) : Bool := exceeds p.sat p.satThresh || exceeds p.under p.underThresh

/-- The QNT record behind packet p: a measured pass above a threshold counts, its exponent is carried. -/
def Qnt.closes (cl : Nat) (p : Packet) (q : Qnt) : Qnt :=
  { q with
    secondExc := if p.beyond && p.measured then satInc q.secondExc else q.secondExc
    carry := if p.maxMag = 0 then none else some (prevExp (xMax (hdrWidth p.hdr)) (zeroPoint p.hdr) p.maxMag, cl) }

/-- The packet's pass reported and its stream's record brought up to date. -/
def State.reportPass (s : State) (cl : Nat) (p : Packet) : State :=
  (s.raiseQnt p.stream (tokSeq p.tok) p.sat p.under p.satThresh p.underThresh p.replay).modStream p.stream fun m =>
    { m with qnt := m.qnt.closes cl p }

theorem State.reportPass_keeps {s : State} {cl : Nat} {p : Packet} : State.Keeps [.chans, .streams] s (s.reportPass cl p) :=
  .into State.modStream_keeps (by decide) (.into State.raiseQnt_keeps (by decide) .rfl)

/-- The packet's results delivered and its handle released. -/
def State.settlePass (s : State) (cl e : Nat) (p : Packet) : State :=
  ((s.reportPass cl p).deliverAll cl e p p.phys).releaseTok p.stream p.tok e

theorem State.settlePass_keeps {s : State} {cl e : Nat} {p : Packet} :
    State.Keeps [.chans, .hbm, .bad, .sram, .clusters, .streams, .pools] s (s.settlePass cl e p) :=
  .into State.releaseTok_keeps (by decide) (.into (State.deliverAll_keeps cl e p p.phys) (by decide)
    (.into State.reportPass_keeps (by decide) .rfl))

/-- A feeder without a packet, the next one to start at this moment at the earliest. -/
def Feeder.closes (now : Nat) (x : Feeder) : Feeder := { x with packet := none, notBefore := now }

section

variable (s : State) (cl f e : Nat) (p : Packet)

theorem State.closePacket_eq : s.closePacket cl f e p =
    ((s.settlePass cl e p).modFeeder cl f (Feeder.closes (s.settlePass cl e p).now)).finish (.feeder cl f) p.img
      (s.settlePass cl e p).now := rfl

theorem State.closePacket_feeder : ((s.closePacket cl f e p).feeder cl f).packet = none := by
  rw [State.closePacket_eq, State.finish_keeps.feeder_eq (by decide), State.feeder_modFeeder]
  rfl

theorem State.closePacket_pos : ((s.closePacket cl f e p).prog (.feeder cl f) p.img).pos =
    (s.prog (.feeder cl f) p.img).pos + 1 := by
  rw [State.closePacket_eq, State.finish_alone rfl, State.prog_setProg_same, State.modFeeder_keeps.prog_eq (by decide),
    State.settlePass_keeps.prog_eq (by decide)]

theorem State.closePacket_core (k : Nat) : (s.closePacket cl f e p).core cl k =
    ((s.reportPass cl p).deliverAll cl e p p.phys).core cl k := by
  rw [State.closePacket_eq, State.core_finish, State.core_modFeeder]
  exact State.releaseTok_keeps.core_eq (by decide) cl k

/-- Every core that the packet lit runs no tile and keeps its grant and its prepared TILE. -/
theorem State.closePacket_lit {k : Nat} (hk : k ∈ p.phys) : ((s.closePacket cl f e p).core cl k).run = none ∧
    ((s.closePacket cl f e p).core cl k).grant = (s.core cl k).grant ∧
      ((s.closePacket cl f e p).core cl k).tile = (s.core cl k).tile := by
  have hreport : (s.reportPass cl p).core cl k = s.core cl k := State.reportPass_keeps.core_eq (by decide) cl k
  have hcore := State.deliverAll_core cl e p p.phys (s.reportPass cl p) k
  rw [hreport] at hcore
  rw [State.closePacket_core]
  exact ⟨State.deliverAll_run cl e p _ hk, hcore.grant, hcore.tile⟩

end

/-! ### A packet that is replayed (R135, R138) -/

/-- An idempotent change of the cores of a list changes each of them once, however often the list names it. -/
theorem State.core_each_modCore_idem {cl : Nat} {g : Core → Core} (hg : ∀ c, g (g c) = g c) (ks : List Nat) (s : State)
    (j : Nat) : (s.each ks fun s k => s.modCore cl k g).core cl j = if j ∈ ks then g (s.core cl j) else s.core cl j := by
  induction ks generalizing s with
  | nil => rfl
  | cons k ks ih =>
    refine (ih (s.modCore cl k g)).trans ?_
    rcases Decidable.em (j = k) with rfl | hne
    · simp only [State.core_modCore, hg, ite_self, List.mem_cons_self, if_true]
    · simp only [State.core_modCore_ne s cl hne, List.mem_cons, hne, false_or]

/-- A core whose running tile begins again. -/
def Core.again (h : Dword) (c : Core) : Core := { c with run := c.run.map (TileRun.again h) }

theorem Core.again_again (h : Dword) (c : Core) : (c.again h).again h = c.again h := by
  unfold Core.again
  cases c.run <;> rfl

/-- The packet as its replay is measured from the symbol edge after the verdict on. -/
def Packet.again (e : Nat) (p : Packet) : Packet :=
  { p with replay := true, measured := true, sat := 0, under := 0, maxMag := 0, win := 0, nanIn := false
           phase := .measuring (symbolEdge (e + 4 * Config.ns) + 40 * Config.ns) }

/-- Under BOTH the first pass is reported before its replay. -/
def State.reportFirst (s : State) (p : Packet) : State :=
  if p.policy = 2 then s.raiseQnt p.stream (tokSeq p.tok) p.sat p.under p.satThresh p.underThresh false else s

theorem State.reportFirst_keeps {s : State} {p : Packet} : State.Keeps [.chans] s (s.reportFirst p) :=
  .ite (fun _ => State.raiseQnt_keeps) fun _ => .rfl

/-- The replay reported and counted. -/
def State.countReplay (s : State) (p : Packet) : State :=
  (s.reportFirst p).modStream p.stream fun m => { m with qnt := { m.qnt with replays := satInc m.qnt.replays } }

theorem State.countReplay_keeps {s : State} {p : Packet} : State.Keeps [.chans, .streams] s (s.countReplay p) :=
  .into State.modStream_keeps (by decide) (.into State.reportFirst_keeps (by decide) .rfl)

section

variable (s : State) (cl f e : Nat) (p : Packet)

theorem State.countReplay_replays : ((s.countReplay p).stream p.stream).qnt.replays =
    satInc (s.stream p.stream).qnt.replays := by
  unfold State.countReplay
  rw [State.modStream_set, State.stream_setStream, if_pos rfl, State.reportFirst_keeps.stream_eq (by decide)]

theorem State.replayPacket_eq : s.replayPacket cl f e p =
    ((s.countReplay p).each p.phys fun s k => s.modCore cl k (Core.again p.hdr)).modFeeder cl f fun k =>
      { k with packet := some (p.again e) } := rfl

theorem State.replayPacket_feeder : ((s.replayPacket cl f e p).feeder cl f).packet = some (p.again e) := by
  rw [State.replayPacket_eq, State.feeder_modFeeder]

theorem State.replayPacket_replays : ((s.replayPacket cl f e p).stream p.stream).qnt.replays =
    satInc (s.stream p.stream).qnt.replays := by
  have hkeep : State.Keeps [.clusters] (s.countReplay p) (s.replayPacket cl f e p) :=
    .into State.modFeeder_keeps (by decide) (.each (fun _ _ => State.modCore_keeps) .rfl)
  rw [hkeep.stream_eq (by decide), State.countReplay_replays]

theorem State.replayPacket_run {k : Nat} (hk : k ∈ p.phys) :
    ((s.replayPacket cl f e p).core cl k).run = (s.core cl k).run.map (TileRun.again p.hdr) := by
  rw [State.replayPacket_eq, State.core_modFeeder, State.core_each_modCore_idem (Core.again_again p.hdr), if_pos hk,
    State.countReplay_keeps.core_eq (by decide)]
  rfl

end

/-! ### PACKET_END and VERDICT -/

/-- EVENT and 3 are the policies without a replay. -/
theorem policy_of_not_replays {x : BitVec 2} (h : ¬ (x = 1 ∨ x = 2)) : x = 0 ∨ x = 3 := by
  revert x
  decide

section

variable {s : State} {cl f e : Nat} {p : Packet} (hp : (s.feeder cl f).packet = some p) (hphase : p.phase = .ended e)

include hp hphase

theorem effectPacketEnd_closes (hdue : e ≤ s.now) (hpolicy : ¬ (p.policy = 1 ∨ p.policy = 2)) :
    effectPacketEnd cl f s = s.closePacket cl f e p := by
  simp only [effectPacketEnd, hp, hphase]
  exact if_pos (by simpa [hdue] using policy_of_not_replays hpolicy)

theorem effectPacketEnd_waits (hno : s.now < e ∨ p.policy = 1 ∨ p.policy = 2) : effectPacketEnd cl f s = s := by
  simp only [effectPacketEnd, hp, hphase]
  refine if_neg ?_
  rcases hno with hearly | hpolicy | hpolicy
  · simp [Nat.not_le.2 hearly]
  · simp [hpolicy]
  · simp [hpolicy]

/-- The verdict of a packet under REPLAY or BOTH, 4 ns after its end. -/
theorem effectVerdict_due (hdue : e + 4 * Config.ns ≤ s.now) (hpolicy : p.policy = 1 ∨ p.policy = 2) :
    effectVerdict cl f s = if p.beyond && !p.measured then s.replayPacket cl f e p else s.closePacket cl f e p := by
  simp only [effectVerdict, hp, hphase]
  exact if_pos (by simpa [hdue] using hpolicy)

theorem effectVerdict_waits (hno : s.now < e + 4 * Config.ns ∨ ¬ (p.policy = 1 ∨ p.policy = 2)) :
    effectVerdict cl f s = s := by
  simp only [effectVerdict, hp, hphase]
  refine if_neg ?_
  simp only [Bool.and_eq_true, Bool.or_eq_true, decide_eq_true_eq]
  rintro ⟨hdue, hpolicy⟩
  exact hno.elim (Nat.not_lt.2 hdue) fun hrest => hrest hpolicy

end

/-- Settles O30: each row acts at its moment and under its policies; closing and replaying are read off their parts. -/
theorem packetsEndOrAreReplayed : Obligations.PacketsEndOrAreReplayed := by
  intro s t cl f e p hcl hf hp hphase v now u replays beyond
  have hend : exec (.packetEnd t cl f) s = .next (effectPacketEnd cl f v) := if_pos (by simp [hcl, hf])
  have hverdict : exec (.verdict t cl f) s = .next (effectVerdict cl f v) := if_pos (by simp [hcl, hf])
  have hv : (v.feeder cl f).packet = some p := hp
  refine ⟨fun hdue hpolicy => hend.trans (congrArg _ (effectPacketEnd_closes hv hphase hdue hpolicy)),
    fun hno => hend.trans (congrArg _ (effectPacketEnd_waits hv hphase hno)), fun hdue hpolicy hover => ?closed,
    fun hdue hpolicy hbeyond hcarried => ?replayed,
    fun hno => hverdict.trans (congrArg _ (effectVerdict_waits hv hphase hno)),
    fun x _ => ⟨x.closePacket_feeder cl f e p, x.closePacket_pos cl f e p, fun k hk => x.closePacket_lit cl f e p hk⟩⟩
  case closed =>
    have hno : ¬ (p.beyond && !p.measured) = true := by
      rcases hover with hwithin | hmeasured
      · rw [show p.beyond = false from hwithin]
        nofun
      · simp [hmeasured]
    rw [hverdict, effectVerdict_due hv hphase hdue hpolicy, if_neg hno]
  case replayed =>
    have hyes : (p.beyond && !p.measured) = true := by
      rw [show p.beyond = true from hbeyond, hcarried]
      rfl
    have hkeep : State.Keeps [.chans, .clusters, .streams] v (v.replayPacket cl f e p) := State.replayPacket_keeps
    refine ⟨v.replayPacket cl f e p, ?_, v.replayPacket_feeder cl f e p, v.replayPacket_replays cl f e p,
      fun k hk => v.replayPacket_run cl f e p hk, hkeep .hbm (by decide), hkeep .sram (by decide)⟩
    rw [hverdict, effectVerdict_due hv hphase hdue hpolicy, if_pos hyes]

end Sys2Proof.Machine
end

section
/-! What a step leaves of its output: the record of each stream, the pairs in each pool, and the bytes that its work stores
(R118, R140, R145, R146, R158). -/

namespace Sys2Proof.Machine

/-! ### What a step never changes of a stream (R113, R119, R140) -/

/-- Two records of a stream state the same tiles and hold the same QNT record and next PSEQ. -/
structure Stream.SameNarrow (m m' : Stream) : Prop where
  pool : m'.pool = m.pool
  qnt : m'.qnt = m.qnt
  pseq : m'.pseq = m.pseq
  rowLen : m'.rowLen = m.rowLen
  elems : m'.elems = m.elems

theorem Stream.SameNarrow.rfl {m : Stream} : m.SameNarrow m := ⟨Eq.refl _, Eq.refl _, Eq.refl _, Eq.refl _, Eq.refl _⟩

theorem Stream.SameNarrow.trans {m x y : Stream} (a : m.SameNarrow x) (b : x.SameNarrow y) : m.SameNarrow y :=
  ⟨b.pool.trans a.pool, b.qnt.trans a.qnt, b.pseq.trans a.pseq, b.rowLen.trans a.rowLen, b.elems.trans a.elems⟩

theorem Stream.endWait_sameNarrow (now : Nat) (m : Stream) : m.SameNarrow (m.endWait now) := by
  unfold Stream.endWait
  split <;> exact ⟨rfl, rfl, rfl, rfl, rfl⟩

theorem Stream.mark_sameNarrow (now : Nat) (r : Ready) (os : List (Nat × UnitId × Nat)) (ps : List Nat) (m : Stream) :
    m.SameNarrow (m.mark now r os ps) := by
  cases r with
  | credit | handle => exact ⟨rfl, rfl, rfl, rfl, rfl⟩
  | fence | input | ready => exact (m.endWait_sameNarrow now).trans ⟨rfl, rfl, rfl, rfl, rfl⟩

/-- Two states hold the same of every stream in this sense. -/
structure State.SameNarrow (s s' : State) : Prop where
  stream : ∀ i, (s.stream i).SameNarrow (s'.stream i)

namespace State.SameNarrow

variable {s x y : State}

theorem rfl : s.SameNarrow s := ⟨fun _ => .rfl⟩

theorem trans (a : s.SameNarrow x) (b : x.SameNarrow y) : s.SameNarrow y := ⟨fun i => (a.stream i).trans (b.stream i)⟩

theorem keeps {L : List Part} (h : State.Keeps L x y) (hL : Part.streams ∉ L) (g : s.SameNarrow x) : s.SameNarrow y :=
  g.trans ⟨fun i => h.stream_eq hL i ▸ .rfl⟩

theorem each {α : Type} {xs : List α} {f : State → α → State} (h : ∀ t a, State.SameNarrow t (f t a))
    (g : s.SameNarrow x) : s.SameNarrow (x.each xs f) := by
  induction xs generalizing x with
  | nil => exact g
  | cons a xs ih => exact ih (g.trans (h x a))

theorem modStream {i : Nat} {f : Stream → Stream} (h : ∀ m, Stream.SameNarrow m (f m)) (g : s.SameNarrow x) :
    s.SameNarrow (x.modStream i f) := by
  refine g.trans ⟨fun j => ?_⟩
  rw [State.modStream_set, State.stream_setStream]
  split
  case isTrue hj => exact hj ▸ h _
  case isFalse => exact .rfl

end State.SameNarrow

section

variable (s : State) (u : UnitId) (img : Nat) (ins outs : List Nat)

theorem State.taken_sameNarrow : s.SameNarrow (s.taken u ins outs) := by
  refine .each (fun t o => ?_) (.each (fun t i => ?_) (.each (fun t o => ?_) .rfl))
  · exact .modStream (fun _ => ⟨rfl, rfl, rfl, rfl, rfl⟩) (.keeps State.takeHandle_keeps (by decide) .rfl)
  · exact .modStream (fun _ => ⟨rfl, rfl, rfl, rfl, rfl⟩) .rfl
  · exact .modStream (Stream.mark_sameNarrow _ _ _ _) .rfl

theorem State.sendOn_sameNarrow (o : Nat) (tok : Dword) (e : Nat) : s.SameNarrow (s.sendOn u o tok e) :=
  .modStream (fun _ => ⟨rfl, rfl, rfl, rfl, rfl⟩) .rfl

theorem State.sendOutputs_sameNarrow (toks : List Dword) (hs : List (Nat × Nat)) (code : Option Nat) (asError : Bool)
    (e : Nat) : s.SameNarrow (s.sendOutputs u img toks hs code asError e) := by
  refine .each (fun t oh => ?_) .rfl
  have hseq : t.SameNarrow (t.modStream oh.1 fun m => m.setSeq u ((t.stream oh.1).seqOf u + 1)) :=
    .modStream (fun _ => ⟨rfl, rfl, rfl, rfl, rfl⟩) .rfl
  dsimp only
  split
  case isTrue => exact (hseq.keeps State.dropHandle_keeps (by decide)).trans (State.sendOn_sameNarrow ..)
  case isFalse => exact hseq.trans (State.sendOn_sameNarrow ..)

/-- The input streams of a step, each with its token. -/
def State.named : List (Nat × Dword) := ins.filterMap fun i => (s.dataAt i u).map fun k => (i, k)

theorem State.named_tok {x : Nat × Dword} (hx : x ∈ s.named u ins) : x.2 ∈ s.tokensOf u ins := by
  obtain ⟨i, hi, h⟩ := List.mem_filterMap.1 hx
  obtain ⟨k, hk, rfl⟩ := Option.map_eq_some_iff.1 h
  exact List.mem_filterMap.2 ⟨i, hi, hk⟩

end

/-! ### The pairs in a pool (R118) -/

theorem State.Keeps.pool_eq {L : List Part} {s x : State} (h : State.Keeps L s x) (hL : Part.pools ∉ L) (p : Nat) :
    x.pool p = s.pool p :=
  congrArg (Tab.get ({} : Pool) · p) (h .pools hL)

/-- The pairs x of a handle stand in every pool in which they stood before. -/
structure State.KeepsPairs (x : Nat × List Pair) (s s' : State) : Prop where
  pool : ∀ p, x ∈ (s.pool p).pairs → x ∈ (s'.pool p).pairs

namespace State.KeepsPairs

variable {x : Nat × List Pair} {s y z : State}

theorem rfl : KeepsPairs x s s := ⟨fun _ h => h⟩

theorem trans (a : KeepsPairs x s y) (b : KeepsPairs x y z) : KeepsPairs x s z := ⟨fun p h => b.pool p (a.pool p h)⟩

theorem keeps {L : List Part} (h : State.Keeps L y z) (hL : Part.pools ∉ L) (g : KeepsPairs x s y) : KeepsPairs x s z :=
  g.trans ⟨fun p hx => by rwa [h.pool_eq hL]⟩

theorem each {α : Type} {xs : List α} {f : State → α → State} (h : ∀ t, ∀ a ∈ xs, KeepsPairs x t (f t a))
    (g : KeepsPairs x s y) : KeepsPairs x s (y.each xs f) := by
  induction xs generalizing y with
  | nil => exact g
  | cons a xs ih =>
    exact ih (fun t b hb => h t b (List.mem_cons_of_mem _ hb)) (g.trans (h y a (List.mem_cons_self ..)))

theorem modPool {i : Nat} {f : Pool → Pool} (h : ∀ p, x ∈ p.pairs → x ∈ (f p).pairs) (g : KeepsPairs x s y) :
    KeepsPairs x s (y.modPool i f) := by
  refine g.trans ⟨fun p hx => ?_⟩
  rw [State.modPool_set, State.pool_setPool]
  split
  case isTrue hp => exact h _ (hp ▸ hx)
  case isFalse => exact hx

end State.KeepsPairs

/-- A release takes the pairs of its own handle only (R118, R154). -/
theorem Pool.release_pairs {x : Nat × List Pair} {h : Nat} (hx : x.1 ≠ h) (e : Nat) (p : Pool) (hmem : x ∈ p.pairs) :
    x ∈ (p.release h e).pairs := by
  unfold Pool.release
  split
  case h_1 => exact hmem
  case h_2 =>
    split
    · exact List.mem_filter.2 ⟨hmem, decide_eq_true hx⟩
    · exact hmem

theorem State.releaseTok_keepsPairs {x : Nat × List Pair} {tok : Dword} (hx : x.1 ≠ tokHandle tok) (s : State) (i e : Nat) :
    State.KeepsPairs x s (s.releaseTok i tok e) := by
  unfold State.releaseTok
  split
  case isTrue => exact .rfl
  case isFalse => exact .modPool (fun p => p.release_pairs hx e) .rfl

theorem State.sendOutputs_keepsPairs (x : Nat × List Pair) (s : State) (u : UnitId) (img : Nat) (toks : List Dword)
    (hs : List (Nat × Nat)) (code : Option Nat) (asError : Bool) (e : Nat) :
    State.KeepsPairs x s (s.sendOutputs u img toks hs code asError e) := by
  refine .each (fun t oh _ => ?_) .rfl
  have hseq : State.KeepsPairs x t (t.modStream oh.1 fun m => m.setSeq u ((t.stream oh.1).seqOf u + 1)) :=
    .keeps State.modStream_keeps (by decide) .rfl
  dsimp only
  split
  case isTrue => exact .keeps State.sendOn_keeps (by decide) (.modPool (fun p hp => hp) hseq)
  case isFalse => exact .keeps State.sendOn_keeps (by decide) hseq

/-! ### The end of a step (R146, R154, R156) -/

section

variable {s : State} {u : UnitId} {img : Nat} {ins outs : List Nat} {work : State → List Dword → List (Nat × Nat) → Work}
  (hr : s.readiness u ins outs = .ready) (he : (s.tokensOf u ins).all (fun k => tokType k ≠ tyError) = true)

include hr he

/-- A step that takes no error token ends its work with its releases, its tokens and its next operation. -/
theorem State.fire_eq :
    let w := work (s.taken u ins outs) (s.tokensOf u ins) (s.offered u ins outs)
    let e := (s.taken u ins outs).now + w.dur
    s.fire u img ins outs work =
      ((w.st.each (s.named u ins) fun s x => s.releaseTok x.1 x.2 e).sendOutputs u img (s.tokensOf u ins)
        (s.offered u ins outs) w.code w.asError e).finish u img e := by
  have hnone : (s.tokensOf u ins).find? (fun k => decide (tokType k = tyError)) = none := by
    simpa using he
  unfold State.fire
  dsimp only
  rw [if_neg (by simpa using hr)]
  unfold State.tokensOf at *
  rw [hnone]
  rfl

/-- What the work of a step leaves of the streams' QNT records and PSEQs stands at its end. -/
theorem State.fire_sameNarrow :
    (work (s.taken u ins outs) (s.tokensOf u ins) (s.offered u ins outs)).st.SameNarrow (s.fire u img ins outs work) := by
  rw [State.fire_eq hr he]
  refine .keeps State.finish_keeps (by decide) (.trans (.each (fun t x => ?_) .rfl) (State.sendOutputs_sameNarrow ..))
  exact .keeps State.releaseTok_keeps (by decide) .rfl

/-- Pairs that the work of a step leaves in a pool, under a handle that no input token names, stand there at its end. -/
theorem State.fire_keepsPairs {x : Nat × List Pair} (hx : ∀ k ∈ s.tokensOf u ins, x.1 ≠ tokHandle k) :
    State.KeepsPairs x (work (s.taken u ins outs) (s.tokensOf u ins) (s.offered u ins outs)).st
      (s.fire u img ins outs work) := by
  rw [State.fire_eq hr he]
  refine .keeps State.finish_keeps (by decide) (.trans (.each (fun t y hy => ?_) .rfl) (State.sendOutputs_keepsPairs ..))
  exact State.releaseTok_keepsPairs (hx _ (s.named_tok u ins hy)) t y.1 _

end

/-! ### Steps that end alike (R146, R158) -/

/-- Two states hold the same lists, memories and free handles. -/
structure State.SameYield (s s' : State) : Prop where
  progs : s'.progs = s.progs
  sram : s'.sram = s.sram
  hbm : s'.hbm = s.hbm
  free : s.SameFree s'

theorem State.SameYield.of_keeps {L : List Part} {s x : State} (h : State.Keeps L s x)
    (hL : Part.progs ∉ L ∧ Part.sram ∉ L ∧ Part.hbm ∉ L ∧ Part.pools ∉ L) : s.SameYield x := by
  obtain ⟨hprogs, hsram, hhbm, hpools⟩ := hL
  exact ⟨h .progs hprogs, h .sram hsram, h .hbm hhbm, fun p => congrArg Pool.freeList (h.pool_eq hpools p)⟩

theorem State.SameYield.trans {s x y : State} (a : s.SameYield x) (b : x.SameYield y) : s.SameYield y :=
  ⟨b.progs.trans a.progs, b.sram.trans a.sram, b.hbm.trans a.hbm, fun p => (b.free p).trans (a.free p)⟩

theorem State.SamePlaces.of_keeps {L : List Part} {s x : State} (h : State.Keeps L s x)
    (hL : Part.streams ∉ L ∧ Part.sram ∉ L ∧ Part.hbm ∉ L ∧ Part.pools ∉ L) : s.SamePlaces x := by
  obtain ⟨hstreams, hsram, hhbm, hpools⟩ := hL
  have hpool := h.pool_eq hpools
  exact ⟨fun i => congrArg Stream.pool (h.stream_eq hstreams i), fun p => congrArg Pool.inHbm (hpool p),
    fun p => congrArg Pool.cluster (hpool p), fun p => congrArg Pool.base (hpool p),
    fun p => congrArg Pool.bufSize (hpool p), h .sram hsram, h .hbm hhbm⟩

/-- The same bytes written to the same buffers. -/
theorem State.SameYield.writeBuf {s x : State} (h : s.SameYield x) (hp : s.SamePlaces x) (p k off : Nat) (bs : List Byte) :
    (s.writeBuf p k off bs).SameYield (x.writeBuf p k off bs) := by
  unfold State.writeBuf
  dsimp only
  rw [hp.inHbm, hp.cluster, hp.base, hp.bufSize]
  split
  case isTrue => exact ⟨h.progs, h.sram, by rw [State.writeHbm, State.writeHbm, h.hbm], h.free⟩
  case isFalse => exact ⟨h.progs, congrArg (Memory.write · _ _) h.sram, h.hbm, h.free⟩

section

variable {s x y : State} {u : UnitId} {img o dur : Nat}

theorem State.SameYield.firedAs (h : x.SameYield y) (hx : s.FiredAs x u img o dur) : s.FiredAs y u img o dur where
  goesOn := (congrArg (Tab.get ({} : Prog) · (progKey u img)) h.progs).trans hx.goesOn
  handle := (h.free _).trans hx.handle
  sram a ha := (congrArg (Memory.read · a) h.sram).trans (hx.sram a ha)
  hbm a hu ha := (congrArg (Memory.read · a) h.hbm).trans (hx.hbm a hu ha)

theorem State.SameYield.holdsResult {bytes : List Byte} (h : x.SameYield y) (hx : s.HoldsResult x o bytes) :
    s.HoldsResult y o bytes := by
  unfold State.HoldsResult at *
  rw [h.sram, h.hbm]
  exact hx

end

/-- The work of so many tu that writes bytes into the handle that its step took of pool p, and does nothing else. -/
def writeWork (p dur : Nat) (bytes : List Byte) (s : State) (_ : List Dword) (hs : List (Nat × Nat)) : Work :=
  { st := s.each hs fun s h => s.writeBuf p h.2 0 bytes, dur := dur }

section

variable {s : State} {u : UnitId} {img o dur : Nat} {ins : List Nat} {bytes : List Byte}
  {w : State → List Dword → List (Nat × Nat) → Work}
  (hr : s.readiness u ins [o] = .ready) (he : (s.tokensOf u ins).all (fun k => tokType k ≠ tyError) = true)

include hr he

/-- Two works of the same length that leave the same lists, memories and free handles end in two such steps. -/
theorem State.fire_sameYield {w' : State → List Dword → List (Nat × Nat) → Work}
    (hst : ∀ h, s.nextHandle o = some h → (w (s.taken u ins [o]) (s.tokensOf u ins) [(o, h)]).st.SameYield
      (w' (s.taken u ins [o]) (s.tokensOf u ins) [(o, h)]).st)
    (hdur : ∀ h, s.nextHandle o = some h → (w' (s.taken u ins [o]) (s.tokensOf u ins) [(o, h)]).dur =
      (w (s.taken u ins [o]) (s.tokensOf u ins) [(o, h)]).dur) :
    (s.fire u img ins [o] w).SameYield (s.fire u img ins [o] w') := by
  obtain ⟨h, hh⟩ := State.ready_handle hr he
  obtain ⟨x, hx, hk, hf⟩ := State.fire_ready s u img ins [o] w hr he
  obtain ⟨x', hx', hk', hf'⟩ := State.fire_ready s u img ins [o] w' hr he
  rw [State.offered_one hh] at hx hk hf hx' hk' hf'
  have hyield := hst h hh
  have hprogs : x'.progs = x.progs :=
    (hk' .progs (by decide)).trans (hyield.progs.trans (hk .progs (by decide)).symm)
  rw [hx, hx', hdur h hh]
  refine ⟨?_, (hk' .sram (by decide)).trans (hyield.sram.trans (hk .sram (by decide)).symm),
    (hk' .hbm (by decide)).trans (hyield.hbm.trans (hk .hbm (by decide)).symm),
    fun p => (hf' p).trans ((hyield.free p).trans (hf p).symm)⟩
  simp only [State.finish, State.modProg_set, State.setProg, State.prog, State.nextTurn, State.listsOf, hprogs]

/-- A step with one output whose work leaves lists, memories and free handles as if it only wrote bytes into the handle that it
took (R145, R146). -/
theorem State.fired_store
    (hst : ∀ h, s.nextHandle o = some h →
      ((s.taken u ins [o]).writeBuf (s.stream o).pool.toNat h 0 bytes).SameYield
        (w (s.taken u ins [o]) (s.tokensOf u ins) [(o, h)]).st)
    (hdur : ∀ h, (w (s.taken u ins [o]) (s.tokensOf u ins) [(o, h)]).dur = dur) :
    s.FiredAs (s.fire u img ins [o] w) u img o dur ∧ s.HoldsResult (s.fire u img ins [o] w) o bytes := by
  obtain ⟨hfired, hholds⟩ := State.fired_write (img := img) (w := writeWork (s.stream o).pool.toNat dur bytes) hr he
    (fun h _ => ⟨s.taken u ins [o], .rfl, fun _ => rfl, (s.taken_places u ins [o]).streams, rfl⟩) fun _ _ => rfl
  have hsame := State.fire_sameYield (img := img) (w := writeWork (s.stream o).pool.toNat dur bytes) hr he hst
    fun h _ => hdur h
  exact ⟨hsame.firedAs hfired, hsame.holdsResult hholds⟩

end

end Sys2Proof.Machine
end

section
/-! QUANT: what encoding and decoding leave of their streams and pools (R110, R113, R118 to R125, R132, R207). -/

namespace Sys2Proof.Machine

/-! ### Pairs stored in a handle (R110, R118) -/

/-- Storing pairs puts their bytes into the handle's buffer, and leaves lists and free handles alone. -/
theorem State.storePairs_sameYield {s x : State} (h : s.SameYield x) (hp : s.SamePlaces x) (p k : Nat) (ps : List Pair) :
    (s.writeBuf p k 0 (pairBytes ps)).SameYield (x.storePairs p k ps) := by
  let y := x.modPool p fun q => { q with pairs := q.pairs ++ [(k, ps)] }
  have hyield : x.SameYield y := ⟨rfl, rfl, rfl, .modPool _ _ _ fun _ => rfl⟩
  have hplaces : x.SamePlaces y := .modPool _ _ _ fun _ => ⟨rfl, rfl, rfl, rfl⟩
  exact (h.trans hyield).writeBuf (hp.trans hplaces) p k 0 (pairBytes ps)

theorem State.mem_storePairs (s : State) (p k : Nat) (ps : List Pair) : (k, ps) ∈ ((s.storePairs p k ps).pool p).pairs := by
  rw [State.storePairs, State.writeBuf_keeps.pool_eq (by decide), State.modPool_set, State.pool_setPool, if_pos rfl]
  exact List.mem_append_right _ (List.mem_singleton_self _)

/-! ### Encoding (R113, R115, R118 to R125) -/

/-- The blocks into which QUANT encodes the tile of a token of stream i for stream out. -/
def State.encodedBlocks (s : State) (f i out : Nat) (wide : Bool) (tok : Dword) : List Block :=
  (tensorBlocks (s.stream out).rowLen (s.tileElems i (s.stream out).elems wide tok)).map (encodeBlock f)

/-- An output's record as its tile of blocks bs is counted. -/
def Stream.countTile (f : Nat) (bs : List Block) (m : Stream) : Stream :=
  let q := m.qnt.countBlocks f bs
  let beyond := exceeds ((bs.map (·.sat)).foldl (· + ·) 0) m.qnt.satThresh ||
    exceeds (bs.filter (·.under)).length m.qnt.underThresh
  { m with
    qnt := { q with secondExc := if beyond then satInc q.secondExc else q.secondExc }
    pseq := m.pseq + BitVec.ofNat 16 (packPairs f m.pseq bs).length }

/-- The work of a QUANT that encodes. -/
def encodeWork (u : UnitId) (f i out : Nat) (wide : Bool) (s : State) (toks : List Dword) (hs : List (Nat × Nat)) : Work :=
  let m := s.stream out
  let bs := s.encodedBlocks f i out wide (toks.getD 0 0)
  { st := ((s.modStream out (Stream.countTile f bs)).each hs fun s h =>
      s.storePairs m.pool.toNat h.2 (packPairs f m.pseq bs)).raiseQnt out (m.seqOf u) ((bs.map (·.sat)).foldl (· + ·) 0)
        (bs.filter (·.under)).length m.qnt.satThresh m.qnt.underThresh false
    code := if bs.any (fun b => 0 < b.nans) then some ecNan else none }

/-- The tile that a step takes is encoded as it stood before the step. -/
theorem State.encodedBlocks_eq {s x : State} (hp : s.SamePlaces x) (hn : s.SameNarrow x) (f i out : Nat) (wide : Bool)
    (tok : Dword) : x.encodedBlocks f i out wide tok = s.encodedBlocks f i out wide tok := by
  simp only [State.encodedBlocks, State.tileElems, hp.readBuf, hp.streams, hp.bufSize, (hn.stream out).rowLen,
    (hn.stream out).elems]

/-- Records that hold the same count a tile alike. -/
theorem Stream.SameNarrow.countTile {m m' : Stream} (h : m.SameNarrow m') (f : Nat) (bs : List Block) :
    (m.countTile f bs).SameNarrow (m'.countTile f bs) := by
  refine ⟨h.pool, ?_, ?_, h.rowLen, h.elems⟩
  · simp only [Stream.countTile, h.qnt]
  · simp only [Stream.countTile, h.pseq]

/-- Beside its report the work of an encoding step counts its tile and stores its pairs. -/
theorem encodeWork_keeps (s : State) (u : UnitId) (f i out : Nat) (wide : Bool) (toks : List Dword) (h : Nat) :
    let bs := s.encodedBlocks f i out wide (toks.getD 0 0)
    let x := s.taken u [i] [out]
    State.Keeps [.chans] ((x.modStream out (Stream.countTile f bs)).storePairs (s.stream out).pool.toNat h
      (packPairs f (s.stream out).pseq bs)) (encodeWork u f i out wide x toks [(out, h)]).st := by
  have hp := s.taken_places u [i] [out]
  have hn := s.taken_sameNarrow u [i] [out]
  simp only [encodeWork, State.encodedBlocks_eq hp hn, hp.streams, (hn.stream out).pseq]
  exact State.raiseQnt_keeps

section

variable {s : State} {u : UnitId} {img f i out : Nat} {wide : Bool} (hr : s.readiness u [i] [out] = .ready)
  (he : (s.tokensOf u [i]).all (fun k => tokType k ≠ tyError) = true)

/-- A step with one input takes one token at most. -/
theorem State.eq_of_mem_tokensOf {k : Dword} (hk : k ∈ s.tokensOf u [i]) : k = (s.tokensOf u [i]).getD 0 0 := by
  unfold State.tokensOf at *
  cases h : s.dataAt i u <;> simp_all

include hr he

theorem State.fire_encode_holds :
    let bs := s.encodedBlocks f i out wide ((s.tokensOf u [i]).getD 0 0)
    let s' := s.fire u img [i] [out] (encodeWork u f i out wide)
    s.FiredAs s' u img out 0 ∧ s.HoldsResult s' out (pairBytes (packPairs f (s.stream out).pseq bs)) := by
  refine State.fired_store hr he (fun h _ => ?_) fun h => rfl
  have hwork := encodeWork_keeps s u f i out wide (s.tokensOf u [i]) h
  refine .trans (State.storePairs_sameYield ?_ ?_ ..) (.of_keeps hwork (by decide))
  · exact .of_keeps State.modStream_keeps (by decide)
  · exact .modStream _ _ _ rfl

theorem State.fire_encode_stream :
    let bs := s.encodedBlocks f i out wide ((s.tokensOf u [i]).getD 0 0)
    ((s.stream out).countTile f bs).SameNarrow ((s.fire u img [i] [out] (encodeWork u f i out wide)).stream out) := by
  intro bs
  obtain ⟨h, hh⟩ := State.ready_handle hr he
  have hend := (State.fire_sameNarrow (img := img) (work := encodeWork u f i out wide) hr he).stream out
  have hwork := encodeWork_keeps s u f i out wide (s.tokensOf u [i]) h
  rw [State.offered_one hh, hwork.stream_eq (by decide), State.storePairs_keeps.stream_eq (by decide), State.modStream_set,
    State.stream_setStream, if_pos rfl] at hend
  exact (((s.taken_sameNarrow u [i] [out]).stream out).countTile f bs).trans hend

theorem State.fire_encode_pairs {h : Nat} (hh : s.nextHandle out = some h)
    (hne : tokHandle ((s.tokensOf u [i]).getD 0 0) ≠ h) :
    let bs := s.encodedBlocks f i out wide ((s.tokensOf u [i]).getD 0 0)
    (h, packPairs f (s.stream out).pseq bs) ∈
      ((s.fire u img [i] [out] (encodeWork u f i out wide)).pool (s.stream out).pool.toNat).pairs := by
  intro bs
  have hother : ∀ k ∈ s.tokensOf u [i], h ≠ tokHandle k := fun k hk => State.eq_of_mem_tokensOf hk ▸ hne.symm
  have hend := State.fire_keepsPairs (img := img) (work := encodeWork u f i out wide) hr he
    (x := (h, packPairs f (s.stream out).pseq bs)) hother
  have hwork := encodeWork_keeps s u f i out wide (s.tokensOf u [i]) h
  rw [State.offered_one hh] at hend
  refine hend.pool _ ?_
  rw [hwork.pool_eq (by decide)]
  exact State.mem_storePairs ..

end

/-! ### Decoding (R111, R113 to R117, R120) -/

/-- The pairs in the handle of a token of stream i. -/
def State.pairsOf (s : State) (i : Nat) (tok : Dword) : List Pair :=
  (((s.pool (s.stream i).pool.toNat).pairs.find? fun x => x.1 = tokHandle tok).map (·.2)).getD []

/-- The pairs whose packets do not match. -/
def badPairs (f : Nat) (ps : List Pair) : Nat := (ps.filter fun p => (decodePair f p).isNone).length

/-- The elements that pairs hold for a stream, and the reserved codes and scale bytes among them. -/
def Stream.decoded (f : Nat) (ps : List Pair) (m : Stream) : List Word × Nat :=
  unblock m.rowLen m.elems (ps.flatMap (pairBlocks f))

/-- An input's record as its decoded pairs are counted. -/
def Stream.countPairs (f : Nat) (ps : List Pair) (m : Stream) : Stream :=
  { m with qnt := { m.qnt with
      format := BitVec.ofNat 3 f
      rxReserved := satAdd m.qnt.rxReserved (m.decoded f ps).2
      pairMismatch := satAdd m.qnt.pairMismatch (badPairs f ps) } }

/-- The bytes of decoded elements: FP32 where WIDE is 1, else BF16 (R111). -/
def elemBytes (wide : Bool) (ws : List Word) : List Byte := if wide then bytesOfWords ws else bytesOfHalves (ws.map bfRound)

/-- The work of a QUANT that decodes. -/
def decodeWork (f i : Nat) (wide : Bool) (s : State) (toks : List Dword) (hs : List (Nat × Nat)) : Work :=
  let ps := s.pairsOf i (toks.getD 0 0)
  let y := (s.stream i).decoded f ps
  let s := s.modStream i (Stream.countPairs f ps)
  if 0 < badPairs f ps then { st := s, code := some ecPair, asError := true }
  else
    { st := s.each hs fun s x => s.writeBuf (s.stream x.1).pool.toNat x.2 0 (elemBytes wide y.1)
      code := if 0 < y.2 then some ecRxReserved else none }

/-- A decoding's work counts its pairs, and beside that changes memory at most. -/
theorem decodeWork_keeps {f i : Nat} {wide : Bool} {s : State} {toks : List Dword} {hs : List (Nat × Nat)} :
    State.Keeps [.hbm, .bad, .sram] (s.modStream i (Stream.countPairs f (s.pairsOf i (toks.getD 0 0))))
      (decodeWork f i wide s toks hs).st := by
  unfold decodeWork
  dsimp only
  split
  case isTrue => exact .rfl
  case isFalse => exact .each (fun _ _ => State.writeBuf_keeps) .rfl

theorem Stream.SameNarrow.decoded {m m' : Stream} (h : m.SameNarrow m') (f : Nat) (ps : List Pair) :
    m'.decoded f ps = m.decoded f ps := by
  rw [Stream.decoded, Stream.decoded, h.rowLen, h.elems]

/-- Records that hold the same count pairs alike. -/
theorem Stream.SameNarrow.countPairs {m m' : Stream} (h : m.SameNarrow m') (f : Nat) (ps : List Pair) :
    (m.countPairs f ps).SameNarrow (m'.countPairs f ps) :=
  ⟨h.pool, by simp only [Stream.countPairs, h.qnt, h.decoded], h.pseq, h.rowLen, h.elems⟩

theorem Pool.take_pairs (n i : Nat) (p : Pool) : (p.take n i).pairs = p.pairs := by
  unfold Pool.take
  split <;> rfl

section

variable {s : State} {u : UnitId} {img f i out : Nat} {wide : Bool}

/-- A handle that is taken changes no pairs. -/
theorem State.taken_pairs (p : Nat) : ((s.taken u [i] [out]).pool p).pairs = (s.pool p).pairs := by
  let y := (s.markAll [out] .ready).each [i] fun s i => s.takeHead u i
  have hkeep : State.Keeps [.streams] s y := .each (fun _ _ => State.takeHead_keeps) State.markAll_keeps
  have htaken : (s.taken u [i] [out]).pool p = (y.takeHandle out).pool p := rfl
  rw [htaken, State.takeHandle, State.modPool_set, State.pool_setPool, ← hkeep.pool_eq (by decide) p]
  split
  case isTrue hp => rw [Pool.take_pairs, hp]
  case isFalse => rfl

theorem State.taken_pairsOf (tok : Dword) : (s.taken u [i] [out]).pairsOf i tok = s.pairsOf i tok := by
  rw [State.pairsOf, State.pairsOf, State.taken_pairs, (s.taken_places u [i] [out]).streams]

variable (hr : s.readiness u [i] [out] = .ready) (he : (s.tokensOf u [i]).all (fun k => tokType k ≠ tyError) = true)

include hr he

theorem State.fire_decode_holds (hgood : badPairs f (s.pairsOf i ((s.tokensOf u [i]).getD 0 0)) = 0) :
    let ps := s.pairsOf i ((s.tokensOf u [i]).getD 0 0)
    let s' := s.fire u img [i] [out] (decodeWork f i wide)
    s.FiredAs s' u img out 0 ∧ s.HoldsResult s' out (elemBytes wide ((s.stream i).decoded f ps).1) := by
  have hno : ¬ 0 < badPairs f (s.pairsOf i ((s.tokensOf u [i]).getD 0 0)) := by omega
  refine State.fired_store hr he (fun h _ => ?_) fun h => ?_
  · let x := s.taken u [i] [out]
    let y := x.modStream i (Stream.countPairs f (s.pairsOf i ((s.tokensOf u [i]).getD 0 0)))
    have hplaces : x.SamePlaces y := .modStream _ _ _ rfl
    have hyield : x.SameYield y := .of_keeps State.modStream_keeps (by decide)
    have hpool : (y.stream out).pool = (s.stream out).pool :=
      (hplaces.streams out).trans ((s.taken_places u [i] [out]).streams out)
    simp only [decodeWork, State.taken_pairsOf, if_neg hno, ((s.taken_sameNarrow u [i] [out]).stream i).decoded]
    rw [← hpool]
    exact hyield.writeBuf hplaces ..
  · simp only [decodeWork, State.taken_pairsOf, if_neg hno]

theorem State.fire_decode_discards (hbad : 0 < badPairs f (s.pairsOf i ((s.tokensOf u [i]).getD 0 0))) :
    s.FiredAs (s.fire u img [i] [out] (decodeWork f i wide)) u img out 0 := by
  refine State.fired_plain (L := [.streams]) hr he (fun h _ => ?_) (by decide) fun h _ => ?_
  · simp only [decodeWork, State.taken_pairsOf, if_pos hbad]
    exact ⟨State.modStream_keeps, fun _ => rfl⟩
  · simp only [decodeWork, State.taken_pairsOf, if_pos hbad]

theorem State.fire_decode_stream :
    let ps := s.pairsOf i ((s.tokensOf u [i]).getD 0 0)
    ((s.stream i).countPairs f ps).SameNarrow ((s.fire u img [i] [out] (decodeWork f i wide)).stream i) := by
  intro ps
  have hend := (State.fire_sameNarrow (img := img) (work := decodeWork f i wide) hr he).stream i
  rw [decodeWork_keeps.stream_eq (by decide), State.taken_pairsOf, State.modStream_set, State.stream_setStream, if_pos rfl]
    at hend
  exact (((s.taken_sameNarrow u [i] [out]).stream i).countPairs f ps).trans hend

end

/-! ### QUANT both ways -/

section

variable {s : State} {t : Nat} {u : UnitId} {img : Nat}

theorem exec_quantEncode (h : s.stands t u img opQuant = true) :
    let o := (s.prog u img).op
    exec (.quantEncode t u img) s = .next (if flag o 34 then s.tick t else
      (s.tick t).fire u img [field o 8 12] [field o 20 12]
        (encodeWork u (field o 32 2) (field o 8 12) (field o 20 12) (flag o 35))) :=
  act_of_stands h _

theorem exec_quantDecode (h : s.stands t u img opQuant = true) :
    let o := (s.prog u img).op
    exec (.quantDecode t u img) s = .next (if flag o 34 then
      (s.tick t).fire u img [field o 8 12] [field o 20 12] (decodeWork (field o 32 2) (field o 8 12) (flag o 35))
      else s.tick t) :=
  act_of_stands h _

end

/-- Settles O11: each way is one step, whose work counts in the stream's record and stores its pairs or its elements. -/
theorem quantEncodesAndDecodes : Obligations.QuantEncodesAndDecodes := by
  intro s t u img o i out f tok m bs ps n pairs bad y hfires
  obtain ⟨⟨hstands, hr⟩, he⟩ := State.fires_iff.1 hfires
  have hencode := exec_quantEncode hstands
  have hdecode := exec_quantDecode hstands
  refine ⟨fun hdir => ?encode, fun hdir hgood => ?decode, fun hdir hbad => ?discard, fun hdir => ?noEncode,
    fun hdir => ?noDecode⟩
  case noEncode => exact hencode.trans (congrArg _ (if_pos hdir))
  case noDecode => exact hdecode.trans (congrArg _ (if_neg (Bool.eq_false_iff.1 hdir)))
  case encode =>
    have hstream := State.fire_encode_stream (img := img) (f := f) (wide := flag o 35) hr he
    obtain ⟨hfired, hholds⟩ := State.fire_encode_holds (img := img) (f := f) (wide := flag o 35) hr he
    exact ⟨_, hencode.trans (congrArg _ (if_neg (Bool.eq_false_iff.1 hdir))), hfired, hholds,
      fun h hh hne => State.fire_encode_pairs hr he hh hne, hstream.pseq, congrArg Qnt.satCodes hstream.qnt,
      congrArg Qnt.zeroBlocks hstream.qnt⟩
  case decode =>
    have hstream := State.fire_decode_stream (img := img) (f := f) (wide := flag o 35) hr he
    obtain ⟨hfired, hholds⟩ := State.fire_decode_holds (img := img) (wide := flag o 35) hr he hgood
    exact ⟨_, hdecode.trans (congrArg _ (if_pos hdir)), hfired, hholds, congrArg Qnt.rxReserved hstream.qnt⟩
  case discard =>
    have hstream := State.fire_decode_stream (img := img) (f := f) (wide := flag o 35) hr he
    exact ⟨_, hdecode.trans (congrArg _ (if_pos hdir)), State.fire_decode_discards hr he hbad,
      congrArg Qnt.pairMismatch hstream.qnt, congrArg Qnt.rxReserved hstream.qnt⟩

end Sys2Proof.Machine
end

section
/-! RECV: the packet pairs of a tile that it takes into a handle, its waits, and the error token while the peer is lost (R110,
R118, R120, R157, R208, R405, R408). -/

namespace Sys2Proof.Machine

/-! ### The work of a RECV (R118, R208, R405) -/

/-- An output's record behind a tile of so many pairs. -/
def Stream.passPairs (n : Nat) (m : Stream) : Stream := { m with pseq := m.pseq + BitVec.ofNat 16 n }

/-- The record of REMOTE without the pairs of SOURCE that RECV has taken. -/
def Stream.dropPairs (src : Half) (qs : List Half) (m : Stream) : Stream :=
  { m with rx := m.rx.filter fun p => !(p.src = src && qs.contains p.pseq) }

/-- A state whose landing buffers no longer hold the pairs of SOURCE that RECV has taken. -/
def State.unland (s : State) (from_ : Nat) (src : Half) (qs : List Half) : State :=
  (s.modStream from_ (Stream.dropPairs src qs)).each (List.range 64) fun s n => s.modLink n (Link.dropLanded from_ src qs)

/-- The work of a RECV that takes pairs ps into a handle of pool p. -/
def recvWork (out from_ : Nat) (src : Half) (p : Nat) (ps : List Pair) (s : State) (_ : List Dword) (hs : List (Nat × Nat)) :
    Work :=
  { st := ((s.modStream out (Stream.passPairs ps.length)).unland from_ src (ps.map (·.pseq))).each hs
      fun s h => s.storePairs p h.2 ps }

section

variable {s : State} {from_ : Nat} {src : Half} {qs : List Half}

theorem State.unland_keeps : State.Keeps [.streams, .links] s (s.unland from_ src qs) :=
  .each (fun _ _ => .into State.modLink_keeps (by decide) .rfl) (.into State.modStream_keeps (by decide) .rfl)

theorem State.unland_sameNarrow : s.SameNarrow (s.unland from_ src qs) :=
  .each (fun _ _ => .keeps State.modLink_keeps (by decide) .rfl)
    (.modStream (fun _ => ⟨rfl, rfl, rfl, rfl, rfl⟩) .rfl)

theorem State.unland_places : s.SamePlaces (s.unland from_ src qs) :=
  .each (fun _ _ => .of_keeps State.modLink_keeps (by decide)) (.modStream _ _ _ rfl)

end

section

variable {s : State} {u : UnitId} {img out from_ : Nat} {src : Half} {ps : List Pair}
  (hr : s.readiness u [] [out] = .ready)

include hr

theorem State.fire_recv_holds :
    let s' := s.fire u img [] [out] (recvWork out from_ src (s.stream out).pool.toNat ps)
    s.FiredAs s' u img out 0 ∧ s.HoldsResult s' out (pairBytes ps) := by
  refine State.fired_store hr rfl (fun h _ => State.storePairs_sameYield ?_ ?_ ..) fun _ => rfl
  · exact .of_keeps (.into State.unland_keeps (by decide) (.into State.modStream_keeps (by decide) .rfl))
      (L := [.streams, .links]) (by decide)
  · exact (State.SamePlaces.modStream _ _ _ rfl).trans State.unland_places

theorem State.fire_recv_pairs {h : Nat} (hh : s.nextHandle out = some h) :
    (h, ps) ∈ ((s.fire u img [] [out] (recvWork out from_ src (s.stream out).pool.toNat ps)).pool
      (s.stream out).pool.toNat).pairs := by
  have hend := State.fire_keepsPairs (img := img) (work := recvWork out from_ src (s.stream out).pool.toNat ps) hr rfl
    (x := (h, ps)) (by simp [State.tokensOf])
  rw [State.offered_one hh] at hend
  exact hend.pool _ (State.mem_storePairs ..)

theorem State.fire_recv_pseq :
    ((s.fire u img [] [out] (recvWork out from_ src (s.stream out).pool.toNat ps)).stream out).pseq =
      (s.stream out).pseq + BitVec.ofNat 16 ps.length := by
  let x := (s.taken u [] [out]).modStream out (Stream.passPairs ps.length)
  have hwork (hs : List (Nat × Nat)) :
      x.SameNarrow (recvWork out from_ src (s.stream out).pool.toNat ps (s.taken u [] [out]) (s.tokensOf u []) hs).st :=
    State.unland_sameNarrow.trans (.each (fun _ _ => .keeps State.storePairs_keeps (by decide) .rfl) .rfl)
  have hend := ((hwork _).trans (State.fire_sameNarrow (img := img) hr rfl)).stream out
  have hx : x.stream out = ((s.taken u [] [out]).stream out).passPairs ps.length := by
    simp only [x, State.modStream_set, State.stream_setStream, if_true]
  rw [hend.pseq, hx, Stream.passPairs, ((s.taken_sameNarrow u [] [out]).stream out).pseq]

end

/-! ### RECV at its operation -/

section

variable {s : State} {t : Nat} {u : UnitId} {img : Nat} {o : Dword} (ho : (s.prog u img).op = o)
  (h : s.stands t u img opRecv = true)

include ho h

/-- While the peer is lost RECV sends an error token, or waits for the credit of one. -/
theorem exec_recv_lost (hlost : (s.stream (field o 8 12)).peerLost = true) :
    exec (.recv t u img) s = .next (if (s.stream (field o 8 12)).hasCredit then
        ((s.tick t).sendError u [field o 8 12] { err := some ecPeerLost } ((s.stream (field o 8 12)).seqOf u)).finish u img
          (max s.now t)
      else (s.tick t).markAll [field o 8 12] .credit) := by
  subst ho
  exact (act_of_stands h _).trans (congrArg _ (if_pos hlost))

/-- RECV waits for the pairs of its tile. -/
theorem exec_recv_waits (hlost : (s.stream (field o 8 12)).peerLost = false) (hpairs : s.recvPairs img o = none) :
    exec (.recv t u img) s = .next ((s.tick t).markAll [field o 8 12] .input) := by
  subst ho
  have hnone : (s.tick t).recvPairs img (s.prog u img).op = none := hpairs
  refine (act_of_stands h _).trans (congrArg _ ((if_neg (Bool.eq_false_iff.1 hlost)).trans ?_))
  rw [hnone]

/-- RECV is a step where the pairs of its tile have landed. -/
theorem exec_recv_fires (hlost : (s.stream (field o 8 12)).peerLost = false) {ps : List Pair}
    (hpairs : s.recvPairs img o = some ps) :
    exec (.recv t u img) s = .next ((s.tick t).fire u img [] [field o 8 12]
      (recvWork (field o 8 12) (field o 36 12) (BitVec.ofNat 16 (field o 20 16))
        (s.stream (field o 8 12)).pool.toNat ps)) := by
  subst ho
  have hsome : (s.tick t).recvPairs img (s.prog u img).op = some ps := hpairs
  refine (act_of_stands h _).trans (congrArg _ ((if_neg (Bool.eq_false_iff.1 hlost)).trans ?_))
  rw [hsome]
  rfl

end

/-- Settles O15: RECV acts by its peer and by the pairs that have landed; its step stores them. -/
theorem recvGathersATile : Obligations.RecvGathersATile := by
  intro s t u img o out m
  refine ⟨fun ps hfires hlost hpairs => ?fires, fun hstands hlost hpairs => exec_recv_waits rfl hstands hlost hpairs,
    fun hstands hlost hcredit => ?error, fun hstands hlost hcredit => ?credit⟩
  case fires =>
    obtain ⟨⟨hstands, hr⟩, -⟩ := State.fires_iff.1 hfires
    obtain ⟨hfired, hholds⟩ := State.fire_recv_holds (img := img) (from_ := field o 36 12)
      (src := BitVec.ofNat 16 (field o 20 16)) (ps := ps) hr
    exact ⟨_, exec_recv_fires rfl hstands hlost hpairs, hfired, hholds, fun h hh => State.fire_recv_pairs hr hh,
      State.fire_recv_pseq hr⟩
  case error => exact (exec_recv_lost rfl hstands hlost).trans (congrArg _ (if_pos hcredit))
  case credit => exact (exec_recv_lost rfl hstands hlost).trans (congrArg _ (if_neg (Bool.eq_false_iff.1 hcredit)))

end Sys2Proof.Machine
end

section
/-! Firmware's commands on memory, descriptors, streams, quantisation settings and counters (R130, R133, R168, R213, R214, R221,
R223 to R228, R361, R380). -/

namespace Sys2Proof.Machine

/-! ### What the clock leaves -/

section

variable (s : State) (t ch i n : Nat)

@[simp] theorem State.rangeRefusal_tick : (s.tick t).rangeRefusal ch i n = s.rangeRefusal ch i n := rfl
@[simp] theorem State.streamRefusal_tick : (s.tick t).streamRefusal ch i = s.streamRefusal ch i := rfl
@[simp] theorem State.scopeRefusal_tick : (s.tick t).scopeRefusal ch i n = s.scopeRefusal ch i n := rfl

end

/-- Settles O52: each command is taken, and its handler replies by the first check that fails or acts on its object. -/
theorem firmwareMovesDataAndClears : Obligations.FirmwareMovesDataAndClears := by
  intro s t ch
  dsimp only
  refine ⟨fun bs h => ?write, fun h => ?writeFails, fun h => ⟨?readFails, ?read⟩, fun h => ?descWrite, fun h => ?descArm,
    fun h hok => ⟨fun hbusy => ?busy, fun hidle => ?idle⟩, fun h => ?limit, fun h => ?policy, fun h => ?carry,
    fun h => ⟨fun hscope => ?noScope, fun top hscope => ?clear⟩⟩
  case write | writeFails | readFails =>
    refine (act_command _ h).trans ?_
    simp only [State.rangeRefusal_tick]
    cases s.rangeRefusal ch _ _ <;> rfl
  case read =>
    have hhbm (a n : Nat) : ((s.tick t).readHbm a n).hbm = s.hbm := State.readHbm_keeps .hbm (by decide)
    refine (act_command _ h).trans ?_
    simp only [State.rangeRefusal_tick]
    cases s.rangeRefusal ch _ _ with
    | some x => rfl
    | none =>
      simp only [answerOut_behind_none, Bool.not_true, Bool.false_eq_true, if_false, answerOut_ite, answerOut_accept, hhbm]
      rfl
  case descWrite | descArm =>
    refine (act_command _ h).trans ?_
    simp only [State.descRefused_tick]
    cases s.descRefused ch _ _ <;> rfl
  case busy =>
    refine (act_command _ h).trans ?_
    simp only [State.descRefused_tick, hok, answerOut_behind_none]
    obtain hst | hst | hst := hbusy <;> simp only [State.desc_tick, hst, answerOut_refuse]
  case idle =>
    refine (act_command _ h).trans ?_
    simp only [State.descRefused_tick, hok, answerOut_behind_none]
    obtain hst | hst | hst := hidle <;> simp only [State.desc_tick, hst] <;> rfl
  case limit | policy | carry =>
    refine (act_command _ h).trans ?_
    simp only [State.streamRefusal_tick]
    cases s.streamRefusal ch _ with
    | some x => rfl
    | none => simp only [answerOut_behind_none, answerOut_ite, answerOut_refuse, answerOut_okWith]; rfl
  case noScope =>
    refine (act_command _ h).trans ?_
    simp only [hscope, answerOut_refuse]
  case clear =>
    refine (act_command _ h).trans ?_
    simp only [hscope, answerOut_ite, answerOut_refuse, State.scopeRefusal_tick]
    cases s.scopeRefusal ch _ _ <;> rfl

end Sys2Proof.Machine
end

section
/-! VOP and REDUCE: what their steps write into the handle that they take, in how many cycles, and what GATHER and EDGESUM count
(R145, R146, R195 to R206). -/

namespace Sys2Proof.Machine

/-! ### Steps that write bytes made from their tokens (R145, R146, R158) -/

/-- A step that is ready has a data token at every input. -/
theorem State.data_of_ready {s : State} {u : UnitId} {ins outs : List Nat} {i : Nat} (hr : s.readiness u ins outs = .ready)
    (hi : i ∈ ins) : ∃ k, s.dataAt i u = some k := by
  unfold State.readiness at hr
  split at hr
  case h_1 => cases hr
  case h_2 =>
    split at hr
    case isTrue => cases hr
    case isFalse hall =>
      have hall : (ins.all fun i => (s.dataAt i u).isSome) = true := by
        simpa [Option.isSome_iff_ne_none] using hall
      exact Option.isSome_iff_exists.1 (List.all_eq_true.1 hall i hi)

/-- A work that changes other parts and then writes bytes made from the tokens into each handle taken. -/
def madeWork (c : State → List Dword → State) (bytes : State → List Dword → List Byte) (dur : State → List Dword → Nat)
    (s : State) (toks : List Dword) (hs : List (Nat × Nat)) : Work :=
  { st := (c s toks).each hs fun x h => x.writeBuf (x.stream h.1).pool.toNat h.2 0 (bytes s toks), dur := dur s toks }

/-- Where the other parts are neither lists, streams, pools nor memory, such a step leaves its handle with those bytes. -/
theorem State.fired_made {s : State} {u : UnitId} {img o : Nat} {ins : List Nat} {c : State → List Dword → State}
    {bytes : State → List Dword → List Byte} {dur : State → List Dword → Nat} {L : List Part}
    (hr : s.readiness u ins [o] = .ready) (he : (s.tokensOf u ins).all (fun k => tokType k ≠ tyError) = true)
    (hc : ∀ x toks, State.Keeps L x (c x toks))
    (hL : Part.progs ∉ L ∧ Part.sram ∉ L ∧ Part.hbm ∉ L ∧ Part.pools ∉ L ∧ Part.streams ∉ L) :
    let s' := s.fire u img ins [o] (madeWork c bytes dur)
    s.FiredAs s' u img o (dur (s.taken u ins [o]) (s.tokensOf u ins)) ∧
      s.HoldsResult s' o (bytes (s.taken u ins [o]) (s.tokensOf u ins)) := by
  obtain ⟨hprogs, hsram, hhbm, hpools, hstreams⟩ := hL
  have hkeep := hc (s.taken u ins [o]) (s.tokensOf u ins)
  refine State.fired_store hr he (fun h _ => ?_) fun h => rfl
  have hpool : ((c (s.taken u ins [o]) (s.tokensOf u ins)).stream o).pool = (s.stream o).pool := by
    rw [hkeep.stream_eq hstreams, (s.taken_places u ins [o]).streams]
  rw [← hpool]
  exact State.SameYield.writeBuf (.of_keeps hkeep ⟨hprogs, hsram, hhbm, hpools⟩)
    (.of_keeps hkeep ⟨hstreams, hsram, hhbm, hpools⟩) ..

/-! ### The functions of one result (R199 to R206) -/

/-- The work of a VOP at operation o: the bytes of f of its operands, in so many cycles for their elements. -/
def vopWork (p : Prog) (o : Dword) (wide : Bool) (cycles : Nat → Nat) (f : VopIn → List Word) :
    State → List Dword → List (Nat × Nat) → Work :=
  madeWork (fun s _ => s) (fun s toks => vopBytes o wide (f (s.vopIn p o toks)))
    fun s toks => (24 + cycles ((s.vopIn p o toks).rows * (s.vopIn p o toks).cols)) * Config.cycle

section

variable {s : State} {u : UnitId} {img : Nat} {p : Prog} {o : Dword} {wide : Bool} {cycles : Nat → Nat}
  {f : VopIn → List Word}

/-- Its operands are read as they stood before the step. -/
theorem State.fired_vop {ins : List Nat} {out : Nat} (hr : s.readiness u ins [out] = .ready)
    (he : (s.tokensOf u ins).all (fun k => tokType k ≠ tyError) = true) :
    let x := s.vopIn p o (s.tokensOf u ins)
    let s' := s.fire u img ins [out] (vopWork p o wide cycles f)
    s.FiredAs s' u img out ((24 + cycles (x.rows * x.cols)) * 4) ∧ s.HoldsResult s' out (vopBytes o wide (f x)) := by
  have hx := (s.taken_places u ins [out]).vopIn p o (s.tokensOf u ins)
  have h := State.fired_made (img := img) (c := fun s _ => s)
    (bytes := fun s toks => vopBytes o wide (f (s.vopIn p o toks)))
    (dur := fun s toks => (24 + cycles ((s.vopIn p o toks).rows * (s.vopIn p o toks).cols)) * Config.cycle)
    hr he (fun _ _ => .rfl) (L := []) (by decide)
  rwa [hx] at h

/-- A VOP at its operation is a step. -/
theorem act_vop {t func : Nat} (h : s.stands t u img opVop = true) (hfunc : vopFunc (s.prog u img).op = func) :
    let p := s.prog u img
    act (unitOk u) t s (fun s => s.vop u img func wide cycles f) =
      .next ((s.tick t).fire u img (opInputs p.op) [field p.op 40 12] (vopWork p p.op wide cycles f)) := by
  obtain ⟨-, -, hcode, -⟩ := State.stands_iff.1 h
  refine (act_of_stands h _).trans (congrArg _ ?_)
  rw [if_pos hfunc, opOutputs_vop hcode]
  rfl

/-- Every row of the table is such a VOP. -/
theorem exec_vopRow {r : VopRow} (hr : r ∈ vopTable) (t : Nat) (u : UnitId) (img : Nat) (s : State) :
    exec (r.make t u img) s = act (unitOk u) t s (fun s => s.vop u img r.func r.wide r.cycles r.fn) := by
  fin_cases hr <;> rfl

end

/-- Settles O7: every row of the table is one step that writes the function of its operands. -/
theorem vopsWriteTheirFunction : Obligations.VopsWriteTheirFunction := by
  intro r hr s t u img o out hfires hfunc
  obtain ⟨⟨hstands, hready⟩, hnoError⟩ := State.fires_iff.1 hfires
  exact ⟨_, (exec_vopRow hr t u img s).trans (act_vop hstands hfunc), State.fired_vop hready hnoError⟩

/-! ### REDUCE (R195 to R198) -/

/-- The FP32 words in the buffer of a token of stream i. -/
def State.tokWords (s : State) (i : Nat) (tok : Dword) : List Word :=
  wordsOf (s.readBuf (s.stream i).pool.toNat (tokHandle tok) 0 (s.pool (s.stream i).pool.toNat).bufSize)

/-- The elements of the external handle of a REDUCE at operation o, where it names one. -/
def State.reduceExt (s : State) (o : Dword) (toks : List Dword) : Option (List Word) :=
  if field o 38 12 = 0xFFF then none else some (s.tokWords (field o 38 12) (toks.getD 1 (toks.getD 0 0)))

/-- The bytes of the sums of a REDUCE at operation o. -/
def State.reduceBytes (s : State) (plan o : Dword) (toks : List Dword) : List Byte :=
  let ys := reduceElems plan (s.tokWords (field o 14 12) (toks.getD 0 0)) (s.reduceExt o toks)
  if flag o 50 then bytesOfHalves (ys.map bfRound) else bytesOfWords ys

/-- The work of a REDUCE: the bytes of its sums, in the cycles of R198. -/
def reduceWork (plan o : Dword) : State → List Dword → List (Nat × Nat) → Work :=
  madeWork (fun s _ => s) (fun s toks => s.reduceBytes plan o toks)
    fun s toks => reduceCycles plan (s.reduceExt o toks).isSome * Config.cycle

section

variable {s : State} {u : UnitId} {img : Nat} {o : Dword}

theorem State.SamePlaces.tokWords {x : State} (h : s.SamePlaces x) (i : Nat) (tok : Dword) :
    x.tokWords i tok = s.tokWords i tok := by
  simp only [State.tokWords, h.readBuf, h.streams, h.bufSize]

theorem State.tokWords_of_data {i : Nat} {k : Dword} (h : s.dataAt i u = some k) :
    s.tokWords i k = wordsOf (s.inputBytes u i) := by
  simp only [State.tokWords, State.inputBytes, h]

theorem opInputs_reduce (h : opcode o = opReduce) : opInputs o = [field o 14 12] ++
    (if field o 38 12 = 0xFFF ∨ field o 38 12 = field o 14 12 then [] else [field o 38 12]) := by
  simp [opInputs, h, opReduce, opFeed, opWfill]

/-- The tokens of a REDUCE: that of its slices, and that of its external handle; one stream named twice gives one token. -/
theorem State.dataAt_reduce {outs : List Nat} (hcode : opcode o = opReduce)
    (hr : s.readiness u (opInputs o) outs = .ready) :
    let toks := s.tokensOf u (opInputs o)
    s.dataAt (field o 14 12) u = some (toks.getD 0 0) ∧
      (field o 38 12 ≠ 0xFFF → s.dataAt (field o 38 12) u = some (toks.getD 1 (toks.getD 0 0))) := by
  have hins := opInputs_reduce hcode
  obtain ⟨k, hk⟩ := State.data_of_ready (i := field o 14 12) hr (by simp [hins])
  refine ⟨by simp [State.tokensOf, hins, hk], fun hext => ?_⟩
  by_cases hsame : field o 38 12 = field o 14 12
  case pos => simp [State.tokensOf, hins, hsame, hk]
  case neg =>
    obtain ⟨j, hj⟩ := State.data_of_ready (i := field o 38 12) hr (by simp [hins, hext, hsame])
    simp [State.tokensOf, hins, hext, hsame, hk, hj]

theorem exec_reduce {t : Nat} (h : s.stands t u img opReduce = true) :
    let p := s.prog u img
    exec (.reduce t u img) s = .next ((s.tick t).fire u img (opInputs p.op) [field p.op 26 12]
      (reduceWork (p.plans.getD (field p.op 8 6) 0) p.op)) :=
  act_of_stands h _

/-- REDUCE reads the handles of its inputs as they stood before the step. -/
theorem State.fired_reduce {plan : Dword} {out : Nat} (hcode : opcode o = opReduce)
    (hr : s.readiness u (opInputs o) [out] = .ready)
    (he : (s.tokensOf u (opInputs o)).all (fun k => tokType k ≠ tyError) = true) :
    let ext := field o 38 12
    let xs := if ext = 0xFFF then none else some (wordsOf (s.inputBytes u ext))
    let ys := reduceElems plan (wordsOf (s.inputBytes u (field o 14 12))) xs
    let s' := s.fire u img (opInputs o) [out] (reduceWork plan o)
    s.FiredAs s' u img out (reduceCycles plan xs.isSome * 4) ∧
      s.HoldsResult s' out (if flag o 50 then bytesOfHalves (ys.map bfRound) else bytesOfWords ys) := by
  intro ext xs
  obtain ⟨hslices, hexternal⟩ := State.dataAt_reduce hcode hr
  have hplaces := s.taken_places u (opInputs o) [out]
  have hxs : (s.taken u (opInputs o) [out]).reduceExt o (s.tokensOf u (opInputs o)) = xs := by
    by_cases hext : ext = 0xFFF
    case pos => exact (if_pos hext).trans (if_pos hext).symm
    case neg =>
      refine (if_neg hext).trans (Eq.trans ?_ (if_neg hext).symm)
      rw [hplaces.tokWords, State.tokWords_of_data (hexternal hext)]
  have h := State.fired_made (img := img) (c := fun s _ => s) (bytes := fun s toks => s.reduceBytes plan o toks)
    (dur := fun s toks => reduceCycles plan (s.reduceExt o toks).isSome * Config.cycle)
    hr he (fun _ _ => .rfl) (L := []) (by decide)
  simp only [State.reduceBytes] at h
  rwa [hxs, hplaces.tokWords, State.tokWords_of_data hslices] at h

end

/-- Settles O8: REDUCE is one step that writes the sums of its handles. -/
theorem reduceWritesTreeSums : Obligations.ReduceWritesTreeSums := by
  intro s t u img o out ext plan hfires
  obtain ⟨⟨hstands, hready⟩, hnoError⟩ := State.fires_iff.1 hfires
  obtain ⟨-, -, hcode, -⟩ := State.stands_iff.1 hstands
  exact ⟨_, exec_reduce hstands, State.fired_reduce hcode hready hnoError⟩

/-! ### GATHER and EDGESUM (R205) -/

/-- Indices out of range counted at the physical core at a position. -/
def State.countRange (s : State) (cl pos n : Nat) : State :=
  s.modCore cl ((s.cluster cl).phys pos) fun c => { c with gatherRange := satAdd c.gatherRange n }

/-- The work of a VOP over an index buffer of entries of w bytes: its rows, and the indices that it counts. -/
def indexedWork (cl pos w : Nat) (p : Prog) (o : Dword) (f : VopIn → List (List Word) × Nat) :
    State → List Dword → List (Nat × Nat) → Work :=
  madeWork (fun s toks => s.countRange cl pos (f (s.vopIn p o toks)).2)
    (fun s toks => vopBytes o false (f (s.vopIn p o toks)).1.flatten)
    fun s toks => (24 + perCycle ((s.vopIn p o toks).rows * (s.vopIn p o toks).cols) 16 + ((s.vopIn p o toks).count w).1) *
      Config.cycle

theorem State.countRange_keeps {s : State} {cl pos n : Nat} : State.Keeps [.clusters] s (s.countRange cl pos n) :=
  State.modCore_keeps

theorem State.countRange_core (s : State) (cl pos n : Nat) :
    let k := (s.cluster cl).phys pos
    ((s.countRange cl pos n).core cl k).gatherRange = satAdd (s.core cl k).gatherRange n := by
  intro k
  rw [State.countRange, State.core_modCore]

section

variable {s : State} {cl pos img w : Nat} {p : Prog} {o : Dword} {f : VopIn → List (List Word) × Nat}

/-- A VOP over an index buffer at its operation is a step. -/
theorem act_vopIndexed {t func : Nat} (h : s.stands t (.vu cl pos) img opVop = true)
    (hfunc : vopFunc (s.prog (.vu cl pos) img).op = func) :
    let u := UnitId.vu cl pos
    let p := s.prog u img
    act (unitOk u) t s (fun s => s.vopIndexed u img func w f) =
      .next ((s.tick t).fire u img (opInputs p.op) [field p.op 40 12] (indexedWork cl pos w p p.op f)) := by
  obtain ⟨-, -, hcode, -⟩ := State.stands_iff.1 h
  refine (act_of_stands h _).trans (congrArg _ ?_)
  rw [if_pos hfunc, opOutputs_vop hcode]
  rfl

/-- It writes its rows, and counts at its core, of its operands as they stood before the step. -/
theorem State.fired_indexed {u : UnitId} {ins : List Nat} {out : Nat} (hr : s.readiness u ins [out] = .ready)
    (he : (s.tokensOf u ins).all (fun k => tokType k ≠ tyError) = true) :
    let x := s.vopIn p o (s.tokensOf u ins)
    let k := (s.cluster cl).phys pos
    let s' := s.fire u img ins [out] (indexedWork cl pos w p o f)
    s.FiredAs s' u img out ((24 + perCycle (x.rows * x.cols) 16 + (x.count w).1) * 4) ∧
      s.HoldsResult s' out (vopBytes o false (f x).1.flatten) ∧
      (s'.core cl k).gatherRange = satAdd (s.core cl k).gatherRange (f x).2 := by
  intro x k s'
  have hx := (s.taken_places u ins [out]).vopIn p o (s.tokensOf u ins)
  have htaken := s.taken_keeps u ins [out]
  obtain ⟨hfired, hholds⟩ := State.fired_made (img := img)
    (c := fun s toks => s.countRange cl pos (f (s.vopIn p o toks)).2)
    (bytes := fun s toks => vopBytes o false (f (s.vopIn p o toks)).1.flatten)
    (dur := fun s toks => (24 + perCycle ((s.vopIn p o toks).rows * (s.vopIn p o toks).cols) 16 +
      ((s.vopIn p o toks).count w).1) * Config.cycle)
    hr he (fun _ _ => State.countRange_keeps) (L := [.clusters]) (by decide)
  rw [hx] at hfired hholds
  have hwritten : State.Keeps [.hbm, .bad, .sram] ((s.taken u ins [out]).countRange cl pos (f x).2)
      (indexedWork cl pos w p o f (s.taken u ins [out]) (s.tokensOf u ins) (s.offered u ins [out])).st := by
    rw [indexedWork, madeWork, hx]
    exact .each (fun _ _ => State.writeBuf_keeps) .rfl
  have hk : k = ((s.taken u ins [out]).cluster cl).phys pos := by rw [htaken.cluster_eq (by decide)]
  refine ⟨hfired, hholds, ?_⟩
  rw [(State.fire_rest hr he).core_eq (by decide), hwritten.core_eq (by decide), hk, State.countRange_core,
    htaken.core_eq (by decide)]

end

/-- Settles O9: each is one step over its index buffer. -/
theorem gatherAndEdgesum : Obligations.GatherAndEdgesum := by
  intro s t cl pos img u o out x k hfires
  obtain ⟨⟨hstands, hready⟩, hnoError⟩ := State.fires_iff.1 hfires
  exact ⟨fun hfunc => ⟨_, act_vopIndexed hstands hfunc, State.fired_indexed hready hnoError⟩,
    fun hfunc => ⟨_, act_vopIndexed hstands hfunc, State.fired_indexed hready hnoError⟩⟩

end Sys2Proof.Machine
end

section
/-! Model steps: what an END that is the last, an abort and a start leave of an image's record, its streams, its pools, its
descriptors and its lists (R142, R151, R171, R177, R178, R182, R184, R192, R229). -/

namespace Sys2Proof.Machine

/-! ### A change of every stream, pool, list or descriptor of a list -/

section

variable (s : State)

/-- Streams changed in turn, by what a second change leaves as it is. -/
theorem State.stream_each_modStream {f : Nat → Nat → Stream → Stream} (hf : ∀ n i m, f n i (f n i m) = f n i m)
    (is : List Nat) (i : Nat) : (s.each is fun s i => s.modStream i (f s.now i)).stream i =
      if i ∈ is then f s.now i (s.stream i) else s.stream i := by
  induction is generalizing s with
  | nil => simp [State.each]
  | cons j is ih =>
    have hstep := ih (s.modStream j (f s.now j))
    simp only [State.each, List.foldl_cons] at hstep ⊢
    rw [hstep, State.modStream_set, State.stream_setStream, State.setStream_now]
    rcases Decidable.em (i = j) with rfl | hne
    · simp [hf]
    · simp [hne]

theorem State.pool_each_modPool {f : Pool → Pool} (hf : ∀ p, f (f p) = f p) (ps : List Nat) (p : Nat) :
    (s.each ps fun s p => s.modPool p f).pool p = if p ∈ ps then f (s.pool p) else s.pool p := by
  induction ps generalizing s with
  | nil => simp [State.each]
  | cons q ps ih =>
    have hstep := ih (s.modPool q f)
    simp only [State.each, List.foldl_cons] at hstep ⊢
    rw [hstep, State.modPool_set, State.pool_setPool]
    rcases Decidable.em (p = q) with rfl | hne
    · simp [hf]
    · simp [hne]

/-- Lists of units changed in turn: two units of one word hold one list. -/
theorem State.prog_each {f : Prog → Prog} {g : State → UnitId → State} {img : Nat}
    (hg : ∀ s u w, (g s u).prog w img = (s.modProg u img f).prog w img) (hf : ∀ p, f (f p) = f p) (us : List UnitId)
    (w : UnitId) : (s.each us g).prog w img =
      if ∃ u ∈ us, unitWord u = unitWord w then f (s.prog w img) else s.prog w img := by
  induction us generalizing s with
  | nil => simp [State.each]
  | cons u us ih =>
    have hstep := ih (g s u)
    simp only [State.each, List.foldl_cons] at hstep ⊢
    rw [hstep, hg, State.prog_modProg]
    rcases Decidable.em (unitWord u = unitWord w) with heq | hne
    · simp [heq, hf]
    · simp [hne]

/-- Descriptors changed in turn by their numbers among all engines. -/
theorem State.desc_each_modDesc {f : Desc → Desc} (hf : ∀ k, f (f k) = f k) (ks : List Nat) {e d : Nat} (hd : d < 8192) :
    (s.each ks fun s k => s.modDesc (k / 8192) (k % 8192) f).desc e d =
      if e * 8192 + d ∈ ks then f (s.desc e d) else s.desc e d := by
  induction ks generalizing s with
  | nil => simp [State.each]
  | cons k ks ih =>
    have hstep := ih (s.modDesc (k / 8192) (k % 8192) f)
    simp only [State.each, List.foldl_cons] at hstep ⊢
    rw [hstep, State.modDesc_set, State.desc, State.setDesc, Tab.get_put]
    rcases Decidable.em (k = e * 8192 + d) with rfl | hne
    · have hquot : (e * 8192 + d) / 8192 = e := by omega
      have hrem : (e * 8192 + d) % 8192 = d := by omega
      simp [hquot, hrem, hf]
    · have hkey : ¬ e * 8192 + d = k / 8192 * 8192 + k % 8192 := by omega
      simp [hkey, Ne.symm hne, State.desc]

end

/-! ### Waits that end twice -/

theorem Stream.endWait_of_none {m : Stream} (h : m.wait = none) (now : Nat) : m.endWait now = { m with stalled := false } := by
  simp only [Stream.endWait, h]

theorem Stream.endGuard_of_none {m : Stream} (h : m.guard = none) (now : Nat) :
    m.endGuard now = { m with guardStalled := false } := by
  simp only [Stream.endGuard, h]

/-- A stream's record whose waits are over. -/
structure Stream.Rests (m : Stream) : Prop where
  wait : m.wait = none
  stalled : m.stalled = false
  guard : m.guard = none
  guardStalled : m.guardStalled = false

/-- The end of a stream's waits changes their record only. -/
theorem Stream.endWaits_eq (now : Nat) (m : Stream) : (m.endWait now).endGuard now =
    { m with wait := none, stalled := false, guard := none, guardStalled := false
             maxWait := ((m.endWait now).endGuard now).maxWait } := by
  obtain ⟨w, hw⟩ : ∃ w, m.endWait now = { m with wait := none, stalled := false, maxWait := w } := by
    unfold Stream.endWait
    split
    case h_1 hnone => exact ⟨m.maxWait, by rw [← hnone]⟩
    case h_2 w _ => exact ⟨m.longest now w, rfl⟩
  rw [hw, Stream.endGuard]
  split
  case h_1 hnone => exact hnone ▸ rfl
  case h_2 => rfl

theorem Stream.rests_endWaits (now : Nat) (m : Stream) : ((m.endWait now).endGuard now).Rests := by
  rw [Stream.endWaits_eq]
  exact ⟨rfl, rfl, rfl, rfl⟩

theorem Stream.Rests.endWaits {m : Stream} (h : m.Rests) (now : Nat) : (m.endWait now).endGuard now = m := by
  obtain ⟨hw, hs, hg, hgs⟩ := h
  have hwait : m.endWait now = m := by rw [Stream.endWait_of_none hw, ← hs]
  rw [hwait, Stream.endGuard_of_none hg, ← hgs]

/-! ### END (R184) -/

/-- A stream as the last END of its image leaves it. -/
def Stream.close (now : Nat) (m : Stream) : Stream := { (m.endWait now).endGuard now with hq := 0 }

theorem Stream.close_close (now : Nat) (m : Stream) : (m.close now).close now = m.close now := by
  have hrests : (m.close now).Rests := by
    obtain ⟨hw, hs, hg, hgs⟩ := m.rests_endWaits now
    exact ⟨hw, hs, hg, hgs⟩
  rw [Stream.close, hrests.endWaits]
  rfl

/-- The record of an image whose step ends now. -/
def ImgRec.closes (now : Nat) (r : ImgRec) : ImgRec :=
  { r with running := false, completed := r.completed + 1, abort := none
           lastUs := BitVec.ofNat 32 ((now - r.startedAt) / Config.us) }

section

variable {s : State} {img : Nat}

theorem State.closeStep_open (h : ((s.image img).running && s.allEnded img) = false) : s.closeStep img = s :=
  if_neg (Bool.eq_false_iff.1 h)

theorem State.closeStep_closes (h : ((s.image img).running && s.allEnded img) = true) :
    State.Keeps [.clusters] ((s.modImage img (ImgRec.closes s.now)).each (s.streamsOf img)
      fun s i => s.modStream i (Stream.close s.now)) (s.closeStep img) := by
  rw [State.closeStep, if_pos h]
  exact .each (fun _ _ => State.modCluster_keeps) .rfl

theorem State.image_closeStep (h : ((s.image img).running && s.allEnded img) = true) :
    (s.closeStep img).image img = (s.image img).closes s.now := by
  have hfw : (s.closeStep img).fw = (s.modImage img (ImgRec.closes s.now)).fw :=
    (State.closeStep_closes h .fw (by decide)).trans
      (State.Keeps.each (L := [.streams]) (fun _ _ => State.modStream_keeps) .rfl .fw (by decide))
  refine (congrArg (fun f : Fw => Tab.get ({} : ImgRec) f.images img) hfw).trans ?_
  exact (State.image_setImage ..).trans (if_pos rfl)

theorem State.prog_closeStep (s : State) (u : UnitId) (img : Nat) : (s.closeStep img).prog u img = s.prog u img :=
  State.closeStep_keeps.prog_eq (by decide) u img

theorem State.stream_closeStep (h : ((s.image img).running && s.allEnded img) = true) (i : Nat) :
    (s.closeStep img).stream i = if i ∈ s.streamsOf img then (s.stream i).close s.now else s.stream i := by
  rw [(State.closeStep_closes h).stream_eq (by decide)]
  exact State.stream_each_modStream (f := fun n _ m => m.close n) _ (fun n _ m => m.close_close n) _ _

theorem exec_endOp {t : Nat} {u : UnitId} (h : s.stands t u img opEnd = true) :
    exec (.endOp t u img) s =
      .next (((s.tick t).setProg u img { s.prog u img with phase := .ended, fired := s.nextTurn u img }).closeStep img) :=
  act_of_stands h _

end

/-- Settles O12: END ends its list; the last one closes the step. -/
theorem endClosesTheStep : Obligations.EndClosesTheStep := by
  intro s t u img p s1 r hstands
  have hexec : exec (.endOp t u img) s = .next (s1.closeStep img) := exec_endOp hstands
  refine ⟨fun hopen => hexec.trans (congrArg _ (State.closeStep_open hopen)), fun hlast => ?_⟩
  refine ⟨_, hexec, ?prog, State.image_closeStep hlast, fun i hi => ?inside, fun i hi => ?outside⟩
  case prog => rw [State.prog_closeStep, State.prog_setProg_same]
  case inside => exact (State.stream_closeStep hlast i).trans (if_pos hi)
  case outside => exact (State.stream_closeStep hlast i).trans (if_neg hi)

/-! ### STEP_ABORTED (R171) -/

theorem Consumer.clear_clear (c : Consumer) : c.clear.clear = c.clear := rfl

theorem Stream.abort_abort (now i : Nat) (m : Stream) : (m.abort now i).abort now i = m.abort now i := by
  have hsame := m.endWaits_eq now
  have hrests : (m.abort now i).Rests := by
    obtain ⟨hw, hs, hg, hgs⟩ := m.rests_endWaits now
    exact ⟨hw, hs, hg, hgs⟩
  have hseq : (m.abort now i).seq = m.seq := (congrArg Stream.seq hsame :)
  have hproducers : (m.abort now i).producers = m.producers := (congrArg Stream.producers hsame :)
  have hsink : mkTok tyError i 0xFFFF ((m.abort now i).seqOf ((m.abort now i).producers.headD .field))
      { err := some ecAborted } = (m.abort now i).sink := by
    rw [hproducers, Stream.seqOf, hseq]
    rfl
  have hedges : (m.abort now i).consumers.map Consumer.clear = (m.abort now i).consumers :=
    List.map_map.trans rfl
  rw [Stream.abort, hrests.endWaits, hsink, hedges]
  rfl

theorem Pool.abort_abort (p : Pool) : p.abort.abort = p.abort := by simp [Pool.abort]

theorem Desc.abort_abort (k : Desc) : k.abort.abort = k.abort := by
  unfold Desc.abort
  cases hst : k.st <;> cases hx : k.outstanding <;> simp

/-- The first part of an abort: the image's units stop. -/
def State.abortUnits (s : State) (img : Nat) : State := s.each (s.unitsOf img) fun s u => s.abortUnit img u

/-- The second part: its streams are emptied, and their sinks have the error token. -/
def State.abortStreams (s : State) (img : Nat) : State :=
  s.each (s.streamsOf img) fun s i => s.modStream i (Stream.abort s.now i)

/-- The third part: packet pairs that have landed at its links go. -/
def State.abortLanded (s : State) (img : Nat) : State :=
  s.each (s.remotesOf img) fun s i => s.modStream i fun m => { m with rx := [] }

/-- The fourth part: every handle of its pools is free. -/
def State.abortPools (s : State) (img : Nat) : State := s.each (s.poolsOf img) fun s p => s.modPool p Pool.abort

/-- The fifth part: its descriptors return to IDLE, at once or with their last transfer. -/
def State.abortDescs (s : State) (img : Nat) : State :=
  s.each ((s.descs.filter fun d => s.descImg d.2.work = some img).map (·.1)) fun s k =>
    s.modDesc (k / 8192) (k % 8192) Desc.abort

/-- The end of an aborted step beside its reports: its clusters idle, its record tells no step and no abort. -/
def State.abortImage (s : State) (img : Nat) : State :=
  (s.each (s.clustersOf img) fun s c => s.modCluster c fun k => { k with idleSince := s.now }).modImage img fun r =>
    { r with running := false, abort := none }

section

variable {s : State} {img : Nat}

theorem State.abortUnits_keeps : State.Keeps [.clusters, .progs] s (s.abortUnits img) :=
  .each (fun _ _ => State.abortUnit_keeps) .rfl

theorem State.abortStreams_keeps : State.Keeps [.streams] s (s.abortStreams img) :=
  .each (fun _ _ => State.modStream_keeps) .rfl

theorem State.abortLanded_keeps : State.Keeps [.streams] s (s.abortLanded img) :=
  .each (fun _ _ => State.modStream_keeps) .rfl

theorem State.abortPools_keeps : State.Keeps [.pools] s (s.abortPools img) :=
  .each (fun _ _ => State.modPool_keeps) .rfl

theorem State.abortDescs_keeps : State.Keeps [.descs] s (s.abortDescs img) :=
  .each (fun _ _ => State.modDesc_keeps) .rfl

theorem State.abortImage_keeps : State.Keeps [.fw, .clusters] s (s.abortImage img) :=
  .into State.modImage_keeps (by decide) (.each (fun _ _ => .into State.modCluster_keeps (by decide) .rfl) .rfl)

theorem State.abortStep_eq (h : (s.image img).running = true) (cause stream : Nat) :
    State.Keeps [.chans]
      ((((((s.abortUnits img).abortStreams img).abortLanded img).abortPools img).abortDescs img).abortImage img)
      (s.abortStep img cause stream) := by
  rw [State.abortStep, if_pos h]
  exact State.raise_keeps

/-- An aborted unit's list stands at its first entry, idle. -/
theorem State.prog_abortUnits {u : UnitId} (hu : u ∈ s.unitsOf img) :
    (s.abortUnits img).prog u img = (s.prog u img).abort := by
  have hunit (s : State) (u w : UnitId) : (s.abortUnit img u).prog w img = (s.modProg u img Prog.abort).prog w img := by
    cases u <;> rfl
  exact (s.prog_each hunit (fun _ => rfl) _ u).trans (if_pos ⟨u, hu, rfl⟩)

/-- A stream of the image is aborted once, whatever else of the step ends. -/
theorem State.stream_abortLanded (i : Nat) (hi : i ∈ s.streamsOf img) :
    (((s.abortUnits img).abortStreams img).abortLanded img).stream i = (s.stream i).abort s.now i := by
  have hkeep := s.abortUnits_keeps (img := img)
  have hnow : (s.abortUnits img).now = s.now := hkeep .now (by decide)
  have hof : (s.abortUnits img).streamsOf img = s.streamsOf img :=
    congrArg (fun x => (x.filter fun p : Nat × Stream => p.2.img = some img).map (·.1)) (hkeep .streams (by decide))
  have habort : ((s.abortUnits img).abortStreams img).stream i = (s.stream i).abort s.now i := by
    refine (State.stream_each_modStream _ Stream.abort_abort _ i).trans ?_
    rw [hof, if_pos hi, hnow, hkeep.stream_eq (by decide)]
  refine (State.stream_each_modStream _ (f := fun _ _ m => { m with rx := [] }) (fun _ _ _ => rfl) _ i).trans ?_
  rw [habort]
  split <;> rfl

end


/-- The image to whose step a descriptor's contents belong depends on its streams' images alone. -/
theorem State.descImg_congr {s x : State} (h : ∀ i, (x.stream i).img = (s.stream i).img) (w : List Byte) :
    x.descImg w = s.descImg w := by
  simp only [State.descImg, h]

theorem Stream.abort_img (now i : Nat) (m : Stream) : (m.abort now i).img = m.img :=
  (congrArg Stream.img (m.endWaits_eq now) :)

section

variable {s : State} {img : Nat}

theorem State.img_each_modStream {f : Nat → Nat → Stream → Stream} (hf : ∀ n i m, (f n i m).img = m.img)
    (s : State) (is : List Nat) (i : Nat) :
    ((s.each is fun s i => s.modStream i (f s.now i)).stream i).img = (s.stream i).img := by
  induction is generalizing s with
  | nil => rfl
  | cons j is ih =>
    refine (ih (s.modStream j (f s.now j))).trans ?_
    rw [State.modStream_set, State.stream_setStream]
    split
    case isTrue heq => rw [hf, heq]
    case isFalse => rfl

/-- What an abort has done when its descriptors' turn comes. -/
def State.abortedFlow (s : State) (img : Nat) : State :=
  (((s.abortUnits img).abortStreams img).abortLanded img).abortPools img

theorem State.abortedFlow_keeps : State.Keeps [.clusters, .progs, .streams, .pools] s (s.abortedFlow img) :=
  .into State.abortPools_keeps (by decide) (.into State.abortLanded_keeps (by decide)
    (.into State.abortStreams_keeps (by decide) (.into State.abortUnits_keeps (by decide) .rfl)))

theorem State.abortedFlow_descImg (w : List Byte) : (s.abortedFlow img).descImg w = s.descImg w := by
  refine State.descImg_congr (fun i => ?_) w
  rw [State.abortedFlow, State.abortPools_keeps.stream_eq (by decide)]
  refine (State.img_each_modStream (f := fun _ _ m => { m with rx := [] }) (fun _ _ _ => rfl) _ _ i).trans ?_
  refine (State.img_each_modStream Stream.abort_img _ _ i).trans ?_
  rw [State.abortUnits_keeps.stream_eq (by decide)]

theorem State.Keeps.desc_eq {L : List Part} {s x : State} (h : State.Keeps L s x) (hL : Part.descs ∉ L) (e d : Nat) :
    x.desc e d = s.desc e d :=
  congrArg (Tab.get ({} : Desc) · (e * 8192 + d)) (h .descs hL)

theorem State.Keeps.image_eq {L : List Part} {s x : State} (h : State.Keeps L s x) (hL : Part.fw ∉ L) (i : Nat) :
    x.image i = s.image i :=
  congrArg (fun f : Fw => Tab.get ({} : ImgRec) f.images i) (h .fw hL)

/-- A key whose record is not the default one is listed. -/
theorem Tab.mem_of_get {α : Type} {d : α} {m : Tab α} {k : Nat} (h : Tab.get d m k ≠ d) : (k, Tab.get d m k) ∈ m := by
  induction m with
  | nil => exact absurd rfl h
  | cons x m ih =>
    obtain ⟨j, v⟩ := x
    simp only [Tab.get] at h ⊢
    split
    case isTrue heq => exact heq ▸ List.mem_cons_self ..
    case isFalse hne =>
      rw [if_neg hne] at h
      exact List.mem_cons_of_mem _ (ih h)

/-- Every descriptor of the image that is not at rest is aborted. -/
theorem State.desc_abortDescs {e d : Nat} (hd : d < 8192) (himg : s.descImg (s.desc e d).work = some img)
    (hst : s.desc e d ≠ {}) : ((s.abortedFlow img).abortDescs img).desc e d = (s.desc e d).abort := by
  have hkeep := s.abortedFlow_keeps (img := img)
  have hdescs : (s.abortedFlow img).descs = s.descs := hkeep .descs (by decide)
  have hlisted : (e * 8192 + d, s.desc e d) ∈ s.descs := Tab.mem_of_get hst
  have hmem : e * 8192 + d ∈ ((s.abortedFlow img).descs.filter fun x =>
      (s.abortedFlow img).descImg x.2.work = some img).map (·.1) := by
    rw [hdescs]
    refine List.mem_map.2 ⟨_, List.mem_filter.2 ⟨hlisted, ?_⟩, rfl⟩
    exact decide_eq_true ((State.abortedFlow_descImg _).trans himg)
  rw [State.abortDescs, State.desc_each_modDesc _ Desc.abort_abort _ hd, if_pos hmem, hkeep.desc_eq (by decide)]

theorem State.pool_abortedFlow {p : Nat} (hp : p ∈ s.poolsOf img) : (s.abortedFlow img).pool p = (s.pool p).abort := by
  have hkeep : State.Keeps [.clusters, .progs, .streams] s (((s.abortUnits img).abortStreams img).abortLanded img) :=
    .into State.abortLanded_keeps (by decide) (.into State.abortStreams_keeps (by decide)
      (.into State.abortUnits_keeps (by decide) .rfl))
  have hof : (((s.abortUnits img).abortStreams img).abortLanded img).poolsOf img = s.poolsOf img :=
    congrArg (fun x => (x.filter fun p : Nat × Pool => p.2.img = some img).map (·.1)) (hkeep .pools (by decide))
  rw [State.abortedFlow, State.abortPools, State.pool_each_modPool _ Pool.abort_abort, hof, if_pos hp,
    hkeep.pool_eq (by decide)]

theorem Desc.abort_rests {k : Desc} (hempty : k.outstanding = [])
    (hst : k.st = .armed ∨ k.st = .active ∨ k.st = .draining) : k.abort.st = .idle ∧ k.abort.shadow = none := by
  obtain h | h | h := hst <;> simp [Desc.abort, h, hempty]

theorem exec_stepAborted {t : Nat} (himg : img < 256) :
    exec (.stepAborted t img) s = .next (effectStepAborted img (s.tick t)) := if_pos (by simp [himg])

/-- What follows the descriptors in an abort changes firmware's record, reports and clusters only. -/
theorem State.abortStep_keeps_flow (h : (s.image img).running = true) (cause stream : Nat) :
    State.Keeps [.fw, .clusters, .chans] ((s.abortedFlow img).abortDescs img) (s.abortStep img cause stream) :=
  .into (State.abortStep_eq h cause stream) (by decide) (.into State.abortImage_keeps (by decide) .rfl)

theorem State.image_abortImage (s : State) (img : Nat) :
    (s.abortImage img).image img = { s.image img with running := false, abort := none } := by
  have hkeep : State.Keeps [.clusters] s
      (s.each (s.clustersOf img) fun s c => s.modCluster c fun k => { k with idleSince := s.now }) :=
    .each (fun _ _ => State.modCluster_keeps) .rfl
  rw [State.abortImage, State.modImage_set, State.image_setImage, if_pos rfl, hkeep.image_eq (by decide)]

theorem State.image_abortStep (h : (s.image img).running = true) (cause stream : Nat) :
    (s.abortStep img cause stream).image img = { s.image img with running := false, abort := none } := by
  have hend := State.abortStep_eq h cause stream
  rw [hend.image_eq (by decide), State.image_abortImage, State.abortDescs_keeps.image_eq (by decide),
    State.abortPools_keeps.image_eq (by decide), State.abortLanded_keeps.image_eq (by decide),
    State.abortStreams_keeps.image_eq (by decide), State.abortUnits_keeps.image_eq (by decide)]

end

/-- Settles O23: an abort that is due ends every part of the running step, each part once. -/
theorem abortedStepsEnd : Obligations.AbortedStepsEnd := by
  intro s t img himg r
  have hexec := exec_stepAborted (s := s) (t := t) himg
  refine ⟨fun hdue hruns => ?due, fun hno => ?idle⟩
  case idle =>
    refine hexec.trans (congrArg _ ?_)
    unfold effectStepAborted
    split
    case h_1 cause stream hdue =>
      obtain hnone | hidle := hno
      · exact absurd (hdue.symm.trans hnone) (by simp)
      · exact if_neg (Bool.eq_false_iff.1 hidle)
    case h_2 => rfl
  case due =>
    obtain ⟨⟨cause, stream⟩, hcause⟩ := Option.ne_none_iff_exists'.1 hdue
    have hdo : effectStepAborted img (s.tick t) = (s.tick t).abortStep img cause stream := by
      have hcause : ((s.tick t).image img).abort = some (cause, stream) := hcause
      simp only [effectStepAborted, hcause]
    have hkeep := exec_next hexec
    have hflow := State.abortStep_keeps_flow (s := s.tick t) hruns cause stream
    rw [hdo] at hexec hkeep
    refine ⟨_, hexec, State.image_abortStep (s := s.tick t) hruns cause stream, hkeep .hbm (by simp [touches]),
      hkeep .sram (by simp [touches]), fun i hi => ?stream, fun p hp => ?pool, fun e d hd himg hempty hst => ?desc,
      fun u hu => ?prog⟩
    case stream =>
      have hstream : ((s.tick t).abortStep img cause stream).stream i = (s.stream i).abort (max s.now t) i := by
        rw [hflow.stream_eq (by decide), State.abortDescs_keeps.stream_eq (by decide), State.abortedFlow,
          State.abortPools_keeps.stream_eq (by decide)]
        exact State.stream_abortLanded (s := s.tick t) i hi
      have hwait : ((s.stream i).abort (max s.now t) i).wait = none := ((s.stream i).rests_endWaits _).wait
      rw [hstream]
      refine ⟨rfl, hwait, rfl, rfl, fun c hc => ?_⟩
      obtain ⟨d, -, rfl⟩ := List.mem_map.1 hc
      exact ⟨rfl, rfl, rfl⟩
    case pool =>
      have hpool : ((s.tick t).abortStep img cause stream).pool p = (s.pool p).abort := by
        rw [hflow.pool_eq (by decide), State.abortDescs_keeps.pool_eq (by decide)]
        exact State.pool_abortedFlow (s := s.tick t) hp
      rw [hpool]
      exact ⟨rfl, rfl, rfl⟩
    case desc =>
      have hactive : s.desc e d ≠ {} := fun h => by rw [h] at hst; simp at hst
      have hdesc : ((s.tick t).abortStep img cause stream).desc e d = (s.desc e d).abort := by
        rw [hflow.desc_eq (by decide)]
        exact State.desc_abortDescs (s := s.tick t) hd himg hactive
      rw [hdesc]
      exact Desc.abort_rests hempty hst
    case prog =>
      have hafter : State.Keeps [.streams, .pools] ((s.tick t).abortUnits img) ((s.tick t).abortedFlow img) :=
        .into State.abortPools_keeps (by decide) (.into State.abortLanded_keeps (by decide)
          (.into State.abortStreams_keeps (by decide) .rfl))
      have hprog : ((s.tick t).abortStep img cause stream).prog u img = (s.prog u img).abort := by
        rw [hflow.prog_eq (by decide), State.abortDescs_keeps.prog_eq (by decide), hafter.prog_eq (by decide)]
        exact State.prog_abortUnits (s := s.tick t) hu
      rw [hprog]
      exact ⟨rfl, rfl⟩

/-! ### MODEL_STEP_START (R178) -/

section

variable {s : State} {t img : Nat}

theorem exec_modelStepStart (himg : img < 256) (n : Nat) :
    exec (.modelStepStart t img n) s = .next ((s.tick t).startSteps img n) := if_pos (by simp [himg])

/-- An image that cannot start stays as it is, however often it is asked to. -/
theorem State.startSteps_refused (h : (s.image img).placed = none ∨ (s.image img).waiting = true ∨ s.jobInReset img = true)
    (n : Nat) : s.startSteps img n = s := by
  have hone : s.startStep img = s := if_pos (by obtain h | h | h := h <;> simp [h])
  induction n with
  | zero => rfl
  | succ n ih => rw [State.startSteps, hone, ih]

theorem State.dropStart_eq (s : State) (img : Nat) :
    s.dropStart img = (s.modImage img fun r => { r with overrun := r.overrun + 1 }).raise 0x8005
      (layBytes 8 [(0, toLe 1 img), (4, toLe 4 (((s.image img).overrun + 1).toNat))]) := by
  simp only [State.dropStart, State.modImage_set, State.image_setImage, if_true]

/-- Units, streams and resets of a placed job depend on its image's placement. -/
theorem State.unitsOf_congr {x : State} (himage : (x.image img).img = (s.image img).img)
    (hplaced : (x.image img).placed = (s.image img).placed) : x.unitsOf img = s.unitsOf img := by
  simp only [State.unitsOf, State.clustersOf, himage, hplaced]

theorem Consumer.start_start (chain : Bool) (c : Consumer) : (c.start chain).start chain = c.start chain := rfl

theorem Stream.start_start (m : Stream) : m.start.start = m.start := by
  simp only [Stream.start, List.map_map]
  rfl

section

variable (hplaced : (s.image img).placed ≠ none) (hwait : (s.image img).waiting = false)
  (hreset : s.jobInReset img = false)

include hplaced hwait hreset

theorem State.mayStart : ((s.image img).placed.isNone || (s.image img).waiting || s.jobInReset img) = false := by
  simp [hwait, hreset, Option.isSome_iff_ne_none.2 hplaced]

theorem State.startStep_running (hruns : (s.image img).running = true) : s.startStep img = s.dropStart img := by
  have hmay := State.mayStart hplaced hwait hreset
  simp only [State.startStep, hmay, hruns, Bool.false_eq_true, if_false, if_true]

variable (hidle : (s.image img).running = false)

include hidle

theorem State.image_startStep : (s.startStep img).image img = (s.image img).begins s.now := by
  have hbegins := State.startStep_begins (Option.isSome_iff_ne_none.2 hplaced) hwait hreset hidle
  rw [hbegins.image_eq (by decide), State.modImage_set, State.image_setImage, if_pos rfl]

/-- The streams of a step that starts, and then its lists. -/
theorem State.startStep_eq : s.startStep img = ((s.modImage img (ImgRec.begins s.now)).each (s.streamsOf img)
      fun s i => s.modStream i Stream.start).each (s.unitsOf img) fun s u => s.modProg u img Prog.start := by
  have hmay := State.mayStart hplaced hwait hreset
  let y := (s.modImage img (ImgRec.begins s.now)).each (s.streamsOf img) fun s i => s.modStream i Stream.start
  have hkeep : State.Keeps [.streams] (s.modImage img (ImgRec.begins s.now)) y := .each (fun _ _ => State.modStream_keeps) .rfl
  have himage : y.image img = (s.image img).begins s.now := by
    rw [hkeep.image_eq (by decide), State.modImage_set, State.image_setImage, if_pos rfl]
  have hunits : y.unitsOf img = s.unitsOf img := State.unitsOf_congr (by rw [himage]; rfl) (by rw [himage]; rfl)
  have hstart : s.startStep img = y.each (y.unitsOf img) fun s u => s.modProg u img Prog.start := by
    simp only [State.startStep, hmay, hidle, Bool.false_eq_true, if_false]
    rfl
  rw [hstart, hunits]

theorem State.stream_startStep {i : Nat} (hi : i ∈ s.streamsOf img) : (s.startStep img).stream i = (s.stream i).start := by
  have hlists (y : State) : State.Keeps [.progs] y (y.each (s.unitsOf img) fun s u => s.modProg u img Prog.start) :=
    .each (fun _ _ => State.modProg_keeps) .rfl
  rw [State.startStep_eq hplaced hwait hreset hidle, (hlists _).stream_eq (by decide)]
  exact (State.stream_each_modStream _ (f := fun _ _ => Stream.start) (fun _ _ => Stream.start_start) _ i).trans (if_pos hi)

theorem State.prog_startStep {u : UnitId} (hu : u ∈ s.unitsOf img) :
    (s.startStep img).prog u img = (s.prog u img).start := by
  have hstreams : State.Keeps [.fw, .streams] s ((s.modImage img (ImgRec.begins s.now)).each (s.streamsOf img)
      fun s i => s.modStream i Stream.start) :=
    .each (fun _ _ => .into State.modStream_keeps (by decide) .rfl) (.into State.modImage_keeps (by decide) .rfl)
  rw [State.startStep_eq hplaced hwait hreset hidle, State.prog_each _ (f := Prog.start) (fun _ _ _ => rfl)
    (fun _ => rfl), if_pos ⟨u, hu, rfl⟩, hstreams.prog_eq (by decide)]

/-- A second start finds the step running. -/
theorem State.startStep_startStep : (s.startStep img).startStep img = (s.startStep img).dropStart img := by
  have himage := State.image_startStep hplaced hwait hreset hidle
  have hbegins := State.startStep_begins (Option.isSome_iff_ne_none.2 hplaced) hwait hreset hidle
  have hunits : (s.startStep img).unitsOf img = s.unitsOf img :=
    State.unitsOf_congr (by rw [himage]; rfl) (by rw [himage]; rfl)
  have hreset' : (s.startStep img).jobInReset img = false := by
    have hquarter (u : UnitId) : (s.startStep img).unitInReset u = s.unitInReset u := by
      rw [State.unitInReset, hbegins .aon (by decide)]
      rfl
    rw [State.jobInReset, hunits, funext hquarter]
    exact hreset
  exact State.startStep_running (by rw [himage]; exact hplaced) (by rw [himage]; exact hwait) hreset' (by rw [himage]; rfl)

end

end

/-- Settles O24: the first start of an image at rest starts every part of its step; any further one is dropped. -/
theorem startsOfAModelStep : Obligations.StartsOfAModelStep := by
  intro s t img himg r v drop
  have hdrop (x : State) (hx : (x.image img).overrun = r.overrun) : x.dropStart img = drop x := by
    rw [State.dropStart_eq, hx]
  refine ⟨exec_modelStepStart himg 0, fun n hno => ?refused, fun hplaced hwait hreset hruns => ?running,
    fun hplaced hwait hreset hidle => ?starts⟩
  case refused => exact (exec_modelStepStart himg n).trans (congrArg _ (State.startSteps_refused (s := v) hno n))
  case running =>
    refine (exec_modelStepStart himg 1).trans (congrArg _ ?_)
    exact (State.startStep_running (s := v) hplaced hwait hreset hruns).trans (hdrop v rfl)
  case starts =>
    have himage := State.image_startStep (s := v) hplaced hwait hreset hidle
    refine ⟨v.startStep img, exec_modelStepStart himg 1, himage,
      fun u hu => State.prog_startStep (s := v) hplaced hwait hreset hidle hu, fun i hi => ?stream, ?second⟩
    case stream =>
      rw [State.stream_startStep (s := v) hplaced hwait hreset hidle hi]
      exact ⟨rfl, rfl, rfl, rfl⟩
    case second =>
      refine (exec_modelStepStart himg 2).trans (congrArg _ ?_)
      refine (State.startStep_startStep (s := v) hplaced hwait hreset hidle).trans (hdrop _ ?_)
      rw [himage]
      rfl

end Sys2Proof.Machine
end

section
/-! Tokens, credits and handles that return, and stalls that are reported (R142, R143, R148, R152 to R154, R160, R167 to R172). -/

namespace Sys2Proof.Machine

/-! ### TOKEN_INVALID, CREDIT_RETURN, HANDLE_FREE -/

section

variable {now : Nat} {u : UnitId} {m : Stream}

theorem Stream.creditReturn_owing {c : Consumer} (hedge : m.edge u = some c) (howed : 0 < c.owed) :
    m.creditReturn now u = { m with
      lastCredited := c.owedSeq
      consumers := m.consumers.map fun d =>
        if d.unit = u then
          { d with credits := min (d.credits + min c.owed 64) d.c, owed := d.owed - min c.owed 64
                   creditAt := if d.credits = 0 then now else d.creditAt }
        else d } := by
  simp only [Stream.creditReturn, hedge, if_neg (Nat.ne_of_gt howed)]

theorem Stream.creditReturn_quiet (h : ∀ c, m.edge u = some c → c.owed = 0) : m.creditReturn now u = m := by
  unfold Stream.creditReturn
  split
  case h_1 => rfl
  case h_2 c hedge => exact if_pos (h c hedge)

end

/-- Settles O20: each row acts on its own record, by the token's type and by what the edge owes. -/
theorem tokensCreditsAndHandlesReturn : Obligations.TokensCreditsAndHandlesReturn := by
  intro s t i u hi hu v m
  have htoken (tok : Dword) : exec (.tokenInvalid t u tok) s = .next (effectTokenInvalid u tok v) := if_pos hu
  have hcredit : exec (.creditReturn t i u) s = .next (v.modStream i (Stream.creditReturn v.now u)) :=
    if_pos (by simp [hi, hu])
  have hstream : (v.modStream i (Stream.creditReturn v.now u)).stream i = m.creditReturn v.now u :=
    (State.stream_setStream ..).trans (if_pos rfl)
  refine ⟨fun tok h => (htoken tok).trans (congrArg _ (if_pos h)),
    fun tok h => (htoken tok).trans (congrArg _ (if_neg (Nat.not_le.2 h))), fun c hedge howed => ?owing,
    fun hquiet => ⟨_, hcredit, hstream.trans (Stream.creditReturn_quiet hquiet)⟩, if_pos (decide_eq_true hi)⟩
  case owing =>
    refine ⟨_, hcredit, ?_⟩
    dsimp only
    rw [hstream, Stream.creditReturn_owing hedge howed]
    exact ⟨rfl, rfl, rfl, rfl⟩

/-! ### STALL -/

section

variable {s : State} {i : Nat} {w : CreditWait}

theorem State.stallDue_wait (hwait : (s.stream i).wait = some w)
    (hdue : w.expiry ≤ s.now / Config.us ∧ (s.stream i).stalled = false ∧ s.waitMet w = false) :
    s.stallDue i = some (w.expiry, w, false) := by
  obtain ⟨hexpired, hstalled, hmet⟩ := hdue
  simp [State.stallDue, hwait, hexpired, hstalled, hmet]

theorem State.stallDue_guard (hwait : (s.stream i).wait = none) (hguard : (s.stream i).guard = some w)
    (hdue : w.expiry ≤ s.now / Config.us ∧ (s.stream i).guardStalled = false ∧ w.met.any w.inTick = false) :
    s.stallDue i = some (w.expiry, w, true) := by
  obtain ⟨hexpired, hstalled, hmet⟩ := hdue
  simp [State.stallDue, hwait, hguard, hexpired, hstalled, hmet]

theorem State.stallDue_none
    (hwait : ∀ w, (s.stream i).wait = some w →
      ¬(w.expiry ≤ s.now / Config.us ∧ (s.stream i).stalled = false ∧ s.waitMet w = false))
    (hguard : ∀ w, (s.stream i).guard = some w →
      ¬(w.expiry ≤ s.now / Config.us ∧ (s.stream i).guardStalled = false ∧ w.met.any w.inTick = false)) :
    s.stallDue i = none := by
  have hown (w : CreditWait) (h : (s.stream i).wait = some w) :
      (!(s.stream i).stalled && decide (w.expiry ≤ s.now / Config.us) && !s.waitMet w) = false := by
    refine Bool.eq_false_iff.2 fun htrue => hwait w h ?_
    simp only [Bool.and_eq_true, Bool.not_eq_true', decide_eq_true_eq] at htrue
    obtain ⟨⟨hstalled, hexpired⟩, hmet⟩ := htrue
    exact ⟨hexpired, hstalled, hmet⟩
  have hother (w : CreditWait) (h : (s.stream i).guard = some w) :
      (!(s.stream i).guardStalled && decide (w.expiry ≤ s.now / Config.us) && !w.met.any w.inTick) = false := by
    refine Bool.eq_false_iff.2 fun htrue => hguard w h ?_
    simp only [Bool.and_eq_true, Bool.not_eq_true', decide_eq_true_eq] at htrue
    obtain ⟨⟨hstalled, hexpired⟩, hmet⟩ := htrue
    exact ⟨hexpired, hstalled, hmet⟩
  cases hw : (s.stream i).wait with
  | none =>
    cases hg : (s.stream i).guard with
    | none => simp [State.stallDue, hw, hg]
    | some w => simp [State.stallDue, hw, hg, hother w hg]
  | some x =>
    cases hg : (s.stream i).guard with
    | none => simp [State.stallDue, hw, hg, hown x hw]
    | some w => simp [State.stallDue, hw, hg, hown x hw, hother w hg]

/-- A stall of stream i reported: its event, the marks and the count of its record. -/
def State.reportStall (s : State) (i : Nat) (lack : List (Nat × UnitId × Nat) × List Nat) (guarded : Bool) : State :=
  (s.raise 0x8002 (layBytes 12
    [(0, toLe 2 i), (2, [if !guarded && lack.1.isEmpty then 1 else 0]), (4, stallNames lack guarded)])).modStream i fun m =>
      { m with stalled := m.stalled || !guarded, guardStalled := m.guardStalled || guarded, stalls := satInc m.stalls }

theorem State.reportStall_img (lack : List (Nat × UnitId × Nat) × List Nat) (guarded : Bool) :
    ((s.reportStall i lack guarded).stream i).img = (s.stream i).img := by
  rw [State.reportStall, State.modStream_set, State.stream_setStream, if_pos rfl]
  exact (congrArg Stream.img (State.raise_keeps.stream_eq (by decide) i) :)

section

variable {k : Nat} {guarded : Bool} (hdue : s.withArrivals.stallDue i = some (k, w, guarded))

include hdue

theorem effectStall_lower (hlower : ∃ p ∈ s.streams, p.1 < i ∧ (s.withArrivals.stallDue p.1).map (·.1) = some k) :
    effectStall i s = s := by
  have hany : (s.streams.any fun p => p.1 < i && (s.withArrivals.stallDue p.1).map (·.1) = some k) = true := by
    simpa using hlower
  simp only [effectStall, hdue, hany, if_true]

theorem effectStall_reports (hlower : ¬∃ p ∈ s.streams, p.1 < i ∧ (s.withArrivals.stallDue p.1).map (·.1) = some k) :
    let x := s.reportStall i (s.withArrivals.stillLacks w) guarded
    ((s.stream i).img = none → effectStall i s = x) ∧
      ∀ img, (s.stream i).img = some img → effectStall i s = x.markAbort img 1 i := by
  intro x
  have hany : (s.streams.any fun p => p.1 < i && (s.withArrivals.stallDue p.1).map (·.1) = some k) = false := by
    rw [Bool.eq_false_iff]
    simpa using hlower
  have himg : (x.stream i).img = (s.stream i).img := State.reportStall_img ..
  have heffect : effectStall i s = match (x.stream i).img with | some img => x.markAbort img 1 i | none => x := by
    simp only [effectStall, hdue, hany, Bool.false_eq_true, if_false]
    rfl
  rw [heffect, himg]
  exact ⟨fun h => by rw [h], fun img h => by rw [h]⟩

end

end

/-- Settles O22: a stall is due by its own wait or by its guarded one, and is reported unless a lower stream's is due too. -/
theorem stallsAreReportedOnce : Obligations.StallsAreReportedOnce := by
  intro s t i hi v a m expired due dueGuard lower said
  have hexec : exec (.stall t i) s = .next (effectStall i v) := if_pos (decide_eq_true hi)
  rw [hexec]
  refine ⟨fun w hwait hdue hlower => ?wait, fun w hwait hguard hdue hlower => ?guard,
    fun w hwait hdue hlower => congrArg _ (effectStall_lower (State.stallDue_wait hwait hdue) hlower),
    fun hwait hguard => congrArg _ ?none⟩
  case wait =>
    obtain ⟨hfree, hplaced⟩ := effectStall_reports (State.stallDue_wait hwait hdue) hlower
    exact ⟨fun h => congrArg _ (hfree h), fun img h => congrArg _ (hplaced img h)⟩
  case guard =>
    obtain ⟨hfree, hplaced⟩ := effectStall_reports (State.stallDue_guard hwait hguard hdue) hlower
    exact ⟨fun h => congrArg _ (hfree h), fun img h => congrArg _ (hplaced img h)⟩
  case none =>
    have hnone : v.withArrivals.stallDue i = none := State.stallDue_none hwait hguard
    simp only [effectStall, hnone]

end Sys2Proof.Machine
end

section
/-! FENCE, SEND and XFER at their operation (R156, R157, R161, R162, R167, R183, R208, R225, R227, R403, R404, R407). -/

namespace Sys2Proof.Machine

/-! ### FENCE (R161, R162) -/

theorem State.Keeps.nextTurn_eq {L : List Part} {s x : State} (h : State.Keeps L s x) (hL : Part.progs ∉ L) (u : UnitId)
    (img : Nat) : x.nextTurn u img = s.nextTurn u img := by
  simp only [State.nextTurn, State.listsOf, h.prog_eq hL, show x.progs = s.progs from h .progs hL]

/-- The group's fences taken at the inputs and sent on the outputs, which then read fencing. -/
def State.fencesPassed (s : State) (u : UnitId) (grp : List UnitId) (ins outs : List Nat) : State :=
  ((s.each ins fun s i => s.takeHead u i).each outs fun s o => s.sendFence u grp o).each outs fun s o =>
    s.modStream o fun m => { m.endWait s.now with hq := 6 }

theorem State.fencesPassed_keeps {s : State} {u : UnitId} {grp : List UnitId} {ins outs : List Nat} :
    State.Keeps [.streams] s (s.fencesPassed u grp ins outs) :=
  .each (fun _ _ => State.modStream_keeps) (.each (fun _ _ => State.sendFence_keeps)
    (.each (fun _ _ => State.takeHead_keeps) .rfl))

section

variable {s : State} {t : Nat} {u : UnitId} {img g : Nat}

/-- What FENCE does at group g. -/
def State.takeFence (s : State) (u : UnitId) (img g : Nat) : State :=
  let grp := s.groupOf img g
  let ins := s.groupInputs img grp u
  let outs := s.fenceOutputs img grp u
  if (s.prog u img).drained = some g then s
  else if !s.layerDone u img then s
  else if !(ins.all fun i => s.fenceAt i u) then s.markAll outs .input
  else if !(outs.all fun o => (s.stream o).hasCredit ((s.stream o).fencePays u grp)) then
    s.markAll outs .credit (s.owing outs fun o => (s.stream o).fencePays u grp)
  else
    let x := s.fencesPassed u grp ins outs
    x.modProg u img fun p => { p with drained := some g, fired := x.nextTurn u img }

theorem exec_fence (h : s.stands t u img opFence = true) :
    exec (.fence t u img) s = .next ((s.tick t).takeFence u img (field (s.prog u img).op 8 12)) :=
  act_of_stands h _

theorem State.takeFence_drained (h : (s.prog u img).drained = some g) : s.takeFence u img g = s := if_pos h

variable (hopen : (s.prog u img).drained ≠ some g)

include hopen

theorem State.takeFence_works (h : s.layerDone u img = false) : s.takeFence u img g = s := by
  simp only [State.takeFence, hopen, h, if_false, Bool.not_false, if_true]

variable (hdone : s.layerDone u img = true)

include hdone

theorem State.takeFence_input (h : ((s.groupInputs img (s.groupOf img g) u).all fun i => s.fenceAt i u) = false) :
    s.takeFence u img g = s.markAll (s.fenceOutputs img (s.groupOf img g) u) .input := by
  simp only [State.takeFence, hopen, hdone, h, if_false, Bool.not_true, Bool.false_eq_true, Bool.not_false, if_true]

variable (hins : ((s.groupInputs img (s.groupOf img g) u).all fun i => s.fenceAt i u) = true)

include hins

theorem State.takeFence_credit (h : ((s.fenceOutputs img (s.groupOf img g) u).all fun o =>
      (s.stream o).hasCredit ((s.stream o).fencePays u (s.groupOf img g))) = false) :
    s.takeFence u img g = s.markAll (s.fenceOutputs img (s.groupOf img g) u) .credit
      (s.owing (s.fenceOutputs img (s.groupOf img g) u) fun o => (s.stream o).fencePays u (s.groupOf img g)) := by
  simp only [State.takeFence, hopen, hdone, hins, h, if_false, Bool.not_true, Bool.false_eq_true, Bool.not_false, if_true]

theorem State.takeFence_passes (h : ((s.fenceOutputs img (s.groupOf img g) u).all fun o =>
      (s.stream o).hasCredit ((s.stream o).fencePays u (s.groupOf img g))) = true) :
    s.takeFence u img g =
      (s.fencesPassed u (s.groupOf img g) (s.groupInputs img (s.groupOf img g) u)
        (s.fenceOutputs img (s.groupOf img g) u)).modProg u img
          fun p => { p with drained := some g, fired := s.nextTurn u img } := by
  simp only [State.takeFence, hopen, hdone, hins, h, if_false, Bool.not_true, Bool.false_eq_true]
  rw [State.fencesPassed_keeps.nextTurn_eq (by decide)]

end

/-- Settles O13: FENCE acts by the first of its conditions that fails, or passes its fences on. -/
theorem fencePassesThroughAUnit : Obligations.FencePassesThroughAUnit := by
  intro s t u img g v grp ins outs fences credits hstands
  have hexec : exec (.fence t u img) s = .next (v.takeFence u img g) := exec_fence hstands
  rw [hexec]
  exact ⟨fun hdrained => congrArg _ (State.takeFence_drained (s := v) hdrained), fun hopen =>
    ⟨fun hwork => congrArg _ (State.takeFence_works (s := v) hopen hwork),
      fun hdone hins => congrArg _ (State.takeFence_input (s := v) hopen hdone hins),
      fun hdone hins hout => congrArg _ (State.takeFence_credit (s := v) hopen hdone hins hout),
      fun hdone hins hout => congrArg _ (State.takeFence_passes (s := v) hopen hdone hins hout)⟩⟩

/-! ### SEND (R208, R403, R407) -/

section

variable {s : State} {t : Nat} {u : UnitId} {img i : Nat} {tok : Dword} {o : Dword}

/-- Packets join the end of a link's queue. -/
def Link.enqueue (ps : List LinkPacket) (l : Link) : Link := { l with queue := l.queue ++ ps }

/-- What SEND at operation o does with the token at its input. -/
def State.sendTok (s : State) (u : UnitId) (img : Nat) (o tok : Dword) : State :=
  let i := field o 8 12
  if tokType tok = tyError then s.sendDone u img i tok
  else
    match s.routeLink (field o 20 16) with
    | none => s.modStream i (Stream.startGuard s.now)
    | some n =>
      if (s.link n).st ≠ 2 then s.sendDone u img i tok
      else if (s.link n).credits = 0 then
        (s.modStream i (Stream.startGuard s.now)).modLink n fun l =>
          { l with timer := if l.waits (!(s.sendsOver n).isEmpty) then some (l.timer.getD s.now) else some s.now }
      else
        (s.modLink n (Link.enqueue ((s.pairsOf i tok).flatMap
          (pairPackets s.linkMod.portAddr.toNat (field o 20 16) (field o 36 12))))).sendDone u img i tok

theorem exec_send (h : s.stands t u img opSend = true)
    (htok : (s.tick t).dataAt (field (s.prog u img).op 8 12) u = some tok) :
    exec (.send t u img) s = .next ((s.tick t).sendTok u img (s.prog u img).op tok) := by
  refine (act_of_stands h _).trans (congrArg _ ?_)
  simp only [htok]
  rfl

theorem State.sendTok_error (h : tokType tok = tyError) : s.sendTok u img o tok = s.sendDone u img (field o 8 12) tok :=
  if_pos h

variable (hdata : tokType tok ≠ tyError)

include hdata

theorem State.sendTok_unrouted (h : s.routeLink (field o 20 16) = none) :
    s.sendTok u img o tok = s.modStream (field o 8 12) (Stream.startGuard s.now) := by
  simp only [State.sendTok, if_neg hdata, h]

variable {n : Nat} (hroute : s.routeLink (field o 20 16) = some n)

include hroute

theorem State.sendTok_down (h : (s.link n).st ≠ 2) : s.sendTok u img o tok = s.sendDone u img (field o 8 12) tok := by
  simp only [State.sendTok, if_neg hdata, hroute, if_pos h]

variable (hup : (s.link n).st = 2)

include hup

theorem State.sendTok_waits (h : (s.link n).credits = 0) :
    s.sendTok u img o tok = (s.modStream (field o 8 12) (Stream.startGuard s.now)).modLink n fun l =>
      { l with timer := if l.waits (!(s.sendsOver n).isEmpty) then some (l.timer.getD s.now) else some s.now } := by
  simp only [State.sendTok, if_neg hdata, hroute, if_neg (not_not.2 hup), if_pos h]

theorem State.sendTok_sends (h : (s.link n).credits ≠ 0) :
    s.sendTok u img o tok = (s.modLink n (Link.enqueue ((s.pairsOf (field o 8 12) tok).flatMap
      (pairPackets s.linkMod.portAddr.toNat (field o 20 16) (field o 36 12))))).sendDone u img (field o 8 12) tok := by
  simp only [State.sendTok, if_neg hdata, hroute, if_neg (not_not.2 hup), if_neg h]

end

/-- Settles O14: SEND acts by its token, its route and the link that the route names. -/
theorem sendHandsPairsToItsLink : Obligations.SendHandsPairsToItsLink := by
  intro s t u img tok o i dest v gone pairs now waits hstands htok
  rw [exec_send hstands htok]
  exact ⟨fun herror => congrArg _ (State.sendTok_error herror),
    fun hdata hroute => congrArg _ (State.sendTok_unrouted (s := v) hdata hroute),
    fun n hdata hroute => ⟨fun hdown => congrArg _ (State.sendTok_down (s := v) hdata hroute hdown),
      fun hup hcredit => congrArg _ (State.sendTok_waits (s := v) hdata hroute hup hcredit),
      fun hup hcredit => congrArg _ (State.sendTok_sends (s := v) hdata hroute hup hcredit)⟩⟩

/-! ### XFER (R208, R225 to R227) -/

/-- An arm is taken unless the descriptor is in ERROR, or its shadow is full and firmware's arm did not come in this cycle. -/
theorem Desc.xferTaken_iff (now : Nat) (k : Desc) : k.xferTaken now = true ↔ k.st ≠ .error ∧
    ¬((k.st = .armed ∨ k.st = .active ∨ k.st = .draining) ∧ k.shadow.isSome = true ∧ k.fwFirst now = none) := by
  have hshadow : k.shadow.isNone = !k.shadow.isSome := by cases k.shadow <;> rfl
  have hfirst : (k.fwFirst now).isSome = true ↔ k.fwFirst now ≠ none := Option.isSome_iff_ne_none
  cases hst : k.st <;> cases hs : k.shadow.isSome <;> simp [Desc.xferTaken, hst, hs, hshadow, hfirst]

section

variable {s : State} {t e img : Nat} (h : s.stands t (.engine e) img opXfer = true)

include h

theorem exec_xfer_refused :
    let u := UnitId.engine e
    let d := field (s.prog u img).op 8 13
    (s.desc e d).xferTaken (max s.now t) = false →
      exec (.xfer t u img) s = .next (((s.tick t).xferArm e d img).finish u img (max s.now t)) := by
  intro u d hno
  refine (act_of_stands h _).trans (congrArg _ ?_)
  exact congrArg (fun x : State => (x.xferArm e d img).finish u img x.now) (if_neg (Bool.eq_false_iff.1 hno))

theorem exec_xfer_taken :
    let u := UnitId.engine e
    let d := field (s.prog u img).op 8 13
    (s.desc e d).xferTaken (max s.now t) = true →
      exec (.xfer t u img) s = .next ((((s.tick t).modProg u img fun p => { p with armed := p.armed ++ [d] }).xferArm
        e d img).finish u img (max s.now t)) := by
  intro u d htaken
  refine (act_of_stands h _).trans (congrArg _ ?_)
  exact congrArg (fun x : State => (x.xferArm e d img).finish u img x.now) (if_pos htaken)

end

/-- Settles O16: the image waits for its descriptor where its arm is taken. -/
theorem xferArmsItsDescriptor : Obligations.XferArmsItsDescriptor := by
  intro s t e img u d k busy ignored hstands
  have htaken := k.xferTaken_iff (max s.now t)
  refine ⟨fun hno => exec_xfer_refused hstands (Bool.eq_false_iff.2 fun h => ?_),
    fun hgood hkept => exec_xfer_taken hstands (htaken.2 ⟨hgood, hkept⟩)⟩
  obtain ⟨hgood, hkept⟩ := htaken.1 h
  exact hno.elim hgood hkept

end Sys2Proof.Machine
end

section
/-! Transfers and completion tokens: what the end of a transfer leaves of its stack's meters, its descriptor and memory, and what
a completion token leaves of its stream (R171, R213, R214, R217, R219, R221 to R223, R225, R227 to R229, R460). -/

namespace Sys2Proof.Machine

/-! ### Latency and byte counts (R217, R235) -/

/-- Two states count the same units and the same greatest latency at every stack. -/
structure State.SameMeters (s s' : State) : Prop where
  units : ∀ e, (s'.stack e).units = (s.stack e).units
  maxLat : ∀ e, (s'.stack e).maxLat = (s.stack e).maxLat

namespace State.SameMeters

variable {s x y : State}

theorem rfl : s.SameMeters s := ⟨fun _ => Eq.refl _, fun _ => Eq.refl _⟩

theorem trans (a : s.SameMeters x) (b : x.SameMeters y) : s.SameMeters y :=
  ⟨fun e => (b.units e).trans (a.units e), fun e => (b.maxLat e).trans (a.maxLat e)⟩

theorem keeps {L : List Part} (h : State.Keeps L x y) (hL : Part.hbmStacks ∉ L) (g : s.SameMeters x) : s.SameMeters y := by
  have hstack (e : Nat) : y.stack e = x.stack e := congrArg (Tab.get ({} : Stack) · e) (h .hbmStacks hL)
  exact g.trans ⟨fun e => congrArg Stack.units (hstack e), fun e => congrArg Stack.maxLat (hstack e)⟩

theorem modStack {e : Nat} {f : Stack → Stack} (h : ∀ m, (f m).units = m.units ∧ (f m).maxLat = m.maxLat)
    (g : s.SameMeters x) : s.SameMeters (x.modStack e f) := by
  refine g.trans ⟨fun k => ?_, fun k => ?_⟩
  all_goals
    rw [State.modStack_set, State.stack_setStack]
    split
    case isTrue heq => simp only [heq, h]
    case isFalse => exact Eq.refl _

theorem ite {c : Prop} [Decidable c] (h : c → s.SameMeters x) (h' : ¬ c → s.SameMeters y) :
    s.SameMeters (if c then x else y) := by
  split
  · exact h ‹_›
  · exact h' ‹_›

end State.SameMeters

section

variable (s : State) (e d : Nat)

theorem State.readHbm_sameMeters (a n : Nat) : s.SameMeters (s.readHbm a n) := by
  have hread : (s.draw.modStack (awStack a) fun m => { m with
      corrected := satAdd m.corrected (Config.hbmCorrected s.free (awStack a))
      rowFails := m.rowFails + ((struckLines s.free a n).filter fun l =>
        !s.bad.contains l && Config.rowFails s.free l).length }).SameMeters (s.readHbm a n) := ⟨fun _ => rfl, fun _ => rfl⟩
  refine .trans ?_ hread
  exact .modStack (fun _ => ⟨rfl, rfl⟩) (.keeps State.draw_keeps (by decide) .rfl)

/-- A descriptor in ERROR with a code (R228). -/
def Desc.fail (code : Nat) (k : Desc) : Desc :=
  { k with st := .error, shadow := none, shadowImg := none, lastErr := BitVec.ofNat 4 code, aborted := false
           outstanding := k.outstanding.map fun x => { x with dead := true } }

/-- The descriptor and the stack's record of an error. -/
def State.failed (s : State) (e d code : Nat) : State :=
  (s.setDesc e d ((s.desc e d).fail code)).modStack e fun m =>
    { m with errDesc := BitVec.ofNat 13 d, errCode := BitVec.ofNat 4 code }

theorem State.descError_rest (code : Nat) (w : List Byte) :
    State.Keeps [.fw, .chans] (s.failed e d code) (s.descError e d code w) := by
  have hraised (x : State) (n : Nat) (body : List Byte) : State.Keeps [.fw, .chans] x (x.raise n body) :=
    .into State.raise_keeps (by decide) .rfl
  unfold State.descError
  dsimp only
  split
  case h_1 => exact .ite (fun _ => .into State.markAbort_keeps (by decide) (hraised _ _ _)) fun _ => hraised _ _ _
  case h_2 => exact hraised _ _ _

theorem State.descError_sameMeters (code : Nat) (w : List Byte) : s.SameMeters (s.descError e d code w) :=
  .keeps (State.descError_rest s e d code w) (by decide)
    (.modStack (fun _ => ⟨rfl, rfl⟩) (.keeps State.setDesc_keeps (by decide) .rfl))

theorem State.armWith_sameMeters (w : List Byte) (byImg : Option Nat) : s.SameMeters (s.armWith e d w byImg) := by
  have hset (k : Desc) : s.SameMeters (s.setDesc e d k) := .keeps State.setDesc_keeps (by decide) .rfl
  unfold State.armWith
  dsimp only
  cases (s.desc e d).st with
  | idle | done =>
    dsimp only
    split
    · exact hset _
    · exact (hset _).trans (State.descError_sameMeters ..)
  | armed | active | draining =>
    dsimp only
    split
    · exact .modStack (fun _ => ⟨rfl, rfl⟩) (hset _)
    · split
      · exact hset _
      · split
        · exact hset _
        · exact s.descError_sameMeters ..
  | error => exact .modStack (fun _ => ⟨rfl, rfl⟩) .rfl

theorem State.settleLate_sameMeters : s.SameMeters (s.settleLate e d) := by
  unfold State.settleLate
  split
  case h_1 =>
    split
    · exact (State.SameMeters.keeps State.modDesc_keeps (by decide) .rfl).trans (State.armWith_sameMeters ..)
    · exact .rfl
  case h_2 => exact .rfl

theorem State.takeLate_sameMeters (late : Option LateArm) : s.SameMeters (s.takeLate e d late) := by
  unfold State.takeLate
  split
  case h_1 =>
    split
    · refine (State.SameMeters.keeps State.modDesc_keeps (by decide) ?_).trans (State.armWith_sameMeters ..)
      split
      · exact .rfl
      · exact .modStack (fun _ => ⟨rfl, rfl⟩) .rfl
    · exact .rfl
  case h_2 => exact .rfl

theorem State.endAbort_sameMeters : s.SameMeters (s.endAbort e d) := by
  have hset (k : Desc) : s.SameMeters (s.setDesc e d k) := .keeps State.setDesc_keeps (by decide) .rfl
  unfold State.endAbort
  dsimp only
  split
  · split
    · exact (hset _).trans (State.armWith_sameMeters ..)
    · exact hset _
  · exact .rfl

/-- What a descriptor's end does first: its event, and its image waits no longer (R161, R221). -/
def State.reportDone (s : State) (e d : Nat) : State :=
  (if dControl (s.desc e d).work 0 then
    s.raise 0x8008 (layBytes 6 [(0, toLe 1 e), (2, toLe 2 d), (4, toLe 2 (dId (s.desc e d).work))]) else s).xferDone e d
      (s.desc e d).byImg

theorem State.reportDone_keeps : State.Keeps [.chans, .progs] s (s.reportDone e d) :=
  .into State.xferDone_keeps (by decide) (.ite (fun _ => .into State.raise_keeps (by decide) .rfl) fun _ => .rfl)

/-- A descriptor that is done, with its shadow promoted unless that came in the same cycle (R225, R227). -/
def Desc.promote (fresh : Bool) (shadow : Option (List Byte)) (k : Desc) : Desc :=
  match shadow with
  | some w =>
    if fresh then { k with st := .done, shadow := none, shadowImg := none }
    else { k.latch w k.shadowImg with shadow := none, shadowImg := none }
  | none => { k with st := .done }

/-- A descriptor's end, in its order: report, promotion, the arm of NEXT, the arms of the same cycle (R221, R225, R227). -/
theorem State.descDone_eq :
    let k := s.desc e d
    let fresh := k.shadow.isSome && k.shadowAt = (s.reportDone e d).now / Config.cycle + 1
    let x := (s.reportDone e d).modDesc e d (Desc.promote fresh k.shadow)
    let y := if dControl k.work 3 then x.arm e (dNext k.work) none else x
    s.descDone e d = (if fresh then y.armWith e d (k.shadow.getD []) k.shadowImg else y).takeLate e d k.late := by
  dsimp only
  cases hs : (s.desc e d).shadow with
  | none => simp only [State.descDone, State.reportDone, hs]; rfl
  | some w =>
    by_cases hfresh : (s.desc e d).shadowAt = (s.reportDone e d).now / Config.cycle + 1
    all_goals
      simp only [State.reportDone] at hfresh
      simp only [State.descDone, State.reportDone, hs, hfresh, Option.isSome_some, Bool.true_and,
        decide_true, decide_false, Bool.false_eq_true, if_true, if_false]
      rfl

theorem State.descDone_sameMeters : s.SameMeters (s.descDone e d) := by
  have hreport : s.SameMeters (s.reportDone e d) := .keeps (State.reportDone_keeps s e d) (by decide) .rfl
  have harm (x : State) (b : Bool) (n : Nat) : x.SameMeters (if b then x.arm e n none else x) := by
    split
    · exact State.armWith_sameMeters ..
    · exact .rfl
  have hfresh (x : State) (b : Bool) (w : List Byte) (i : Option Nat) :
      x.SameMeters (if b then x.armWith e d w i else x) := by
    split
    · exact State.armWith_sameMeters ..
    · exact .rfl
  rw [State.descDone_eq]
  exact (((hreport.keeps State.modDesc_keeps (by decide)).trans (harm _ _ _)).trans (hfresh _ _ _ _)).trans
    (State.takeLate_sameMeters ..)

end

/-! ### A transfer that is over (R214, R217, R219) -/

/-- A stack's meters as transfer x is over. -/
def Stack.meter (now : Nat) (x : Flight) (m : Stack) : Stack :=
  { m with maxLat := BitVec.ofNat 16 (max m.maxLat.toNat (min ((now - x.at_) / Config.ns) 0xFFFF))
           units := m.units + BitVec.ofNat 48 (x.size / 64) }

/-- Transfer x is no longer in flight, and is counted. -/
def State.landed (s : State) (e d : Nat) (x : Flight) : State :=
  (s.setDesc e d { s.desc e d with outstanding := (s.desc e d).outstanding.erase x }).modStack e (Stack.meter s.now x)

/-- The bytes of a good transfer move, its tokens go out in order, and after the last one its descriptor is done. -/
def State.deliverFlight (s : State) (e d : Nat) (k : Desc) (x : Flight) : State :=
  let s := (s.moveBytes k.work x.idx x.handle).emptied x
  let s := s.modDesc e d fun k => { k with finished := k.finished ++ [(x.idx, x.handle, true)] }
  let s := s.emitInOrder e d (k.finished.length + 1)
  if (s.desc e d).sent = dTotal k.work && dComp k.work = 0xFFF then s.descDone e d else s

/-- What a transfer's end does once it is counted; where its data lies in HBM, from_ says where. -/
def State.settleFlight (s : State) (e d : Nat) (k : Desc) (x : Flight) (from_ : Option Nat) : State :=
  let s := match from_ with | some a => s.readHbm a x.size | none => s
  if x.dead then (s.discard x).endAbort e d
  else if (match from_ with | some a => s.badIn a x.size | none => false) then (s.discard x).descError e d 4 k.work
  else s.deliverFlight e d k x

section

variable {s : State} {e d i : Nat} {x : Flight}

theorem State.landed_keeps : State.Keeps [.hbmStacks, .descs] s (s.landed e d x) :=
  .into State.modStack_keeps (by decide) (.into State.setDesc_keeps (by decide) .rfl)

theorem State.landed_stack : (s.landed e d x).stack e = (s.stack e).meter s.now x := by
  rw [State.landed, State.modStack_set, State.stack_setStack, if_pos rfl]
  rfl

theorem State.landed_desc :
    (s.landed e d x).desc e d = { s.desc e d with outstanding := (s.desc e d).outstanding.erase x } := by
  rw [State.landed, State.modStack_set, State.desc_setStack, State.desc, State.setDesc, Tab.get_put_same]

theorem State.transferOver_eq (hfind : (s.desc e d).outstanding.find? (fun x => x.idx = i) = some x) :
    s.transferOver e d i = (s.landed e d x).settleFlight e d (s.desc e d) x
      (if x.dead then none else (s.landed e d x).hbmSource (s.desc e d).work x) := by
  rw [State.transferOver]
  dsimp only
  rw [hfind]
  rfl

theorem State.settleFlight_dead {k : Desc} (hdead : x.dead = true) :
    s.settleFlight e d k x none = (s.discard x).endAbort e d := by
  simp only [State.settleFlight, hdead, if_true]

theorem State.settleFlight_bad {k : Desc} {a : Nat} (hlive : x.dead = false)
    (hbad : (s.readHbm a x.size).badIn a x.size = true) :
    s.settleFlight e d k x (some a) = ((s.readHbm a x.size).discard x).descError e d 4 k.work := by
  simp only [State.settleFlight, hlive, hbad, Bool.false_eq_true, if_false, if_true]

theorem State.settleFlight_good {k : Desc} {a : Nat} (hlive : x.dead = false)
    (hgood : (s.readHbm a x.size).badIn a x.size = false) :
    s.settleFlight e d k x (some a) = (s.readHbm a x.size).deliverFlight e d k x := by
  simp only [State.settleFlight, hlive, hgood, Bool.false_eq_true, if_false]

theorem State.settleFlight_elsewhere {k : Desc} (hlive : x.dead = false) :
    s.settleFlight e d k x none = s.deliverFlight e d k x := by
  simp only [State.settleFlight, hlive, Bool.false_eq_true, if_false]

theorem State.hbmSource_memory {w : List Byte} (hsrc : awSpace (dSrc w) ≠ 2) :
    s.hbmSource w x =
      if awSpace (dSrc w) = 0 then some (sideAddr (dSrc w) (dSrcStride w) (dCount w) x.idx) else none := by
  simp [State.hbmSource, hsrc]

theorem State.deliverFlight_memory {k : Desc} :
    State.Keeps [.fw, .chans, .hbmStacks, .descs, .streams, .pools, .progs] (s.moveBytes k.work x.idx x.handle)
      (s.deliverFlight e d k x) := by
  have hsent : State.Keeps [.fw, .chans, .hbmStacks, .descs, .streams, .pools, .progs] (s.moveBytes k.work x.idx x.handle)
      (State.emitInOrder (((s.moveBytes k.work x.idx x.handle).emptied x).modDesc e d fun k =>
        { k with finished := k.finished ++ [(x.idx, x.handle, true)] }) e d (k.finished.length + 1)) :=
    .into State.emitInOrder_keeps (by decide)
      (.into State.modDesc_keeps (by decide) (.into State.emptied_keeps (by decide) .rfl))
  exact .ite (fun _ => .into State.descDone_keeps (by decide) hsent) fun _ => hsent

theorem State.deliverFlight_sameMeters {k : Desc} : s.SameMeters (s.deliverFlight e d k x) := by
  have hsent : s.SameMeters
      (State.emitInOrder (((s.moveBytes k.work x.idx x.handle).emptied x).modDesc e d fun k =>
        { k with finished := k.finished ++ [(x.idx, x.handle, true)] }) e d (k.finished.length + 1)) :=
    .keeps State.emitInOrder_keeps (by decide) (.keeps State.modDesc_keeps (by decide)
      (.keeps State.emptied_keeps (by decide) (.keeps State.moveBytes_keeps (by decide) .rfl)))
  unfold State.deliverFlight
  dsimp only
  split
  · exact hsent.trans (State.descDone_sameMeters ..)
  · exact hsent

theorem State.settleFlight_sameMeters {k : Desc} {from_ : Option Nat} :
    s.SameMeters (s.settleFlight e d k x from_) := by
  have hread : s.SameMeters (match from_ with | some a => s.readHbm a x.size | none => s) := by
    cases from_ with
    | some a => exact State.readHbm_sameMeters ..
    | none => exact .rfl
  refine hread.trans ?_
  unfold State.settleFlight
  dsimp only
  generalize (match from_ with | some a => s.readHbm a x.size | none => s) = y
  have hdiscard : y.SameMeters (y.discard x) := .keeps State.discard_keeps (by decide) .rfl
  exact .ite (fun _ => hdiscard.trans (State.endAbort_sameMeters ..)) fun _ =>
    .ite (fun _ => hdiscard.trans (State.descError_sameMeters ..)) fun _ => State.deliverFlight_sameMeters

end

/-! ### What the end of a transfer leaves (R214, R228) -/

section

variable {s : State} {e d i : Nat} {x : Flight}

theorem State.settleLate_noLate (hlate : (s.desc e d).late = none) : s.settleLate e d = s := by
  simp only [State.settleLate, hlate]

theorem State.desc_modDesc (f : Desc → Desc) : (s.modDesc e d f).desc e d = f (s.desc e d) := by
  rw [State.modDesc, State.desc, State.setDesc, Tab.get_put_same]

/-- A descriptor in ERROR stays there: the arm that came late is refused. -/
theorem State.settleLate_error (hst : (s.desc e d).st = .error) :
    ((s.settleLate e d).desc e d).st = .error ∧ ((s.settleLate e d).desc e d).lastErr = (s.desc e d).lastErr := by
  unfold State.settleLate
  split
  case h_2 => exact ⟨hst, rfl⟩
  case h_1 late _ =>
    split
    case isFalse => exact ⟨hst, rfl⟩
    case isTrue =>
      have hdesc := State.desc_modDesc (s := s) (e := e) (d := d) fun k => { k with late := none }
      have hrefused : (s.modDesc e d fun k => { k with late := none }).armWith e d late.data late.img =
          (s.modDesc e d fun k => { k with late := none }).modStack e fun m =>
            { m with armRefused := satInc m.armRefused } := by
        simp only [State.armWith, hdesc, hst]
      rw [hrefused, State.modStack_set, State.desc_setStack, hdesc]
      exact ⟨hst, rfl⟩

theorem State.descError_desc {code : Nat} {w : List Byte} :
    (s.descError e d code w).desc e d = (s.desc e d).fail code := by
  rw [(State.descError_rest s e d code w).desc_eq (by decide), State.failed, State.modStack_set, State.desc_setStack,
    State.desc, State.setDesc, Tab.get_put_same]

/-- The states between a transfer's end and its settlement (R217, R219, R227). -/
theorem exec_transferComplete {t : Nat} (he : e < 16) (hd : d < 8192)
    (hfind : (s.desc e d).outstanding.find? (fun x => x.idx = i) = some x) :
    let v := s.tick t
    exec (.transferComplete t e d i) s = .next ((((v.landed e d x).settleFlight e d (s.desc e d) x
      (if x.dead then none else (v.landed e d x).hbmSource (s.desc e d).work x))).settleLate e d) := by
  change act (e < 16 && d < 8192) t s _ = _
  rw [act, if_pos (by simp [he, hd]), effectTransferComplete, State.transferOver_eq (s := s.tick t) hfind]
  rfl

section

variable {k : Desc} {from_ : Option Nat}

theorem settled_meters :
    let s' := ((s.landed e d x).settleFlight e d k x from_).settleLate e d
    (s'.stack e).units = ((s.stack e).meter s.now x).units ∧ (s'.stack e).maxLat = ((s.stack e).meter s.now x).maxLat := by
  obtain ⟨hunits, hlat⟩ := (State.settleFlight_sameMeters (s := s.landed e d x) (e := e) (d := d) (x := x) (k := k)
    (from_ := from_)).trans (State.settleLate_sameMeters _ e d)
  rw [← State.landed_stack (e := e) (d := d)]
  exact ⟨hunits e, hlat e⟩

/-- A transfer whose data is discarded (R228, R229). -/
theorem settled_dead (hdead : x.dead = true) :
    State.Keeps [.fw, .chans, .hbmStacks, .descs, .pools] s
      (((s.landed e d x).settleFlight e d k x none).settleLate e d) := by
  rw [State.settleFlight_dead hdead]
  exact .into State.settleLate_keeps (by decide) (.into State.endAbort_keeps (by decide)
    (.into State.discard_keeps (by decide) (.into State.landed_keeps (by decide) .rfl)))

/-- Which lines a read finds bad depends on the draw and on the lines marked before (R214). -/
theorem State.readHbm_badIn {x y : State} (hfree : y.free = x.free) (hbad : y.bad = x.bad) (a n : Nat) :
    (y.readHbm a n).badIn a n = (x.readHbm a n).badIn a n := by
  have hmarked (z : State) : (z.readHbm a n).bad =
      (struckLines z.free a n).foldl (fun b l => insertRising l b) z.bad := rfl
  rw [State.badIn, State.badIn, hmarked, hmarked, hfree, hbad]

/-- A transfer whose source line is bad (R214, R228). -/
theorem settled_bad {a : Nat} (hlive : x.dead = false) (hbad : (s.readHbm a x.size).badIn a x.size = true) :
    let s' := ((s.landed e d x).settleFlight e d (s.desc e d) x (some a)).settleLate e d
    s'.hbm = s.hbm ∧ s'.sram = s.sram ∧ (s'.desc e d).st = .error ∧ (s'.desc e d).lastErr = BitVec.ofNat 4 4 ∧
      ((s.desc e d).late = none →
        s'.desc e d = Desc.fail 4 { s.desc e d with outstanding := (s.desc e d).outstanding.erase x }) := by
  have hread : State.Keeps [.free, .bad, .hbmStacks, .pools] (s.landed e d x)
      (((s.landed e d x).readHbm a x.size).discard x) :=
    .into State.discard_keeps (by decide) (.into State.readHbm_keeps (by decide) .rfl)
  have hdesc : ((((s.landed e d x).readHbm a x.size).discard x).descError e d 4 (s.desc e d).work).desc e d =
      Desc.fail 4 { s.desc e d with outstanding := (s.desc e d).outstanding.erase x } := by
    rw [State.descError_desc, hread.desc_eq (by decide), State.landed_desc]
  have hkeep : State.Keeps [.free, .bad, .fw, .chans, .hbmStacks, .descs, .pools] s
      (((((s.landed e d x).readHbm a x.size).discard x).descError e d 4 (s.desc e d).work).settleLate e d) :=
    .into State.settleLate_keeps (by decide) (.into State.descError_keeps (by decide)
      (.into State.discard_keeps (by decide) (.into State.readHbm_keeps (by decide)
        (.into State.landed_keeps (by decide) .rfl))))
  dsimp only
  have hbad' : ((s.landed e d x).readHbm a x.size).badIn a x.size = true := (State.readHbm_badIn
    (State.landed_keeps .free (by decide)) (State.landed_keeps .bad (by decide)) a x.size).trans hbad
  rw [State.settleFlight_bad hlive hbad']
  obtain ⟨hst, hcode⟩ := State.settleLate_error (congrArg Desc.st hdesc)
  refine ⟨hkeep .hbm (by decide), hkeep .sram (by decide), hst, hcode.trans (congrArg Desc.lastErr hdesc), fun hlate => ?_⟩
  rw [State.settleLate_noLate ((congrArg Desc.late hdesc).trans hlate), hdesc]

/-- The memory that a good transfer between memories leaves (R213, R217). -/
theorem settled_good {y : State} (hy : State.Keeps [.free, .bad, .hbmStacks, .descs] s y)
    (hsrc : awSpace (dSrc k.work) ≠ 2) (hdst : awSpace (dDst k.work) ≠ 2) :
    let w := k.work
    let z := s.sideWrite (dDst w) (sideAddr (dDst w) (dDstStride w) (dCount w) x.idx)
      (s.sideRead (dSrc w) (sideAddr (dSrc w) (dSrcStride w) (dCount w) x.idx) (dSize w))
    ((y.deliverFlight e d k x).settleLate e d).hbm = z.hbm ∧ ((y.deliverFlight e d k x).settleLate e d).sram = z.sram := by
  have hkeep : State.Keeps [.fw, .chans, .hbmStacks, .descs, .streams, .pools, .progs]
      (y.moveBytes k.work x.idx x.handle) ((y.deliverFlight e d k x).settleLate e d) :=
    .into State.settleLate_keeps (by decide) State.deliverFlight_memory
  have hhbm : y.hbm = s.hbm := hy .hbm (by decide)
  have hsram : y.sram = s.sram := hy .sram (by decide)
  have hbytes (a n : Nat) : y.sideRead (dSrc k.work) a n = s.sideRead (dSrc k.work) a n := by
    rw [State.sideRead, State.sideRead, hhbm, hsram]
  have hwrite (a b : Nat) (bs : List Byte) :
      (y.sideWrite a b bs).hbm = (s.sideWrite a b bs).hbm ∧ (y.sideWrite a b bs).sram = (s.sideWrite a b bs).sram := by
    unfold State.sideWrite
    split
    · exact ⟨by rw [State.writeHbm, State.writeHbm, hhbm], hsram⟩
    · exact ⟨hhbm, congrArg (Memory.write · _ _) hsram⟩
  have hmoved : y.moveBytes k.work x.idx x.handle =
      y.sideWrite (dDst k.work) (sideAddr (dDst k.work) (dDstStride k.work) (dCount k.work) x.idx)
        (s.sideRead (dSrc k.work) (sideAddr (dSrc k.work) (dSrcStride k.work) (dCount k.work) x.idx) (dSize k.work)) := by
    rw [State.moveBytes]
    simp only [hsrc, hdst, if_false, hbytes]
  rw [hmoved] at hkeep
  exact ⟨(hkeep .hbm (by decide)).trans (hwrite _ _ _).1, (hkeep .sram (by decide)).trans (hwrite _ _ _).2⟩

end

theorem transferComplete_done {t : Nat} (he : e < 16) (hd : d < 8192)
    (hfind : (s.desc e d).outstanding.find? (fun x => x.idx = i) = some x) :
    let v := s.tick t
    let k := s.desc e d
    let w := k.work
    let sa := sideAddr (dSrc w) (dSrcStride w) (dCount w) i
    let da := sideAddr (dDst w) (dDstStride w) (dCount w) i
    Completes (.transferComplete t e d i) s fun s' =>
      (s'.stack e).units = (s.stack e).units + BitVec.ofNat 48 (x.size / 64) ∧
      (s'.stack e).maxLat = BitVec.ofNat 16 (max (s.stack e).maxLat.toNat (min ((max s.now t - x.at_) / Config.ns) 0xFFFF)) ∧
      (x.dead = true → s'.hbm = s.hbm ∧ s'.sram = s.sram) ∧
      (x.dead = false → awSpace (dSrc w) ≠ 2 → awSpace (dDst w) ≠ 2 →
        let bad := awSpace (dSrc w) = 0 ∧ (v.readHbm sa x.size).badIn sa x.size = true
        let y := v.sideWrite (dDst w) da (s.sideRead (dSrc w) sa (dSize w))
        (bad → s'.hbm = s.hbm ∧ s'.sram = s.sram ∧
          (s'.desc e d).st = .error ∧ (s'.desc e d).lastErr = BitVec.ofNat 4 4 ∧
          (k.late = none → s'.desc e d =
            { k with st := .error, shadow := none, shadowImg := none, lastErr := BitVec.ofNat 4 4, aborted := false
                     outstanding := (k.outstanding.erase x).map fun x => { x with dead := true } })) ∧
        (¬ bad → s'.hbm = y.hbm ∧ s'.sram = y.sram)) := by
  intro v k w sa da
  obtain ⟨hunits, hlat⟩ := settled_meters (s := v) (e := e) (d := d) (x := x) (k := k)
    (from_ := if x.dead then none else (v.landed e d x).hbmSource w x)
  refine ⟨_, exec_transferComplete he hd hfind, hunits, hlat, fun hdead => ?_, fun hlive hsrc hdst => ?_⟩
  · have hkeep := settled_dead (s := v) (e := e) (d := d) (k := k) hdead
    simp only [hdead, if_true]
    exact ⟨hkeep .hbm (by decide), hkeep .sram (by decide)⟩
  · have hidx : x.idx = i := by simpa using List.find?_some hfind
    have hfrom : (if x.dead then none else (v.landed e d x).hbmSource w x) =
        if awSpace (dSrc w) = 0 then some sa else none := by
      rw [hlive, State.hbmSource_memory hsrc, hidx]
      rfl
    rw [hfrom]
    refine ⟨fun ⟨hhbm, hbad⟩ => ?_, fun hgood => ?_⟩
    · rw [if_pos hhbm]
      exact settled_bad hlive hbad
    · rw [show da = sideAddr (dDst w) (dDstStride w) (dCount w) x.idx by rw [hidx]]
      have hsa : sa = sideAddr (dSrc w) (dSrcStride w) (dCount w) x.idx := by rw [hidx]
      have hlanded : State.Keeps [.free, .bad, .hbmStacks, .descs] v (v.landed e d x) :=
        .into State.landed_keeps (by decide) .rfl
      by_cases hhbm : awSpace (dSrc w) = 0
      · have hgood' : ((v.landed e d x).readHbm sa x.size).badIn sa x.size = false := by
          rw [State.readHbm_badIn (x := v) (State.landed_keeps .free (by decide)) (State.landed_keeps .bad (by decide))]
          exact Bool.eq_false_iff.2 fun hbad => hgood ⟨hhbm, hbad⟩
        rw [if_pos hhbm, State.settleFlight_good hlive hgood', hsa]
        exact settled_good (.into State.readHbm_keeps (by decide) hlanded) hsrc hdst
      · rw [if_neg hhbm, State.settleFlight_elsewhere hlive, hsa]
        exact settled_good hlanded hsrc hdst

end

/-! ### The completion token (R171, R222, R460) -/

/-- COMP_STREAM o's state as its completion token goes out. -/
def State.completed (s : State) (e o : Nat) : State :=
  let q := (s.stream o).seqOf (.engine e)
  ((s.markAll [o] .ready).modStream o fun m => (m.spend).setSeq (.engine e) (q + 1)).sendOn (.engine e) o
    (mkTok tyCompletion o 0xFFFF q {}) s.now

/-- A completion token is due: every transfer is over, and COMP_STREAM takes tokens (R171, R460). -/
def State.tokenDue (s : State) (e d : Nat) : Prop :=
  let k := s.desc e d
  let o := dComp k.work
  k.st = .draining ∧ k.aborted = false ∧ k.sent = dTotal k.work ∧ o ≠ 0xFFF ∧ (s.stream o).hq ≠ 7 ∧
    s.listFaulted e k = false

section

variable {s : State} {e d o : Nat}

theorem Stream.mark_ready_queues (m : Stream) (now : Nat) (ow : List (Nat × UnitId × Nat)) (ps : List Nat) :
    (m.mark now .ready ow ps).consumers = m.consumers ∧ (m.mark now .ready ow ps).producers = m.producers := by
  unfold Stream.mark Stream.endWait
  dsimp only
  cases m.wait <;> exact ⟨rfl, rfl⟩

theorem State.completed_keeps : State.Keeps [.streams] s (s.completed e o) :=
  .into State.sendOn_keeps (by decide) (.into State.modStream_keeps (by decide) (.into State.markAll_keeps (by decide) .rfl))

theorem State.completed_stream :
    ((s.completed e o).stream o).seqOf (.engine e) = (s.stream o).seqOf (.engine e) + 1 ∧
    ((s.completed e o).stream o).consumers = (s.stream o).consumers.map fun c =>
      Consumer.enter (.engine e) (s.stream o).writers (mkTok tyCompletion o 0xFFFF ((s.stream o).seqOf (.engine e)) {}) s.now
        (tokSeq (mkTok tyCompletion o 0xFFFF ((s.stream o).seqOf (.engine e)) {})) { c with credits := c.credits - 1 } := by
  have hmarked : (s.markAll [o] .ready).stream o = (s.stream o).mark s.now .ready (s.owing [o]) [] := by
    change (s.modStream o (Stream.mark s.now .ready (s.owing [o]) [])).stream o = _
    rw [State.modStream_set, State.stream_setStream, if_pos rfl]
  obtain ⟨hcons, hprod⟩ := (s.stream o).mark_ready_queues s.now (s.owing [o]) []
  constructor
  · rw [State.completed, State.sendOn_seqOf, State.modStream_set, State.stream_setStream, if_pos rfl,
      Stream.seqOf_setSeq]
  · rw [State.completed, State.sendOn, State.modStream_set, State.stream_setStream, if_pos rfl, State.modStream_set,
      State.stream_setStream, if_pos rfl, hmarked]
    simp only [Stream.setSeq, Stream.spend, Stream.writers, hcons, hprod, if_true, List.map_map]
    rfl

/-- A descriptor without a shadow, a late arm or NEXT is DONE and otherwise as it was (R221). -/
theorem State.descDone_plain (hshadow : (s.desc e d).shadow = none) (hlate : (s.desc e d).late = none)
    (hnext : dControl (s.desc e d).work 3 = false) : (s.descDone e d).desc e d = { s.desc e d with st := .done } := by
  have hplain : s.descDone e d = (s.reportDone e d).modDesc e d (Desc.promote false none) := by
    rw [State.descDone_eq]
    simp only [hshadow, hlate, hnext, Option.isSome_none, Bool.false_and, Bool.false_eq_true, if_false]
    rfl
  rw [hplain, State.desc_modDesc, (State.reportDone_keeps s e d).desc_eq (by decide)]
  rfl

theorem State.completionToken_due (hdue : s.tokenDue e d) :
    let o := dComp (s.desc e d).work
    s.completionToken e d =
      if (s.stream o).hasCredit = true then (s.completed e o).descDone e d else s.markAll [o] .credit := by
  obtain ⟨hst, hlive, hsent, hcomp, hhq, hlist⟩ := hdue
  rw [State.completionToken]
  dsimp only
  rw [if_pos (by simp [hst, hlive, hsent, hcomp]), if_neg (by simpa [hlist] using hhq)]
  rfl

theorem State.completionToken_notDue (hnot : ¬ s.tokenDue e d) : s.completionToken e d = s := by
  rw [State.completionToken]
  dsimp only
  split
  case isTrue h =>
    split
    case isTrue => rfl
    case isFalse h' =>
      exact absurd (show s.tokenDue e d by simpa [State.tokenDue, and_assoc] using And.intro h h') hnot
  case isFalse => rfl

theorem exec_descCompToken (t : Nat) (he : e < 16) (hd : d < 8192) :
    exec (.descCompToken t e d) s = .next (((s.tick t).completionToken e d).settleLate e d) :=
  if_pos (by simp [he, hd])

/-- Settles O33: a transfer's end is counted, then discards, errs or moves its bytes; the completion token follows the last. -/
theorem transfersLandTheirBytes : Obligations.TransfersLandTheirBytes := by
  unfold Obligations.TransfersLandTheirBytes
  intro s t e d i he hd v now k w sa da o m q tok
  refine ⟨fun x hfind => transferComplete_done he hd hfind, fun hnone => ?_,
    fun hst hlive hsent hcomp hhq hlist => ?_, fun hnot => ?_, fun hlate => State.settleLate_noLate hlate⟩
  · refine (if_pos (by simp [he, hd]) : exec (.transferComplete t e d i) s = _).trans ?_
    rw [effectTransferComplete, State.transferOver]
    dsimp only
    rw [show List.find? (fun x : Flight => decide (x.idx = i)) ((s.tick t).desc e d).outstanding = none from hnone]
  · have hdue : v.tokenDue e d := ⟨hst, hlive, hsent, hcomp, hhq, hlist⟩
    refine ⟨fun hcredit => ?_, fun hcredit => ?_⟩
    · have hkeep : State.Keeps [.fw, .chans, .hbmStacks, .descs, .progs] (v.completed e o)
          (((v.completed e o).descDone e d).settleLate e d) :=
        .into State.settleLate_keeps (by decide) (.into State.descDone_keeps (by decide) .rfl)
      obtain ⟨hseq, hcons⟩ := State.completed_stream (s := v) (e := e) (o := o)
      have hgoes : v.completionToken e d = (v.completed e o).descDone e d :=
        (State.completionToken_due hdue).trans (if_pos hcredit)
      refine ⟨((v.completed e o).descDone e d).settleLate e d, (exec_descCompToken t he hd).trans (by rw [hgoes]), rfl,
        ?_, ?_, ?_⟩
      · exact (congrArg (Stream.seqOf · _) (hkeep.stream_eq (by decide) o)).trans hseq
      · exact (congrArg Stream.consumers (hkeep.stream_eq (by decide) o)).trans hcons
      · intro hshadow hlate hnext
        have hdesc : (v.completed e o).desc e d = k := State.completed_keeps.desc_eq (by decide) e d
        have hdone := State.descDone_plain (s := v.completed e o) (e := e) (d := d) (by rw [hdesc, hshadow])
          (by rw [hdesc, hlate]) (by rw [hdesc]; exact hnext)
        rw [hdesc] at hdone
        rw [State.settleLate_noLate ((congrArg Desc.late hdone).trans hlate)]
        exact hdone
    · have hwaits : v.completionToken e d = v.markAll [o] .credit :=
        (State.completionToken_due hdue).trans (if_neg (Bool.not_eq_true _ ▸ hcredit))
      rw [exec_descCompToken t he hd, hwaits]
  · have hnotDue : ¬ v.tokenDue e d := by
      rintro ⟨hst, hlive, hsent, hcomp, hhq, hlist⟩
      rcases hnot with h | h | h | h | h | h
      · exact h hst
      · exact Bool.false_ne_true (hlive.symm.trans h)
      · exact h hsent
      · exact hcomp h
      · exact hhq h
      · exact Bool.false_ne_true (hlist.symm.trans h)
    rw [exec_descCompToken t he hd, State.completionToken_notDue hnotDue]

end

end Sys2Proof.Machine
end

section
/-! The loop engine's update, timer and stale scalar (R172, R278 to R286, R289, R291, R292, R297). -/

namespace Sys2Proof.Machine

/-! ### The update's parts (R278, R281, R295, R297) -/

theorem State.Keeps.fieldLoop_eq {L : List Part} {s x : State} (h : State.Keeps L s x) (hL : Part.loops ∉ L) (n : Nat) :
    x.fieldLoop n = s.fieldLoop n :=
  congrArg (Tab.get ({} : FieldLoop) · n) (h .loops hL)

theorem State.Keeps.prf_eq {L : List Part} {s x : State} (h : State.Keeps L s x) (hL : Part.prfs ∉ L) (n : Nat) :
    x.prf n = s.prf n :=
  congrArg (Tab.get ({} : Profile) · n) (h .prfs hL)

/-- The set-point of loop n without injection: the loop that drives it, or its profile (R281, R285). -/
def State.setPoint (s : State) (n : Nat) : Int :=
  match s.outersOf n with
  | [k] => (s.fieldLoop k).out.toInt
  | _ => (s.prf n).pos.toInt

section

variable {s : State} {n : Nat}

theorem State.Keeps.setPoint_eq {L : List Part} {x : State} (h : State.Keeps L s x) (hloops : Part.loops ∉ L)
    (hprfs : Part.prfs ∉ L) (n : Nat) : x.setPoint n = s.setPoint n := by
  have houters : x.outersOf n = s.outersOf n := by
    simp only [State.outersOf, h.fieldLoop_eq hloops]
  simp only [State.setPoint, houters, h.fieldLoop_eq hloops, h.prf_eq hprfs]

theorem State.Keeps.slotValue_eq {L : List Part} {x : State} (h : State.Keeps L s x)
    (hL : Part.convs ∉ L ∧ Part.ang ∉ L ∧ Part.incfg ∉ L ∧ Part.fouts ∉ L) (i : Nat) : x.slotValue i = s.slotValue i := by
  obtain ⟨hconvs, hang, hincfg, hfouts⟩ := hL
  have hconv : x.convs = s.convs := h .convs hconvs
  have hangle : x.ang = s.ang := h .ang hang
  have hrange : x.incfg = s.incfg := h .incfg hincfg
  have hfout : x.fouts = s.fouts := h .fouts hfouts
  unfold State.slotValue State.conv State.convOwned State.fout
  rw [hconv, hangle, hrange, hfout]

theorem State.Keeps.unipolarLimit_eq {L : List Part} {x : State} (h : State.Keeps L s x) (hL : Part.fouts ∉ L)
    (l : FieldLoop) (u : Int) : x.unipolarLimit l u = s.unipolarLimit l u := by
  have hfout : x.fouts = s.fouts := h .fouts hL
  unfold State.unipolarLimit State.fout
  rw [hfout]

theorem toInt_inQ (w : Word) : qMin ≤ w.toInt ∧ w.toInt ≤ qMax := by
  have hlow := w.le_toInt
  have hhigh := w.toInt_lt
  simp only [qMin, qMax]
  omega

theorem State.setPoint_inQ : qMin ≤ s.setPoint n ∧ s.setPoint n ≤ qMax := by
  unfold State.setPoint
  split <;> exact toInt_inQ _

theorem State.toSignal_inQ {v : Int} (h : qMin ≤ v ∧ v ≤ qMax) : s.toSignal v = (s, v) := if_pos h

/-- A generator at rest, or at its plan's end, rests at its target (R297). -/
theorem State.prfStep_rests (hend : (s.prf n).moving = true → planTime (s.prf n).plan ≤ (s.prf n).clock s.now) :
    State.Keeps [.prfs] s (s.prfStep n) ∧ ((s.prfStep n).prf n).moving = false ∧
      ((s.prfStep n).prf n).pos = if (s.prf n).moving then (s.prf n).target else (s.prf n).pos := by
  unfold State.prfStep
  dsimp only
  by_cases hmoving : (s.prf n).moving = true
  · rw [if_neg (by simp [hmoving]), if_pos (hend hmoving), if_pos hmoving]
    have hset : ((s.setPrf n ((s.prf n).rest (s.prf n).target)).prf n) = (s.prf n).rest (s.prf n).target := Tab.get_put_same ..
    exact ⟨State.setPrf_keeps, by rw [hset]; rfl, by rw [hset]; rfl⟩
  · rw [if_pos (by simp [hmoving]), if_neg hmoving]
    exact ⟨.rfl, by simpa using hmoving, rfl⟩

theorem FieldLoop.injAdvance_off {l : FieldLoop} {now turn : Nat} (hoff : flag l.injCtrl 0 = false) :
    l.injAdvance now turn = l := by
  simp only [FieldLoop.injAdvance, hoff, Bool.not_false, if_true]

theorem FieldLoop.injection_off {l : FieldLoop} {now : Nat} (hoff : flag l.injCtrl 0 = false) : l.injection now = 0 := by
  simp only [FieldLoop.injection, hoff, Bool.not_false, if_true]

/-- Loop l's record of what an update observed: set-point, measurement, error and scheduling variable (R281, R289, R293). -/
def FieldLoop.observe (now start every : Nat) (sp meas err inj : Int) (v : Option Int) (l : FieldLoop) : FieldLoop :=
  { l with
    due := false, last := some now, gap := match l.last with | some t => now - t | none => 0
    startAt := start, sp := BitVec.ofInt 32 sp, meas := BitVec.ofInt 32 meas, err := BitVec.ofInt 32 err
    sv := match v with | some v => BitVec.ofInt 32 v | none => l.sv
    set := BitVec.ofNat 2 l.useSet, injNow := inj, outerCnt := if every ≤ l.outerCnt + 1 then 0 else l.outerCnt + 1
    oscWin := l.oscWin.count (field l.oscCfg 0 16 + 1) l.oscBand.toInt err }

/-- The second half of an update: cascade, integrator and limits, from error e with coefficient set (R280, R281, R283). -/
def State.regulate (s : State) (set : Nat) (v : Option Int) (e inj : Int) (l : FieldLoop) : FieldLoop :=
  let c := cascade (l.bank set) l.sec e
  let d := (toQ ((l.coefAt set 30).toInt * c.1)).1
  let r := controlLaw l.limits c.1 d l.int.toInt inj
  let u := s.unipolarLimit l r.2
  { l with
    setNext := BitVec.ofNat 2 (l.nextSet set v), schedSkip := l.schedHold, schedHold := false
    sec := c.2.1, satCnt := satAdd l.satCnt c.2.2, int := BitVec.ofInt 32 r.1, intReg := BitVec.ofInt 32 r.1
    out := BitVec.ofInt 32 u
    limOut := u = l.omin.toInt || u = l.omax.toInt || s.unipolarEnd l u
    limInt := r.1 = l.imin.toInt || r.1 = l.imax.toInt }

/-- An update in the order of R281, on the state that its profile's step leaves, with the engine occupied. -/
theorem State.updateLoop_parts {y : State} {l : FieldLoop} (hy : s.prfStep n = y) (hl : y.fieldLoop n = l) :
    ∃ z every turn start done u, State.Keeps [.loopEng] y z ∧
      let inj (k : Nat) : Int := if field l.injCtrl 3 2 = k then l.injection z.now else 0
      let a := z.toSignal (z.setPoint n + inj 0)
      let meas := a.1.slotValue (field l.src 0 6)
      let b := a.1.toSignal (a.2 - meas + inj 1)
      let l' := l.observe b.1.now start every a.2 meas b.2 (l.injection z.now) (b.1.schedVar l)
      let cross := field l'.oscCfg 16 8
      let r := b.1.regulate l.useSet (b.1.schedVar l) b.2 (inj 2) l' |>.injAdvance b.1.now turn
      s.updateLoop n =
        if cross ≠ 0 && cross ≤ l'.oscWin.crossings && l'.oscAmp.toInt ≤ l'.oscWin.peak then b.1.loopFreeze n l.useSet l'
        else if field r.src 6 5 < 16 then (b.1.setLoop n r).loopOutput (field r.src 6 5) u done else b.1.setLoop n r :=
  hl ▸ hy ▸ ⟨_, _, _, _, _, _, .loopEng (by decide) .rfl, rfl⟩

/-- The update without injection and detector (R281). -/
theorem State.updateLoop_plain {y : State} {l : FieldLoop} (hy : s.prfStep n = y) (hl : y.fieldLoop n = l) :
    let meas := y.slotValue (field l.src 0 6)
    let e := y.setPoint n - meas
    let c := cascade (l.bank l.useSet) l.sec e
    let d := (toQ ((l.coefAt l.useSet 30).toInt * c.1)).1
    let r := controlLaw l.limits c.1 d l.int.toInt 0
    flag l.injCtrl 0 = false → field l.oscCfg 16 8 = 0 → qMin ≤ e ∧ e ≤ qMax →
      ∃ l', (s.updateLoop n).fieldLoop n = l' ∧ (s.updateLoop n).prf n = y.prf n ∧
        l'.sp = BitVec.ofInt 32 (y.setPoint n) ∧ l'.meas = BitVec.ofInt 32 meas ∧
        l'.err = BitVec.ofInt 32 e ∧ l'.sec = c.2.1 ∧ l'.int = BitVec.ofInt 32 r.1 ∧
        l'.out = BitVec.ofInt 32 (y.unipolarLimit l r.2) ∧ l'.satCnt = satAdd l.satCnt c.2.2 ∧
        l'.set = BitVec.ofNat 2 l.useSet ∧ l'.due = false ∧ l'.last = some s.now := by
  intro meas e c d r hinj hosc he
  obtain ⟨z, every, turn, start, done, u, hz, hparts⟩ := State.updateLoop_parts hy hl
  have hsilent : l.injection z.now = 0 := FieldLoop.injection_off hinj
  have hpoint : z.setPoint n = y.setPoint n := hz.setPoint_eq (by decide) (by decide) n
  have hmeas : z.slotValue (field l.src 0 6) = meas := hz.slotValue_eq (by decide) _
  have hzero (k : Nat) : (if field l.injCtrl 3 2 = k then l.injection z.now else 0) = 0 := by rw [hsilent, ite_self]
  have hsp : z.toSignal (y.setPoint n) = (z, y.setPoint n) := State.toSignal_inQ State.setPoint_inQ
  have herr : z.toSignal (y.setPoint n - meas) = (z, e) := State.toSignal_inQ he
  dsimp only at hparts
  simp only [hzero, Int.add_zero, hpoint, hsp, hmeas, herr] at hparts
  generalize ho : FieldLoop.observe _ _ _ _ _ _ _ _ l = o at hparts
  have hoff : flag (z.regulate l.useSet (z.schedVar l) e 0 o).injCtrl 0 = false := ho ▸ hinj
  rw [FieldLoop.injAdvance_off hoff] at hparts
  generalize hr : z.regulate _ _ _ _ o = l' at hparts
  have hkeep : State.Keeps [.fouts] (z.setLoop n l') (s.updateLoop n) := by
    have hosc' : field o.oscCfg 16 8 = 0 := ho ▸ hosc
    rw [hparts, if_neg (by simp [hosc'])]
    exact .ite (fun _ => .into State.loopOutput_keeps (by decide) .rfl) fun _ => .rfl
  have hnow : y.now = s.now := hy ▸ State.prfStep_keeps .now (by decide)
  refine ⟨l', (hkeep.fieldLoop_eq (by decide) n).trans (Tab.get_put_same ..),
    (hkeep.prf_eq (by decide) n).trans (hz.prf_eq (by decide) n), ?_⟩
  rw [← hz.unipolarLimit_eq (by decide), ← hnow, ← (hz .now (by decide) : z.now = y.now)]
  rw [← hr, ← ho]
  exact ⟨rfl, rfl, rfl, rfl, rfl, rfl, rfl, rfl, rfl, rfl⟩

theorem exec_loopUpdate_first {t : Nat} (hn : n < 16) (hfirst : (s.tick t).loopFirst n = true) :
    exec (.loopUpdate t n) s = .next ((((s.tick t).updateLoop n).capture n).triggerConvs fun _ c =>
      flag c.ctrl 14 && field c.ctrl 15 4 = n) := by
  refine (if_pos (decide_eq_true hn) : exec (.loopUpdate t n) s = _).trans ?_
  rw [effectLoopUpdate, if_pos hfirst]

/-- The timer's expiry, and what it does before then (R284, R327). -/
theorem effectLoopTimer_cases (s : State) (n : Nat) :
    let l := s.fieldLoop n
    let expired := flag l.ctrl 0 = true ∧ flag l.ctrl 8 = true ∧ flag l.ctrl 9 = false ∧
      l.timerFrom + field l.period 0 20 * Config.us ≤ s.now
    (expired → effectLoopTimer n s =
      (s.setLoop n { l with timerFrom := l.timerFrom + field l.period 0 20 * Config.us }).loopDue n 4) ∧
    (¬ expired → effectLoopTimer n s = s) := by
  intro l expired
  have hexpired : (flag l.ctrl 0 && flag l.ctrl 8 && !flag l.ctrl 9 &&
      l.timerFrom + field l.period 0 20 * Config.us ≤ s.now) = true ↔ expired := by
    simp [expired, and_assoc]
  exact ⟨fun h => if_pos (hexpired.2 h), fun h => if_neg (mt hexpired.1 h)⟩

theorem State.scalarLate_iff : s.scalarLate n = true ↔ field (s.fieldLoop n).svTmo 0 16 ≠ 0 ∧
    (s.fieldLoop n).svStale = false ∧
    (s.fieldLoop n).scalarAt / Config.ms + field (s.fieldLoop n).svTmo 0 16 + 1 ≤ s.now / Config.ms := by
  simp [State.scalarLate, and_assoc]

/-- Settles O39: the update without injection and detector, the timer's expiry, and the scalar that did not come. -/
theorem loopsUpdateInOrder : Obligations.LoopsUpdateInOrder := by
  unfold Obligations.LoopsUpdateInOrder
  intro s t n hn v now l p g base e c d r period due
  refine ⟨fun hfirst hend hinj hosc hlow hhigh => ?_, ⟨fun h0 h8 h9 hover => ?_, fun hnot => ?_⟩, fun late hlate => ⟨?_, ?_⟩⟩
  · obtain ⟨hkeep, hrest, hpos⟩ := State.prfStep_rests (s := v) (n := n) hend
    have hpoint : (v.prfStep n).setPoint n = base := by
      have houters : (v.prfStep n).outersOf n = s.outersOf n := by
        simp only [State.outersOf, hkeep.fieldLoop_eq (by decide)]
        rfl
      have hloops (k : Nat) : (v.prfStep n).fieldLoop k = s.fieldLoop k := hkeep.fieldLoop_eq (by decide) k
      simp only [State.setPoint, houters, hloops, hpos]
      rfl
    have hslot : (v.prfStep n).slotValue (field l.src 0 6) = s.slotValue (field l.src 0 6) :=
      hkeep.slotValue_eq (by decide) _
    have hlimit (u : Int) : (v.prfStep n).unipolarLimit l u = s.unipolarLimit l u := hkeep.unipolarLimit_eq (by decide) l u
    have hplain := State.updateLoop_plain (s := v) (n := n) (l := l) rfl (hkeep.fieldLoop_eq (by decide) n)
    rw [hpoint, hslot] at hplain
    obtain ⟨l', hl', hprf, hsp, hmeas, herr, hsec, hint, hout, hsat, hset, hdue, hlast⟩ := hplain hinj hosc ⟨hlow, hhigh⟩
    have hafter : State.Keeps [.chans, .loopEng, .convs] (v.updateLoop n) ((((s.tick t).updateLoop n).capture n).triggerConvs
        fun _ c => flag c.ctrl 14 && field c.ctrl 15 4 = n) :=
      .into State.triggerConvs_keeps (by decide) (.into State.capture_keeps (by decide) .rfl)
    refine ⟨_, exec_loopUpdate_first hn hfirst, ?_⟩
    dsimp only
    rw [hafter.fieldLoop_eq (by decide) n, hl', hafter.prf_eq (by decide) n, hprf]
    rw [hlimit] at hout
    exact ⟨hsp, hmeas, herr, hsec, hint, hout, hsat, hset, hdue, hlast, hpos, hrest⟩
  · exact (if_pos (decide_eq_true hn)).trans (congrArg _ ((effectLoopTimer_cases v n).1 ⟨h0, h8, h9, hover⟩))
  · refine (if_pos (decide_eq_true hn)).trans (congrArg _ ((effectLoopTimer_cases v n).2 ?_))
    rintro ⟨h0, h8, h9, hexpired⟩
    rcases hnot with h | h | h | h
    · exact Bool.false_ne_true (h.symm.trans h0)
    · exact Bool.false_ne_true (h.symm.trans h8)
    · exact Bool.false_ne_true (h9.symm.trans h)
    · exact absurd hexpired (Nat.not_le.2 h)
  · intro hup htmo hfresh hover hstill
    refine (if_pos (decide_eq_true hn) : exec (.svStale t n) s = _).trans (congrArg _ (if_pos ?_))
    have hpast : v.scalarLate n = true := State.scalarLate_iff.2 ⟨htmo, hfresh, hover⟩
    rw [hpast, ← hlate, hstill, show (s.tick t).hostUp = true from hup]
    rfl
  · intro hnot
    refine (if_pos (decide_eq_true hn) : exec (.svStale t n) s = _).trans (congrArg _ (if_neg ?_))
    rw [Bool.and_eq_true, Bool.and_eq_true]
    rintro ⟨⟨hup, hpast⟩, hstill⟩
    obtain ⟨htmo, hfresh, hover⟩ := State.scalarLate_iff.1 hpast
    rcases hnot with h | h | h | h | h
    · exact Bool.false_ne_true (h.symm.trans hup)
    · exact htmo h
    · exact Bool.false_ne_true (hfresh.symm.trans h)
    · exact absurd hover (Nat.not_le.2 h)
    · exact Bool.false_ne_true ((h.symm.trans hlate).trans hstill)

end

end Sys2Proof.Machine
end

section
/-! FIELD's place in the order of turns where a table of lists holds one key twice (R177, R459). A table is a list of entries, read
at the first entry of a key; the place that a step gets, `State.nextTurn`, is counted over every entry of the unit. An action 2
that is over clears what it held before its list goes on, and that write leaves one entry of the key: the place is then counted
without the second one, of which the statement, that counts before the write, still has the number. -/

namespace Sys2Proof.Machine

/-- The field unit at FIELD action 2 of channel 0 with no code left; a second entry of the same list has fired 7th. -/
def fieldListedTwice : State :=
  { progs := [(progKey .field 0, { list := [0x200078], phase := .running, held := some (1, 3) }),
      (progKey .field 0, { fired := 7 })] }

theorem fieldListedTwice_stands : fieldListedTwice.stands 5 .field 0 opField = true := by decide +kernel

theorem fieldListedTwice_nextTurn : (fieldListedTwice.tick 5).nextTurn .field 0 = 8 := by decide +kernel

/-- The list has fired first: the write has left no second entry. -/
theorem fieldListedTwice_fired :
    ((effectFieldOutput .field 0 (fieldListedTwice.tick 5)).prog .field 0).fired = 1 := by decide +kernel

theorem exec_fieldOutput (s : State) (t img : Nat) :
    exec (.fieldOutput t .field img) s = .next (effectFieldOutput .field img (s.tick t)) := rfl

/-- Refutes O41: the place in the order of turns after action 2, in a state whose table of lists holds the key of the field
unit's list twice. The statement has the list fire 8th, the model 1st. -/
theorem not_fieldOperations : ¬ Obligations.FieldOperations := by
  intro h
  obtain ⟨-, -, -, output⟩ := h fieldListedTwice 5 0
  obtain ⟨held, -⟩ := output fieldListedTwice_stands (by decide +kernel)
  obtain ⟨s', hs', ⟨-, elsewhere⟩, -⟩ := held 1 3 rfl
  obtain ⟨-, done⟩ := elsewhere (by decide +kernel)
  obtain rfl : effectFieldOutput .field 0 (fieldListedTwice.tick 5) = s' := by simpa [exec_fieldOutput] using hs'
  have turn := congrArg Prog.fired done
  rw [fieldListedTwice_fired] at turn
  exact absurd (turn.trans fieldListedTwice_nextTurn) (by decide)

end Sys2Proof.Machine
end

section
/-! NOP, LOOP, WAITANG, EVENT and LIST_FAULT where a unit may begin its next operation (R177, R179, R181, R182, R185, R187,
R459). -/

namespace Sys2Proof.Machine

section

variable {s : State} {u : UnitId} {img : Nat}

theorem Prog.loop_idle {target repeats level : Nat} {p : Prog} (h : (p.ctr.getD level none).getD repeats = 0) :
    p.loop target repeats level = { p with pos := p.pos + 1, ctr := p.ctr.set level none } := by
  rw [Prog.loop, h]

theorem Prog.loop_running {target repeats level n : Nat} {p : Prog} (h : (p.ctr.getD level none).getD repeats = n + 1) :
    p.loop target repeats level = { p with pos := target, ctr := p.ctr.set level (some n) } := by
  rw [Prog.loop, h]

/-- A unit that goes on to its next entry, its turn over, after a part of an operation that left its lists alone. -/
theorem State.Keeps.finish_eq {L : List Part} {x : State} (h : State.Keeps L s x) (hL : Part.progs ∉ L) (e : Nat) :
    x.finish u img e = x.setProg u img
      { s.prog u img with pos := (s.prog u img).pos + 1, busyUntil := e, fired := s.nextTurn u img } := by
  rw [State.finish, State.modProg_set, h.prog_eq hL, h.nextTurn_eq hL]

theorem effectListFault_unlisted (hrun : s.mayRun u img = true) (hop : opListed u (s.prog u img).op = false) :
    effectListFault u img s =
      (((s.setProg u img { s.prog u img with phase := .faulted }).raise 0x8004
        (layBytes 5 [(0, toLe 4 (s.unitOf u)),
          (4, toLe 1 (min (s.prog u img).pos (s.listSpace u img - 1)))])).markAbort img 2 0xFFFF) := by
  rw [effectListFault]
  exact if_pos (by rw [hrun, hop]; rfl)

end

/-- Settles O6: each operation's effect at the entry where it stands. -/
theorem listControlCompletes : Obligations.ListControlCompletes := by
  intro s t u img p o level n
  refine ⟨fun hstands => ?nop, fun hstands hidle => ?loopEnds, fun k hstands hcount => ?loopBranches,
    fun hstands => ?waitang, fun hstands => ?event, fun hunit hrun hop => ?fault⟩
  case nop => exact act_of_stands hstands _
  case loopEnds =>
    refine (act_of_stands hstands _).trans ?_
    rw [State.modProg_set, State.prog_tick, Prog.loop_idle hidle]
    rfl
  case loopBranches =>
    refine (act_of_stands hstands _).trans ?_
    rw [State.modProg_set, State.prog_tick, Prog.loop_running hcount]
    rfl
  case waitang => exact act_of_stands hstands _
  case event =>
    refine (act_of_stands hstands _).trans ?_
    rw [State.raise_keeps.finish_eq (by decide)]
    rfl
  case fault =>
    refine (if_pos hunit : exec (.listFault t u img) s = .next (effectListFault u img (s.tick t))).trans ?_
    rw [effectListFault_unlisted hrun hop]
    rfl

end Sys2Proof.Machine
end

section
/-! TRANSFER_ISSUE: the next descriptor in turn that can fire, and what its transfer's issue leaves (R216 to R219, R222, R223). -/

namespace Sys2Proof.Machine

/-! ### What decides whether a transfer can issue (R145, R147, R222) -/

/-- Two states differ in the notes of their streams' producers alone: queues, credits, pools and images are the same. -/
structure State.SameQueues (s s' : State) : Prop where
  keeps : State.Keeps [.streams] s s'
  consumers : ∀ i, (s'.stream i).consumers = (s.stream i).consumers
  pool : ∀ i, (s'.stream i).pool = (s.stream i).pool
  img : ∀ i, (s'.stream i).img = (s.stream i).img

theorem Stream.mark_img (now : Nat) (r : Ready) (os : List (Nat × UnitId × Nat)) (ps : List Nat) (m : Stream) :
    (m.mark now r os ps).img = m.img := by
  cases r with
  | credit | handle => rfl
  | fence | input | ready => cases hwait : m.wait <;> simp [Stream.mark, Stream.endWait, hwait]

namespace State.SameQueues

variable {s x y : State}

theorem rfl : s.SameQueues s := ⟨.rfl, fun _ => Eq.refl _, fun _ => Eq.refl _, fun _ => Eq.refl _⟩

theorem trans (a : s.SameQueues x) (b : x.SameQueues y) : s.SameQueues y :=
  ⟨.into b.keeps (fun _ m => m) a.keeps, fun i => (b.consumers i).trans (a.consumers i),
    fun i => (b.pool i).trans (a.pool i), fun i => (b.img i).trans (a.img i)⟩

theorem each {α : Type} {xs : List α} {f : State → α → State} (h : ∀ t a, State.SameQueues t (f t a))
    (g : s.SameQueues x) : s.SameQueues (x.each xs f) := by
  induction xs generalizing x with
  | nil => exact g
  | cons a xs ih => exact ih (g.trans (h x a))

theorem mark (i : Nat) (r : Ready) (os : List (Nat × UnitId × Nat)) (ps : List Nat) :
    s.SameQueues (s.modStream i (Stream.mark s.now r os ps)) := by
  have hsame := Stream.mark_sameTiles s.now r os ps (s.stream i)
  have hread : ∀ j, (s.modStream i (Stream.mark s.now r os ps)).stream j =
      if j = i then (s.stream i).mark s.now r os ps else s.stream j := fun j => by
    rw [State.modStream_set, State.stream_setStream]
  refine ⟨State.modStream_keeps, fun j => ?_, fun j => ?_, fun j => ?_⟩
  all_goals
    rw [hread]
    split
  case refine_1.isTrue hj => rw [hj, hsame.consumers]
  case refine_2.isTrue hj => rw [hj, hsame.pool]
  case refine_3.isTrue hj => rw [hj, Stream.mark_img]
  all_goals exact Eq.refl _

theorem markAll (os : List Nat) (r : Ready) (owing : List (Nat × UnitId × Nat)) (ps : List Nat) :
    s.SameQueues (s.markAll os r owing ps) :=
  each (fun _ _ => mark ..) rfl

section

variable (h : s.SameQueues x)

include h

theorem head_eq (i : Nat) (u : UnitId) : x.head i u = s.head i u := by
  rw [State.head, Stream.edge, h.consumers, show x.now = s.now from h.keeps .now (by decide)]
  exact Eq.refl _

theorem fenceAt_eq (i : Nat) (u : UnitId) : x.fenceAt i u = s.fenceAt i u := by simp only [State.fenceAt, h.head_eq]

theorem dataAt_eq (i : Nat) (u : UnitId) : x.dataAt i u = s.dataAt i u := by simp only [State.dataAt, h.head_eq]

theorem nextHandle_eq (o : Nat) : x.nextHandle o = s.nextHandle o := by
  rw [State.nextHandle, h.pool, h.keeps.pool_eq (by decide)]
  exact Eq.refl _

theorem hasCredit_eq (o : Nat) : (x.stream o).hasCredit = (s.stream o).hasCredit := by
  simp only [Stream.hasCredit, h.consumers]

theorem takesError_eq (u : UnitId) (ins : List Nat) : x.takesError u ins = s.takesError u ins := by
  simp only [State.takesError, h.dataAt_eq]

theorem readiness_eq (u : UnitId) (ins outs : List Nat) : x.readiness u ins outs = s.readiness u ins outs := by
  simp only [State.readiness, h.takesError_eq, h.hasCredit_eq, h.fenceAt_eq, h.dataAt_eq, h.nextHandle_eq]

theorem descReady_eq (e : Nat) (w : List Byte) : x.descReady e w = s.descReady e w := by
  simp only [State.descReady, h.readiness_eq, h.img, h.keeps.prog_eq (by decide)]

end

end State.SameQueues

/-! ### The engine's choice (R217 to R219) -/

section

variable {s : State} {e d : Nat}

/-- The descriptors of engine e that may issue, in turn order: none whose image's list there has faulted (R179, R219). -/
def State.issuers (s : State) (e : Nat) : List Nat :=
  (s.turnOrder e).filter fun d => (s.desc e d).issues && !s.listFaulted e (s.desc e d)

/-- Of those, the first that lacks nothing. -/
def State.nextIssue (s : State) (e : Nat) : Option Nat :=
  (s.issuers e).find? fun d => s.descReady e (s.desc e d).work = .ready

/-- A descriptor with a handle destination that lacks something has its destination stream marked. -/
def State.markLack (e : Nat) (s : State) (d : Nat) : State :=
  let w := (s.desc e d).work
  let r := s.descReady e w
  let os := [awStream (dDst w)]
  if awSpace (dDst w) = 2 && r ≠ .ready then s.markAll os r (pools := s.poolsFor os) else s

theorem State.markLack_sameQueues (e : Nat) (s : State) (d : Nat) : s.SameQueues (s.markLack e d) := by
  unfold State.markLack
  dsimp only
  split
  case isTrue => exact .markAll ..
  case isFalse => exact .rfl

/-- The state in which the engine chooses: what each descriptor lacks is noted. -/
def State.noteLacks (s : State) (e : Nat) : State := s.each (s.issuers e) (State.markLack e)

theorem State.noteLacks_sameQueues : s.SameQueues (s.noteLacks e) := .each (State.markLack_sameQueues e) .rfl

/-- The engine begins no transfer: it is occupied, or 512 are outstanding (R217, R218). -/
def State.engineHeld (s : State) (e : Nat) : Prop :=
  (s.now + 1) * engineUnit ≤ (s.stack e).busyUntil ∨ 512 ≤ s.outstanding e

theorem effectTransferIssue_held (h : s.engineHeld e) : effectTransferIssue e s = s := by
  rw [effectTransferIssue]
  exact if_pos (by simpa [State.engineHeld] using h)

/-- The marks that the choice leaves change no descriptor's readiness. -/
theorem effectTransferIssue_free (h : ¬ s.engineHeld e) :
    effectTransferIssue e s =
      match s.nextIssue e with
      | some d => (s.noteLacks e).issue e d
      | none => s.noteLacks e := by
  have hchoice : (s.issuers e).find? (fun d => (s.noteLacks e).descReady e ((s.noteLacks e).desc e d).work = .ready) =
      s.nextIssue e := by
    simp only [State.noteLacks_sameQueues.descReady_eq, State.noteLacks_sameQueues.keeps.desc_eq (by decide),
      State.nextIssue]
  rw [← hchoice, effectTransferIssue]
  exact if_neg (by simpa [State.engineHeld] using h)

/-! ### One transfer issues (R216, R218, R222, R223) -/

/-- A descriptor with its next transfer, of no handle, outstanding from moment now on. -/
def Desc.issueMemory (now : Nat) (k : Desc) : Desc :=
  { k with issued := k.issued + 1
           outstanding := k.outstanding ++ [{ idx := k.issued, at_ := now, size := dSize k.work }]
           st := if k.issued + 1 = dTotal k.work then .draining else .active }

/-- An engine occupied by a transfer of contents w, its turn passed beyond descriptor d. -/
def Stack.occupy (now d : Nat) (w : List Byte) (m : Stack) : Stack :=
  { m with turn := (d + 1) % 8192
           busyUntil := max m.busyUntil (now * engineUnit) + occupancy (dSize w) m.migrating.isSome
           short := if dSize w < 2048 then satInc m.short else m.short }

theorem State.issue_memory (hsrc : awSpace (dSrc (s.desc e d).work) ≠ 2) (hdst : awSpace (dDst (s.desc e d).work) ≠ 2) :
    s.issue e d =
      (s.modDesc e d (Desc.issueMemory s.now)).modStack e (Stack.occupy s.now d (s.desc e d).work) := by
  simp only [State.issue, hsrc, hdst, if_false, Option.isSome_none, Bool.false_eq_true, decide_false, Bool.false_and]
  rfl

end

/-- Settles O32: the choice reads nothing that it marks; the transfer of two memory sides writes its descriptor and its
engine. -/
theorem transfersIssueInTurn : Obligations.TransfersIssueInTurn := by
  intro s t e he v now m ds free
  have hexec : exec (.transferIssue t e) s = .next (effectTransferIssue e v) := if_pos (by simp [he])
  have hheld : v.engineHeld e ↔ (¬ free ∨ 512 ≤ s.outstanding e) := by
    rw [show free ↔ m.busyUntil < (now + 1) * engineUnit from Iff.rfl, not_lt]
    exact Iff.rfl
  have hkeep : State.Keeps [.streams] v (v.noteLacks e) := State.noteLacks_sameQueues.keeps
  refine ⟨fun d hfree hroom hd hnext hsrc hdst => ?issues, fun hbusy => ?busy, fun hnone => ?none⟩
  case issues =>
    have hopen : ¬ v.engineHeld e := by
      rw [hheld]
      exact not_or.2 ⟨not_not.2 hfree, not_le.2 hroom⟩
    have hdesc : ∀ d', (v.noteLacks e).desc e d' = s.desc e d' := fun d' => hkeep.desc_eq (by decide) e d'
    have hnow : (v.noteLacks e).now = now := hkeep .now (by decide)
    have hstack : (v.noteLacks e).stack e = m := congrArg (Tab.get ({} : Stack) · e) (hkeep .hbmStacks (by decide))
    refine ⟨_, hexec.trans (congrArg _ (effectTransferIssue_free hopen)), ?_⟩
    rw [show v.nextIssue e = some d from hnext]
    dsimp only
    rw [State.issue_memory (by rwa [hdesc]) (by rwa [hdesc]), hnow, hdesc]
    refine ⟨?desc, ?stack, fun d' hd' hne => ?others⟩
    case desc =>
      rw [State.modStack_set, State.desc_setStack, State.desc_modDesc, hdesc]
      rfl
    case stack =>
      rw [State.modStack_set, State.stack_setStack, if_pos rfl, State.modDesc_set, State.stack_setDesc, hstack]
      rfl
    case others =>
      rw [State.modStack_set, State.desc_setStack, State.modDesc_set, State.desc_setDesc (h := hd) (h' := hd'),
        if_neg fun h => hne h.2, hdesc]
  case busy => rw [hexec, effectTransferIssue_held (hheld.2 hbusy)]
  case none =>
    by_cases hbusy : v.engineHeld e
    · exact ⟨v, hexec.trans (by rw [effectTransferIssue_held hbusy]), rfl, rfl⟩
    · refine ⟨_, hexec.trans (congrArg _ (effectTransferIssue_free hbusy)), ?_⟩
      rw [show v.nextIssue e = none from hnone]
      exact ⟨hkeep .descs (by decide), hkeep .hbmStacks (by decide)⟩

end Sys2Proof.Machine
end

section
/-! The angle timebase: an update in free-run, losses and returns of its sources, encoder and pulse edges, the time of day, and
host writes (R185, R316 to R320, R322, R326 to R329). -/

namespace Sys2Proof.Machine

open Sys2Proof.Config

/-! ### An update in free-run (R185, R316, R317) -/

theorem increment_whole {freq : Word} (h : freq.toNat * 65536 % 1000000 = 0) (up : Bool) :
    increment freq up = freq.toNat * 65536 / 1000000 := by
  rw [increment, h]
  simp

theorem Angle.steer_freeRun {a : Angle} (h : a.source = 0) (n now : Nat) : a.steer n now = { a with freq := a.freqSet } :=
  if_pos h

theorem Angle.step_plain {a : Angle} (hrev : a.reverse = false) (hpull : a.pull = none) (n : Nat) :
    a.step n = a.move (increment a.freq (Config.phaseRoundsUp n)) := by
  rw [Angle.step, hrev, hpull]
  rfl

/-- A table with every record changed, the default one left as it is. -/
theorem Tab.get_map {α : Type} (d : α) {f : α → α} (hd : f d = d) (m : Tab α) (i : Nat) :
    Tab.get d (m.map fun x => (x.1, f x.2)) i = f (Tab.get d m i) := by
  induction m with
  | nil => exact hd.symm
  | cons x m ih =>
    simp only [List.map_cons, Tab.get, ih]
    split <;> rfl

section

variable {s : State}

/-- Every waiting unit sees the crossings of an update. -/
def State.passCrossings (s : State) (u0 u1 : Nat) : State :=
  { s with progs := s.progs.map fun x => (x.1, x.2.crossed s.now u0 u1) }

theorem State.passCrossings_prog (u0 u1 : Nat) (u : UnitId) (img : Nat) :
    (s.passCrossings u0 u1).prog u img = (s.prog u img).crossed s.now u0 u1 :=
  Tab.get_map ({} : Prog) rfl s.progs (progKey u img)

/-- A sample clock counts its lost ticks and leaves the rest of the timebase. -/
theorem State.sampleClock_ang (u0 u1 m : Nat) :
    ∃ lost, (s.sampleClock u0 u1 m).ang = { s.ang with sclkLost := lost } := by
  unfold State.sampleClock
  dsimp only
  split
  case isTrue => exact ⟨s.ang.sclkLost, rfl⟩
  case isFalse =>
    exact ⟨_, (State.tickOutputs_keeps .ang (by decide)).trans (State.triggerConvs_keeps .ang (by decide))⟩

/-- The timebase moved on by its update; new memberships of cluster groups hold. -/
def State.turnOn (s : State) : State :=
  { s.draw.nextGroups with ang := { ((s.ang.steer s.free s.now).step s.free) with lastUpdate := s.now } }

/-- What an update sets off before the scheduler. -/
def State.clockTicks (s : State) (u0 : Nat) : State :=
  let u1 := s.ang.unwrapped
  ((s.passCrossings u0 u1).sampleClock u0 u1 0).sampleClock u0 u1 1

theorem State.clockTicks_keeps (u0 : Nat) :
    State.Keeps [.convs, .ang, .fouts] (s.passCrossings u0 s.ang.unwrapped) (s.clockTicks u0) :=
  .into State.sampleClock_keeps (by decide) State.sampleClock_keeps

theorem State.clockTicks_ang (u0 : Nat) : ∃ lost, (s.clockTicks u0).ang = { s.ang with sclkLost := lost } := by
  obtain ⟨lost0, h0⟩ := (s.passCrossings u0 s.ang.unwrapped).sampleClock_ang u0 s.ang.unwrapped 0
  obtain ⟨lost1, h1⟩ :=
    ((s.passCrossings u0 s.ang.unwrapped).sampleClock u0 s.ang.unwrapped 0).sampleClock_ang u0 s.ang.unwrapped 1
  exact ⟨lost1, h1.trans (by rw [h0]; rfl)⟩

theorem effectAngleUpdate_unscheduled (hup : s.hostUp = true) (hdue : s.ang.lastUpdate + us ≤ s.now) (hsched : s.sched = []) :
    effectAngleUpdate s = s.turnOn.clockTicks s.ang.unwrapped := by
  have hsched' : (s.turnOn.clockTicks s.ang.unwrapped).sched = [] :=
    (State.clockTicks_keeps _ .sched (by decide)).trans hsched
  refine (if_pos (by simp [hup, hdue])).trans ?_
  change (s.turnOn.clockTicks s.ang.unwrapped).each
    ((((s.turnOn.clockTicks s.ang.unwrapped).sched.map _).filter _)) _ = _
  rw [hsched']
  rfl

theorem effectAngleUpdate_early (h : s.now < s.ang.lastUpdate + us) : effectAngleUpdate s = s :=
  if_neg (by simp [h])

theorem State.turnOn_ang (hfree : s.ang.source = 0) (hrev : s.ang.reverse = false) (hpull : s.ang.pull = none)
    (hwhole : s.ang.freqSet.toNat * 65536 % 1000000 = 0) :
    s.turnOn.ang = { Angle.move (s.ang.freqSet.toNat * 65536 / 1000000) { s.ang with freq := s.ang.freqSet } with
      lastUpdate := s.now } := by
  have hmoved : (s.ang.steer s.free s.now).step s.free =
      Angle.move (s.ang.freqSet.toNat * 65536 / 1000000) { s.ang with freq := s.ang.freqSet } := by
    rw [Angle.steer_freeRun hfree, Angle.step_plain (a := { s.ang with freq := s.ang.freqSet }) hrev hpull,
      increment_whole hwhole]
  exact congrArg (fun a : Angle => { a with lastUpdate := s.now }) hmoved

end

/-! ### Losses and pulses (R317, R318) -/

section

variable {s : State}

theorem effectThreePhaseLoss_lost (hup : s.hostUp = true) (hgood : s.ang.lost = false) (hsrc : s.ang.source = 1) :
    effectThreePhaseLoss s = s.loseSource :=
  if_pos (by simp [hup, hgood, hsrc])

theorem effectEncoderLoss_lost (hup : s.hostUp = true) (hgood : s.ang.lost = false) (hsrc : s.ang.source = 2)
    (hdue : s.ang.encAt / ms + field s.ang.encTmo 0 16 + 1 ≤ s.now / ms) : effectEncoderLoss s = s.loseSource :=
  if_pos (by simp [hup, hgood, hsrc, hdue])

theorem effectPpcLoss_lost (hup : s.hostUp = true) (hgood : s.ang.lost = false) (hsrc : s.ang.source = 3)
    (hdue : 3 * sec * 65536 ≤ 2 * ((s.now / us - (s.ang.ppcAt / us + 1)) * us) * s.ang.freq.toNat) :
    effectPpcLoss s = s.loseSource :=
  if_pos (by simp only [hup, hgood, hsrc, hdue, decide_true, Bool.not_false, Bool.and_self])

/-- A pulse of a good source is its reference from now on. -/
def State.pulsed (s : State) : State := { s with ang := { s.ang with ppcAt := s.now, ppcSeen := true, goodCycles := 0 } }

theorem effectPpcEdge_pulse (hup : s.hostUp = true) (hgood : s.ang.lost = false) (hsrc : s.ang.source = 3) :
    effectPpcEdge (flag s.ang.ctrl 8) s =
      if (s.ang.ppcSeen && offBand (s.now - s.ang.ppcAt)) = true then s.pulsed.loseSource else s.pulsed := by
  refine (if_pos (by simp [hup, hsrc])).trans ?_
  have hloses : (!s.ang.lost && s.ang.ppcSeen && offBand (s.now - s.ang.ppcAt)) =
      (s.ang.ppcSeen && offBand (s.now - s.ang.ppcAt)) := by rw [hgood]; rfl
  rw [if_neg (c := s.ang.lost = true) (by simp [hgood]), hloses]
  rfl

/-- The timebase with its source lost at moment now. -/
def Angle.lose (now : Nat) (a : Angle) : Angle :=
  { a with lost := true, lostAt := now, loss := true, fresh := freshen now 2 a.fresh, holdover := true, locked := false
           pull := none, goodCycles := 0 }

theorem State.loseSource_ang : s.loseSource.ang = s.ang.lose s.now := State.raise_keeps .ang (by decide)

/-- Two good cycles, or 256 edges, bring a lost source back (R319). -/
theorem effectSourceReacquired_good {c d : Nat} (hup : s.hostUp = true) (hlost : s.ang.lost = true)
    (henc : s.ang.source = 2 → 256 ≤ s.ang.goodCycles) (hppc : s.ang.source = 3 → 2 ≤ s.ang.goodCycles)
    (hthree : s.ang.source ≠ 2 ∧ s.ang.source ≠ 3 → offBand c = false ∧ offBand d = false ∧ s.ang.lostAt + c + d ≤ s.now) :
    effectSourceReacquired c d s =
      { s.draw with ang := { s.ang with lost := false }.pullIn (s.ang.refError s.free s.now) } := by
  refine if_pos ?_
  rw [hup, hlost]
  split
  case h_1 hsrc => simp [henc hsrc]
  case h_2 hsrc => simp [hppc hsrc]
  case h_3 hnot2 hnot3 =>
    obtain ⟨hc, hd, hdue⟩ := hthree ⟨hnot2, hnot3⟩
    simp [hc, hd, hdue]

end

/-! ### Encoder edges (R317, R320) -/

section

variable {a : Angle} {now : Nat} {x y : Bool}

/-- Places by which a sample of the encoder lines lies ahead of the last one, in the forward order. -/
def Angle.encStep (x y : Bool) (a : Angle) : Nat := (quadrant x y + 4 - quadrant a.encAB.1 a.encAB.2) % 4

theorem Angle.encoder_still (h : a.encStep x y = 0) : a.encoder now x y = { a with encAB := (x, y) } := by
  rw [Angle.encStep] at h
  simp only [Angle.encoder, h]

theorem Angle.encoder_both (h : a.encStep x y = 2) :
    a.encoder now x y = { a with encAB := (x, y), encErr := satInc a.encErr, encAt := now } := by
  rw [Angle.encStep] at h
  simp only [Angle.encoder, h]

/-- The timebase with the encoder at position p. -/
def Angle.encMove (now : Nat) (x y : Bool) (p : Int) (a : Angle) : Angle :=
  { a with encAB := (x, y), encPos := p, encTop := max a.encTop p, reverse := a.source = 2 && p < max a.encTop p, encAt := now
           goodCycles := if a.lost then a.goodCycles + 1 else a.goodCycles }

theorem Angle.encoder_forward (h : a.encStep x y = 1) : a.encoder now x y = a.encMove now x y (a.encPos + 1) := by
  rw [Angle.encStep] at h
  simp only [Angle.encoder, h]
  rfl

theorem Angle.encoder_back (h : a.encStep x y = 3) : a.encoder now x y = a.encMove now x y (a.encPos - 1) := by
  rw [Angle.encStep] at h
  simp only [Angle.encoder, h]
  rfl

theorem Angle.encStep_cases (x y : Bool) (a : Angle) :
    a.encStep x y = 0 ∨ a.encStep x y = 1 ∨ a.encStep x y = 2 ∨ a.encStep x y = 3 := by
  have : a.encStep x y < 4 := Nat.mod_lt _ (by decide)
  omega

/-- What a sample of the encoder lines does, by the places that it lies ahead. -/
theorem Angle.encoder_reads (now : Nat) (x y : Bool) (a : Angle) :
    let b := a.encoder now x y
    let d := a.encStep x y
    b.encAB = (x, y) ∧ (d = 1 → b.encPos = a.encPos + 1) ∧ (d = 3 → b.encPos = a.encPos - 1) ∧
      (d ≠ 1 ∧ d ≠ 3 → b.encPos = a.encPos) ∧ b.encErr = (if d = 2 then satInc a.encErr else a.encErr) ∧
      b.encAt = (if d = 0 then a.encAt else now) ∧
      ((d = 1 ∨ d = 3) → (b.reverse = true ↔ a.source = 2 ∧ b.encPos < b.encTop)) := by
  rcases a.encStep_cases x y with h | h | h | h
  · rw [Angle.encoder_still h]; simp [h]
  · rw [Angle.encoder_forward h]; simp [h, Angle.encMove]
  · rw [Angle.encoder_both h]; simp [h]
  · rw [Angle.encoder_back h]; simp [h, Angle.encMove]

/-- A sample of the encoder lines leaves the source's state and the encoder's cycle. -/
theorem Angle.encoder_keeps (now : Nat) (x y : Bool) (a : Angle) :
    (a.encoder now x y).lost = a.lost ∧ (a.encoder now x y).ctrl = a.ctrl ∧ (a.encoder now x y).enc = a.enc ∧
      (a.encoder now x y).encTurn = a.encTurn ∧ (a.encoder now x y).encZ = a.encZ := by
  unfold Angle.encoder
  dsimp only
  split <;> exact ⟨rfl, rfl, rfl, rfl, rfl⟩

/-- The timebase after a sample of the encoder's three lines. -/
def Angle.sampled (now : Nat) (x y z : Bool) (a : Angle) : Angle :=
  let b := a.encoder now x y
  if z then { b with encZ := some b.encPos } else b

/-- Two timebases hold the same of the encoder's lines, position and errors. -/
structure Angle.SameEncoder (a b : Angle) : Prop where
  encAB : b.encAB = a.encAB
  encPos : b.encPos = a.encPos
  encTop : b.encTop = a.encTop
  encErr : b.encErr = a.encErr
  encAt : b.encAt = a.encAt
  encZ : b.encZ = a.encZ
  reverse : b.reverse = a.reverse

theorem Angle.SameEncoder.rfl : a.SameEncoder a :=
  ⟨Eq.refl _, Eq.refl _, Eq.refl _, Eq.refl _, Eq.refl _, Eq.refl _, Eq.refl _⟩

theorem Angle.encCycle_sameEncoder : a.SameEncoder (a.encCycle now).1 := by
  unfold Angle.encCycle
  dsimp only
  split <;> exact ⟨rfl, rfl, rfl, rfl, rfl, rfl, rfl⟩

theorem Angle.lose_sameEncoder : a.SameEncoder (a.lose now) := ⟨rfl, rfl, rfl, rfl, rfl, rfl, rfl⟩

theorem Angle.SameEncoder.trans {b c : Angle} (h : a.SameEncoder b) (h' : b.SameEncoder c) : a.SameEncoder c :=
  ⟨h'.encAB.trans h.encAB, h'.encPos.trans h.encPos, h'.encTop.trans h.encTop, h'.encErr.trans h.encErr,
    h'.encAt.trans h.encAt, h'.encZ.trans h.encZ, h'.reverse.trans h.reverse⟩

/-- A forward edge now completes the encoder's cycle, and the cycle's length lies out of the band (R317). -/
def Angle.badTurn (now : Nat) (a : Angle) : Prop :=
  field a.enc 0 20 ≤ a.encTurn.1 + 1 ∧ offBand (now - a.encTurn.2) = true

theorem Angle.encCycle_bad : (a.encCycle now).2 = true ↔ a.badTurn now := by
  unfold Angle.encCycle Angle.badTurn
  dsimp only
  split
  case isTrue h => simp [h]
  case isFalse h => simp [h]

end

section

variable {s : State} {x y z : Bool}

/-- The timebase once the cycle of a forward edge is counted. -/
def State.countTurn (s : State) (a : Angle) : State :=
  let b := a.encCycle s.now
  let s := { s with ang := b.1 }
  if b.2 && a.source = 2 && !a.lost then s.loseSource else s

theorem effectEncoderEdge_up (hup : s.hostUp = true) :
    effectEncoderEdge x y z s =
      if (s.ang.sampled s.now x y z).encTop = s.ang.encTop then { s with ang := s.ang.sampled s.now x y z }
      else s.countTurn (s.ang.sampled s.now x y z) := if_pos hup

theorem State.countTurn_sameEncoder (a : Angle) : a.SameEncoder (s.countTurn a).ang := by
  unfold State.countTurn
  dsimp only
  split
  case isTrue => rw [State.loseSource_ang]; exact Angle.encCycle_sameEncoder.trans Angle.lose_sameEncoder
  case isFalse => exact Angle.encCycle_sameEncoder

theorem State.countTurn_lost (a : Angle) :
    (s.countTurn a).ang.lost = true ↔ a.lost = true ∨ a.badTurn s.now ∧ a.source = 2 := by
  have hkept : (a.encCycle s.now).1.lost = a.lost := by
    unfold Angle.encCycle
    dsimp only
    split <;> rfl
  unfold State.countTurn
  dsimp only
  rw [← Angle.encCycle_bad]
  split
  case isTrue h =>
    rw [State.loseSource_ang]
    simp only [Bool.and_eq_true, decide_eq_true_eq] at h
    exact iff_of_true rfl (.inr h.1)
  case isFalse h =>
    simp only [Bool.and_eq_true, decide_eq_true_eq, Bool.not_eq_true', not_and, Bool.not_eq_false] at h
    rw [hkept]
    exact ⟨.inl, fun hor => hor.elim id fun hbad => h hbad⟩

theorem effectEncoderEdge_sameEncoder (hup : s.hostUp = true) :
    (s.ang.sampled s.now x y z).SameEncoder (effectEncoderEdge x y z s).ang := by
  rw [effectEncoderEdge_up hup]
  split
  case isTrue => exact .rfl
  case isFalse => exact State.countTurn_sameEncoder _

end

theorem Angle.sampled_keeps (now : Nat) (x y z : Bool) (a : Angle) :
    (a.sampled now x y z).lost = a.lost ∧ (a.sampled now x y z).source = a.source ∧
      ((a.sampled now x y z).badTurn now ↔ a.badTurn now) := by
  obtain ⟨hlost, hctrl, henc, hturn, -⟩ := a.encoder_keeps now x y
  unfold Angle.sampled Angle.source Angle.badTurn
  dsimp only
  split <;> simp only [hlost, hctrl, henc, hturn, and_self]

/-- The Z index notes the position; the other fields of the encoder are the sample's. -/
theorem Angle.sampled_fields (now : Nat) (x y z : Bool) (a : Angle) :
    let b := a.encoder now x y
    let c := a.sampled now x y z
    c.encAB = b.encAB ∧ c.encPos = b.encPos ∧ c.encTop = b.encTop ∧ c.encErr = b.encErr ∧ c.encAt = b.encAt ∧
      c.reverse = b.reverse ∧ c.encZ = if z then some b.encPos else a.encZ := by
  obtain ⟨-, -, -, -, hz⟩ := a.encoder_keeps now x y
  cases z
  case false => exact ⟨rfl, rfl, rfl, rfl, rfl, rfl, hz⟩
  case true => exact ⟨rfl, rfl, rfl, rfl, rfl, rfl, rfl⟩

theorem effectEncoderEdge_lost {s : State} {x y z : Bool} (hup : s.hostUp = true) :
    (effectEncoderEdge x y z s).ang.lost = true ↔ s.ang.lost = true ∨
      (effectEncoderEdge x y z s).ang.encTop ≠ s.ang.encTop ∧ s.ang.badTurn s.now ∧ s.ang.source = 2 := by
  obtain ⟨hlost, hsrc, hbad⟩ := s.ang.sampled_keeps s.now x y z
  rw [(effectEncoderEdge_sameEncoder hup).encTop, effectEncoderEdge_up hup]
  split
  case isTrue htop => simp [hlost, htop]
  case isFalse htop => rw [State.countTurn_lost, hlost, hsrc, hbad]; simp [htop]

/-! ### Time of day (R326) -/

theorem Angle.todTu_base {a : Angle} {now : Nat} (hbase : a.todBase = now) (hrem : a.todRem = 0) : a.todTu now = 0 := by
  simp [Angle.todTu, hbase, hrem]

/-- The counter right after its load. -/
theorem Angle.tod_base {a : Angle} {now : Nat} (hbase : a.todBase = now) (hrem : a.todRem = 0) :
    a.todSeconds now = a.todSec ∧ a.todNanos now = 0 := by
  simp [Angle.todSeconds, Angle.todNanos, Angle.todElapsed, Angle.todTu_base hbase hrem]

theorem Angle.pps_load {a : Angle} {x : Word} (h : a.todPending = some x) (now : Nat) (rate : Int) :
    a.pps now rate = { a with
      todSec := x, todPending := none, todBase := now, todRem := 0, todPull := 0
      todOld := (a.todSec, a.todBase, a.todRem, a.todPull), ppsGood := 0, ppsLock := true } := by
  rw [Angle.pps, h]

/-! ### Host writes (R328) -/

section

variable {s : State} {fn : Nat} {f : State → State}

theorem State.angWrite_owner (hup : s.hostUp = true) (hown : s.fw.ioOwner = some fn) : s.angWrite fn f = f s := by
  rw [State.angWrite, hup, hown]
  exact if_pos rfl

theorem State.angWrite_denied (hup : s.hostUp = true) (hown : s.fw.ioOwner ≠ some fn) :
    s.angWrite fn f = { s with ang := { s.ang with wrDenied := satInc s.ang.wrDenied } } := by
  rw [State.angWrite, hup]
  exact if_neg hown

end

/-- The phase error that a new offset leaves, the shorter way round: what is still to pull in, and the change. -/
def Angle.offsetError (w : Word) (a : Angle) : Int := shortWay (a.pull.getD 0 / 50 + w.toNat - a.offset.toNat)

section

variable {s : State} {fn : Nat} {w : Word} (hup : s.hostUp = true) (hown : s.fw.ioOwner = some fn)

include hup hown

theorem effectAngOffsetWrite_same (h : w = s.ang.offset) : effectAngOffsetWrite fn w s = s :=
  (State.angWrite_owner hup hown).trans (if_pos h)

theorem effectAngOffsetWrite_new (h : w ≠ s.ang.offset) :
    effectAngOffsetWrite fn w s = { s with ang := { s.ang with offset := w }.pullIn (s.ang.offsetError w) } :=
  (State.angWrite_owner hup hown).trans (if_neg h)

theorem effectAngSourceWrite_same (h : field (s.ang.ctrlWord w) 0 2 = s.ang.source) :
    effectAngSourceWrite fn w s = { s with ang := { s.ang with ctrl := s.ang.ctrlWord w } } :=
  (State.angWrite_owner hup hown).trans (if_pos h)

/-- The timebase with control word c, which selects another source: no loss, pulse or cycle of the last one stays. -/
def Angle.select (now : Nat) (c : Word) (a : Angle) : Angle :=
  { a with ctrl := c, lost := false, reverse := false, encAt := now, ppcAt := now, ppcSeen := false, lastThree := now
           goodCycles := 0, encTop := a.encPos, encTurn := (0, now) }

theorem effectAngSourceWrite_new (h : field (s.ang.ctrlWord w) 0 2 ≠ s.ang.source) :
    ∃ e, (effectAngSourceWrite fn w s).ang = (s.ang.select s.now (s.ang.ctrlWord w)).pullIn e := by
  rw [effectAngSourceWrite, State.angWrite_owner hup hown]
  exact ⟨_, congrArg State.ang (if_neg h)⟩

end

/-- Settles O43: each row's guard holds, and the timebase is read off the state that the row leaves. -/
theorem angleTimebaseMoves : Obligations.AngleTimebaseMoves := by
  intro s t fn w hfn hup v now a inc lost denied
  have hupv : v.hostUp = true := hup
  have hwriter : ∀ f : State → State, act (writer fn) t s f = .next (f v) := fun f => if_pos hfn
  refine ⟨fun hdue hfree hrev hpull hsched hwhole => ?update, fun hearly => ?early,
    fun hgood => ⟨fun hsrc => ?threeLoss, fun hsrc hdue => ?encoderLoss, fun hsrc hdue => ?ppcLoss, fun b hsrc hedge => ?ppcEdge⟩,
    fun c d hlost henc hppc hthree => ?reacquired, fun x y z => ?encoderEdge, fun x hpending => ?pps,
    fun hown => ⟨?todSec, fun hsame => ?offsetSame, fun hnew => ?offsetNew, fun hsame => ?sourceSame, fun hnew => ?sourceNew⟩,
    fun hown => ?denied, ?cycLo⟩
  case update =>
    have hang : v.turnOn.ang = _ := State.turnOn_ang (s := v) hfree hrev hpull hwhole
    obtain ⟨ticks, hticks⟩ := v.turnOn.clockTicks_ang a.unwrapped
    have hkeep := v.turnOn.clockTicks_keeps a.unwrapped
    have hturned : (v.turnOn.clockTicks a.unwrapped).ang.unwrapped = v.turnOn.ang.unwrapped := by rw [hticks]; rfl
    refine ⟨v.turnOn.clockTicks a.unwrapped, congrArg _ (effectAngleUpdate_unscheduled hupv hdue hsched), ?_, ?_, ?_, ?_,
      congrArg Fw.groupsNext (hkeep .fw (by decide)), fun u img => ?_⟩
    case refine_5 =>
      rw [hkeep.prog_eq (by decide), State.passCrossings_prog, hturned]
      rfl
    all_goals
      rw [hticks, hang]
      rfl
  case early => exact congrArg _ (effectAngleUpdate_early (s := v) hearly)
  case threeLoss => exact congrArg _ (effectThreePhaseLoss_lost hupv hgood hsrc)
  case encoderLoss => exact congrArg _ (effectEncoderLoss_lost hupv hgood hsrc hdue)
  case ppcLoss => exact congrArg _ (effectPpcLoss_lost hupv hgood hsrc hdue)
  case ppcEdge =>
    subst hedge
    intro y
    have hpulse := effectPpcEdge_pulse hupv hgood hsrc
    constructor
    · intro hband
      refine congrArg _ (hpulse.trans (if_neg ?_))
      rw [Bool.and_eq_true, not_and_or, Bool.not_eq_true, Bool.not_eq_true]
      exact hband
    · intro hseen hband
      exact congrArg _ (hpulse.trans (if_pos (Bool.and_eq_true_iff.2 ⟨hseen, hband⟩)))
  case reacquired =>
    have hexec : exec (.sourceReacquired ⟨t, c, d⟩) s = .next (effectSourceReacquired c d v) := rfl
    exact ⟨_, hexec.trans (congrArg _ (effectSourceReacquired_good hupv hlost henc hppc hthree)), rfl, ⟨_, rfl⟩, rfl, rfl,
      rfl⟩
  case encoderEdge =>
    have hsame := effectEncoderEdge_sameEncoder (x := x) (y := y) (z := z) hupv
    obtain ⟨hAB, hpos, htop, herr, hat, hrev, hz⟩ := a.sampled_fields now x y z
    obtain ⟨rAB, rForward, rBack, rStill, rErr, rAt, rRev⟩ := a.encoder_reads now x y
    have hpos' := hsame.encPos.trans hpos
    refine ⟨effectEncoderEdge x y z v, rfl, (hsame.encAB.trans hAB).trans rAB, fun h => hpos'.trans (rForward h),
      fun h => hpos'.trans (rBack h), fun h => hpos'.trans (rStill h), (hsame.encErr.trans herr).trans rErr,
      (hsame.encAt.trans hat).trans rAt, ?_, ?_, fun h => ?_⟩
    · rw [hpos']
      exact hsame.encZ.trans hz
    · refine (effectEncoderEdge_lost hupv).trans ?_
      rw [Angle.badTurn, and_assoc]
      rfl
    · rw [hpos', hsame.encTop.trans htop, hsame.reverse.trans hrev]
      exact rRev h
  case pps =>
    have hload := Angle.pps_load hpending now (Config.todRate v.free)
    have htod : (a.pps now (Config.todRate v.free)).todSeconds now = (a.pps now (Config.todRate v.free)).todSec ∧
        (a.pps now (Config.todRate v.free)).todNanos now = 0 :=
      Angle.tod_base (by rw [hload]) (by rw [hload])
    have hexec : exec (.ppsEdge t) s = .next { v.draw with ang := a.pps now (Config.todRate v.free) } :=
      congrArg _ (if_pos hupv)
    refine ⟨_, hexec, ?_, ?_, ?_, ?_, ?_, htod.1.trans ?_, htod.2⟩
    all_goals rw [hload]
  case todSec => exact (hwriter _).trans (congrArg _ (State.angWrite_owner hupv hown))
  case offsetSame => exact (hwriter _).trans (congrArg _ (effectAngOffsetWrite_same hupv hown hsame))
  case offsetNew => exact (hwriter _).trans (congrArg _ (effectAngOffsetWrite_new hupv hown hnew))
  case sourceSame => exact (hwriter _).trans (congrArg _ (effectAngSourceWrite_same hupv hown hsame))
  case sourceNew =>
    obtain ⟨e, hang⟩ := effectAngSourceWrite_new hupv hown hnew
    refine ⟨effectAngSourceWrite fn w v, hwriter _, ?_⟩
    beta_reduce
    rw [hang]
    exact ⟨rfl, rfl, rfl, Option.some_ne_none _, rfl, rfl⟩
  case denied =>
    have hdenied : ∀ f, v.angWrite fn f = denied := fun f => State.angWrite_denied hupv hown
    exact ⟨(hwriter _).trans (congrArg _ (hdenied _)), (hwriter _).trans (congrArg _ (hdenied _)),
      (hwriter _).trans (congrArg _ (hdenied _))⟩
  case cycLo => exact (hwriter _).trans (congrArg _ (if_pos hupv))

end Sys2Proof.Machine
end

section
-- One proof after another: each further thread reserves a whole stack.
set_option Elab.async false
/-! The canonical form of the memories: what each operation of the model leaves of HBM, cluster SRAM, the inactive flash
bank and the mailbox pages (R211, R212, R222, R357, R384). -/

namespace Sys2Proof.Machine

/-! ### A channel's page (R357 to R359, R365, R382) -/

section

variable {c : Channel}

theorem Channel.raiseVector_page (c : Channel) (v : Nat) : (c.raiseVector v).page = c.page := by
  unfold Channel.raiseVector
  split <;> rfl

/-- Whatever vector it raises, a slot written goes to the ring's next place. -/
theorem Channel.writeOut_wf (heads : List Half) (ch : Nat) (m : OutMsg) (h : c.page.wf = true) :
    (c.writeOut heads ch m).page.wf = true := by
  simp only [Channel.writeOut, apply_ite Channel.page, Channel.raiseVector_page, ite_self]
  exact Memory.wf_write _ _ h

theorem Channel.deliverHeld_wf (heads : List Half) (ch : Nat) (h : c.page.wf = true) :
    (c.deliverHeld heads ch).page.wf = true := by
  unfold Channel.deliverHeld
  split
  · exact h
  · split
    · exact Channel.writeOut_wf _ _ _ h
    · exact h

theorem Channel.drain_wf (heads : List Half) (ch n : Nat) (h : c.page.wf = true) :
    (c.drain heads ch n).page.wf = true := by
  induction n generalizing c with
  | zero => exact h
  | succ n ih => exact ih (Channel.deliverHeld_wf heads ch h)

theorem Channel.holdEvent_wf (now : Nat) (heads : List Half) (ch : Nat) (m : OutMsg) (h : c.page.wf = true) :
    (c.holdEvent now heads ch m).page.wf = true := by
  simp only [Channel.holdEvent, apply_ite Channel.page, ite_self]
  split
  · exact Channel.drain_wf heads ch 32 h
  · exact h

theorem Memory.wf_stamp (ch i n : Nat) {m : Memory} (h : m.wf = true) : (stamp ch m i n).wf = true := by
  induction n generalizing m i with
  | zero => exact h
  | succ n ih => exact ih _ (Memory.wf_write _ _ h)

theorem Channel.doorbell_wf (ch : Nat) (tail : Half) (h : c.page.wf = true) : (c.doorbell ch tail).page.wf = true := by
  unfold Channel.doorbell
  dsimp only
  split
  · exact h
  · split
    · exact h
    · exact Memory.wf_stamp _ _ _ h

theorem Channel.commitSlot_wf (ch : Nat) (slot : List Byte) (h : c.page.wf = true) :
    (c.commitSlot ch slot).page.wf = true := by
  unfold Channel.commitSlot
  split
  · exact Channel.doorbell_wf ch _ (Memory.wf_write _ _ h)
  · exact h

theorem Channel.outHeadWrite_page (ch : Nat) (tail0 head : Half) : (c.outHeadWrite ch tail0 head).page = c.page := by
  simp only [Channel.outHeadWrite, apply_ite Channel.page, Channel.raiseVector_page, ite_self]

theorem Channel.advanceHead_page (ch now : Nat) : (c.advanceHead ch now).page = c.page := by
  simp only [Channel.advanceHead, apply_ite Channel.page, Channel.raiseVector_page, ite_self]

theorem Channel.busyStart_wf (k : Nat) (h : c.page.wf = true) : (c.busyStart k).page.wf = true := by
  unfold Channel.busyStart
  dsimp only
  split
  · exact h
  · exact Memory.wf_write _ _ h

theorem Channel.pageWrite_wf (off : Nat) (v : Word) (h : c.page.wf = true) : (c.pageWrite off v).page.wf = true := by
  unfold Channel.pageWrite
  split
  · exact h
  · exact Memory.wf_write _ _ h

theorem Channel.msixWrite_page (i : Nat) (v : Word) : (c.msixWrite i v).page = c.page := by
  simp only [Channel.msixWrite, apply_ite Channel.page, ite_self]

end

/-! ### Which parts of the state hold memories -/

namespace State.Canonical

/-- The parts of the state that hold a memory. -/
def memoryParts : List Part := [.aon, .chans, .hbm, .sram]

variable {L : List Part} {s x : State}

/-- The same memories are as canonical. -/
theorem record (h : s.Canonical) (hflash : x.aon.flash = s.aon.flash := by rfl) (hchans : x.chans = s.chans := by rfl)
    (hhbm : x.hbm = s.hbm := by rfl) (hsram : x.sram = s.sram := by rfl) : x.Canonical where
  hbm := hhbm ▸ h.hbm
  usable := hhbm ▸ h.usable
  sram := hsram ▸ h.sram
  flash := hflash ▸ h.flash
  pages ch hch := by
    have hchan : x.chan ch = s.chan ch := congrArg (fun m => Tab.get ({} : Channel) m ch) hchans
    exact hchan ▸ h.pages ch hch

/-- What a frame leaves out of the memories leaves them canonical. -/
theorem frame (h : s.Canonical) (hk : State.Keeps L s x) (hL : ∀ p ∈ memoryParts, p ∉ L := by decide) : x.Canonical :=
  h.record (congrArg Aon.flash (hk .aon (hL _ (by decide)))) (hk .chans (hL _ (by decide))) (hk .hbm (hL _ (by decide)))
    (hk .sram (hL _ (by decide)))

theorem ite {p : Prop} [Decidable p] {y : State} (hx : p → x.Canonical) (hy : ¬ p → y.Canonical) :
    (if p then x else y).Canonical := by
  split
  next hp => exact hx hp
  next hp => exact hy hp

theorem each {α : Type} {f : State → α → State} (h : s.Canonical) (xs : List α)
    (hf : ∀ y a, y.Canonical → (f y a).Canonical) : (s.each xs f).Canonical := by
  induction xs generalizing s with
  | nil => exact h
  | cons a xs ih => exact ih (hf s a h)

theorem modChan (h : s.Canonical) (ch : Nat) {f : Channel → Channel}
    (hf : ∀ c : Channel, c.page.wf = true → (f c).page.wf = true) : (s.modChan ch f).Canonical where
  hbm := h.hbm
  usable := h.usable
  sram := h.sram
  flash := h.flash
  pages i hi := by
    rw [State.modChan_set, State.chan_setChan]
    split
    next he => exact hf _ (he ▸ h.pages i hi)
    next => exact h.pages i hi

/-- A change of a channel's record beside its page. -/
theorem modChan_record (h : s.Canonical) (ch : Nat) {f : Channel → Channel}
    (hf : ∀ c : Channel, (f c).page = c.page := by exact fun _ => rfl) : (s.modChan ch f).Canonical :=
  h.modChan ch fun c hc => (hf c).symm ▸ hc

/-- A change of the always-on record beside the inactive flash bank. -/
theorem modAon (h : s.Canonical) {f : Aon → Aon} (hf : ∀ a : Aon, (f a).flash = a.flash := by exact fun _ => rfl) :
    (s.modAon f).Canonical := h.record (hf _)

/-! ### Bytes written (R158, R211, R212, R222) -/

theorem writeHbm (h : s.Canonical) (a : Nat) (bs : List Byte) : (s.writeHbm a bs).Canonical where
  hbm := State.writeHbm_wf h.hbm
  usable _ hc := (List.mem_filter.1 hc).2
  sram := h.sram
  flash := h.flash
  pages := h.pages

theorem writeSram (h : s.Canonical) (a : Nat) (bs : List Byte) : Canonical { s with sram := s.sram.write a bs } where
  hbm := h.hbm
  usable := h.usable
  sram := Memory.wf_write a bs h.sram
  flash := h.flash
  pages := h.pages

theorem writeBuf (h : s.Canonical) (p i off : Nat) (bs : List Byte) : (s.writeBuf p i off bs).Canonical := by
  unfold State.writeBuf
  exact ite (fun _ => h.writeHbm _ _) fun _ => h.writeSram _ _

theorem sideWrite (h : s.Canonical) (a addr : Nat) (bs : List Byte) : (s.sideWrite a addr bs).Canonical := by
  unfold State.sideWrite
  exact ite (fun _ => h.writeHbm _ _) fun _ => h.writeSram _ _

/-! ### Messages to the host (R365, R374, R376, R385) -/

theorem postKept {ch : Nat} {m : OutMsg} (h : s.Canonical) : (s.postKept ch m).Canonical :=
  h.modChan ch fun _ hc => by
    split
    · exact Channel.writeOut_wf _ _ _ hc
    · exact hc

theorem raise {code : Nat} {body : List Byte} (h : s.Canonical) : (s.raise code body).Canonical := by
  unfold State.raise
  refine ite (fun _ => h.each _ fun y ch hy => ?_) fun _ => h
  exact ite (fun _ => hy.modChan ch fun _ hc => Channel.holdEvent_wf _ _ _ _ hc) fun _ => hy

end State.Canonical
end Sys2Proof.Machine
end

section
-- One proof after another: each further thread reserves a whole stack.
set_option Elab.async false
/-! Memories stay canonical in firing lists, stream engines and links. -/

namespace Sys2Proof.Machine

namespace State.Canonical

variable {s : State} {img e d code cl k p n ch : Nat} {u : UnitId}

/-! ### Model steps and list faults (R171, R178, R179, R184) -/

theorem markAbort {cause stream : Nat} (h : s.Canonical) : (s.markAbort img cause stream).Canonical := h.frame markAbort_keeps

theorem dropStart (h : s.Canonical) : (s.dropStart img).Canonical :=
  (h.record : (s.modImage img fun r => { r with overrun := r.overrun + 1 }).Canonical).raise

theorem startStep (h : s.Canonical) : (s.startStep img).Canonical := by
  unfold State.startStep
  exact ite (fun _ => h) fun _ => ite (fun _ => h.dropStart) fun _ =>
    (h.record.each _ fun _ _ hy => hy.record).each _ fun _ _ hy => hy.record

theorem startSteps (h : s.Canonical) : (s.startSteps img n).Canonical := by
  induction n generalizing s with
  | zero => exact h
  | succ n ih => exact ih h.startStep

theorem abortStep {cause stream : Nat} (h : s.Canonical) : (s.abortStep img cause stream).Canonical := by
  unfold State.abortStep
  refine ite (fun _ => ?_) fun _ => h
  have hunits : (s.each (s.unitsOf img) fun s u => s.abortUnit img u).Canonical :=
    h.each _ fun _ _ hy => hy.frame abortUnit_keeps
  exact raise (frame (each (each (each (each (each hunits _ fun _ _ hy => hy.record) _ fun _ _ hy => hy.record)
    _ fun _ _ hy => hy.record) _ fun _ _ hy => hy.record) _ fun _ _ hy => hy.record) modImage_keeps)

theorem onOp {code : Nat} {f : State → Dword → State} (h : s.Canonical) (hf : ∀ y o, y.Canonical → (f y o).Canonical) :
    (s.onOp u img code f).Canonical := by
  unfold State.onOp
  exact ite (fun _ => hf _ _ h) fun _ => h

theorem effectEvent (h : s.Canonical) : (effectEvent u img s).Canonical := h.onOp fun _ _ hy => hy.raise.frame finish_keeps

theorem effectListFault (h : s.Canonical) : (effectListFault u img s).Canonical := by
  unfold Machine.effectListFault
  exact ite (fun _ => h.record.raise.markAbort) fun _ => h

theorem effectTokenInvalid {tok : Dword} (h : s.Canonical) : (effectTokenInvalid u tok s).Canonical := by
  unfold Machine.effectTokenInvalid
  exact ite (fun _ => h.raise) fun _ => h

theorem effectFenceOrder (h : s.Canonical) : (effectFenceOrder u img s).Canonical := by
  unfold Machine.effectFenceOrder
  split
  · exact h
  · have hraised {p : Prop} [Decidable p] {i : Nat} :
        (if p then (s.raise 0x8003 (toLe 2 i)).markAbort img 3 i else s).Canonical :=
      ite (fun _ => h.raise.markAbort) fun _ => h
    exact frame (frame (each hraised _ fun _ _ hy => hy.frame sendError_keeps) markAll_keeps) modProg_keeps

theorem effectStepAborted (h : s.Canonical) : (effectStepAborted img s).Canonical := by
  unfold Machine.effectStepAborted
  split
  · exact h.abortStep
  · exact h

theorem effectStall {i : Nat} (h : s.Canonical) : (effectStall i s).Canonical := by
  unfold Machine.effectStall
  dsimp only
  split
  · refine ite (fun _ => h) fun _ => ?_
    split
    · exact (h.raise.frame modStream_keeps).markAbort
    · exact (h.raise.frame modStream_keeps)
  · exact h

/-! ### Firing (R145, R146, R158) -/

theorem fire {ins outs : List Nat} {work : State → List Dword → List (Nat × Nat) → Work} (h : s.Canonical)
    (hwork : ∀ y toks hs, y.Canonical → (work y toks hs).st.Canonical) : (s.fire u img ins outs work).Canonical := by
  have hmarked {why : Ready} {ps : List Nat} : (s.markAll outs why (pools := ps)).Canonical := h.frame markAll_keeps
  unfold State.fire
  dsimp only
  split
  · exact hmarked
  · have htaken := (hmarked (why := .ready) (ps := [])).each ins fun y i hy => hy.frame (x := y.takeHead u i) takeHead_keeps
    split
    · exact frame (each (htaken.frame sendError_keeps) _ fun _ _ hy => hy.frame releaseTok_keeps) finish_keeps
    · have hspent := htaken.each outs fun y o hy =>
        (hy.frame takeHandle_keeps).frame (x := (y.takeHandle o).modStream o fun m => m.spend) modStream_keeps
      exact frame (frame (each (hwork _ _ _ hspent) _ fun _ _ hy => hy.frame releaseTok_keeps) sendOutputs_keeps)
        finish_keeps

/-! ### Units that write their result (R146, R158, R195 to R206) -/

section

variable {hs : List (Nat × Nat)}

/-- A result goes into the buffers of the handles that its outputs offered. -/
theorem writeBufs {p : State → Nat × Nat → Nat} {bs : List Byte} (h : s.Canonical) :
    (s.each hs fun s h => s.writeBuf (p s h) h.2 0 bs).Canonical :=
  h.each _ fun _ _ hy => hy.writeBuf _ _ _ _

theorem effectReduce (h : s.Canonical) : (effectReduce u img s).Canonical :=
  h.onOp fun _ _ hy => hy.fire fun _ _ _ hz => hz.writeBufs

theorem vop {func : Nat} {wide : Bool} {cycles : Nat → Nat} {f : VopIn → List Word} (h : s.Canonical) :
    (s.vop u img func wide cycles f).Canonical :=
  h.onOp fun _ _ hy => ite (fun _ => hy.fire fun _ _ _ hz => hz.writeBufs) fun _ => hy

theorem vopIndexed {func w : Nat} {f : VopIn → List (List Word) × Nat} (h : s.Canonical) :
    (s.vopIndexed u img func w f).Canonical := by
  refine h.onOp fun _ _ hy => ite (fun _ => hy.fire fun z _ _ hz => ?_) fun _ => hy
  dsimp only
  split
  · exact writeBufs (hz.frame modCore_keeps)
  · exact hz.writeBufs

theorem storePairs {q : Nat} {ps : List Pair} (h : s.Canonical) : (s.storePairs p q ps).Canonical :=
  writeBuf (h.frame modPool_keeps) _ _ _ _

theorem raiseQnt {stream sat under : Nat} {seq satT underT : Half} {replayed : Bool} (h : s.Canonical) :
    (s.raiseQnt stream seq sat under satT underT replayed).Canonical := by
  unfold State.raiseQnt
  have hsat {q : Prop} [Decidable q] {code : Nat} {body : List Byte} :
      (if q then s.raise code body else s).Canonical := ite (fun _ => h.raise) fun _ => h
  exact ite (fun _ => hsat.raise) fun _ => hsat

theorem effectQuantEncode (h : s.Canonical) : (effectQuantEncode u img s).Canonical :=
  h.onOp fun _ _ hy => ite (fun _ => hy) fun _ => hy.fire fun _ _ _ hz =>
    raiseQnt (each (hz.frame setStream_keeps) _ fun _ _ hw => hw.storePairs)

theorem effectQuantDecode (h : s.Canonical) : (effectQuantDecode u img s).Canonical := by
  refine h.onOp fun _ _ hy => ite (fun _ => hy.fire fun z _ _ hz => ?_) fun _ => hy
  dsimp only
  split
  · exact hz.frame modStream_keeps
  · exact writeBufs (hz.frame modStream_keeps)

theorem effectRecv (h : s.Canonical) : (effectRecv u img s).Canonical := by
  refine h.onOp fun y o hy => ite (fun _ => ?_) fun _ => ?_
  · exact ite (fun _ => (hy.frame sendError_keeps).frame finish_keeps) fun _ => hy.frame markAll_keeps
  · split
    · exact hy.frame markAll_keeps
    · refine hy.fire fun _ _ _ hz => each ?_ _ fun _ _ hw => hw.storePairs
      exact each ((hz.frame modStream_keeps).frame modStream_keeps) _ fun _ _ hw => hw.frame modLink_keeps

theorem effectFieldFill (h : s.Canonical) : (effectFieldFill u img s).Canonical :=
  h.onOp fun _ _ hy => ite (fun _ => hy) fun _ => ite (fun _ => hy.frame markAll_keeps) fun _ =>
    hy.fire fun _ _ _ hz => (hz.writeBuf _ _ _ _).frame modConv_keeps

end

/-! ### Tile packets that end (R129, R135 to R138) -/

theorem deliver {q : Packet} {e : Nat} (h : s.Canonical) : (s.deliver cl q e k).Canonical := by
  unfold State.deliver
  split
  · exact h
  · refine frame ?_ modCore_keeps
    have hsent {p i off o b : Nat} {bs : List Byte} {v : UnitId} {tok : Dword} :
        ((s.writeBuf p i off bs).sendOn v o tok b).Canonical := (h.writeBuf _ _ _ _).frame sendOn_keeps
    exact ite (fun _ => hsent.frame modCluster_keeps) fun _ => hsent

theorem closePacket {f e : Nat} {q : Packet} (h : s.Canonical) : (s.closePacket cl f e q).Canonical := by
  unfold State.closePacket
  refine frame (frame (frame (each ?_ _ fun _ _ hy => hy.deliver) releaseTok_keeps) modFeeder_keeps) finish_keeps
  exact h.raiseQnt.frame modStream_keeps

theorem replayPacket {f e : Nat} {q : Packet} (h : s.Canonical) : (s.replayPacket cl f e q).Canonical := by
  unfold State.replayPacket
  refine frame (each (frame ?_ modStream_keeps) _ fun _ _ hy => hy.frame modCore_keeps) modFeeder_keeps
  exact ite (fun _ => h.raiseQnt) fun _ => h

theorem effectPacketEnd {f : Nat} (h : s.Canonical) : (effectPacketEnd cl f s).Canonical := by
  unfold Machine.effectPacketEnd
  split
  · split
    · exact ite (fun _ => h.closePacket) fun _ => h
    · exact h
  · exact h

theorem effectVerdict {f : Nat} (h : s.Canonical) : (effectVerdict cl f s).Canonical := by
  unfold Machine.effectVerdict
  split
  · split
    · exact ite (fun _ => ite (fun _ => h.replayPacket) fun _ => h.closePacket) fun _ => h
    · exact h
  · exact h

/-! ### The host's writes (R211, R212) -/

theorem effectHostBar2Write {a : Nat} {bs : List Byte} (h : s.Canonical) : (effectHostBar2Write a bs s).Canonical := by
  unfold Machine.effectHostBar2Write
  exact ite (fun _ => (h.writeHbm _ _).frame countOor_keeps) fun _ => h

/-! ### Stream engines (R213, R217, R221 to R229) -/

section

variable {w : List Byte} {byImg : Option Nat} {f : Flight}

theorem descError (h : s.Canonical) : (s.descError e d code w).Canonical := by
  have hraised {n : Nat} {k : Desc} {g : Stack → Stack} {body : List Byte} :
      (((s.setDesc e d k).modStack e g).raise n body).Canonical := raise h.record
  unfold State.descError
  dsimp only
  split
  · exact ite (fun _ => hraised.markAbort) fun _ => hraised
  · exact hraised

theorem armWith (h : s.Canonical) : (s.armWith e d w byImg).Canonical := by
  have hset {k : Desc} : (s.setDesc e d k).Canonical := h.record
  unfold State.armWith
  dsimp only
  cases (s.desc e d).st with
  | idle | done => exact ite (fun _ => hset) fun _ => hset.descError
  | armed | active | draining =>
    exact ite (fun _ => hset.frame modStack_keeps) fun _ => ite (fun _ => hset) fun _ => ite (fun _ => hset) fun _ =>
      h.descError
  | error => exact h.record

theorem arm (h : s.Canonical) : (s.arm e d byImg).Canonical := h.armWith

theorem fwArm (h : s.Canonical) : (s.fwArm e d).Canonical := h.arm.frame modDesc_keeps

theorem xferArm (h : s.Canonical) : (s.xferArm e d img).Canonical := by
  unfold State.xferArm
  dsimp only
  split
  · exact h.arm.frame modDesc_keeps
  · exact h.arm.frame modDesc_keeps
  · exact h.arm

theorem takeLate {late : Option LateArm} (h : s.Canonical) : (s.takeLate e d late).Canonical := by
  unfold State.takeLate
  split
  · refine ite (fun _ => armWith (frame ?_ modDesc_keeps)) fun _ => h
    exact ite (fun _ => h) fun _ => h.record
  · exact h

theorem settleLate (h : s.Canonical) : (s.settleLate e d).Canonical := by
  unfold State.settleLate
  split
  · exact ite (fun _ => armWith h.record) fun _ => h
  · exact h

theorem descDone (h : s.Canonical) : (s.descDone e d).Canonical := by
  have hreport : (s.reportDone e d).Canonical := frame (ite (fun _ => h.raise) fun _ => h) xferDone_keeps
  rw [State.descDone_eq]
  refine takeLate (ite (fun _ => armWith ?_) fun _ => ?_)
  all_goals exact ite (fun _ => (hreport.frame modDesc_keeps).arm) fun _ => hreport.frame modDesc_keeps

theorem moveBytes {i j : Nat} (h : s.Canonical) : (s.moveBytes w i j).Canonical := by
  unfold State.moveBytes
  refine ite (fun _ => ite (fun _ => h) fun _ => h.sideWrite _ _ _) fun _ => ?_
  exact ite (fun _ => h.writeBuf _ _ _ _) fun _ => h.sideWrite _ _ _

theorem endAbort (h : s.Canonical) : (s.endAbort e d).Canonical := by
  unfold State.endAbort
  refine ite (fun _ => ?_) fun _ => h
  split
  · exact armWith h.record
  · exact h.record

theorem settleFlight {q : Desc} {from_ : Option Nat} (h : s.Canonical) : (s.settleFlight e d q f from_).Canonical := by
  have hread : (match from_ with | some a => s.readHbm a f.size | none => s).Canonical := by
    cases from_ with
    | some a => exact h.frame readHbm_keeps
    | none => exact h
  refine ite (fun _ => (hread.frame discard_keeps).endAbort) fun _ =>
    ite (fun _ => (hread.frame discard_keeps).descError) fun _ => ?_
  have hsent := ((hread.moveBytes (w := q.work) (i := f.idx) (j := f.handle)).frame
    (x := State.emptied _ f) emptied_keeps).frame (x := State.modDesc _ e d fun k =>
      { k with finished := k.finished ++ [(f.idx, f.handle, true)] }) modDesc_keeps
  exact ite (fun _ => (hsent.frame emitInOrder_keeps).descDone) fun _ => hsent.frame emitInOrder_keeps

theorem effectTransferComplete {i : Nat} (h : s.Canonical) : (effectTransferComplete e d i s).Canonical := by
  refine settleLate ?_
  cases hfind : (s.desc e d).outstanding.find? fun x => x.idx = i with
  | none =>
    unfold State.transferOver
    dsimp only
    rw [hfind]
    exact h
  | some f =>
    rw [State.transferOver_eq hfind]
    exact settleFlight (h.frame landed_keeps)

theorem effectDescCompToken (h : s.Canonical) : (effectDescCompToken e d s).Canonical := by
  refine settleLate ?_
  unfold State.completionToken
  refine ite (fun _ => ite (fun _ => h) fun _ => ite (fun _ => ?_) fun _ => h.frame markAll_keeps) fun _ => h
  exact descDone (h.frame completed_keeps)

theorem effectXfer (h : s.Canonical) : (effectXfer u img s).Canonical := by
  refine h.onOp fun y o hy => ?_
  split
  · refine frame (xferArm ?_) finish_keeps
    exact ite (fun _ => hy.record) fun _ => hy
  · exact hy

end

/-! ### Links (R398, R402, R405 to R413) -/

theorem setLinkState {st : BitVec 2} {reason : BitVec 3} (h : s.Canonical) : (s.setLinkState n st reason).Canonical := by
  have hlink {g : Link → Link} : ((s.countCodewords n).modLink n g).Canonical :=
    (h.frame countCodewords_keeps).frame modLink_keeps
  unfold State.setLinkState
  exact ite (fun _ => hlink) fun _ => hlink.raise

theorem linkGoesDown {reason : BitVec 3} (h : s.Canonical) : (s.linkGoesDown n reason).Canonical := by
  unfold State.linkGoesDown
  refine ite (fun _ => h.record) fun _ => ?_
  have hlost : ((s.setLinkState n 0 reason).loseLink n).Canonical := h.setLinkState.frame loseLink_keeps
  exact ite (fun _ => hlost) fun _ => hlost.setLinkState

theorem passThrough (h : s.Canonical) : (s.passThrough n).Canonical := by
  unfold State.passThrough
  exact ite (fun _ => h) fun _ => h.setLinkState.frame loseLink_keeps

theorem effectLinkDown {reason : BitVec 3} (h : s.Canonical) : (effectLinkDown n reason s).Canonical := by
  unfold Machine.effectLinkDown
  exact ite (fun _ => h) fun _ => h.linkGoesDown

theorem effectLinkTimer (h : s.Canonical) : (effectLinkTimer n s).Canonical := by
  unfold Machine.effectLinkTimer
  exact ite (fun _ => h.linkGoesDown) fun _ => h

theorem laneFails {lane : Nat} (h : s.Canonical) : (s.laneFails n lane).Canonical := by
  unfold State.laneFails
  refine ite (fun _ => h) fun _ => ite (fun _ => ite (fun _ => h.linkGoesDown) fun _ => h) fun _ =>
    ite (fun _ => ?_) fun _ => h
  split
  · exact ite (fun _ => h) fun _ => h.linkGoesDown
  · exact h.record

theorem effectLaneLockLoss {lanes : List Nat} (h : s.Canonical) : (effectLaneLockLoss n lanes s).Canonical := by
  unfold Machine.effectLaneLockLoss
  split
  · exact h
  · exact h.laneFails
  · exact ite (fun _ => h.linkGoesDown) fun _ => h

theorem sendPeerReady (h : s.Canonical) : (s.sendPeerReady n).Canonical := h.postKept

theorem effectLinkUp {peer : Half} {tl l : BitVec 8} (h : s.Canonical) : (effectLinkUp n peer tl l s).Canonical := by
  unfold Machine.effectLinkUp
  refine ite (fun _ => h) fun _ => ite (fun _ => ?_) fun _ => (h.frame modLink_keeps).setLinkState
  have hup {g : Link → Link} {f : Link → Link} : (((s.modLink n g).modLink n f).setLinkState n 2 0).Canonical :=
    ((h.frame modLink_keeps).frame modLink_keeps).setLinkState
  exact ite (fun _ => hup.sendPeerReady) fun _ => hup

theorem effectControlFrame {crc : Half} {part : List Byte} (h : s.Canonical) :
    (effectControlFrame n crc part s).Canonical := by
  unfold Machine.effectControlFrame
  refine ite (fun _ => h) fun _ => ite (fun _ => ?_) fun _ => h.record
  unfold State.takePart
  refine ite (fun _ => h) fun _ => h.modChan _ fun c hc => ?_
  dsimp only
  split
  · exact hc
  · exact Channel.commitSlot_wf _ _ hc

end State.Canonical
end Sys2Proof.Machine
end

section
-- One proof after another: each further thread reserves a whole stack.
set_option Elab.async false
/-! Memories stay canonical in field loops, ring holding and the angle timebase. -/

namespace Sys2Proof.Machine

namespace State.Canonical

variable {s : State} {cl k n p r code : Nat} {z : CalSlot}

/-! ### Field loops (R278 to R300) -/

theorem capture (h : s.Canonical) : (s.capture n).Canonical := by
  unfold State.capture
  refine ite (fun _ => ite (fun _ => h.record) fun _ => ite (fun _ => raise h.record) fun _ => h.record) fun _ => h

theorem loopFreeze {set : Nat} {l : FieldLoop} (h : s.Canonical) : (s.loopFreeze n set l).Canonical :=
  frame (raise (h.frame setLoop_keeps)) refreshIdle_keeps

theorem updateLoop (h : s.Canonical) : (s.updateLoop n).Canonical := by
  have hsignal {g : LoopEng} {a b : Int} :
      (((({ s.prfStep n with loopEng := g } : State).toSignal a).1).toSignal b).1.Canonical := by
    have hstep : Canonical { s.prfStep n with loopEng := g } := (h.frame prfStep_keeps).record
    exact (hstep.frame toSignal_keeps).frame toSignal_keeps
  unfold State.updateLoop
  refine ite (fun _ => hsignal.loopFreeze) fun _ => ?_
  exact ite (fun _ => (hsignal.frame setLoop_keeps).frame loopOutput_keeps) fun _ => hsignal.frame setLoop_keeps

theorem effectLoopUpdate (h : s.Canonical) : (effectLoopUpdate n s).Canonical := by
  unfold Machine.effectLoopUpdate
  exact ite (fun _ => h.updateLoop.capture.frame triggerConvs_keeps) fun _ => ite (fun _ => h.record) fun _ => h

theorem effectSvStale (h : s.Canonical) : (effectSvStale n s).Canonical := by
  unfold Machine.effectSvStale
  exact ite (fun _ => raise (h.frame modLoop_keeps)) fun _ => h

/-! ### Reports of ring holding (R263, R277) -/

theorem ringEvent {v : Nat} (h : s.Canonical) : (s.ringEvent code cl k r v).Canonical := h.raise

theorem moreRings {xs : List (Nat × Int)} (h : s.Canonical) : (s.moreRings cl k n xs).Canonical := by
  induction n generalizing s xs with
  | zero => exact h
  | succ n ih => exact ite (fun _ => h) fun _ => ih h.raise

theorem raiseMislock {xs : List (Nat × Int)} (h : s.Canonical) : (s.raiseMislock cl k xs).Canonical :=
  raise (moreRings h.raise)

/-! ### Cores that leave and come back (R22 to R26, R257 to R264) -/

theorem retireCore (h : s.Canonical) : (s.retireCore cl k).Canonical :=
  frame (ringEvent ((h.frame modCore_keeps).frame modCluster_keeps)) retireCheck_keeps

theorem leave {home : Option Nat} (h : s.Canonical) : (s.leave cl k home).Canonical := by
  unfold State.leave
  dsimp only
  split
  · exact ite (fun _ => h.retireCore) fun _ => (h.frame modCore_keeps).frame mend_keeps
  · exact h.retireCore
  · exact ite (fun _ => h.retireCore) fun _ => ((h.frame modCore_keeps).frame mend_keeps).frame moveMislocked_keeps
  · exact ite (fun _ => h.retireCore) fun _ => ((h.frame modCore_keeps).frame mend_keeps).frame moveMislocked_keeps
  · exact h.frame modCore_keeps

theorem spareDone (h : s.Canonical) : (s.spareDone cl k).Canonical := by
  unfold State.spareDone
  exact ite (fun _ => h.leave) fun _ => h.frame spareBack_keeps

theorem handBack (h : s.Canonical) : (s.handBack cl z).Canonical := by
  unfold State.handBack
  dsimp only
  split
  · exact h
  · have hmoved {p sp e : Nat} {g : Core → Core} :
        (((s.movePos cl p sp z.core e).applyCal cl z.core).modCore cl z.core g).Canonical :=
      ((h.frame movePos_keeps).frame applyCal_keeps).frame modCore_keeps
    exact frame (ite (fun _ => hmoved.leave) fun _ => hmoved.frame modCore_keeps) endSlot_keeps

theorem displace {y : Nat × ClaimRank} (h : s.Canonical) : (s.displace cl y).Canonical := by
  unfold State.displace
  extract_lets c sp
  split
  · extract_lets moved leaving back
    have hback : back.Canonical := by
      have hmoved : moved.Canonical := h.frame movePos_keeps
      unfold back
      split
      · exact (hmoved.frame dropSlot_keeps).frame modCore_keeps
      · exact (hmoved.frame modCore_keeps).frame modCluster_keeps
    exact ite (fun _ => (hback.frame modCluster_keeps).leave.frame claimWear_keeps) fun _ =>
      (hback.frame modCore_keeps).frame modCluster_keeps
  · exact h

theorem recovBack (h : s.Canonical) : (s.recovBack cl k p).Canonical :=
  spareDone (frame (frame (h.frame movePos_keeps) modCore_keeps) modCluster_keeps)

theorem takeOver (h : s.Canonical) : (s.takeOver cl k p).Canonical :=
  leave (frame (frame (h.frame movePos_keeps) wears_keeps) modCore_keeps)

theorem effectHandover (h : s.Canonical) : (effectHandover cl s).Canonical := by
  unfold Machine.effectHandover
  dsimp only
  split
  · exact ite (fun _ => h.displace) fun _ => h
  · split
    · exact ite (fun _ => h.frame slotOut_keeps) fun _ => h
    · exact ite (fun _ => h.handBack) fun _ => h
    · exact h
  · split
    · exact ite (fun _ => h.recovBack) fun _ => h
    · split
      · exact ite (fun _ => h.takeOver) fun _ => h
      · exact h

/-! ### The rotation's calibrations (R244, R252 to R258) -/

theorem loseSlot (h : s.Canonical) : (s.loseSlot cl z).Canonical := by
  have hlost {g : Cluster → Cluster} {f : Core → Core} :
      (((s.modCluster cl g).modCore cl z.core f).retireCore cl z.core).Canonical :=
    retireCore ((h.frame modCluster_keeps).frame modCore_keeps)
  unfold State.loseSlot
  exact ite (fun _ => hlost.frame freeSpare_keeps) fun _ => hlost

theorem effectCalibrationDone {vals : CalValues} (h : s.Canonical) : (effectCalibrationDone cl k vals s).Canonical := by
  unfold Machine.effectCalibrationDone
  dsimp only
  split
  · refine ite (fun _ => ite (fun _ => (h.frame modCore_keeps).frame slotBack_keeps) fun _ => ?_) fun _ => h
    refine ite (fun _ => loseSlot (h.frame modCore_keeps)) fun _ => ringEvent (frame ?_ modCluster_keeps)
    exact (h.frame modCore_keeps).frame mend_keeps
  · exact h

theorem effectCalStarved (h : s.Canonical) : (effectCalStarved cl s).Canonical := by
  unfold Machine.effectCalStarved
  dsimp only
  split
  · exact ite (fun _ => frame (frame (ringEvent (h.frame modCluster_keeps)) modCore_keeps) slotBack_keeps) fun _ => h
  · exact h

theorem calFaults (h : s.Canonical) : (s.calFaults cl n k).Canonical := by
  have hfailed {g : Core → Core} : (s.modCore cl k g).Canonical := h.frame modCore_keeps
  unfold State.calFaults
  dsimp only
  refine ite (fun _ => h) fun _ => ite (fun _ => ?_) fun _ => ?_
  · split
    · exact retireCore (frame ((hfailed.frame movePos_keeps).frame wears_keeps) modCore_keeps)
    · exact (hfailed.frame modCore_keeps).frame claimWear_keeps
    · exact hfailed.retireCore
  · split
    · exact ringEvent (hfailed.frame mend_keeps)
    · exact hfailed.frame mend_keeps

/-! ### The wear spare (R24, R25) -/

theorem warmUp (h : s.Canonical) : (s.warmUp cl k).Canonical :=
  calFaults (frame (frame (h.frame draw_keeps) modCore_keeps) wears_keeps)

theorem useWear (h : s.Canonical) : (s.useWear cl k).Canonical := by
  unfold State.useWear
  dsimp only
  split
  · split
    · refine ite (fun _ => leave (frame (frame (frame ?_ movePos_keeps) modCluster_keeps) modCore_keeps)) fun _ => h
      split
      · exact ite (fun _ => h.frame dropSlot_keeps) fun _ => h
      · exact h
    · exact h.frame modCluster_keeps
  · exact ite (fun _ => (h.frame modCluster_keeps).frame freeSpare_keeps) fun _ => h.frame modCluster_keeps

theorem effectWearSpareReady (h : s.Canonical) : (effectWearSpareReady cl s).Canonical := by
  unfold Machine.effectWearSpareReady
  dsimp only
  split
  · have hwarm {b : Prop} [Decidable b] {w : Nat} : (if b then s.warmUp cl w else s).Canonical :=
      ite (fun _ => h.warmUp) fun _ => h
    exact ite (fun _ => ite (fun _ => hwarm.frame modCluster_keeps) fun _ =>
      ite (fun _ => hwarm.useWear) fun _ => hwarm) fun _ => h
  · exact h

/-! ### Mislocks, probes and engine faults (R107 to R109, R259 to R264) -/

theorem mislocked {xs : List (Nat × Int)} (h : s.Canonical) : (s.mislocked cl k xs).Canonical := by
  have hfound {b : Prop} [Decidable b] {g : Cluster → Cluster} {f : Core → Core} :
      (((if b then s.raiseMislock cl k xs else s).modCluster cl g).modCore cl k f).Canonical :=
    ((ite (fun _ => h.raiseMislock) fun _ => h).frame modCluster_keeps).frame modCore_keeps
  unfold State.mislocked
  dsimp only
  refine ite (fun _ => h) fun _ => ?_
  split
  · exact hfound.frame strike_keeps
  · exact hfound.frame strike_keeps
  · exact (hfound.frame modCluster_keeps).frame moveMislocked_keeps
  · exact ((hfound.frame spareLost_keeps).frame modCore_keeps).frame moveMislocked_keeps
  · exact (hfound.frame modCluster_keeps).frame moveMislocked_keeps
  · exact hfound

theorem checked {xs : List (Nat × Int)} (h : s.Canonical) : (s.checked cl k xs).Canonical := by
  unfold State.checked
  exact mislocked (h.frame modCore_keeps)

theorem recoveryFailed {xs : List (Nat × Int)} (h : s.Canonical) : (s.recoveryFailed cl k xs).Canonical := by
  unfold State.recoveryFailed
  exact ite (fun _ => h.checked.frame modCore_keeps) fun _ => h.checked.retireCore.frame modCluster_keeps

theorem verified (h : s.Canonical) : (s.verified cl k).Canonical := by
  unfold State.verified
  exact checked (h.frame modCore_keeps)

theorem probeSlot {seen : List (Nat × Nat)} (h : s.Canonical) : (s.probeSlot cl k z seen).Canonical := by
  have hlit {b : Prop} [Decidable b] {g : Cluster → Cluster} : (if b then s.modCluster cl g else s).Canonical :=
    ite (fun _ => h.frame modCluster_keeps) fun _ => h
  unfold State.probeSlot
  dsimp only
  refine ite (fun _ => h) fun _ => ite (fun _ => hlit) fun _ => ite (fun _ => ?_) fun _ => ?_
  · exact (hlit.verified.frame modCore_keeps).frame modCluster_keeps
  · split
    · exact ite (fun _ => hlit.checked.frame modCore_keeps) fun _ => loseSlot (hlit.checked.frame modCore_keeps)
    · exact hlit.checked.frame modCore_keeps

theorem effectProbePacket {f : Nat} {seen : List (Nat × Nat)} (h : s.Canonical) :
    (effectProbePacket cl f k seen s).Canonical := by
  have hlit {g : Cluster → Cluster} {q : Core → Core} : ((s.modCluster cl g).modCore cl k q).Canonical :=
    (h.frame modCluster_keeps).frame modCore_keeps
  unfold Machine.effectProbePacket
  dsimp only
  refine ite (fun _ => ?_) fun _ => h
  split
  · exact ite (fun _ => hlit) fun _ => ite (fun _ => hlit.verified.frame recovered_keeps) fun _ => hlit.recoveryFailed
  · exact hlit.probeSlot
  · exact ite (fun _ => hlit.verified) fun _ => ite (fun _ => hlit) fun _ => hlit.checked

/-- What a failed engine does to its core, by where the core stands. -/
theorem effectEngineSpared {row : Nat} (h : s.Canonical) : (effectEngineSpared cl k row s).Canonical := by
  have hfailed {g : Core → Core} : (s.modCore cl k g).Canonical := h.frame modCore_keeps
  unfold Machine.effectEngineSpared
  refine ite (fun _ => ?_) fun _ => h
  extract_lets e y broken lost stops w
  have hy : y.Canonical := hfailed
  have hw : w.Canonical := by
    unfold w
    split
    · exact hy.frame strike_keeps
    · exact hy.frame strike_keeps
    · exact ite (fun _ => hy.loseSlot) fun _ => (hy.frame mend_keeps).frame modCluster_keeps
    · have hlost : (y.spareLost cl k).Canonical := hy.frame spareLost_keeps
      exact ite (fun _ => hlost.retireCore) fun _ => (hlost.frame modCore_keeps).frame mend_keeps
    · have hstops {g : Cluster → Cluster} : (y.modCluster cl g).Canonical := hy.frame modCluster_keeps
      exact ite (fun _ => hstops.retireCore) fun _ => (hstops.frame modCore_keeps).frame mend_keeps
    · exact ite (fun _ => hy.retireCore) fun _ => hy.frame mend_keeps
    · exact hy
  exact ite (fun _ => hw) fun _ => hw.ringEvent

/-! ### Heat, restarts and updates (R26, R245 to R251, R265 to R274) -/

theorem abortUsing {cause : Nat} (h : s.Canonical) : (s.abortUsing cl cause).Canonical := h.frame abortUsing_keeps

theorem thermalOut (h : s.Canonical) : (s.thermalOut cl k r).Canonical := by
  unfold State.thermalOut
  exact frame (abortUsing (ringEvent ((h.frame heldOut_keeps).frame modCluster_keeps))) modCluster_keeps

theorem relock (h : s.Canonical) : (s.relock cl).Canonical := by
  unfold State.relock
  refine frame (each ?_ _ fun _ _ hy => (hy.frame noteDrift_keeps).calFaults) settleProfile_keeps
  exact (h.frame draw_keeps).frame setCluster_keeps

theorem effectClusterRestartEnd (h : s.Canonical) : (effectClusterRestartEnd cl s).Canonical := by
  unfold Machine.effectClusterRestartEnd
  dsimp only
  split
  · exact ite (fun _ => h.relock) fun _ => h
  · exact h

theorem innerRing {err : Int} (h : s.Canonical) : (s.innerRing cl k r err).Canonical := by
  have hsignal {a : Int} : (s.toSignal a).1.Canonical := h.frame toSignal_keeps
  unfold State.innerRing
  refine ite (fun _ => h) fun _ => ite (fun _ => h.frame modCore_keeps) fun _ => ite (fun _ => ?_) fun _ => ?_
  · exact ringEvent ((hsignal.frame modCluster_keeps).frame modCore_keeps)
  · exact hsignal.frame modCore_keeps

theorem effectInnerUpdate {samples : List (List Nat)} (h : s.Canonical) : (effectInnerUpdate cl k samples s).Canonical := by
  have hsampled {f : Core → Core} : (s.modCore cl k f).Canonical := h.frame modCore_keeps
  unfold Machine.effectInnerUpdate
  refine ite (fun _ => ite (fun _ => ?_) fun _ => hsampled) fun _ => h
  extract_lets y z w
  have hz : z.Canonical := frame (hsampled.each _ fun _ _ hy => hy.innerRing) modCore_keeps
  split
  · exact hz.thermalOut
  · exact hz.checked
  · exact hz

theorem effectOuterUpdate (h : s.Canonical) : (effectOuterUpdate cl s).Canonical := by
  unfold Machine.effectOuterUpdate
  refine ite (fun _ => ite (fun _ => h.frame modCluster_keeps) fun _ => ?_) fun _ => h
  exact each ((h.frame draw_keeps).frame modCluster_keeps) _ fun _ _ hy => hy.checked

theorem effectFeedforwardUpdate {sensors : List Int} (h : s.Canonical) :
    (effectFeedforwardUpdate cl sensors s).Canonical := by
  unfold Machine.effectFeedforwardUpdate
  refine ite (fun _ => ?_) fun _ => h
  extract_lets xs band y heat z
  have hz : z.Canonical := each (h.frame modCluster_keeps) _ fun _ _ hy => hy.frame modCore_keeps
  split
  · exact ite (fun _ => (hz.frame closeQuiet_keeps).raise) fun _ => hz
  · exact hz

theorem openQuiet {cls : List Nat} {tens : Nat} (h : s.Canonical) : (s.openQuiet cls tens).Canonical := by
  refine h.each _ fun y c hy => ?_
  unfold State.openQuiet1
  exact ite (fun _ => raise (hy.frame modCluster_keeps)) fun _ => hy.frame modCluster_keeps

theorem effectLineRemapped {line : Nat} (h : s.Canonical) : (effectLineRemapped cl line s).Canonical := by
  have hout {g : Cluster → Cluster} : ((s.modCluster cl g).abortUsing cl 6).Canonical := abortUsing (h.frame modCluster_keeps)
  unfold Machine.effectLineRemapped
  refine ite (fun _ => ite (fun _ => ?_) fun _ => ite (fun _ => ?_) fun _ => hout.frame modCluster_keeps) fun _ => h
  · refine ringEvent (frame (frame (frame ?_ modCluster_keeps) beginRestart_keeps) modCluster_keeps)
    exact (hout.frame wears_keeps).frame shiftLines_keeps
  · exact ((hout.frame wears_keeps).frame modCluster_keeps).frame beginRestart_keeps

theorem effectCombWorn {ratio : Nat} (h : s.Canonical) : (effectCombWorn cl ratio s).Canonical := by
  have hseen {g : Cluster → Cluster} : (s.modCluster cl g).Canonical := h.frame modCluster_keeps
  unfold Machine.effectCombWorn
  exact ite (fun _ => ite (fun _ => hseen.ringEvent) fun _ => hseen) fun _ => h

/-! ### The angle timebase and the scheduler (R315 to R328) -/

theorem schedStart {img : Nat} (h : s.Canonical) : (s.schedStart img).Canonical := by
  unfold State.schedStart
  refine ite (fun _ => h) fun _ => ?_
  split
  · exact ite (fun _ => h.dropStart.modChan _ fun _ hc => Channel.busyStart_wf _ hc) fun _ => h.startStep
  · exact h.startStep

theorem schedAction {e : Nat} {act : Word} (h : s.Canonical) : (s.schedAction e act).Canonical := by
  unfold State.schedAction
  split
  · exact h.schedStart
  · exact h.frame triggerConvs_keeps
  · exact h.frame tickOutputs_keeps
  · exact h.openQuiet
  · exact h.each _ fun _ _ hy => hy.frame advance_keeps
  · exact h.raise
  · exact h

theorem effectAngleUpdate (h : s.Canonical) : (effectAngleUpdate s).Canonical := by
  unfold Machine.effectAngleUpdate
  refine ite (fun _ => each (frame (frame ?_ sampleClock_keeps) sampleClock_keeps) _ fun _ _ hy => hy.schedAction) fun _ => h
  have hgroups : s.draw.nextGroups.Canonical := (h.frame draw_keeps).frame nextGroups_keeps
  exact hgroups.record

theorem loseSource (h : s.Canonical) : s.loseSource.Canonical := raise h.record

theorem effectThreePhaseLoss (h : s.Canonical) : (effectThreePhaseLoss s).Canonical := by
  unfold Machine.effectThreePhaseLoss
  exact ite (fun _ => h.loseSource) fun _ => h

theorem effectEncoderLoss (h : s.Canonical) : (effectEncoderLoss s).Canonical := by
  unfold Machine.effectEncoderLoss
  exact ite (fun _ => h.loseSource) fun _ => h

theorem effectPpcLoss (h : s.Canonical) : (effectPpcLoss s).Canonical := by
  unfold Machine.effectPpcLoss
  exact ite (fun _ => h.loseSource) fun _ => h

theorem effectEncoderEdge {a b c : Bool} (h : s.Canonical) : (effectEncoderEdge a b c s).Canonical := by
  have hangle {g : Angle} : Canonical { s with ang := g } := h.record
  unfold Machine.effectEncoderEdge
  exact ite (fun _ => ite (fun _ => hangle) fun _ => ite (fun _ => hangle.loseSource) fun _ => hangle) fun _ => h

theorem effectPpcEdge {falling : Bool} (h : s.Canonical) : (effectPpcEdge falling s).Canonical := by
  have hangle {g : Angle} : Canonical { s with ang := g } := h.record
  unfold Machine.effectPpcEdge
  exact ite (fun _ => ite (fun _ => hangle.loseSource) fun _ => hangle) fun _ => h

end State.Canonical
end Sys2Proof.Machine
end

section
-- One proof after another: each further thread reserves a whole stack.
set_option Elab.async false
/-! Memories stay canonical in resets, bring-up and the always-on domain. -/

namespace Sys2Proof.Machine

namespace State.Canonical

variable {s x : State} {n : Nat} {code : Half}

/-! ### Resets of domains (R429 to R431) -/

theorem unplace {img : Nat} (h : s.Canonical) : (s.unplace img).Canonical := h.frame unplace_keeps

theorem jobsEnd {is : List Nat} (h : s.Canonical) :
    (s.each is fun s i => (s.abortStep i 9 0xFFFF).unplace i).Canonical :=
  h.each _ fun _ _ hy => hy.abortStep.unplace

/-- Memories of which a reset keeps some bytes, with the mailbox pages as they were. -/
theorem lose (h : s.Canonical) {p q : Host.Cell → Bool} (hhbm : x.hbm = s.hbm.filter p) (hsram : x.sram = s.sram.filter q)
    (hflash : x.aon.flash = s.aon.flash := by rfl) (hchans : x.chans = s.chans := by rfl) : x.Canonical where
  hbm := hhbm ▸ Memory.wf_filter p h.hbm
  usable c hc := h.usable c (List.mem_of_mem_filter (hhbm ▸ hc))
  sram := hsram ▸ Memory.wf_filter q h.sram
  flash := hflash ▸ h.flash
  pages ch hch := by
    have hchan : x.chan ch = s.chan ch := congrArg (fun m => Tab.get ({} : Channel) m ch) hchans
    exact hchan ▸ h.pages ch hch

/-- A reset of D1 empties every mailbox page. -/
theorem loseChans (h : s.Canonical) (hchans : x.chans = [] := by rfl) (hflash : x.aon.flash = s.aon.flash := by rfl)
    (hhbm : x.hbm = s.hbm := by rfl) (hsram : x.sram = s.sram := by rfl) : x.Canonical where
  hbm := hhbm ▸ h.hbm
  usable := hhbm ▸ h.usable
  sram := hsram ▸ h.sram
  flash := hflash ▸ h.flash
  pages ch _ := by
    have hchan : x.chan ch = {} := congrArg (fun m => Tab.get ({} : Channel) m ch) hchans
    exact hchan ▸ rfl

theorem resetD1 (h : s.Canonical) : s.resetD1.Canonical := by
  have hidle : Canonical { s with fw := { s.fw with serving := false } } := h.record
  unfold State.resetD1
  extract_lets fw idle ended unlit records links clusters
  have hunlit : unlit.Canonical := hidle.jobsEnd.each _ fun _ n hy => hy.frame modFout_keeps
  clear_value unlit
  exact frame hunlit.loseChans refreshIdle_keeps

theorem resetD2 {q : Nat} (h : s.Canonical) : (s.resetD2 q).Canonical := by
  unfold State.resetD2
  extract_lets ended unlit
  have hunlit : unlit.Canonical := (h.each _ fun _ _ hy => hy.abortStep).each _ fun _ _ hy => hy.frame faultOutput_keeps
  clear_value unlit
  exact hunlit.lose (p := fun _ => true) (List.filter_true _).symm rfl

theorem resetD3 {q : Nat} (h : s.Canonical) : (s.resetD3 q).Canonical := by
  unfold State.resetD3
  extract_lets ended cold
  have hcold : cold.Canonical := h.jobsEnd.resetD2
  clear_value cold
  exact hcold.lose (q := fun _ => true) rfl (List.filter_true _).symm

theorem resetD4 (h : s.Canonical) : (s.resetD4 n).Canonical :=
  each (h.modAon) _ fun _ _ hy => hy.passThrough

theorem resetAll (h : s.Canonical) : s.resetAll.Canonical := by
  unfold State.resetAll
  refine ite (fun _ => h) fun _ => ?_
  extract_lets held ended emptied dark silent
  have hdark : dark.Canonical := (h.jobsEnd.each _ fun _ _ hy => hy.resetD3).each _ fun _ _ hy => hy.resetD4
  have hsilent : silent.Canonical := ite (fun _ => hdark) fun _ => hdark.resetD1
  clear_value silent
  exact hsilent.record

/-! ### Release from reset, retries, power (R415 to R421, R431, R436) -/

theorem enterStage {st : BitVec 3} (h : s.Canonical) : (s.enterStage st).Canonical := raise h.modAon

theorem releaseD1 (h : s.Canonical) : s.releaseD1.Canonical :=
  enterStage (record (s := s) h)

theorem tryRelease (h : s.Canonical) : s.tryRelease.Canonical := by
  unfold State.tryRelease
  exact ite (fun _ => h) fun _ => ite (fun _ => h.releaseD1) fun _ => h.modAon

theorem retry (h : s.Canonical) : s.retry.Canonical := tryRelease h.resetAll.modAon

/-- Power-up and power loss keep the inactive flash bank alone. -/
theorem powerUp {power : Bool} (h : s.Canonical) : (s.powerUp power).Canonical where
  hbm := rfl
  usable _ hc := absurd hc List.not_mem_nil
  sram := rfl
  flash := h.flash
  pages _ _ := rfl

theorem effectPowerGood {mv : Nat} (h : s.Canonical) : (effectPowerGood mv s).Canonical := by
  unfold Machine.effectPowerGood
  exact ite (fun _ => h.powerUp.tryRelease) fun _ => h

theorem effectPowerLoss {mv : Nat} (h : s.Canonical) : (effectPowerLoss mv s).Canonical := by
  unfold Machine.effectPowerLoss
  exact ite (fun _ => h.powerUp) fun _ => h

theorem effectSupplyHold {mv since : Nat} (h : s.Canonical) : (effectSupplyHold mv since s).Canonical := by
  unfold Machine.effectSupplyHold
  exact ite (fun _ => tryRelease h.resetAll.modAon) fun _ => h

theorem effectSupplyHoldRelease {mv since : Nat} (h : s.Canonical) : (effectSupplyHoldRelease mv since s).Canonical := by
  unfold Machine.effectSupplyHoldRelease
  exact ite (fun _ => tryRelease h.modAon) fun _ => h

theorem effectPerstAssert (h : s.Canonical) : (effectPerstAssert s).Canonical := by
  unfold Machine.effectPerstAssert
  exact ite (fun _ => tryRelease h.resetAll.modAon) fun _ => h.modAon

theorem effectPerstDeassert (h : s.Canonical) : (effectPerstDeassert s).Canonical := tryRelease h.modAon

/-! ### Stages (R415 to R424) -/

theorem trainLinks (h : s.Canonical) : s.trainLinks.Canonical :=
  h.each _ fun _ _ hy => ite (fun _ => hy.passThrough) fun _ => ite (fun _ => hy) fun _ => hy.setLinkState

theorem enterTap (h : s.Canonical) : s.enterTap.Canonical := by
  refine each (trainLinks (enterStage (modAon ?_))) _ fun _ _ hy => hy.sendPeerReady
  exact frame (frame h.modAon restoreDescs_keeps) restoreStores_keeps

theorem enterKiln (h : s.Canonical) : s.enterKiln.Canonical :=
  enterStage (record (s := s.draw.modAon fun a => { a with taster := false, kilnDraw := s.free + 1 })
    (modAon (h.frame draw_keeps)))

theorem effectSteepEnd (h : s.Canonical) : (effectSteepEnd s).Canonical := by
  unfold Machine.effectSteepEnd
  refine ite (fun _ => ?_) fun _ => h
  extract_lets booted spared drawn fw served trained
  have hbooted : booted.Canonical := h.modAon
  have hspared : spared.Canonical := hbooted.frame wearsWhen_keeps
  have hserved : served.Canonical := hspared.record
  clear_value served
  exact ite (fun _ => hserved.trainLinks.enterKiln) fun _ =>
    ite (fun _ => enterStage hserved.trainLinks.modAon) fun _ => hserved.trainLinks.enterTap

theorem failStage (h : s.Canonical) : (s.failStage code).Canonical := by
  unfold State.failStage
  refine retry (modAon (ite (fun _ => each (raise h.modAon) _ fun _ _ hy => ?_) fun _ => raise h.modAon))
  exact hy.modChan _ fun _ hc => Channel.drain_wf _ _ _ hc

theorem effectHbmTrainingEnd (h : s.Canonical) : (effectHbmTrainingEnd s).Canonical := by
  unfold Machine.effectHbmTrainingEnd
  exact ite (fun _ => modAon (h.each _ fun _ _ hy => hy.frame repairRows_keeps)) fun _ => h

theorem effectKilnEnd (h : s.Canonical) : (effectKilnEnd s).Canonical := by
  unfold Machine.effectKilnEnd
  refine ite (fun _ => ite (fun _ => h.failStage) fun _ => enterStage (modAon ?_)) fun _ => h
  exact h.each _ fun _ _ hy => ite (fun _ => hy) fun _ => hy.frame modCluster_keeps

theorem mashCluster {cl : Nat} (h : s.Canonical) : (s.mashCluster n cl).Canonical :=
  each (h.frame modCluster_keeps) _ fun _ _ hy => hy.calFaults

theorem effectMashEnd (h : s.Canonical) : (effectMashEnd s).Canonical := by
  unfold Machine.effectMashEnd
  refine ite (fun _ => ite (fun _ => h.failStage) fun _ => enterTap (each (h.frame draw_keeps) _ fun _ _ hy => ?_)) fun _ => h
  exact ite (fun _ => hy) fun _ => ite (fun _ => hy.frame modCluster_keeps) fun _ => hy.mashCluster

theorem failInExpiry (h : s.Canonical) : (s.failInExpiry code).Canonical := by
  unfold State.failInExpiry
  exact ite (fun _ => retry h.modAon) fun _ => h

theorem effectStageTimer (h : s.Canonical) : (effectStageTimer s).Canonical := by
  unfold Machine.effectStageTimer
  split
  · exact ite (fun _ => h.failStage) fun _ => h
  · exact ite (fun _ => h.failInExpiry) fun _ => h
  · exact h

theorem effectStageFailure (h : s.Canonical) : (effectStageFailure code s).Canonical := by
  unfold Machine.effectStageFailure
  split
  · exact ite (fun _ => h.failStage) fun _ => ite (fun _ => h.failInExpiry) fun _ => h
  · exact h

theorem effectBackoffEnd (h : s.Canonical) : (effectBackoffEnd s).Canonical := by
  unfold Machine.effectBackoffEnd
  split
  · exact ite (fun _ => tryRelease h.modAon) fun _ => h
  · exact h

/-! ### The watchdog, trips and resets on request (R425 to R431, R443) -/

theorem effectHeartbeat {beat : Half} (h : s.Canonical) : (effectHeartbeat beat s).Canonical := by
  unfold Machine.effectHeartbeat
  exact ite (fun _ => h.modAon) fun _ => h

theorem effectWatchdogExpiry (h : s.Canonical) : (effectWatchdogExpiry s).Canonical := by
  unfold Machine.effectWatchdogExpiry
  exact ite (fun _ => h.resetAll.modAon) fun _ => ite (fun _ => h.modAon) fun _ => h

theorem readDiodes {xs : List Int} (h : s.Canonical) : (s.readDiodes xs).Canonical := by
  have hread : (s.modAon fun a => { a with diodes := xs }).Canonical := h.modAon
  unfold State.readDiodes
  refine ite (fun _ => hread) fun _ => ite (fun _ => ite (fun _ => hread) fun _ => ?_) fun _ => ?_
  · exact ite (fun _ => tryRelease hread.modAon) fun _ => retry hread.modAon
  · exact ite (fun _ => tryRelease hread.modAon) fun _ => hread

theorem effectDomainReset {d1 : Bool} {d2 d3 : BitVec 4} {d4 : Half} (h : s.Canonical) :
    (effectDomainReset d1 d2 d3 d4 s).Canonical := by
  unfold Machine.effectDomainReset
  refine ite (fun _ => h) fun _ => ite (fun _ => h.resetAll.modAon) fun _ => ?_
  extract_lets cold lost dark silent
  have hdark : dark.Canonical := each (each (h.each _ fun _ _ hy => hy.resetD2) _ fun _ _ hy => hy.resetD3) _
    fun _ _ hy => hy.resetD4
  have hsilent : silent.Canonical := ite (fun _ => hdark.resetD1) fun _ => hdark
  exact hsilent.modAon

theorem effectResetRelease (h : s.Canonical) : (effectResetRelease s).Canonical := by
  unfold Machine.effectResetRelease
  split
  · refine ite (fun _ => ?_) fun _ => h
    extract_lets freed trained risen
    have hfreed : freed.Canonical := h.modAon
    have htrained : trained.Canonical := trainLinks hfreed.modAon
    exact ite (fun _ => hfreed.tryRelease) fun _ => ite (fun _ => hfreed.releaseD1) fun _ => ite (fun _ => htrained) fun _ =>
      ite (fun _ => htrained.modAon) fun _ => enterKiln htrained.modAon
  · exact h

theorem effectEvtPulseEnd (h : s.Canonical) : (effectEvtPulseEnd s).Canonical := by
  unfold Machine.effectEvtPulseEnd
  split
  · exact ite (fun _ => h.modAon) fun _ => h
  · exact h

theorem effectEvtFirstEvaluation (h : s.Canonical) : (effectEvtFirstEvaluation s).Canonical := by
  unfold Machine.effectEvtFirstEvaluation
  exact ite (fun _ => h.modAon) fun _ => h

end State.Canonical
end Sys2Proof.Machine
end

section
-- One proof after another: each further thread reserves a whole stack.
set_option Elab.async false
/-! Memories stay canonical in firmware's commands and register accesses, and so in every command. -/

namespace Sys2Proof.Machine

namespace State.Canonical

variable {s x : State} {ch n img : Nat}

/-! ### Taking and answering a command (R363, R374 to R376) -/

theorem respond {slot : List Byte} {r : Reply} (h : s.Canonical) : (s.respond ch slot r).Canonical :=
  postKept (record (s := s.modChan ch (Channel.advanceHead ch s.now))
    (h.modChan_record ch fun _ => Channel.advanceHead_page ch s.now))

theorem ite1 {p : Prop} [Decidable p] {a b : Handled} (ha : p → a.1.Canonical) (hb : ¬ p → b.1.Canonical) :
    (if p then a else b).1.Canonical := by
  split
  next hp => exact ha hp
  next hp => exact hb hp

theorem behind {r : Option Reply} {f : State → Handled} (h : s.Canonical) (hf : (f s).1.Canonical) :
    (behind r s f).1.Canonical := by
  unfold Machine.behind
  split
  · exact h
  · exact hf

theorem accept {slot : List Byte} {r : Reply} {w : DoneWhen} (h : s.Canonical) : (accept s ch slot r w).1.Canonical :=
  h.frame accept_keeps

/-- A command keeps the memories canonical where its handler does. -/
theorem command {op least : Nat} {form : DescForm} {f : List Byte → State → Handled} (h : s.Canonical)
    (hf : ∀ slot y, y.Canonical → (f slot y).1.Canonical) : (s.command ch op least form f).Canonical := by
  unfold State.command
  refine ite (fun _ => ?_) fun _ => h
  dsimp only
  split
  · exact h.respond
  · exact (hf _ _ h).respond

theorem effectBadOpcode (h : s.Canonical) : (effectBadOpcode ch s).Canonical := by
  unfold Machine.effectBadOpcode
  exact ite (fun _ => h.respond) fun _ => h

theorem effectCommandDone (h : s.Canonical) : (effectCommandDone ch s).Canonical := by
  unfold Machine.effectCommandDone
  refine ite (fun _ => ?_) fun _ => h
  split
  · have htaken {g : Fw} : Canonical { s with fw := g } := h.record
    refine postKept ?_
    split
    · exact ite (fun _ => htaken.frame finishPlace_keeps) fun _ => htaken
    · exact htaken
  · exact h

/-! ### Images, jobs and steps (R380) -/

theorem effectJobPlace (h : s.Canonical) : (effectJobPlace ch s).Canonical :=
  h.command fun _ _ hy => ite1 (fun _ => hy) fun _ => ite1 (fun _ => hy) fun _ => hy.behind <|
    ite1 (fun _ => hy) fun _ => ite1 (fun _ => hy) fun _ => hy.frame place_keeps

theorem removeJob (h : s.Canonical) : (s.removeJob img).Canonical := by
  unfold State.removeJob
  exact ite (fun _ => h.abortStep.unplace) fun _ => h

theorem effectStepStart (h : s.Canonical) : (effectStepStart ch s).Canonical :=
  h.command fun _ _ hy => ite1 (fun _ => hy) fun _ => hy.behind <| ite1 (fun _ => hy) fun _ => ite1 (fun _ => hy) fun _ =>
    ite1 (fun _ => hy.dropStart) fun _ => hy.startStep.frame modImage_keeps

theorem effectStepAbort (h : s.Canonical) : (effectStepAbort ch s).Canonical :=
  h.command fun _ _ hy => hy.behind <| ite1 (fun _ => hy.abortStep) fun _ => hy

/-! ### Memory, descriptors and counters (R380) -/

theorem effectMemWrite {data : Option (List Byte)} (h : s.Canonical) : (effectMemWrite ch data s).Canonical := by
  refine h.command fun slot y hy => hy.behind ?_
  split
  · exact (hy.writeHbm _ _).accept
  · exact hy

theorem effectMemRead {reachable : Bool} (h : s.Canonical) : (effectMemRead ch reachable s).Canonical := by
  refine h.command fun slot y hy => hy.behind <| ite1 (fun _ => hy) fun _ => ?_
  have hread : (y.readHbm (leAt slot 8 8) (leAt slot 24 4)).Canonical := hy.frame readHbm_keeps
  exact ite1 (fun _ => hread.accept) fun _ => accept (record hread)

theorem effectDescArm (h : s.Canonical) : (effectDescArm ch s).Canonical :=
  h.command fun _ _ hy => hy.behind hy.fwArm

theorem effectCounterClear (h : s.Canonical) : (effectCounterClear ch s).Canonical := by
  refine h.command fun slot y hy => ?_
  dsimp only
  split
  · exact hy
  · exact ite1 (fun _ => hy) fun _ => hy.behind (hy.frame clearScope_keeps)

/-! ### Clusters (R380) -/

theorem effectCalSettings (h : s.Canonical) : (effectCalSettings ch s).Canonical := by
  refine h.command fun slot y hy => ?_
  split
  · exact hy
  · exact hy
  · exact hy.each _ fun _ _ hz => hz.frame modCluster_keeps

theorem effectQuietOpen (h : s.Canonical) : (effectQuietOpen ch s).Canonical := h.command fun _ _ hy =>
  hy.openQuiet.frame okWith_keeps

theorem effectRotAdvance (h : s.Canonical) : (effectRotAdvance ch s).Canonical :=
  h.command fun _ _ hy => (hy.each _ fun _ _ hz => hz.frame advance_keeps).frame okWith_keeps

theorem restartClusters {cls : List Nat} (h : s.Canonical) : (s.restartClusters cls).Canonical :=
  h.each _ fun _ _ hy => frame (hy.each _ fun _ _ hz => hz.abortStep) beginRestart_keeps

theorem effectCombSwitch (h : s.Canonical) : (effectCombSwitch ch s).Canonical := by
  refine h.command fun slot y hy => ?_
  dsimp only
  split
  · exact hy
  · refine ite1 (fun _ => hy) fun _ => ite1 (fun _ => hy) fun _ => accept (each hy.restartClusters _ fun _ _ hz => ?_)
    exact (hz.frame wears_keeps).frame modCluster_keeps

theorem effectClusterRestart (h : s.Canonical) : (effectClusterRestart ch s).Canonical := by
  refine h.command fun slot y hy => ?_
  dsimp only
  split
  · exact hy
  · exact ite1 (fun _ => hy) fun _ => hy.restartClusters.accept

theorem effectPowerProfile (h : s.Canonical) : (effectPowerProfile ch s).Canonical := by
  refine h.command fun slot y hy => ite1 (fun _ => hy) fun _ => ite1 (fun _ => hy) fun _ => ?_
  refine accept (frame (each (ite (fun _ => hy.modAon) fun _ => ?_) _ fun z c hz => ?_) settleProfile_keeps)
  · exact hy.modAon.frame unpromise_keeps
  · exact ite (fun _ => hz) fun _ => ite (fun _ => hz.frame modCluster_keeps) fun _ => hz.frame modCluster_keeps

/-! ### Links and field ports (R380) -/

theorem effectSchedWrite (h : s.Canonical) : (effectSchedWrite ch s).Canonical :=
  h.command fun _ _ hy => ite1 (fun _ => hy) fun _ => ite1 (fun _ => hy) fun _ => ite1 (fun _ => hy) fun _ =>
    ite1 (fun _ => hy) fun _ => (hy.frame setSched_keeps).frame schedCheck_keeps

theorem effectLinkStatus (h : s.Canonical) : (effectLinkStatus ch s).Canonical :=
  h.command fun _ _ hy => ite1 (fun _ => hy) fun _ => hy.frame countCodewords_keeps

theorem applyMode (h : s.Canonical) : (s.applyMode n).Canonical := by
  unfold State.applyMode
  exact ite (fun _ => h.passThrough) fun _ => ite (fun _ => ite (fun _ => h.setLinkState) fun _ => h.linkGoesDown) fun _ =>
    ite (fun _ => h) fun _ => h.setLinkState

theorem effectLinkMode (h : s.Canonical) : (effectLinkMode ch s).Canonical :=
  h.command fun _ _ hy => ite1 (fun _ => hy) fun _ => ite1 (fun _ => hy) fun _ =>
    applyMode (applyMode (hy.frame modLink_keeps))

theorem effectPeerReady (h : s.Canonical) : (effectPeerReady ch s).Canonical := h.command fun _ _ hy => hy.raise

/-! ### Upgrades: the inactive flash bank (R384) -/

/-- The inactive bank erased or written. -/
theorem setFlash {a : Aon} (h : s.Canonical) (ha : a.flash.wf = true) : Canonical { s with aon := a } where
  hbm := h.hbm
  usable := h.usable
  sram := h.sram
  flash := ha
  pages := h.pages

theorem effectUpgradeBegin {data : Fetched (List Byte)} (h : s.Canonical) : (effectUpgradeBegin ch data s).Canonical := by
  refine h.command fun slot y hy => ?_
  have hwrite {bs : List Byte} {f : Fw} : Canonical
      { y with aon := { y.aon with flash := Memory.write [] 0 bs }.setBank (!y.aon.bank) false, fw := f } := by
    have hbank := hy.setFlash (a := { y.aon with flash := Memory.write [] 0 bs }.setBank (!y.aon.bank) false)
      (Memory.wf_write 0 bs rfl)
    exact hbank.record
  refine ite1 (fun _ => ?_) fun _ => hwrite.accept
  split
  · exact hwrite.accept
  · exact hy

theorem effectUpgradeData (h : s.Canonical) : (effectUpgradeData ch s).Canonical :=
  h.command fun _ _ hy => ite1 (fun _ => hy) fun _ => ite1 (fun _ => hy) fun _ => hy.setFlash (Memory.wf_write _ _ hy.flash)

theorem effectUpgradeCommit {sigOk : Bool} (h : s.Canonical) : (effectUpgradeCommit ch sigOk s).Canonical := by
  refine h.command fun slot y hy => ite1 (fun _ => hy) fun _ => ?_
  have hover : Canonical { y with fw := { y.fw with upgrade := none } } := hy.record
  exact ite1 (fun _ => hover.modAon.accept) fun _ => hover.modAon.accept

/-! ### Mailboxes and registers (R349, R352, R357 to R359, R433) -/

theorem effectDoorbell {v : Word} (h : s.Canonical) : (effectDoorbell ch v s).Canonical := by
  unfold Machine.effectDoorbell
  exact ite (fun _ => h.modChan _ fun _ hc => Channel.doorbell_wf _ _ hc) fun _ => h

theorem effectMctpMessage {kind : Byte} {vendor : Half} {slot : List Byte} (h : s.Canonical) :
    (effectMctpMessage kind vendor slot s).Canonical := by
  unfold Machine.effectMctpMessage
  exact ite (fun _ => h.modChan _ fun _ hc => Channel.commitSlot_wf _ _ hc) fun _ => h

theorem effectMbxOutHeadWrite {v : Word} (h : s.Canonical) : (effectMbxOutHeadWrite ch v s).Canonical := by
  unfold Machine.effectMbxOutHeadWrite
  exact ite (fun _ => h.modChan_record _ fun _ => Channel.outHeadWrite_page _ _ _) fun _ => h

theorem effectEventDelivery (h : s.Canonical) : (effectEventDelivery ch s).Canonical := by
  unfold Machine.effectEventDelivery
  exact ite (fun _ => h.modChan _ fun _ hc => Channel.deliverHeld_wf _ _ hc) fun _ => h

theorem mailWrite {fn off : Nat} {v : Word} (h : s.Canonical) : (s.mailWrite fn off v).Canonical := by
  have hforeign : (s.foreignWrite fn).Canonical := h.modChan_record fn
  unfold State.mailWrite
  refine ite (fun _ => ite (fun _ => h.modChan _ fun _ hc => Channel.pageWrite_wf _ _ hc) fun _ => hforeign) fun _ =>
    ite (fun _ => h) fun _ => ite (fun _ => ite (fun _ => ?_) fun _ => hforeign) fun _ =>
      ite (fun _ => h.modChan_record fn) fun _ =>
        ite (fun _ => h.modChan_record fn fun _ => Channel.msixWrite_page _ _) fun _ => h
  split
  · exact h.effectDoorbell
  · exact h.effectMbxOutHeadWrite
  · exact h

theorem aonWrite {off : Nat} {v : Word} (h : s.Canonical) : (s.aonWrite off v).Canonical := by
  unfold State.aonWrite
  split
  · exact ite (fun _ => h.modAon) fun _ => h
  · exact h.effectHeartbeat
  · exact h.modAon
  · exact h

theorem clearRead {fn off : Nat} (h : s.Canonical) : (s.clearRead fn off).Canonical := by
  have hleft {b : Channel} : (s.modChan fn (Channel.readLeft b)).Canonical := h.modChan_record fn
  unfold State.clearRead
  exact ite (fun _ => record hleft) fun _ => ite (fun _ => h.record) fun _ => ite (fun _ => h.record) fun _ =>
    ite (fun _ => h.record) fun _ => h

theorem effectRcRead {who off : Nat} (h : s.Canonical) : (effectRcRead who off s).Canonical := by
  have hread {o : Nat} : ((s.countedTo o).clearRead who o).Canonical := (h.frame countedTo_keeps).clearRead
  unfold Machine.effectRcRead
  exact ite (fun _ => h) fun _ => ite (fun _ => h.frame effectLockRead_keeps) fun _ =>
    ite (fun _ => h.frame effectFinFifoRead_keeps) fun _ => ite (fun _ => h.frame effectAngCycLoRead_keeps) fun _ =>
      record hread

/-- A write behind an owner: refused ones are counted (R301, R329, R349). -/
theorem owned {p q : Prop} [Decidable p] [Decidable q] {y z : State} (h : s.Canonical) (hy : y.Canonical)
    (hz : z.Canonical) : (if p then s else if q then y else z).Canonical :=
  ite (fun _ => h) fun _ => ite (fun _ => hy) fun _ => hz

theorem effectRegisterWrite {who off : Nat} {v : Word} (h : s.Canonical) : (effectRegisterWrite who off v s).Canonical := by
  have hfout : (if wordOff off < 0x410400 then s.foutReg who ((wordOff off - 0x410000) / 0x40) (wordOff off % 0x40) v
      else s).Canonical := ite (fun _ => h.frame foutReg_keeps) fun _ => h
  unfold Machine.effectRegisterWrite
  exact ite (fun _ => ite (fun _ => h.aonWrite) fun _ => h) fun _ => ite (fun _ => ite (fun _ => h.mailWrite) fun _ => h)
    fun _ => ite (fun _ => h) fun _ => ite (fun _ => h.frame effectLockWrite_keeps) fun _ => ite (fun _ => h) fun _ =>
    ite (fun _ => h.owned (h.frame finWrite_keeps) h.record) fun _ => ite (fun _ => h.owned hfout h.record) fun _ =>
    ite (fun _ => h.owned (h.frame angRegion_keeps) h.record) fun _ =>
    ite (fun _ => h.owned (h.frame loopRegion_keeps) h.record) fun _ => h

/-! ### Every command -/

theorem act {ok : Bool} {t : Nat} {f : State → State} (h : s.Canonical) (hf : ∀ y, y.Canonical → (f y).Canonical)
    (he : act ok t s f = .next x) : x.Canonical := by
  unfold Machine.act at he
  split at he
  · exact Host.Outcome.next.inj he ▸ hf _ (h.frame tick_keeps)
  · exact nomatch he

end State.Canonical
end Sys2Proof.Machine
end

section
-- One proof after another: each further thread reserves a whole stack.
set_option Elab.async false
/-! Every step keeps the memories canonical (R211, R212, R222, R357, R384). -/

namespace Sys2Proof.Machine

/-- A command that completes leaves the memories canonical: the commands that may touch one, then all others by their frame. -/
theorem exec_canonical {c : Instr} {s s' : State} (h : s.Canonical) (he : exec c s = .next s') : s'.Canonical := by
  have row {f : State → State} (hrow : exec c s = act c.wf c.time s f) (hf : ∀ y, y.Canonical → (f y).Canonical) :
      s'.Canonical := h.act hf (hrow ▸ he)
  cases c
  case event => exact row rfl fun _ hy => hy.effectEvent
  case listFault => exact row rfl fun _ hy => hy.effectListFault
  case reduce => exact row rfl fun _ hy => hy.effectReduce
  case vAdd | vSub | vMul | vMax | vMin | vScale | vAxpy | vClamp | vCopy | vTable | vExp | vRecip | vRsqrt | vRmaxabs
    | vRmax | vRsum | vBmaxabs | vNstats | vNapply | vSmstats | vSmapply => exact row rfl fun _ hy => hy.vop
  case vGather | vEdgesum => exact row rfl fun _ hy => hy.vopIndexed
  case quantEncode => exact row rfl fun _ hy => hy.effectQuantEncode
  case quantDecode => exact row rfl fun _ hy => hy.effectQuantDecode
  case recv => exact row rfl fun _ hy => hy.effectRecv
  case xfer => exact row rfl fun _ hy => hy.effectXfer
  case fieldFill => exact row rfl fun _ hy => hy.effectFieldFill
  case tokenInvalid => exact row rfl fun _ hy => hy.effectTokenInvalid
  case fenceOrder => exact row rfl fun _ hy => hy.effectFenceOrder
  case stall => exact row rfl fun _ hy => hy.effectStall
  case stepAborted => exact row rfl fun _ hy => hy.effectStepAborted
  case modelStepStart => exact row rfl fun _ hy => hy.startSteps
  case packetEnd => exact row rfl fun _ hy => hy.effectPacketEnd
  case verdict => exact row rfl fun _ hy => hy.effectVerdict
  case probePacket => exact row rfl fun _ hy => hy.effectProbePacket
  case transferComplete => exact row rfl fun _ hy => hy.effectTransferComplete
  case descCompToken => exact row rfl fun _ hy => hy.effectDescCompToken
  case hostBar2Write => exact row rfl fun _ hy => hy.effectHostBar2Write
  case innerUpdate => exact row rfl fun _ hy => hy.effectInnerUpdate
  case outerUpdate => exact row rfl fun _ hy => hy.effectOuterUpdate
  case feedforwardUpdate => exact row rfl fun _ hy => hy.effectFeedforwardUpdate
  case quietWindowOpen => exact row rfl fun _ hy => hy.openQuiet
  case handover => exact row rfl fun _ hy => hy.effectHandover
  case calibrationDone => exact row rfl fun _ hy => hy.effectCalibrationDone
  case calStarved => exact row rfl fun _ hy => hy.effectCalStarved
  case wearSpareReady => exact row rfl fun _ hy => hy.effectWearSpareReady
  case engineSpared => exact row rfl fun _ hy => hy.effectEngineSpared
  case lineRemapped => exact row rfl fun _ hy => hy.effectLineRemapped
  case combWorn => exact row rfl fun _ hy => hy.effectCombWorn
  case clusterRestartEnd => exact row rfl fun _ hy => hy.effectClusterRestartEnd
  case loopUpdate => exact row rfl fun _ hy => hy.effectLoopUpdate
  case svStale => exact row rfl fun _ hy => hy.effectSvStale
  case angleUpdate => exact row rfl fun _ hy => hy.effectAngleUpdate
  case threePhaseLoss => exact row rfl fun _ hy => hy.effectThreePhaseLoss
  case encoderLoss => exact row rfl fun _ hy => hy.effectEncoderLoss
  case ppcLoss => exact row rfl fun _ hy => hy.effectPpcLoss
  case encoderEdge => exact row rfl fun _ hy => hy.effectEncoderEdge
  case ppcEdge => exact row rfl fun _ hy => hy.effectPpcEdge
  case doorbell => exact row rfl fun _ hy => hy.effectDoorbell
  case mbxOutHeadWrite => exact row rfl fun _ hy => hy.effectMbxOutHeadWrite
  case mctpMessage => exact row rfl fun _ hy => hy.effectMctpMessage
  case rcRead => exact h.act (fun _ hy => hy.effectRcRead) he
  case registerWrite => exact h.act (fun _ hy => hy.effectRegisterWrite) he
  case eventDelivery => exact row rfl fun _ hy => hy.effectEventDelivery
  case badOpcode => exact row rfl fun _ hy => hy.effectBadOpcode
  case identify | health | caskRead => exact row rfl fun _ hy => hy.command fun _ _ hz => hz.record
  case clusterHealth | coreCounts | wearRead | memoryHealth | schedRead | clusterGroup
    | fieldOwner | safeWrite | eventRoute | permSet | permRead | lockRelease | routeWrite | addressSet | moduleReset =>
    refine row rfl fun _ hy => hy.command fun slot z hz => ?_
    dsimp only
    repeat' split
    all_goals exact hz.record
  case imageUnload | stepStatus | descWrite | descReset | descStatus | streamLimit | qntPolicy | qntCarryReset =>
    refine row rfl fun _ hy => hy.command fun slot z hz => hz.behind ?_
    repeat' split
    all_goals exact hz.record
  case imageLoad => exact row rfl fun _ hy => hy.command fun _ _ hz => hz.frame handleImageLoad_keeps
  case jobPlace => exact row rfl fun _ hy => hy.effectJobPlace
  case jobRemove => exact row rfl fun _ hy => hy.command fun _ _ hz => hz.behind hz.removeJob.accept
  case stepStart => exact row rfl fun _ hy => hy.effectStepStart
  case stepAbort => exact row rfl fun _ hy => hy.effectStepAbort
  case memWrite => exact row rfl fun _ hy => hy.effectMemWrite
  case memRead => exact row rfl fun _ hy => hy.effectMemRead
  case descArm => exact row rfl fun _ hy => hy.effectDescArm
  case counterClear => exact row rfl fun _ hy => hy.effectCounterClear
  case calSettings => exact row rfl fun _ hy => hy.effectCalSettings
  case quietOpen => exact row rfl fun _ hy => hy.effectQuietOpen
  case rotAdvance => exact row rfl fun _ hy => hy.effectRotAdvance
  case combSwitch => exact row rfl fun _ hy => hy.effectCombSwitch
  case clusterRestart => exact row rfl fun _ hy => hy.effectClusterRestart
  case schedWrite => exact row rfl fun _ hy => hy.effectSchedWrite
  case linkStatus => exact row rfl fun _ hy => hy.effectLinkStatus
  case linkMode => exact row rfl fun _ hy => hy.effectLinkMode
  case peerReady => exact row rfl fun _ hy => hy.effectPeerReady
  case upgradeBegin => exact row rfl fun _ hy => hy.effectUpgradeBegin
  case upgradeData => exact row rfl fun _ hy => hy.effectUpgradeData
  case upgradeCommit => exact row rfl fun _ hy => hy.effectUpgradeCommit
  case powerProfile => exact row rfl fun _ hy => hy.effectPowerProfile
  case commandDone => exact row rfl fun _ hy => hy.effectCommandDone
  case controlFrame => exact row rfl fun _ hy => hy.effectControlFrame
  case linkTimer => exact row rfl fun _ hy => hy.effectLinkTimer
  case linkDown => exact row rfl fun _ hy => hy.effectLinkDown
  case laneLockLoss => exact row rfl fun _ hy => hy.effectLaneLockLoss
  case laneErrorRate => exact row rfl fun _ hy => hy.laneFails
  case linkUp => exact row rfl fun _ hy => hy.effectLinkUp
  case powerGood => exact row rfl fun _ hy => hy.effectPowerGood
  case powerLoss => exact row rfl fun _ hy => hy.effectPowerLoss
  case supplyHold => exact row rfl fun _ hy => hy.effectSupplyHold
  case supplyHoldRelease => exact row rfl fun _ hy => hy.effectSupplyHoldRelease
  case perstAssert => exact row rfl fun _ hy => hy.effectPerstAssert
  case perstDeassert => exact row rfl fun _ hy => hy.effectPerstDeassert
  case steepEnd => exact row rfl fun _ hy => hy.effectSteepEnd
  case hbmTrainingEnd => exact row rfl fun _ hy => hy.effectHbmTrainingEnd
  case kilnEnd => exact row rfl fun _ hy => hy.effectKilnEnd
  case mashEnd => exact row rfl fun _ hy => hy.effectMashEnd
  case stageTimer => exact row rfl fun _ hy => hy.effectStageTimer
  case stageFailure => exact row rfl fun _ hy => hy.effectStageFailure
  case backoffEnd => exact row rfl fun _ hy => hy.effectBackoffEnd
  case heartbeat => exact row rfl fun _ hy => hy.effectHeartbeat
  case watchdogExpiry => exact row rfl fun _ hy => hy.effectWatchdogExpiry
  case thermalTrip | thermalTripRelease | tripDiodeCrossing => exact row rfl fun _ hy => hy.readDiodes
  case domainReset => exact row rfl fun _ hy => hy.effectDomainReset
  case resetRelease => exact row rfl fun _ hy => hy.effectResetRelease
  case evtPulseEnd => exact row rfl fun _ hy => hy.effectEvtPulseEnd
  case evtFirstEvaluation => exact row rfl fun _ hy => hy.effectEvtFirstEvaluation
  all_goals exact (h.frame State.tick_keeps).frame (exec_next he) (by simp [State.Canonical.memoryParts, touches])

/-- Settles O58: an idle step changes nothing, any other is a command of the queue's front. -/
theorem memoryStaysCanonical : Obligations.MemoryStaysCanonical := by
  intro s s' h hstep
  unfold step at hstep
  split at hstep
  · exact Host.Outcome.next.inj hstep ▸ h
  · exact exec_canonical h.record hstep

end Sys2Proof.Machine
end

section
-- One proof after another: each further thread reserves a whole stack.
set_option Elab.async false
/-! An arm of a descriptor: what it leaves of the descriptor, of every other one and of the engine's record (R223 to R228). -/

namespace Sys2Proof.Machine

/-! ### Descriptors and engine records -/

section

variable {s : State} {e d e' d' code : Nat} {k : Desc} {w : List Byte}

theorem State.setDesc_same : (s.setDesc e d k).desc e d = k := Tab.get_put_same ..

theorem State.setDesc_other (h : e' * 8192 + d' ≠ e * 8192 + d) : (s.setDesc e d k).desc e' d' = s.desc e' d' :=
  Tab.get_put_ne _ _ _ _ _ h

theorem State.modStack_same {f : Stack → Stack} : (s.modStack e f).stack e = f (s.stack e) := by
  rw [State.modStack_set, State.stack_setStack, if_pos rfl]

theorem State.descError_stack : (s.descError e d code w).stack e =
    { s.stack e with errDesc := BitVec.ofNat 13 d, errCode := BitVec.ofNat 4 code } := by
  have hrest : (s.descError e d code w).stack e = (s.failed e d code).stack e :=
    congrArg (Tab.get ({} : Stack) · e) (State.descError_rest s e d code w .hbmStacks (by decide))
  rw [hrest, State.failed, State.modStack_same, State.stack_setDesc]

theorem State.descError_other (h : e' * 8192 + d' ≠ e * 8192 + d) :
    (s.descError e d code w).desc e' d' = s.desc e' d' :=
  ((State.descError_rest s e d code w).desc_eq (by decide) e' d').trans (State.setDesc_other h)

end

/-! ### Where an arm goes (R224 to R227) -/

section

variable {s : State} {e d : Nat} {w : List Byte} {byImg : Option Nat}

/-- A descriptor at work: an arm goes to its shadow (R225). -/
def Desc.Busy (k : Desc) : Prop := k.st = .armed ∨ k.st = .active ∨ k.st = .draining

/-- IDLE and DONE latch, then a failed check sends the descriptor to ERROR. -/
theorem State.armWith_rest (hst : (s.desc e d).st = .idle ∨ (s.desc e d).st = .done) :
    s.armWith e d w byImg =
      if s.descCheck e w = 0 then s.setDesc e d ((s.desc e d).latch w byImg)
      else (s.setDesc e d ((s.desc e d).latch w byImg)).descError e d (s.descCheck e w) w := by
  unfold State.armWith
  dsimp only
  rcases hst with hst | hst
  all_goals rw [hst]

/-- A busy descriptor's arm that is ignored stays on record until its fabric cycle is over (R225, R227). -/
def State.armIgnored (s : State) (e d : Nat) (w : List Byte) (byImg : Option Nat) : State :=
  let m := s.stack e
  (s.setDesc e d { s.desc e d with late := some { at_ := s.now / Config.cycle, img := byImg, data := w
                                                  full := m.rearmOverrun = 0xFFFF, prev := m.overrunDesc } }).modStack e
    fun m => { m with rearmOverrun := satInc m.rearmOverrun, overrunDesc := BitVec.ofNat 13 d }

theorem State.armWith_busy (hbusy : (s.desc e d).Busy) :
    s.armWith e d w byImg =
      if (s.desc e d).shadow.isSome then s.armIgnored e d w byImg
      else if s.descCheck e w = 0 then
        s.setDesc e d { s.desc e d with shadow := some w, shadowImg := byImg, shadowAt := s.now / Config.cycle + 1 }
      else if s.completes e d then
        s.setDesc e d { s.desc e d with
          late := some { at_ := s.now / Config.cycle, img := byImg, data := w, failing := true } }
      else s.descError e d (s.descCheck e w) w := by
  rcases hbusy with hst | hst | hst
  all_goals simp only [State.armWith, State.armIgnored, hst]

theorem State.armWith_error (hst : (s.desc e d).st = .error) :
    s.armWith e d w byImg = s.modStack e fun m => { m with armRefused := satInc m.armRefused } := by
  unfold State.armWith
  dsimp only
  rw [hst]

/-- An arm changes no other descriptor. -/
theorem State.armWith_other {e' d' : Nat} (h : e' * 8192 + d' ≠ e * 8192 + d) :
    (s.armWith e d w byImg).desc e' d' = s.desc e' d' := by
  have hset {k : Desc} : (s.setDesc e d k).desc e' d' = s.desc e' d' := State.setDesc_other h
  cases hst : (s.desc e d).st with
  | idle | done =>
    rw [State.armWith_rest (by simp [hst])]
    split
    · exact hset
    · exact (State.descError_other h).trans hset
  | armed | active | draining =>
    rw [State.armWith_busy (by simp [Desc.Busy, hst])]
    split
    · exact hset
    · split
      · exact hset
      · split
        · exact hset
        · exact State.descError_other h
  | error => rw [State.armWith_error hst, State.modStack_set, State.desc_setStack]

end

/-- Settles O17: IDLE and DONE latch, a busy descriptor fills its shadow or counts, ERROR refuses; a failed check errs. -/
theorem armingADescriptor : Obligations.ArmingADescriptor := by
  intro s e d by_ k s' w c busy fault
  refine ⟨fun e' d' => State.armWith_other, fun hst hgood => ?good, fun hst hbad => ?bad, fun hbusy hfree hgood => ?shadow,
    fun hbusy hfree hbad hlast => ?busyBad, fun hbusy hfree hbad hmore => ?waits, fun hbusy hfull => ?ignored,
    fun hst => ?refused⟩
  case good =>
    have harm : s' = s.setDesc e d (k.latch w by_) := (State.armWith_rest hst).trans (if_pos hgood)
    rw [harm]
    exact ⟨State.setDesc_same, rfl⟩
  case bad =>
    have harm : s' = (s.setDesc e d (k.latch w by_)).descError e d c w := (State.armWith_rest hst).trans (if_neg hbad)
    have hdesc : s'.desc e d = (k.latch w by_).fail c := by rw [harm, State.descError_desc, State.setDesc_same]
    refine ⟨hdesc, ?_⟩
    dsimp only [fault]
    rw [harm, State.descError_stack, State.stack_setDesc]
  case shadow =>
    have harm : s' = s.setDesc e d { k with shadow := some w, shadowImg := by_, shadowAt := s.now / Config.cycle + 1 } :=
      (State.armWith_busy hbusy).trans ((if_neg (by simp [k, hfree])).trans (if_pos hgood))
    rw [harm]
    exact ⟨State.setDesc_same, rfl⟩
  case busyBad =>
    have harm : s' = s.descError e d c w := (State.armWith_busy hbusy).trans ((if_neg (by simp [k, hfree])).trans
      ((if_neg hbad).trans (if_neg (by simp [hlast]))))
    dsimp only [fault]
    rw [harm]
    exact ⟨State.descError_desc, State.descError_stack⟩
  case waits =>
    have harm : s' = s.setDesc e d { k with
        late := some { at_ := s.now / Config.cycle, img := by_, data := w, failing := true } } :=
      (State.armWith_busy hbusy).trans ((if_neg (by simp [k, hfree])).trans ((if_neg hbad).trans (if_pos hmore)))
    rw [harm]
    exact ⟨State.setDesc_same, rfl⟩
  case ignored =>
    have harm : s' = s.armIgnored e d w by_ :=
      (State.armWith_busy hbusy).trans (if_pos (Option.isSome_iff_ne_none.2 hfull))
    have hdesc : s'.desc e d = { k with
        late := some { at_ := s.now / Config.cycle, img := by_, data := w, full := (s.stack e).rearmOverrun = 0xFFFF
                       prev := (s.stack e).overrunDesc } } := by
      rw [harm, State.armIgnored, State.modStack_set, State.desc_setStack, State.setDesc_same]
    refine ⟨by rw [hdesc], by rw [hdesc], by rw [hdesc], ?_⟩
    rw [harm, State.armIgnored, State.modStack_same, State.stack_setDesc]
  case refused =>
    have harm : s' = s.modStack e fun m => { m with armRefused := satInc m.armRefused } := State.armWith_error hst
    rw [harm]
    exact ⟨rfl, State.modStack_same⟩

end Sys2Proof.Machine
end

section
-- One proof after another: each further thread reserves a whole stack.
set_option Elab.async false
/-! HBM over BAR2: what the host reads, what its writes leave, and the accesses counted as outside memory (R210 to R214). -/

namespace Sys2Proof.Machine

section

variable {s : State} {t a n l : Nat} {d : List Byte}

/-! ### Lines marked bad and accesses outside memory (R212, R214) -/

theorem mem_insertRising_of_mem {k : Nat} {b : List Nat} (h : l ∈ b) : l ∈ insertRising k b := by
  induction b with
  | nil => exact absurd h List.not_mem_nil
  | cons y ys ih =>
    unfold insertRising
    split
    · exact List.mem_cons_of_mem _ h
    · split
      · exact h
      · rcases List.mem_cons.1 h with rfl | h
        · exact List.mem_cons_self
        · exact List.mem_cons_of_mem _ (ih h)

/-- A read marks lines bad; none that was bad becomes good. -/
theorem State.readHbm_bad_mono (h : l ∈ s.bad) : l ∈ (s.readHbm a n).bad := by
  have hmarked (ks : List Nat) : ∀ b, l ∈ b → l ∈ ks.foldl (fun b l => insertRising l b) b := by
    induction ks with
    | nil => exact fun _ hb => hb
    | cons k ks ih => exact fun b hb => ih _ (mem_insertRising_of_mem hb)
  exact hmarked _ _ h

theorem State.readHbm_badIn_mono (h : s.badIn a n = true) : (s.readHbm a n).badIn a n = true := by
  obtain ⟨l, hl, hmeets⟩ := List.any_eq_true.1 h
  exact List.any_eq_true.2 ⟨l, State.readHbm_bad_mono hl, hmeets⟩

theorem State.readHbm_hostOor (e : Nat) : ((s.readHbm a n).stack e).hostOor = (s.stack e).hostOor := by
  have hread : (s.readHbm a n).hbmStacks = Tab.put {} s.hbmStacks (awStack a) { s.stack (awStack a) with
      corrected := _, rowFails := _ } := rfl
  rw [State.stack, hread, Tab.get_put]
  split
  next he => rw [he]
  next => rfl

theorem State.countOor_hostOor : ((s.countOor a n).stack (awStack a)).hostOor =
    if hbmAll a n = true then (s.stack (awStack a)).hostOor else satInc (s.stack (awStack a)).hostOor := by
  unfold State.countOor
  split
  · rfl
  · rw [State.modStack_same]

/-! ### The two accesses (R211 to R214) -/

/-- The bytes that a host read of n bytes from address a answers. -/
def State.hostBytes (s : State) (a n : Nat) : List Byte :=
  (List.range n).map fun i => if hbmUsable (a + i) then s.hbm.read (a + i) else 0xFF

/-- The state that a host read leaves. -/
def State.hostRead (s : State) (a n : Nat) : State :=
  State.countOor { s.readHbm a n with
    readOut := { who := 0, data := s.hostBytes a n, poisoned := (s.readHbm a n).badIn a n } } a n

theorem exec_hostBar2Read (hin : a + n ≤ 2 ^ 40) (hup : s.hostUp = true) :
    exec (.hostBar2Read t a n) s = .next ((s.tick t).hostRead a n) :=
  (if_pos (decide_eq_true hin)).trans (congrArg _ (if_pos hup))

theorem exec_hostBar2Write (hin : a + d.length ≤ 2 ^ 40) (hup : s.hostUp = true) :
    exec (.hostBar2Write t a d) s = .next (((s.tick t).writeHbm a d).countOor a d.length) :=
  (if_pos (decide_eq_true hin)).trans (congrArg _ (if_pos hup))

theorem State.hostRead_readOut : ((s.tick t).hostRead a n).readOut =
    { who := 0, data := s.hostBytes a n, poisoned := (s.readHbm a n).badIn a n } := by
  have hbad : ((s.tick t).readHbm a n).badIn a n = (s.readHbm a n).badIn a n := State.readHbm_badIn rfl rfl a n
  rw [← hbad]
  exact State.countOor_keeps .readOut (by decide)

theorem State.hostRead_hbm : ((s.tick t).hostRead a n).hbm = s.hbm := State.countOor_keeps .hbm (by decide)

theorem State.hostRead_hostOor : (((s.tick t).hostRead a n).stack (awStack a)).hostOor =
    if hbmAll a n = true then (s.stack (awStack a)).hostOor else satInc (s.stack (awStack a)).hostOor := by
  have hread : (((s.tick t).readHbm a n).stack (awStack a)).hostOor = (s.stack (awStack a)).hostOor :=
    State.readHbm_hostOor _
  rw [← hread]
  exact State.countOor_hostOor

theorem State.hostWrite_hbm : (((s.tick t).writeHbm a d).countOor a d.length).hbm = (s.writeHbm a d).hbm :=
  State.countOor_keeps .hbm (by decide)

theorem State.hostWrite_bad : (((s.tick t).writeHbm a d).countOor a d.length).bad = (s.writeHbm a d).bad :=
  State.countOor_keeps .bad (by decide)

theorem State.mem_writeHbm_bad :
    l ∈ (s.writeHbm a d).bad ↔ l ∈ s.bad ∧ ¬ (a ≤ 64 * l ∧ 64 * l + 64 ≤ a + d.length) := by
  simp only [State.writeHbm, List.mem_filter, ← Bool.decide_and, Bool.not_eq_true', decide_eq_false_iff_not]

/-- Bytes just written, with memory behind each of them, are what a host read of them answers. -/
theorem State.hostBytes_written {x : State} (hx : x.hbm = (s.writeHbm a d).hbm)
    (hmem : ∀ i, i < d.length → hbmUsable (a + i) = true) : x.hostBytes a d.length = d := by
  refine List.ext_getElem (by simp [State.hostBytes]) fun i hi hd => ?_
  have hread : x.hbm.read (a + i) = d.getD i 0 := by
    rw [hx, State.writeHbm_read s a d _ (hmem i hd), if_pos (by omega), Nat.add_sub_cancel_left]
  simp [State.hostBytes, hmem i hd, hread, hd]

end

/-- Settles O31: an access that lies in BAR2 reads or writes byte by byte while D1 runs, and has no effect while it is down. -/
theorem hostReadsAndWritesMemory : Obligations.HostReadsAndWritesMemory := by
  intro s t a n d seen oor
  refine ⟨fun hin hup => ?read, fun hin hup => ?write, fun hdown hin => ?readDown, fun hdown hin => ?writeDown⟩
  case read =>
    refine ⟨_, exec_hostBar2Read hin hup, State.hostRead_readOut, fun hbad => ?_, State.hostRead_hbm,
      State.hostRead_hostOor⟩
    rw [State.hostRead_readOut]
    exact State.readHbm_badIn_mono hbad
  case write =>
    refine ⟨_, exec_hostBar2Write hin hup, fun x hx => ?_, fun l => ?_, State.countOor_hostOor, fun t' b hmem hup' hb => ?_⟩
    · rw [State.hostWrite_hbm]
      exact State.writeHbm_read s a d x hx
    · rw [State.hostWrite_bad]
      exact State.mem_writeHbm_bad
    · obtain rfl := Host.Outcome.next.inj ((exec_hostBar2Read hin hup').symm.trans hb)
      rw [State.hostRead_readOut]
      exact State.hostBytes_written State.hostWrite_hbm hmem
  case readDown =>
    exact (if_pos (decide_eq_true hin)).trans (congrArg _ (if_neg (Bool.eq_false_iff.1 hdown)))
  case writeDown =>
    exact (if_pos (decide_eq_true hin)).trans (congrArg _ (if_neg (Bool.eq_false_iff.1 hdown)))

end Sys2Proof.Machine
end

section
-- One proof after another: each further thread reserves a whole stack.
set_option Elab.async false
/-! What LOOP_STAT.CFG_ERR is judged by, and that it is current after every check (R282, R285, R292, R295). -/

namespace Sys2Proof.Machine

/-- What of a loop's record the configuration check looks at (R282, R285, R292, R295). -/
structure LoopSetup where
  ctrl : Word
  imin : Word
  imax : Word
  omin : Word
  omax : Word
  ordered : Bool
  injErr : Bool

/-- What the configuration check finds in a loop's record. -/
def FieldLoop.setup (l : FieldLoop) : LoopSetup :=
  { ctrl := l.ctrl, imin := l.imin, imax := l.imax, omin := l.omin, omax := l.omax, ordered := l.ordered, injErr := l.injErr }

/-- What CFG_ERR of loop n has to read. -/
def State.cfgDue (s : State) (n : Nat) : Bool := s.loopStopped n || !(s.fieldLoop n).ordered || (s.fieldLoop n).injErr

/-! ### The check depends on the setups alone -/

section

variable {s x : State}

theorem State.outersOf_congr (h : ∀ n, (x.fieldLoop n).ctrl = (s.fieldLoop n).ctrl) (n : Nat) : x.outersOf n = s.outersOf n := by
  simp only [State.outersOf, h]

theorem State.innerOf_congr (h : ∀ n, (x.fieldLoop n).ctrl = (s.fieldLoop n).ctrl) (n : Nat) : x.innerOf n = s.innerOf n := by
  simp only [State.innerOf, h]

theorem State.chainDown_congr (h : ∀ n, (x.fieldLoop n).ctrl = (s.fieldLoop n).ctrl) (d n : Nat) :
    x.chainDown d n = s.chainDown d n := by
  induction d generalizing n with
  | zero => rfl
  | succ d ih => simp only [State.chainDown, State.innerOf_congr h, ih]

theorem State.chainUp_congr (h : ∀ n, (x.fieldLoop n).ctrl = (s.fieldLoop n).ctrl) (d n : Nat) :
    x.chainUp d n = s.chainUp d n := by
  induction d generalizing n with
  | zero => rfl
  | succ d ih => simp only [State.chainUp, State.outersOf_congr h, funext ih]

theorem State.chainBad_congr (h : ∀ n, (x.fieldLoop n).ctrl = (s.fieldLoop n).ctrl) (n : Nat) : x.chainBad n = s.chainBad n := by
  simp only [State.chainBad, State.chainDown_congr h, State.chainUp_congr h, State.innerOf_congr h, State.outersOf_congr h]

theorem State.loopStopped_congr (h : ∀ n, (x.fieldLoop n).setup = (s.fieldLoop n).setup) (n : Nat) :
    x.loopStopped n = s.loopStopped n := by
  have hchain : x.chainBad n = s.chainBad n := State.chainBad_congr (fun k => congrArg LoopSetup.ctrl (h k)) n
  have himin := congrArg LoopSetup.imin (h n)
  have himax := congrArg LoopSetup.imax (h n)
  have homin := congrArg LoopSetup.omin (h n)
  have homax := congrArg LoopSetup.omax (h n)
  simp only [FieldLoop.setup] at himin himax homin homax
  simp only [State.loopStopped, hchain, himin, himax, homin, homax]

theorem State.cfgDue_congr (h : ∀ n, (x.fieldLoop n).setup = (s.fieldLoop n).setup) (n : Nat) : x.cfgDue n = s.cfgDue n := by
  have hordered := congrArg LoopSetup.ordered (h n)
  have hinj := congrArg LoopSetup.injErr (h n)
  simp only [FieldLoop.setup] at hordered hinj
  simp only [State.cfgDue, State.loopStopped_congr h, hordered, hinj]

/-- CFG_ERR is current where every loop reads what it has to. -/
theorem State.cfgCurrent_iff : s.cfgCurrent = true ↔ ∀ n, n < 16 → (s.fieldLoop n).cfgErr = s.cfgDue n := by
  simp [State.cfgCurrent, State.cfgDue]

/-- Records that agree in setup and CFG_ERR are as current. -/
theorem State.cfgCurrent_congr (h : s.cfgCurrent = true) (hsetup : ∀ n, (x.fieldLoop n).setup = (s.fieldLoop n).setup)
    (hmark : ∀ n, (x.fieldLoop n).cfgErr = (s.fieldLoop n).cfgErr) : x.cfgCurrent = true := by
  rw [State.cfgCurrent_iff] at h ⊢
  intro n hn
  rw [hmark, State.cfgDue_congr hsetup, h n hn]

end

/-! ### The check (R282, R285, R292, R295) -/

/-- Loop n's record with CFG_ERR as the check sets it. -/
def State.markCfg (s : State) (n : Nat) : State := s.modLoop n fun l => { l with cfgErr := s.loopStopped n || !l.ordered || l.injErr }

theorem State.fieldLoop_markCfg (s : State) (n k : Nat) :
    (s.markCfg n).fieldLoop k = if k = n then { s.fieldLoop n with cfgErr := s.cfgDue n } else s.fieldLoop k := by
  simp [State.markCfg, State.cfgDue]

theorem State.setup_markCfg (s : State) (n k : Nat) : ((s.markCfg n).fieldLoop k).setup = (s.fieldLoop k).setup := by
  rw [State.fieldLoop_markCfg]
  split
  next hk => rw [hk]; rfl
  next => rfl

theorem State.refreshCfg_eq (s : State) : s.refreshCfg = s.each (List.range 16) State.markCfg := rfl

/-- The check of some loops marks those, and changes nothing else of a loop's record. -/
theorem State.fieldLoop_each_markCfg (s : State) (ns : List Nat) (k : Nat) : (s.each ns State.markCfg).fieldLoop k =
    if k ∈ ns then { s.fieldLoop k with cfgErr := s.cfgDue k } else s.fieldLoop k := by
  induction ns generalizing s with
  | nil => simp [State.each]
  | cons n ns ih =>
    refine (ih (s.markCfg n)).trans ?_
    rw [State.cfgDue_congr (State.setup_markCfg s n), State.fieldLoop_markCfg]
    by_cases hk : k = n
    · subst hk
      simp
    · simp [hk]

/-- A loop after the check (R282, R285, R292, R295). -/
theorem State.fieldLoop_refreshCfg (s : State) {n : Nat} (hn : n < 16) :
    s.refreshCfg.fieldLoop n = { s.fieldLoop n with cfgErr := s.cfgDue n } := by
  rw [State.refreshCfg_eq, State.fieldLoop_each_markCfg, if_pos (List.mem_range.2 hn)]

theorem State.setup_refreshCfg (s : State) (n : Nat) : (s.refreshCfg.fieldLoop n).setup = (s.fieldLoop n).setup := by
  rw [State.refreshCfg_eq, State.fieldLoop_each_markCfg]
  split <;> rfl

theorem State.cfgCurrent_refreshCfg (s : State) : s.refreshCfg.cfgCurrent = true := by
  rw [State.cfgCurrent_iff]
  intro n hn
  rw [State.fieldLoop_refreshCfg s hn, State.cfgDue_congr (State.setup_refreshCfg s)]

end Sys2Proof.Machine
end

section
-- One proof after another: each further thread reserves a whole stack.
set_option Elab.async false
/-! A mailbox channel while firmware sends to the host: the inbound ring stays, the outbound ring and the events held stay in
bounds (R357, R359, R365). -/

namespace Sys2Proof.Machine

/-- The outbound ring holds at most 32 slots, and at most 256 events wait (R357, R365). -/
def Channel.outBounds (c : Channel) : Prop := c.outFill ≤ 32 ∧ (c.held.filter (·.event)).length ≤ 256

/-- A change of a held message that leaves it the kind it is leaves as many events. -/
theorem events_modify (held : List OutMsg) (k : Nat) (f : OutMsg → OutMsg) (hf : ∀ m, (f m).event = m.event) :
    ((held.modify k f).filter (·.event)).length = (held.filter (·.event)).length := by
  induction held generalizing k with
  | nil => cases k <;> rfl
  | cons m held ih =>
    cases k with
    | zero =>
      simp only [List.modify_zero_cons, List.filter_cons, hf]
      split <;> rfl
    | succ k =>
      simp only [List.modify_succ_cons, List.filter_cons]
      split <;> simp [ih]

/-- Channel d is channel c after messages to the host. -/
structure Channel.Sends (c d : Channel) : Prop where
  fill : d.inFill = c.inFill
  out : c.outBounds → d.outBounds

namespace Channel.Sends

variable {c d e : Channel} {heads : List Half} {ch : Nat} {m : OutMsg}

theorem rfl : c.Sends c := ⟨Eq.refl _, id⟩

theorem trans (h : c.Sends d) (h' : d.Sends e) : c.Sends e := ⟨h'.fill.trans h.fill, h'.out ∘ h.out⟩

theorem ite {p : Prop} [Decidable p] (hd : p → c.Sends d) (he : ¬ p → c.Sends e) : c.Sends (if p then d else e) := by
  split
  next hp => exact hd hp
  next hp => exact he hp

theorem raiseVector {v : Nat} : c.Sends (c.raiseVector v) := ite (fun _ => ⟨Eq.refl _, id⟩) fun _ => ⟨Eq.refl _, id⟩

/-- The head of the list of held messages leaves it. -/
theorem unhold {r : List OutMsg} (hheld : c.held = m :: r) : c.Sends { c with held := r } := by
  refine ⟨Eq.refl _, fun h => ⟨h.1, le_trans ?_ h.2⟩⟩
  rw [hheld]
  exact ((List.sublist_cons_self m r).filter _).length_le

/-- A ring with room takes a slot. -/
theorem writeOut (hroom : c.outFill < 32) : c.Sends (c.writeOut heads ch m) := by
  have hnext : (c.outTail + 1 - c.outHead).toNat ≤ 32 := by
    simp only [Channel.outFill] at hroom
    bv_omega
  have hempty (t : Half) : (t - t).toNat ≤ 32 := by simp
  unfold Channel.writeOut
  refine ite (fun _ => ite (fun _ => trans ?_ raiseVector) fun _ => ?_) fun _ => ⟨Eq.refl _, fun h => ⟨hempty _, h.2⟩⟩
  all_goals exact ⟨Eq.refl _, fun h => ⟨hnext, h.2⟩⟩

theorem deliverHeld : c.Sends (c.deliverHeld heads ch) := by
  unfold Channel.deliverHeld
  split
  · exact rfl
  next m r hheld => exact ite (fun hroom => (unhold hheld).trans (writeOut hroom)) fun _ => rfl

theorem drain {n : Nat} : c.Sends (c.drain heads ch n) := by
  induction n generalizing c with
  | zero => exact rfl
  | succ n ih => exact deliverHeld.trans ih

/-- An event waits where fewer than 256 do (R365). -/
theorem hold (hfull : ¬ c.heldFull = true) : c.Sends { c with held := c.held ++ [m] } := by
  refine ⟨Eq.refl _, fun h => ⟨h.1, ?_⟩⟩
  have hone : ([m].filter (·.event)).length ≤ 1 := List.length_filter_le ..
  simp only [Channel.heldFull, decide_eq_true_eq] at hfull
  simp only [List.filter_append, List.length_append]
  omega

theorem holdEvent {now : Nat} : c.Sends (c.holdEvent now heads ch m) := by
  have hdrained : c.Sends (if c.heldFull then c.drain heads ch 32 else c) := ite (fun _ => drain) fun _ => rfl
  unfold Channel.holdEvent
  refine hdrained.trans ?_
  exact ite (fun _ => ⟨Eq.refl _, id⟩) hold

/-- A response or COMMAND_DONE waits without a bound, and is no event (R365, R376). -/
theorem keep (hm : m.event = false) : c.Sends { c with held := c.held ++ [m] } := by
  refine ⟨Eq.refl _, fun h => ⟨h.1, ?_⟩⟩
  simpa [hm] using h.2

/-- The host's head passes at most to the tail, so the ring gets no fuller. -/
theorem moveHead {head : Half} (hback : ¬ c.outFill < (head - c.outHead).toNat) : c.Sends { c with outHead := head } := by
  refine ⟨Eq.refl _, fun h => ⟨?_, h.2⟩⟩
  have hle := h.1
  simp only [Channel.outFill] at hle hback ⊢
  bv_omega

theorem outHeadWrite {tail0 head : Half} : c.Sends (c.outHeadWrite ch tail0 head) := by
  unfold Channel.outHeadWrite
  exact ite (fun _ => ⟨Eq.refl _, id⟩) fun hback => (moveHead hback).trans (ite (fun _ => raiseVector) fun _ => rfl)

theorem busyStart {k : Nat} : c.Sends (c.busyStart k) := by
  unfold Channel.busyStart
  refine ite (fun _ => ⟨Eq.refl _, fun h => ⟨h.1, ?_⟩⟩) fun _ => ⟨Eq.refl _, id⟩
  exact le_of_eq_of_le (events_modify c.held _ _ fun _ => Eq.refl _) h.2

theorem pageWrite {off : Nat} {v : Word} : c.Sends (c.pageWrite off v) :=
  ite (fun _ => ⟨Eq.refl _, id⟩) fun _ => ⟨Eq.refl _, id⟩

theorem msixWrite {i : Nat} {v : Word} : c.Sends (c.msixWrite i v) := by
  unfold Channel.msixWrite
  exact ite (fun _ => ⟨Eq.refl _, id⟩) fun _ => ⟨Eq.refl _, id⟩

end Channel.Sends

/-! ### The inbound ring (R359, R362, R363) -/

namespace Channel

variable {c : Channel} {ch : Nat}

theorem inBounds_iff : c.inBounds ↔ c.inFill ≤ 32 ∧ c.outBounds := Iff.rfl

theorem Sends.inBounds {d : Channel} (h : c.Sends d) (hc : c.inBounds) : d.inBounds :=
  inBounds_iff.2 ⟨h.fill ▸ (inBounds_iff.1 hc).1, h.out (inBounds_iff.1 hc).2⟩

theorem doorbell_inBounds {tail : Half} (h : c.inBounds) : (c.doorbell ch tail).inBounds := by
  unfold Channel.doorbell
  dsimp only
  split
  · exact h
  · split
    · exact h
    next hok => exact ⟨by simp only [not_or, not_lt] at hok; exact hok.2, h.2⟩

theorem commitSlot_inBounds {slot : List Byte} (h : c.inBounds) : (c.commitSlot ch slot).inBounds := by
  unfold Channel.commitSlot
  split
  · exact doorbell_inBounds h
  · exact h

/-- A command leaves a ring that holds one. -/
theorem advanceHead_inBounds {now : Nat} (hone : 0 < c.inFill) (h : c.inBounds) : (c.advanceHead ch now).inBounds := by
  have hnext : (c.inTail - (c.inHead + 1)).toNat ≤ 32 := by
    have hle := h.1
    simp only [Channel.inFill] at hle hone
    bv_omega
  have hpassed : ({ c with inHead := c.inHead + 1 } : Channel).inBounds := ⟨hnext, h.2⟩
  unfold Channel.advanceHead
  dsimp only
  split
  · split
    · exact Channel.Sends.raiseVector.inBounds hpassed
    · exact hpassed
  · exact hpassed

end Channel
end Sys2Proof.Machine
end

section
-- One proof after another: each further thread reserves a whole stack.
set_option Elab.async false
/-! Legal states in two halves: where bring-up stands, which only resets, releases and stages change; and what every other
operation keeps in order too: Cask, diodes, rings, credits, locks and CFG_ERR (R282, R285, R357, R365, R369, R405, R415, R425,
R428, R443). -/

namespace Sys2Proof.Machine

/-- Where bring-up stands, and how many slots each inbound ring holds (R357, R415, R425, R433). -/
structure Gauge where
  stage : BitVec 3
  inReset : Bool
  d1Reset : Bool
  armed : Bool
  power : Bool
  serving : Bool
  fill : Nat → Nat

/-- The gauge of a state. -/
def State.gauge (s : State) : Gauge :=
  { stage := s.aon.stage, inReset := s.aon.inReset, d1Reset := s.aon.d1Reset, armed := s.aon.armed, power := s.aon.power
    serving := s.fw.serving, fill := fun ch => (s.chan ch).inFill }

/-- Stage, resets, watchdog, firmware and power agree; no inbound ring holds more than 32 slots (R357, R415, R418, R425,
R433). -/
structure Gauge.Agrees (g : Gauge) : Prop where
  stage : g.stage.toNat ≤ 5
  reset : (g.inReset || g.d1Reset) = decide (4 ≤ g.stage.toNat)
  armed : g.armed = decide (g.stage.toNat ≤ 3)
  serving : g.serving = (decide (1 ≤ g.stage.toNat) && decide (g.stage.toNat ≤ 3))
  power : g.power = false → g.inReset = true
  fill : ∀ ch, ch < 160 → g.fill ch ≤ 32

/-- A state with gauge g whose Cask, diodes, turn, outbound rings, link credits, locks and CFG_ERR marks are in order. -/
structure State.InOrder (s : State) (g : Gauge) : Prop where
  gauge : s.gauge = g
  cask : s.aon.cask.length = 8
  diodes : s.aon.diodes.length = 4
  turn : s.fw.turn < 160
  rings : ∀ ch, ch < 160 → (s.chan ch).outBounds
  credits : ∀ n, n < 64 → (s.link n).credits ≤ 64
  locks : ∀ x ∈ s.locks.owner, 1 ≤ x.2 ∧ lockUser (x.2 - 1) = true
  cfgErr : s.cfgCurrent = true

/-- A legal state is one in order whose gauge agrees. -/
theorem State.legal_iff {s : State} : s.Legal ↔ s.gauge.Agrees ∧ s.InOrder s.gauge := by
  constructor
  · intro h
    exact ⟨⟨h.stage, h.reset, h.armed, h.serving, h.power, fun ch hch => (h.rings ch hch).1⟩,
      ⟨rfl, h.cask, h.diodes, h.turn, fun ch hch => (h.rings ch hch).2, h.credits, h.locks, h.cfgErr⟩⟩
  · rintro ⟨hg, h⟩
    exact ⟨hg.stage, hg.reset, hg.armed, hg.serving, hg.power, h.cask, h.diodes, h.turn,
      fun ch hch => ⟨hg.fill ch hch, h.rings ch hch⟩, h.credits, h.locks, h.cfgErr⟩

namespace State.InOrder

variable {s x : State} {g : Gauge} {L : List Part}

theorem legal (h : s.InOrder g) (hg : g.Agrees) : s.Legal := State.legal_iff.2 ⟨h.gauge ▸ hg, h.gauge ▸ h⟩

/-- A state with the same channels, links and lock owners, current CFG_ERR marks, and the same of what is judged in the
always-on record and in firmware's, is in order too, at the gauge it has. -/
theorem moved {g' : Gauge} (h : s.InOrder g) (hgauge : x.gauge = g') (hcfg : x.cfgCurrent = true)
    (hcask : x.aon.cask = s.aon.cask := by rfl) (hdiodes : x.aon.diodes = s.aon.diodes := by rfl)
    (hturn : x.fw.turn = s.fw.turn := by rfl) (hchans : x.chans = s.chans := by rfl) (hlinks : x.links = s.links := by rfl)
    (hlocks : x.locks.owner = s.locks.owner := by rfl) : x.InOrder g' where
  gauge := hgauge
  cask := hcask ▸ h.cask
  diodes := hdiodes ▸ h.diodes
  turn := hturn ▸ h.turn
  rings ch hch := by
    have hchan : x.chan ch = s.chan ch := congrArg (fun m => Tab.get ({} : Channel) m ch) hchans
    exact hchan ▸ h.rings ch hch
  credits n hn := by
    have hlink : x.link n = s.link n := congrArg (fun m => Tab.get ({} : Link) m n) hlinks
    exact hlink ▸ h.credits n hn
  locks := hlocks ▸ h.locks
  cfgErr := hcfg

/-- The same loops are as current. -/
theorem cfgCurrent (h : s.InOrder g) (hloops : x.loops = s.loops := by rfl) : x.cfgCurrent = true := by
  have hloop (n : Nat) : x.fieldLoop n = s.fieldLoop n := congrArg (fun m => Tab.get ({} : FieldLoop) m n) hloops
  exact State.cfgCurrent_congr h.cfgErr (fun n => congrArg _ (hloop n)) fun n => congrArg _ (hloop n)

/-- A change beside all that is judged. -/
theorem record (h : s.InOrder g) (hgauge : x.gauge = s.gauge := by rfl) (hcask : x.aon.cask = s.aon.cask := by rfl)
    (hdiodes : x.aon.diodes = s.aon.diodes := by rfl) (hturn : x.fw.turn = s.fw.turn := by rfl)
    (hchans : x.chans = s.chans := by rfl) (hlinks : x.links = s.links := by rfl)
    (hlocks : x.locks.owner = s.locks.owner := by rfl) (hloops : x.loops = s.loops := by rfl) : x.InOrder g :=
  h.moved (hgauge.trans h.gauge) (h.cfgCurrent hloops) hcask hdiodes hturn hchans hlinks hlocks

/-- The parts of the state, beside the field loops, that an ordered state is judged by. -/
def judged : List Part := [.aon, .fw, .chans, .links, .locks]

/-- What a frame leaves out of the judged parts stays in order, with current CFG_ERR marks. -/
theorem checkedFrame (h : s.InOrder g) (hk : State.Keeps L s x) (hcfg : x.cfgCurrent = true)
    (hL : ∀ p ∈ judged, p ∉ L := by decide) : x.InOrder g := by
  have haon : x.aon = s.aon := hk .aon (hL _ (by decide))
  have hfw : x.fw = s.fw := hk .fw (hL _ (by decide))
  have hchans : x.chans = s.chans := hk .chans (hL _ (by decide))
  have hgauge : x.gauge = s.gauge := by simp only [State.gauge, State.chan, haon, hfw, hchans]
  exact h.moved (hgauge.trans h.gauge) hcfg (congrArg _ haon) (congrArg _ haon) (congrArg _ hfw) hchans (hk .links (hL _ (by decide)))
    (congrArg _ (hk .locks (hL _ (by decide))))

/-- What a frame leaves out of the judged parts and the loops stays in order. -/
theorem frame (h : s.InOrder g) (hk : State.Keeps L s x) (hL : ∀ p ∈ .loops :: judged, p ∉ L := by decide) :
    x.InOrder g :=
  h.checkedFrame hk (h.cfgCurrent (hk .loops (hL _ (List.mem_cons_self ..)))) fun p hp => hL p (List.mem_cons_of_mem _ hp)

theorem ite {p : Prop} [Decidable p] {y : State} (hx : p → x.InOrder g) (hy : ¬ p → y.InOrder g) :
    (if p then x else y).InOrder g := by
  split
  next hp => exact hx hp
  next hp => exact hy hp

theorem each {α : Type} {f : State → α → State} (h : s.InOrder g) (xs : List α)
    (hf : ∀ y a, y.InOrder g → (f y a).InOrder g) : (s.each xs f).InOrder g := by
  induction xs generalizing s with
  | nil => exact h
  | cons a xs ih => exact ih (hf s a h)

/-! ### Changes of one record -/

/-- A change of firmware's record that leaves its service and the turn. -/
theorem modFw (h : s.InOrder g) {f : Fw → Fw} (hserving : (f s.fw).serving = s.fw.serving := by rfl)
    (hturn : (f s.fw).turn = s.fw.turn := by rfl) : (s.modFw f).InOrder g :=
  h.record (by simp only [State.gauge, State.modFw, hserving]; rfl) rfl rfl hturn

theorem modImage {i : Nat} {f : ImgRec → ImgRec} (h : s.InOrder g) : (s.modImage i f).InOrder g := h.record

/-- Messages to the host on a channel (R357, R365). -/
theorem modChan (h : s.InOrder g) (ch : Nat) {f : Channel → Channel} (hf : ∀ c : Channel, c.Sends (f c)) :
    (s.modChan ch f).InOrder g where
  gauge := by
    have hfill (i : Nat) : ((s.modChan ch f).chan i).inFill = (s.chan i).inFill := by
      rw [State.modChan_set, State.chan_setChan]
      split
      next hi => exact hi ▸ (hf _).fill
      next => rfl
    rw [← h.gauge]
    simp only [State.gauge, hfill]
    rfl
  cask := h.cask
  diodes := h.diodes
  turn := h.turn
  rings i hi := by
    rw [State.modChan_set, State.chan_setChan]
    split
    next he => exact (hf _).out (he ▸ h.rings i hi)
    next => exact h.rings i hi
  credits := h.credits
  locks := h.locks
  cfgErr := h.cfgErr

/-- A change of a channel's record beside its rings and what it holds. -/
theorem modChan_record (h : s.InOrder g) (ch : Nat) {f : Channel → Channel}
    (hf : ∀ c : Channel, (f c).inFill = c.inFill ∧ (c.outBounds → (f c).outBounds) := by exact fun _ => ⟨rfl, id⟩) :
    (s.modChan ch f).InOrder g := h.modChan ch fun c => ⟨(hf c).1, (hf c).2⟩

/-- A change of a link that leaves it at most 64 credits (R405). -/
theorem modLink (h : s.InOrder g) (n : Nat) {f : Link → Link}
    (hf : ∀ l : Link, l.credits ≤ 64 → (f l).credits ≤ 64 := by exact fun _ => id) : (s.modLink n f).InOrder g where
  gauge := h.gauge
  cask := h.cask
  diodes := h.diodes
  turn := h.turn
  rings := h.rings
  credits i hi := by
    rw [State.modLink_set, State.link_setLink]
    split
    next he => exact hf _ (he ▸ h.credits i hi)
    next => exact h.credits i hi
  locks := h.locks
  cfgErr := h.cfgErr

/-- Loops that agree in setup and CFG_ERR are as current (R282, R285). -/
theorem loops (h : s.InOrder g) {m : Tab FieldLoop}
    (hm : ∀ n, (Tab.get {} m n).setup = (s.fieldLoop n).setup ∧ (Tab.get {} m n).cfgErr = (s.fieldLoop n).cfgErr) :
    InOrder { s with loops := m } g where
  gauge := h.gauge
  cask := h.cask
  diodes := h.diodes
  turn := h.turn
  rings := h.rings
  credits := h.credits
  locks := h.locks
  cfgErr := State.cfgCurrent_congr h.cfgErr (fun n => (hm n).1) fun n => (hm n).2

/-- A loop's record replaced by one with its setup and CFG_ERR. -/
theorem setLoop (h : s.InOrder g) (n : Nat) {l : FieldLoop} (hsetup : l.setup = (s.fieldLoop n).setup := by rfl)
    (hmark : l.cfgErr = (s.fieldLoop n).cfgErr := by rfl) : (s.setLoop n l).InOrder g :=
  h.loops fun k => by
    have hget : Tab.get {} (Tab.put {} s.loops n l) k = if k = n then l else s.fieldLoop k := Tab.get_put ..
    rw [hget]
    split
    next hk => exact hk ▸ ⟨hsetup, hmark⟩
    next => exact ⟨rfl, rfl⟩

/-- A change of a loop's record that leaves its setup and CFG_ERR. -/
theorem modLoop (h : s.InOrder g) (n : Nat) {f : FieldLoop → FieldLoop}
    (hf : ∀ l : FieldLoop, (f l).setup = l.setup ∧ (f l).cfgErr = l.cfgErr := by exact fun _ => ⟨rfl, rfl⟩) :
    (s.modLoop n f).InOrder g := h.setLoop n (hf _).1 (hf _).2

/-! ### Messages to the host (R365, R374, R376, R385) -/

theorem postKept {ch : Nat} {m : OutMsg} (h : s.InOrder g) (hm : m.event = false := by rfl) : (s.postKept ch m).InOrder g :=
  h.modChan ch fun c => by
    refine Channel.Sends.ite (fun hroom => Channel.Sends.writeOut ?_) fun _ => Channel.Sends.keep hm
    simp only [Bool.and_eq_true, decide_eq_true_eq] at hroom
    exact hroom.1

theorem raise {code : Nat} {body : List Byte} (h : s.InOrder g) : (s.raise code body).InOrder g := by
  unfold State.raise
  refine ite (fun _ => h.each _ fun y ch hy => ?_) fun _ => h
  exact ite (fun _ => hy.modChan ch fun _ => Channel.Sends.holdEvent) fun _ => hy

end State.InOrder
end Sys2Proof.Machine
end

section
-- One proof after another: each further thread reserves a whole stack.
set_option Elab.async false
/-! A state stays in order in firing lists, model steps, stream engines and links. -/

namespace Sys2Proof.Machine

/-- A table whose every record is changed alike in a measure reads alike in it. -/
theorem Tab.get_map_measure {α β : Type} (d : α) {f : Nat × α → α} {p : α → β} (hp : ∀ x, p (f x) = p x.2) (m : Tab α)
    (i : Nat) : p (Tab.get d (m.map fun x => (x.1, f x)) i) = p (Tab.get d m i) := by
  induction m with
  | nil => rfl
  | cons x m ih =>
    simp only [List.map_cons, Tab.get]
    split
    · exact hp x
    · exact ih

/-- A packet taken back leaves its link at most 64 credits (R399, R405). -/
theorem Link.unsend_credits (now : Nat) {l : Link} (h : l.credits ≤ 64) : (l.unsend now).credits ≤ 64 := by
  unfold Link.unsend
  split
  · split
    · dsimp only
      split
      · exact Nat.min_le_right ..
      · exact h
    · exact h
  · exact h

/-- Packets sent once more cost no credit (R406). -/
theorem Link.resend_all_credits (now : Nat) (ps : List LinkPacket) (l : Link) :
    (ps.foldl (Link.resend now) l).credits = l.credits := by
  induction ps generalizing l with
  | nil => rfl
  | cons p ps ih => exact ih _

namespace State.InOrder

variable {s : State} {g : Gauge} {img e d code cl k p n ch : Nat} {u : UnitId}

/-- Link records changed alike, their credits left. -/
theorem mapLinks (h : s.InOrder g) {f : Nat × Link → Link} (hf : ∀ x, (f x).credits = x.2.credits := by exact fun _ => rfl) :
    InOrder { s with links := s.links.map fun x => (x.1, f x) } g where
  gauge := h.gauge
  cask := h.cask
  diodes := h.diodes
  turn := h.turn
  rings := h.rings
  credits n hn := by
    have hcredits : (Tab.get {} (s.links.map fun x => (x.1, f x)) n).credits = (s.link n).credits :=
      Tab.get_map_measure (p := Link.credits) {} hf s.links n
    exact hcredits ▸ h.credits n hn
  locks := h.locks
  cfgErr := h.cfgErr

/-! ### Model steps and list faults (R171, R178, R179, R184) -/

theorem markAbort {cause stream : Nat} (h : s.InOrder g) : (s.markAbort img cause stream).InOrder g := h.modImage

theorem dropStart (h : s.InOrder g) : (s.dropStart img).InOrder g := h.modImage.raise

theorem startStep (h : s.InOrder g) : (s.startStep img).InOrder g := by
  unfold State.startStep
  exact ite (fun _ => h) fun _ => ite (fun _ => h.dropStart) fun _ =>
    (h.modImage.each _ fun _ _ hy => hy.frame modStream_keeps).each _ fun _ _ hy => hy.frame modProg_keeps

theorem startSteps (h : s.InOrder g) : (s.startSteps img n).InOrder g := by
  induction n generalizing s with
  | zero => exact h
  | succ n ih => exact ih h.startStep

theorem closeStep (h : s.InOrder g) : (s.closeStep img).InOrder g := by
  unfold State.closeStep
  refine ite (fun _ => ?_) fun _ => h
  exact (h.modImage.each _ fun _ _ hy => hy.frame modStream_keeps).each _ fun _ _ hy => hy.frame modCluster_keeps

theorem abortStep {cause stream : Nat} (h : s.InOrder g) : (s.abortStep img cause stream).InOrder g := by
  unfold State.abortStep
  refine ite (fun _ => raise (modImage (each ?_ _ fun _ _ hy => hy.frame modCluster_keeps))) fun _ => h
  have hunits : (s.each (s.unitsOf img) fun s u => s.abortUnit img u).InOrder g :=
    h.each _ fun _ _ hy => hy.frame abortUnit_keeps
  exact each (each (each (each hunits _ fun _ _ hy => hy.frame modStream_keeps) _ fun _ _ hy => hy.frame modStream_keeps)
    _ fun _ _ hy => hy.frame modPool_keeps) _ fun _ _ hy => hy.frame modDesc_keeps

theorem onOp {code : Nat} {f : State → Dword → State} (h : s.InOrder g) (hf : ∀ y o, y.InOrder g → (f y o).InOrder g) :
    (s.onOp u img code f).InOrder g := by
  unfold State.onOp
  exact ite (fun _ => hf _ _ h) fun _ => h

theorem effectEnd (h : s.InOrder g) : (effectEnd u img s).InOrder g :=
  h.onOp fun _ _ hy => closeStep (hy.frame modProg_keeps)

theorem effectEvent (h : s.InOrder g) : (effectEvent u img s).InOrder g := h.onOp fun _ _ hy => hy.raise.frame finish_keeps

theorem effectListFault (h : s.InOrder g) : (effectListFault u img s).InOrder g := by
  unfold Machine.effectListFault
  exact ite (fun _ => (raise (h.frame modProg_keeps)).markAbort) fun _ => h

theorem effectTokenInvalid {tok : Dword} (h : s.InOrder g) : (effectTokenInvalid u tok s).InOrder g := by
  unfold Machine.effectTokenInvalid
  exact ite (fun _ => h.raise) fun _ => h

theorem effectFenceOrder (h : s.InOrder g) : (effectFenceOrder u img s).InOrder g := by
  unfold Machine.effectFenceOrder
  split
  · exact h
  · have hraised {p : Prop} [Decidable p] {i : Nat} :
        (if p then (s.raise 0x8003 (toLe 2 i)).markAbort img 3 i else s).InOrder g :=
      ite (fun _ => h.raise.markAbort) fun _ => h
    exact frame (frame (each hraised _ fun _ _ hy => hy.frame sendError_keeps) markAll_keeps) modProg_keeps

theorem effectStepAborted (h : s.InOrder g) : (effectStepAborted img s).InOrder g := by
  unfold Machine.effectStepAborted
  split
  · exact h.abortStep
  · exact h

theorem effectStall {i : Nat} (h : s.InOrder g) : (effectStall i s).InOrder g := by
  unfold Machine.effectStall
  dsimp only
  split
  · refine ite (fun _ => h) fun _ => ?_
    split
    · exact (h.raise.frame modStream_keeps).markAbort
    · exact h.raise.frame modStream_keeps
  · exact h

/-! ### Firing (R145, R146, R158) -/

theorem fire {ins outs : List Nat} {work : State → List Dword → List (Nat × Nat) → Work} (h : s.InOrder g)
    (hwork : ∀ y toks hs, y.InOrder g → (work y toks hs).st.InOrder g) : (s.fire u img ins outs work).InOrder g := by
  have hmarked {why : Ready} {ps : List Nat} : (s.markAll outs why (pools := ps)).InOrder g := h.frame markAll_keeps
  unfold State.fire
  dsimp only
  split
  · exact hmarked
  · have htaken := (hmarked (why := .ready) (ps := [])).each ins fun y i hy => hy.frame (x := y.takeHead u i) takeHead_keeps
    split
    · exact frame (each (htaken.frame sendError_keeps) _ fun _ _ hy => hy.frame releaseTok_keeps) finish_keeps
    · have hspent := htaken.each outs fun y o hy =>
        (hy.frame takeHandle_keeps).frame (x := (y.takeHandle o).modStream o fun m => m.spend) modStream_keeps
      exact frame (frame (each (hwork _ _ _ hspent) _ fun _ _ hy => hy.frame releaseTok_keeps) sendOutputs_keeps)
        finish_keeps

theorem raiseQnt {stream sat under : Nat} {seq satT underT : Half} {replayed : Bool} (h : s.InOrder g) :
    (s.raiseQnt stream seq sat under satT underT replayed).InOrder g := by
  unfold State.raiseQnt
  have hsat {q : Prop} [Decidable q] {code : Nat} {body : List Byte} :
      (if q then s.raise code body else s).InOrder g := ite (fun _ => h.raise) fun _ => h
  exact ite (fun _ => hsat.raise) fun _ => hsat

theorem effectQuantEncode (h : s.InOrder g) : (effectQuantEncode u img s).InOrder g :=
  h.onOp fun _ _ hy => ite (fun _ => hy) fun _ => hy.fire fun _ _ _ hz =>
    raiseQnt (each (hz.frame setStream_keeps) _ fun _ _ hw => hw.frame storePairs_keeps)

theorem effectRecv (h : s.InOrder g) : (effectRecv u img s).InOrder g := by
  refine h.onOp fun y o hy => ite (fun _ => ?_) fun _ => ?_
  · exact ite (fun _ => (hy.frame sendError_keeps).frame finish_keeps) fun _ => hy.frame markAll_keeps
  · split
    · exact hy.frame markAll_keeps
    · refine hy.fire fun _ _ _ hz => each ?_ _ fun _ _ hw => hw.frame storePairs_keeps
      exact each ((hz.frame modStream_keeps).frame modStream_keeps) _ fun _ _ hw => hw.modLink _

theorem sendDone {i : Nat} {tok : Dword} (h : s.InOrder g) : (s.sendDone u img i tok).InOrder g := h.frame sendDone_keeps

theorem effectSend (h : s.InOrder g) : (effectSend u img s).InOrder g := by
  refine h.onOp fun y o hy => ?_
  have hwait {i : Nat} {f : Stream → Stream} : (y.modStream i f).InOrder g := hy.frame modStream_keeps
  dsimp only
  split
  · exact hy
  · refine ite (fun _ => hy.sendDone) fun _ => ?_
    split
    · exact hwait
    · exact ite (fun _ => hy.sendDone) fun _ => ite (fun _ => hwait.modLink _) fun _ => (hy.modLink _).sendDone

/-- FIELD 0x1 writes a scalar, which no configuration check looks at (R290). -/
theorem effectFieldScalar (h : s.InOrder g) : (effectFieldScalar u img s).InOrder g :=
  h.onOp fun _ _ hy => ite (fun _ => hy) fun _ => hy.fire fun _ _ _ hz => hz.modLoop _ fun l => by
    unfold FieldLoop.takeScalar
    dsimp only
    split
    · exact ⟨rfl, rfl⟩
    · split <;> exact ⟨rfl, rfl⟩

/-! ### Tile packets that end (R129, R135 to R138) -/

theorem closePacket {f e : Nat} {q : Packet} (h : s.InOrder g) : (s.closePacket cl f e q).InOrder g := by
  unfold State.closePacket
  refine frame (frame (frame (each ?_ _ fun _ _ hy => hy.frame deliver_keeps) releaseTok_keeps) modFeeder_keeps) finish_keeps
  exact h.raiseQnt.frame modStream_keeps

theorem replayPacket {f e : Nat} {q : Packet} (h : s.InOrder g) : (s.replayPacket cl f e q).InOrder g := by
  unfold State.replayPacket
  refine frame (each (frame ?_ modStream_keeps) _ fun _ _ hy => hy.frame modCore_keeps) modFeeder_keeps
  exact ite (fun _ => h.raiseQnt) fun _ => h

theorem effectPacketEnd {f : Nat} (h : s.InOrder g) : (effectPacketEnd cl f s).InOrder g := by
  unfold Machine.effectPacketEnd
  split
  · split
    · exact ite (fun _ => h.closePacket) fun _ => h
    · exact h
  · exact h

theorem effectVerdict {f : Nat} (h : s.InOrder g) : (effectVerdict cl f s).InOrder g := by
  unfold Machine.effectVerdict
  split
  · split
    · exact ite (fun _ => ite (fun _ => h.replayPacket) fun _ => h.closePacket) fun _ => h
    · exact h
  · exact h

/-! ### Stream engines (R213, R217, R221 to R229) -/

section

variable {w : List Byte} {byImg : Option Nat} {f : Flight}

theorem descError (h : s.InOrder g) : (s.descError e d code w).InOrder g := by
  have hraised {n : Nat} {k : Desc} {q : Stack → Stack} {body : List Byte} :
      (((s.setDesc e d k).modStack e q).raise n body).InOrder g := raise h.record
  unfold State.descError
  dsimp only
  split
  · exact ite (fun _ => hraised.markAbort) fun _ => hraised
  · exact hraised

/-- What an arm does, by where the descriptor stands. -/
theorem armWith (h : s.InOrder g) : (s.armWith e d w byImg).InOrder g := by
  have hset {k : Desc} : (s.setDesc e d k).InOrder g := h.record
  unfold State.armWith
  dsimp only
  cases (s.desc e d).st with
  | idle | done => exact ite (fun _ => hset) fun _ => hset.descError
  | armed | active | draining =>
    exact ite (fun _ => hset.frame modStack_keeps) fun _ => ite (fun _ => hset) fun _ => ite (fun _ => hset) fun _ =>
      h.descError
  | error => exact h.record

theorem arm (h : s.InOrder g) : (s.arm e d byImg).InOrder g := h.armWith

theorem fwArm (h : s.InOrder g) : (s.fwArm e d).InOrder g := h.arm.frame modDesc_keeps

theorem xferArm (h : s.InOrder g) : (s.xferArm e d img).InOrder g := by
  unfold State.xferArm
  dsimp only
  split
  · exact h.arm.frame modDesc_keeps
  · exact h.arm.frame modDesc_keeps
  · exact h.arm

theorem takeLate {late : Option LateArm} (h : s.InOrder g) : (s.takeLate e d late).InOrder g := by
  unfold State.takeLate
  split
  · refine ite (fun _ => armWith (frame ?_ modDesc_keeps)) fun _ => h
    exact ite (fun _ => h) fun _ => h.record
  · exact h

theorem settleLate (h : s.InOrder g) : (s.settleLate e d).InOrder g := by
  unfold State.settleLate
  split
  · exact ite (fun _ => armWith h.record) fun _ => h
  · exact h

theorem descDone (h : s.InOrder g) : (s.descDone e d).InOrder g := by
  have hreport : (s.reportDone e d).InOrder g := frame (ite (fun _ => h.raise) fun _ => h) xferDone_keeps
  rw [State.descDone_eq]
  refine takeLate (ite (fun _ => armWith ?_) fun _ => ?_)
  all_goals exact ite (fun _ => (hreport.frame modDesc_keeps).arm) fun _ => hreport.frame modDesc_keeps

theorem endAbort (h : s.InOrder g) : (s.endAbort e d).InOrder g := by
  unfold State.endAbort
  refine ite (fun _ => ?_) fun _ => h
  split
  · exact armWith h.record
  · exact h.record

theorem settleFlight {q : Desc} {from_ : Option Nat} (h : s.InOrder g) : (s.settleFlight e d q f from_).InOrder g := by
  have hread : (match from_ with | some a => s.readHbm a f.size | none => s).InOrder g := by
    cases from_ with
    | some a => exact h.frame readHbm_keeps
    | none => exact h
  refine ite (fun _ => (hread.frame discard_keeps).endAbort) fun _ =>
    ite (fun _ => (hread.frame discard_keeps).descError) fun _ => ?_
  have hsent := ((hread.frame (x := State.moveBytes _ q.work f.idx f.handle) moveBytes_keeps).frame
    (x := State.emptied _ f) emptied_keeps).frame (x := State.modDesc _ e d fun k =>
      { k with finished := k.finished ++ [(f.idx, f.handle, true)] }) modDesc_keeps
  exact ite (fun _ => (hsent.frame emitInOrder_keeps).descDone) fun _ => hsent.frame emitInOrder_keeps

theorem effectTransferComplete {i : Nat} (h : s.InOrder g) : (effectTransferComplete e d i s).InOrder g := by
  refine settleLate ?_
  cases hfind : (s.desc e d).outstanding.find? fun x => x.idx = i with
  | none =>
    unfold State.transferOver
    dsimp only
    rw [hfind]
    exact h
  | some f =>
    rw [State.transferOver_eq hfind]
    exact settleFlight (h.frame landed_keeps)

theorem effectDescCompToken (h : s.InOrder g) : (effectDescCompToken e d s).InOrder g := by
  refine settleLate ?_
  unfold State.completionToken
  refine ite (fun _ => ite (fun _ => h) fun _ => ite (fun _ => ?_) fun _ => h.frame markAll_keeps) fun _ => h
  exact descDone (h.frame completed_keeps)

theorem effectXfer (h : s.InOrder g) : (effectXfer u img s).InOrder g := by
  refine h.onOp fun y o hy => ?_
  split
  · refine frame (xferArm ?_) finish_keeps
    exact ite (fun _ => hy.record) fun _ => hy
  · exact hy

end

/-! ### Packets on links: at most 64 credits (R398, R399, R405 to R407) -/

theorem modPort (h : s.InOrder g) {f : Link → Link} (hf : ∀ l : Link, l.credits ≤ 64 → (f l).credits ≤ 64 := by exact fun _ => id) :
    (s.modPort n f).InOrder g := h.modLink n (f := fun l => l.runTimer s.now (s.asked n) (f l)) hf

theorem bypass {q : HeaderFrame} (h : s.InOrder g) : (s.bypass n q).InOrder g := by
  unfold State.bypass
  refine modLink (h.modPort fun l hl => ?_) _
  exact le_trans (Nat.sub_le ..) hl

theorem effectHeaderFrame {q : HeaderFrame} (h : s.InOrder g) : (effectHeaderFrame n q s).InOrder g := by
  have hdecoded : (s.decodeHeader n q).InOrder g := by
    unfold State.decodeHeader
    extract_lets early y
    have hy : y.InOrder g := ite (fun _ => h.modLink _ fun _ hl => Link.unsend_credits _ hl) fun _ => h
    split
    · exact hy.modLink _
    · exact hy.modLink _
    · exact (hy.modLink _).modLink _
    · exact hy.bypass
    · exact hy.modLink _
  unfold Machine.effectHeaderFrame State.decodeFrame
  exact ite (fun _ => h) fun _ => ite (fun _ => h.modLink _) fun _ => ite (fun _ => h.modLink _) fun _ =>
    ite (fun _ => h) fun _ => hdecoded

theorem effectPacketLanded {payload : List Byte} {bad : Bool} (h : s.InOrder g) :
    (effectPacketLanded n payload bad s).InOrder g := by
  unfold Machine.effectPacketLanded
  split
  · exact h
  next q onward r _ =>
    have htaken : (s.modLink n fun l => { l with expect := r }).InOrder g := h.modLink _
    refine ite (fun _ => htaken.modLink _) fun _ => ?_
    split
    · exact ite (fun _ => htaken.modLink _) fun _ => modLink (modPort (htaken.modLink _)) _
    · exact ite (fun _ => htaken.modLink _) fun _ => ((htaken.modLink _).modLink _).frame modStream_keeps

theorem takeAck {src lseq lander : Half} (h : s.InOrder g) : (s.takeAck n src lseq lander).InOrder g := by
  unfold State.takeAck
  refine ite (fun _ => h.modLink _) fun _ => ite (fun _ => h) fun _ => ?_
  split
  · exact h.modLink _
  · exact h

theorem takeCredits (h : s.InOrder g) : (s.takeCredits n k).InOrder g := by
  unfold State.takeCredits
  exact modLink (h.each _ fun _ _ hy => hy.frame modStream_keeps) n fun _ _ => Nat.min_le_right ..

theorem effectAckFrame {crc src lseq lander : Half} (h : s.InOrder g) : (effectAckFrame n crc src lseq lander s).InOrder g := by
  unfold Machine.effectAckFrame
  exact ite (fun _ => h) fun _ => ite (fun _ => h.takeAck) fun _ => h.modLink _

theorem effectCreditFrame {crc : Half} (h : s.InOrder g) : (effectCreditFrame n crc k s).InOrder g := by
  unfold Machine.effectCreditFrame
  exact ite (fun _ => h) fun _ => ite (fun _ => h.takeCredits) fun _ => h.modLink _

/-- A link's record replaced by one with no more credits than it had. -/
theorem setLink {l : Link} (h : s.InOrder g) (hl : l.credits ≤ (s.link n).credits := by exact le_refl _) :
    (s.setLink n l).InOrder g where
  gauge := h.gauge
  cask := h.cask
  diodes := h.diodes
  turn := h.turn
  rings := h.rings
  credits i hi := by
    rw [State.link_setLink]
    split
    next he => exact le_trans hl (he ▸ h.credits i hi)
    next => exact h.credits i hi
  locks := h.locks
  cfgErr := h.cfgErr

theorem effectPacketSend (h : s.InOrder g) : (effectPacketSend n s).InOrder g := by
  unfold Machine.effectPacketSend
  dsimp only
  split
  · exact h
  · exact ite (fun _ => h.setLink (Nat.sub_le ..)) fun _ => h

theorem effectPacketReplay {lseq : Half} (h : s.InOrder g) : (effectPacketReplay n lseq s).InOrder g := by
  unfold Machine.effectPacketReplay
  dsimp only
  split
  · exact ite (fun _ => h.setLink) fun _ => h
  · exact h

/-! ### Link states (R402, R407 to R412) -/

theorem countCodewords (h : s.InOrder g) : (s.countCodewords n).InOrder g := h.modLink n fun _ hl => by
  split <;> exact hl

theorem setLinkState {st : BitVec 2} {reason : BitVec 3} (h : s.InOrder g) : (s.setLinkState n st reason).InOrder g := by
  have hlink : ((s.countCodewords n).modLink n fun l => { l with st := st, downReason := reason }).InOrder g :=
    h.countCodewords.modLink _
  unfold State.setLinkState
  exact ite (fun _ => hlink) fun _ => hlink.raise

theorem loseLink (h : s.InOrder g) : (s.loseLink n).InOrder g := by
  unfold State.loseLink
  refine each (each (modLink (h.each _ fun _ _ hy => hy.frame modStream_keeps) n fun _ _ => Nat.zero_le _) _
    fun _ _ hy => hy.sendDone) _ fun _ _ hy => hy.frame modStream_keeps

theorem linkGoesDown {reason : BitVec 3} (h : s.InOrder g) : (s.linkGoesDown n reason).InOrder g := by
  unfold State.linkGoesDown
  refine ite (fun _ => h.modLink _) fun _ => ?_
  exact ite (fun _ => h.setLinkState.loseLink) fun _ => h.setLinkState.loseLink.setLinkState

theorem passThrough (h : s.InOrder g) : (s.passThrough n).InOrder g := by
  unfold State.passThrough
  exact ite (fun _ => h) fun _ => h.setLinkState.loseLink

theorem effectLinkDown {reason : BitVec 3} (h : s.InOrder g) : (effectLinkDown n reason s).InOrder g := by
  unfold Machine.effectLinkDown
  exact ite (fun _ => h) fun _ => h.linkGoesDown

theorem effectLinkTimer (h : s.InOrder g) : (effectLinkTimer n s).InOrder g := by
  unfold Machine.effectLinkTimer
  exact ite (fun _ => h.linkGoesDown) fun _ => h

theorem laneFails {lane : Nat} (h : s.InOrder g) : (s.laneFails n lane).InOrder g := by
  unfold State.laneFails
  refine ite (fun _ => h) fun _ => ite (fun _ => ite (fun _ => h.linkGoesDown) fun _ => h) fun _ =>
    ite (fun _ => ?_) fun _ => h
  split
  · exact ite (fun _ => h) fun _ => h.linkGoesDown
  · exact h.setLink

theorem effectLaneLockLoss {lanes : List Nat} (h : s.InOrder g) : (effectLaneLockLoss n lanes s).InOrder g := by
  unfold Machine.effectLaneLockLoss
  split
  · exact h
  · exact h.laneFails
  · exact ite (fun _ => h.linkGoesDown) fun _ => h

theorem effectSpareLaneSwitch (h : s.InOrder g) : (effectSpareLaneSwitch n s).InOrder g := by
  unfold Machine.effectSpareLaneSwitch
  dsimp only
  split
  · exact setLink (h.frame wears_keeps) (le_of_eq (Link.resend_all_credits ..))
  · exact h

theorem sendPeerReady (h : s.InOrder g) : (s.sendPeerReady n).InOrder g := h.postKept

theorem effectLinkUp {peer : Half} {tl l : BitVec 8} (h : s.InOrder g) : (effectLinkUp n peer tl l s).InOrder g := by
  unfold Machine.effectLinkUp
  have hpeer : (s.modLink n fun q => { q with
      peer := peer, tlevel := tl, clevel := l, spareUsed := false, spareFor := 0, failedLane := none }).InOrder g := h.modLink n
  refine ite (fun _ => h) fun _ => ite (fun _ => ?_) fun _ => hpeer.setLinkState
  have hup {f : Link → Link} (hf : ∀ q : Link, q.credits ≤ 64 → (f q).credits ≤ 64) :
      ((State.modLink _ n f).setLinkState n 2 0).InOrder g := (hpeer.modLink n hf).setLinkState
  exact ite (fun _ => (hup fun _ _ => le_refl _).sendPeerReady) fun _ => hup fun _ _ => le_refl _

end State.InOrder
end Sys2Proof.Machine
end

section
-- One proof after another: each further thread reserves a whole stack.
set_option Elab.async false
/-! A state stays in order in field loops, ring holding and the angle timebase. -/

namespace Sys2Proof.Machine

namespace State.InOrder

variable {s : State} {γ : Gauge} {cl k n p r code : Nat} {z : CalSlot}

/-! ### Field loops (R278 to R300) -/

theorem capture (h : s.InOrder γ) : (s.capture n).InOrder γ := by
  unfold State.capture
  refine ite (fun _ => ite (fun _ => h.record) fun _ => ite (fun _ => raise h.record) fun _ => h.record) fun _ => h

/-- A detector freezes a loop: no field that the check looks at moves (R294). -/
theorem loopFreeze {set : Nat} {l : FieldLoop} (h : s.InOrder γ) (hsetup : l.setup = (s.fieldLoop n).setup)
    (hmark : l.cfgErr = (s.fieldLoop n).cfgErr) : (s.loopFreeze n set l).InOrder γ := by
  refine frame (raise (setLoop h n ?_ ?_)) refreshIdle_keeps
  · exact hsetup
  · exact hmark

/-- The injection's step moves none of what the check looks at. -/
theorem setup_injAdvance {l : FieldLoop} {now turn : Nat} :
    (l.injAdvance now turn).setup = l.setup ∧ (l.injAdvance now turn).cfgErr = l.cfgErr := by
  unfold FieldLoop.injAdvance
  split
  · exact ⟨rfl, rfl⟩
  · dsimp only
    split <;> exact ⟨rfl, rfl⟩

theorem updateLoop (h : s.InOrder γ) : (s.updateLoop n).InOrder γ := by
  obtain ⟨z, every, turn, start, done, u, hz, hparts⟩ := State.updateLoop_parts (s := s) (n := n) rfl rfl
  dsimp only at hparts
  generalize hb : State.toSignal (State.toSignal z _).1 _ = b at hparts
  generalize hl : (s.prfStep n).fieldLoop n = l at hparts
  have hsignal : b.1.InOrder γ :=
    hb ▸ (((h.frame prfStep_keeps).frame hz).frame toSignal_keeps).frame toSignal_keeps
  have hloop : b.1.fieldLoop n = l := by
    have hkeep : State.Keeps [.loopEng, .free] (s.prfStep n) b.1 :=
      hb ▸ .into toSignal_keeps (by decide) (.into toSignal_keeps (by decide) (.into hz (by decide) .rfl))
    exact (hkeep.fieldLoop_eq (by decide) n).trans hl
  have hset {r : FieldLoop} {t t' : Nat} (hsetup : r.setup = l.setup) (hmark : r.cfgErr = l.cfgErr) :
      (b.1.setLoop n (r.injAdvance t t')).InOrder γ :=
    hsignal.setLoop n (by rw [hloop, setup_injAdvance.1, hsetup]) (by rw [hloop, setup_injAdvance.2, hmark])
  rw [hparts]
  refine ite (fun _ => hsignal.loopFreeze ?_ ?_) fun _ => ite (fun _ => frame (hset ?_ ?_) loopOutput_keeps) fun _ => hset ?_ ?_
  · rw [hloop]; rfl
  · rw [hloop]; rfl
  all_goals rfl

theorem effectLoopUpdate (h : s.InOrder γ) : (effectLoopUpdate n s).InOrder γ := by
  unfold Machine.effectLoopUpdate
  exact ite (fun _ => h.updateLoop.capture.frame triggerConvs_keeps) fun _ => ite (fun _ => h.modLoop n) fun _ => h

theorem effectSvStale (h : s.InOrder γ) : (effectSvStale n s).InOrder γ := by
  unfold Machine.effectSvStale
  refine ite (fun _ => raise (h.modLoop n fun l => ?_)) fun _ => h
  split <;> exact ⟨rfl, rfl⟩

/-- A loop that becomes due, and its outer loops in their turn (R284, R285). -/
theorem loopDue {d : Nat} (h : s.InOrder γ) : (s.loopDue n d).InOrder γ := by
  induction d generalizing s n with
  | zero => exact h
  | succ d ih =>
    unfold State.loopDue
    dsimp only
    refine ite (fun _ => h) fun _ => ?_
    split
    · exact ite (fun _ => ih (h.modLoop n)) fun _ => h.modLoop n
    · exact h.modLoop n

theorem loopResult {j : Nat} (h : s.InOrder γ) : (s.loopResult k j).InOrder γ :=
  h.each _ fun _ _ hy => ite (fun _ => ite (fun _ => hy.loopDue) fun _ => hy.modLoop _) fun _ => hy

theorem effectLoopTimer (h : s.InOrder γ) : (effectLoopTimer n s).InOrder γ := by
  unfold Machine.effectLoopTimer
  exact ite (fun _ => (h.modLoop n).loopDue) fun _ => h

/-- A converter's result, which loops take as theirs (R305, R284). -/
theorem seqResult {slot sample chan : Nat} {w : BitVec 12} {ovr fifo stream : Bool} (h : s.InOrder γ) :
    (s.seqResult k slot sample w ovr fifo stream chan).InOrder γ := loopResult (h.frame modConv_keeps)

theorem threeResult {t0 j : Nat} {v d : Int} (h : s.InOrder γ) : (s.threeResult t0 j v d).InOrder γ := by
  unfold State.threeResult
  exact ite (fun _ => h.seqResult.frame modConv_keeps) fun _ => h

theorem effectConversionResult {v d : Int} (h : s.InOrder γ) : (effectConversionResult k v d s).InOrder γ := by
  unfold Machine.effectConversionResult
  dsimp only
  refine ite (fun _ => ?_) fun _ => ?_
  · split
    · exact h.threeResult
    · exact h
  · split
    · exact ite (fun _ => (h.frame modFout_keeps).frame modConv_keeps) fun _ => h
    · exact ite (fun _ => h.seqResult.frame modConv_keeps) fun _ => h
    · exact h

/-! ### Host writes of loops: each ends current (R282, R285, R287, R294, R295, R301) -/

/-- After a check the marks are current, whatever became of the loops. -/
theorem refreshed {L : List Part} {y : State} (h : s.InOrder γ) (hk : State.Keeps L s y)
    (hL : ∀ p ∈ judged, p ∉ .loops :: L := by decide) : y.refreshCfg.InOrder γ :=
  h.checkedFrame (.into refreshCfg_keeps (by simp) (.into hk (List.subset_cons_self ..) .rfl)) y.cfgCurrent_refreshCfg hL

theorem loopWrite {f : State → State} {fn : Nat} (h : s.InOrder γ) (hf : (f s).InOrder γ) : (s.loopWrite fn f).InOrder γ :=
  ite (fun _ => h) fun _ => ite (fun _ => hf) fun _ => h.record

theorem loopCtrl {fn : Nat} {v : Word} (h : s.InOrder γ) : (s.loopCtrl fn n v).InOrder γ := by
  refine h.loopWrite (frame (refreshed h (L := [.loops, .prfs]) ?_) refreshIdle_keeps)
  refine .ite (fun _ => .into loopStart_keeps (by decide) ?_) fun _ => ?_
  all_goals exact .into modPrf_keeps (by decide) (.into setLoop_keeps (by decide) .rfl)

theorem loopStat {fn : Nat} {v : Word} (h : s.InOrder γ) : (s.loopStat fn n v).InOrder γ :=
  h.loopWrite (ite (fun _ => (h.modLoop n).frame refreshIdle_keeps) fun _ => h)

theorem injCtrl {fn : Nat} {v : Word} (h : s.InOrder γ) : (s.injCtrl fn n v).InOrder γ := by
  refine h.loopWrite (ite (fun _ => h.modLoop n) fun _ => ite (fun _ => ?_) fun _ => ite (fun _ => h.modLoop n) fun _ => ?_)
  · exact h.refreshed modLoop_keeps
  · have hrun {seed : Nat} {w : Word} : ((s.draw.modLoop n fun l =>
        { l with injCtrl := w, injErr := false, injIdx := 0, lfsr := seed }).refreshCfg).InOrder γ :=
      h.refreshed (L := [.loops, .free]) (.into modLoop_keeps (by decide) (.into draw_keeps (by decide) .rfl))
    exact ite (fun _ => hrun.frame (.loopEng (L := [.loopEng]) (by decide) .rfl)) fun _ => hrun

/-- A write in a loop's record (R278, R301). -/
theorem loopReg {fn r : Nat} {v : Word} (h : s.InOrder γ) : (s.loopReg fn n r v).InOrder γ := by
  unfold State.loopReg
  split
  · exact h.loopCtrl
  · exact h.injCtrl
  · exact h.loopStat
  · exact (h.refreshed modLoop_keeps).frame refreshIdle_keeps

theorem loopRegion {fn off : Nat} {v : Word} (h : s.InOrder γ) : (s.loopRegion fn off v).InOrder γ := by
  unfold State.loopRegion
  exact ite (fun _ => h.loopReg) fun _ => ite (fun _ => h.frame prfReg_keeps) fun _ => ite (fun _ => h.frame capCtrl_keeps) fun _ => h

/-! ### Reports of ring holding (R263, R277) -/

theorem ringEvent {v : Nat} (h : s.InOrder γ) : (s.ringEvent code cl k r v).InOrder γ := h.raise

theorem moreRings {xs : List (Nat × Int)} (h : s.InOrder γ) : (s.moreRings cl k n xs).InOrder γ := by
  induction n generalizing s xs with
  | zero => exact h
  | succ n ih => exact ite (fun _ => h) fun _ => ih h.raise

theorem raiseMislock {xs : List (Nat × Int)} (h : s.InOrder γ) : (s.raiseMislock cl k xs).InOrder γ :=
  raise (moreRings h.raise)

/-! ### Cores that leave and come back (R22 to R26, R257 to R264) -/

theorem retireCore (h : s.InOrder γ) : (s.retireCore cl k).InOrder γ :=
  frame (ringEvent ((h.frame modCore_keeps).frame modCluster_keeps)) retireCheck_keeps

theorem leave {home : Option Nat} (h : s.InOrder γ) : (s.leave cl k home).InOrder γ := by
  unfold State.leave
  dsimp only
  split
  · exact ite (fun _ => h.retireCore) fun _ => (h.frame modCore_keeps).frame mend_keeps
  · exact h.retireCore
  · exact ite (fun _ => h.retireCore) fun _ => ((h.frame modCore_keeps).frame mend_keeps).frame moveMislocked_keeps
  · exact ite (fun _ => h.retireCore) fun _ => ((h.frame modCore_keeps).frame mend_keeps).frame moveMislocked_keeps
  · exact h.frame modCore_keeps

theorem spareDone (h : s.InOrder γ) : (s.spareDone cl k).InOrder γ := by
  unfold State.spareDone
  exact ite (fun _ => h.leave) fun _ => h.frame spareBack_keeps

theorem handBack (h : s.InOrder γ) : (s.handBack cl z).InOrder γ := by
  unfold State.handBack
  dsimp only
  split
  · exact h
  · have hmoved {p sp e : Nat} {g : Core → Core} :
        (((s.movePos cl p sp z.core e).applyCal cl z.core).modCore cl z.core g).InOrder γ :=
      ((h.frame movePos_keeps).frame applyCal_keeps).frame modCore_keeps
    exact frame (ite (fun _ => hmoved.leave) fun _ => hmoved.frame modCore_keeps) endSlot_keeps

theorem displace {y : Nat × ClaimRank} (h : s.InOrder γ) : (s.displace cl y).InOrder γ := by
  unfold State.displace
  extract_lets c sp
  split
  · extract_lets moved leaving back
    have hback : back.InOrder γ := by
      have hmoved : moved.InOrder γ := h.frame movePos_keeps
      unfold back
      split
      · exact (hmoved.frame dropSlot_keeps).frame modCore_keeps
      · exact (hmoved.frame modCore_keeps).frame modCluster_keeps
    exact ite (fun _ => (hback.frame modCluster_keeps).leave.frame claimWear_keeps) fun _ =>
      (hback.frame modCore_keeps).frame modCluster_keeps
  · exact h

theorem recovBack (h : s.InOrder γ) : (s.recovBack cl k p).InOrder γ :=
  spareDone (frame (frame (h.frame movePos_keeps) modCore_keeps) modCluster_keeps)

theorem takeOver (h : s.InOrder γ) : (s.takeOver cl k p).InOrder γ :=
  leave (frame (frame (h.frame movePos_keeps) wears_keeps) modCore_keeps)

theorem effectHandover (h : s.InOrder γ) : (effectHandover cl s).InOrder γ := by
  unfold Machine.effectHandover
  dsimp only
  split
  · exact ite (fun _ => h.displace) fun _ => h
  · split
    · exact ite (fun _ => h.frame slotOut_keeps) fun _ => h
    · exact ite (fun _ => h.handBack) fun _ => h
    · exact h
  · split
    · exact ite (fun _ => h.recovBack) fun _ => h
    · split
      · exact ite (fun _ => h.takeOver) fun _ => h
      · exact h

/-! ### The rotation's calibrations (R244, R252 to R258) -/

theorem loseSlot (h : s.InOrder γ) : (s.loseSlot cl z).InOrder γ := by
  have hlost {g : Cluster → Cluster} {f : Core → Core} :
      (((s.modCluster cl g).modCore cl z.core f).retireCore cl z.core).InOrder γ :=
    retireCore ((h.frame modCluster_keeps).frame modCore_keeps)
  unfold State.loseSlot
  exact ite (fun _ => hlost.frame freeSpare_keeps) fun _ => hlost

theorem effectCalibrationDone {vals : CalValues} (h : s.InOrder γ) : (effectCalibrationDone cl k vals s).InOrder γ := by
  unfold Machine.effectCalibrationDone
  dsimp only
  split
  · refine ite (fun _ => ite (fun _ => (h.frame modCore_keeps).frame slotBack_keeps) fun _ => ?_) fun _ => h
    refine ite (fun _ => loseSlot (h.frame modCore_keeps)) fun _ => ringEvent (frame ?_ modCluster_keeps)
    exact (h.frame modCore_keeps).frame mend_keeps
  · exact h

theorem effectCalStarved (h : s.InOrder γ) : (effectCalStarved cl s).InOrder γ := by
  unfold Machine.effectCalStarved
  dsimp only
  split
  · exact ite (fun _ => frame (frame (ringEvent (h.frame modCluster_keeps)) modCore_keeps) slotBack_keeps) fun _ => h
  · exact h

theorem calFaults (h : s.InOrder γ) : (s.calFaults cl n k).InOrder γ := by
  have hfailed {g : Core → Core} : (s.modCore cl k g).InOrder γ := h.frame modCore_keeps
  unfold State.calFaults
  dsimp only
  refine ite (fun _ => h) fun _ => ite (fun _ => ?_) fun _ => ?_
  · split
    · exact retireCore (frame ((hfailed.frame movePos_keeps).frame wears_keeps) modCore_keeps)
    · exact (hfailed.frame modCore_keeps).frame claimWear_keeps
    · exact hfailed.retireCore
  · split
    · exact ringEvent (hfailed.frame mend_keeps)
    · exact hfailed.frame mend_keeps

/-! ### The wear spare (R24, R25) -/

theorem warmUp (h : s.InOrder γ) : (s.warmUp cl k).InOrder γ :=
  calFaults (frame (frame (h.frame draw_keeps) modCore_keeps) wears_keeps)

theorem useWear (h : s.InOrder γ) : (s.useWear cl k).InOrder γ := by
  unfold State.useWear
  dsimp only
  split
  · split
    · refine ite (fun _ => leave (frame (frame (frame ?_ movePos_keeps) modCluster_keeps) modCore_keeps)) fun _ => h
      split
      · exact ite (fun _ => h.frame dropSlot_keeps) fun _ => h
      · exact h
    · exact h.frame modCluster_keeps
  · exact ite (fun _ => (h.frame modCluster_keeps).frame freeSpare_keeps) fun _ => h.frame modCluster_keeps

theorem effectWearSpareReady (h : s.InOrder γ) : (effectWearSpareReady cl s).InOrder γ := by
  unfold Machine.effectWearSpareReady
  dsimp only
  split
  · have hwarm {b : Prop} [Decidable b] {w : Nat} : (if b then s.warmUp cl w else s).InOrder γ :=
      ite (fun _ => h.warmUp) fun _ => h
    exact ite (fun _ => ite (fun _ => hwarm.frame modCluster_keeps) fun _ =>
      ite (fun _ => hwarm.useWear) fun _ => hwarm) fun _ => h
  · exact h

/-! ### Mislocks, probes and engine faults (R107 to R109, R259 to R264) -/

theorem mislocked {xs : List (Nat × Int)} (h : s.InOrder γ) : (s.mislocked cl k xs).InOrder γ := by
  have hfound {b : Prop} [Decidable b] {g : Cluster → Cluster} {f : Core → Core} :
      (((if b then s.raiseMislock cl k xs else s).modCluster cl g).modCore cl k f).InOrder γ :=
    ((ite (fun _ => h.raiseMislock) fun _ => h).frame modCluster_keeps).frame modCore_keeps
  unfold State.mislocked
  dsimp only
  refine ite (fun _ => h) fun _ => ?_
  split
  · exact hfound.frame strike_keeps
  · exact hfound.frame strike_keeps
  · exact (hfound.frame modCluster_keeps).frame moveMislocked_keeps
  · exact ((hfound.frame spareLost_keeps).frame modCore_keeps).frame moveMislocked_keeps
  · exact (hfound.frame modCluster_keeps).frame moveMislocked_keeps
  · exact hfound

theorem checked {xs : List (Nat × Int)} (h : s.InOrder γ) : (s.checked cl k xs).InOrder γ := by
  unfold State.checked
  exact mislocked (h.frame modCore_keeps)

theorem recoveryFailed {xs : List (Nat × Int)} (h : s.InOrder γ) : (s.recoveryFailed cl k xs).InOrder γ := by
  unfold State.recoveryFailed
  exact ite (fun _ => h.checked.frame modCore_keeps) fun _ => h.checked.retireCore.frame modCluster_keeps

theorem verified (h : s.InOrder γ) : (s.verified cl k).InOrder γ := by
  unfold State.verified
  exact checked (h.frame modCore_keeps)

theorem probeSlot {seen : List (Nat × Nat)} (h : s.InOrder γ) : (s.probeSlot cl k z seen).InOrder γ := by
  have hlit {b : Prop} [Decidable b] {g : Cluster → Cluster} : (if b then s.modCluster cl g else s).InOrder γ :=
    ite (fun _ => h.frame modCluster_keeps) fun _ => h
  unfold State.probeSlot
  dsimp only
  refine ite (fun _ => h) fun _ => ite (fun _ => hlit) fun _ => ite (fun _ => ?_) fun _ => ?_
  · exact (hlit.verified.frame modCore_keeps).frame modCluster_keeps
  · split
    · exact ite (fun _ => hlit.checked.frame modCore_keeps) fun _ => loseSlot (hlit.checked.frame modCore_keeps)
    · exact hlit.checked.frame modCore_keeps

theorem effectProbePacket {f : Nat} {seen : List (Nat × Nat)} (h : s.InOrder γ) :
    (effectProbePacket cl f k seen s).InOrder γ := by
  have hlit {g : Cluster → Cluster} {q : Core → Core} : ((s.modCluster cl g).modCore cl k q).InOrder γ :=
    (h.frame modCluster_keeps).frame modCore_keeps
  unfold Machine.effectProbePacket
  dsimp only
  refine ite (fun _ => ?_) fun _ => h
  split
  · exact ite (fun _ => hlit) fun _ => ite (fun _ => hlit.verified.frame recovered_keeps) fun _ => hlit.recoveryFailed
  · exact hlit.probeSlot
  · exact ite (fun _ => hlit.verified) fun _ => ite (fun _ => hlit) fun _ => hlit.checked

/-- What a failed engine does to its core, by where the core stands. -/
theorem effectEngineSpared {row : Nat} (h : s.InOrder γ) : (effectEngineSpared cl k row s).InOrder γ := by
  have hfailed {g : Core → Core} : (s.modCore cl k g).InOrder γ := h.frame modCore_keeps
  unfold Machine.effectEngineSpared
  refine ite (fun _ => ?_) fun _ => h
  extract_lets e y broken lost stops w
  have hy : y.InOrder γ := hfailed
  have hw : w.InOrder γ := by
    unfold w
    split
    · exact hy.frame strike_keeps
    · exact hy.frame strike_keeps
    · exact ite (fun _ => hy.loseSlot) fun _ => (hy.frame mend_keeps).frame modCluster_keeps
    · have hlost : (y.spareLost cl k).InOrder γ := hy.frame spareLost_keeps
      exact ite (fun _ => hlost.retireCore) fun _ => (hlost.frame modCore_keeps).frame mend_keeps
    · have hstops {g : Cluster → Cluster} : (y.modCluster cl g).InOrder γ := hy.frame modCluster_keeps
      exact ite (fun _ => hstops.retireCore) fun _ => (hstops.frame modCore_keeps).frame mend_keeps
    · exact ite (fun _ => hy.retireCore) fun _ => hy.frame mend_keeps
    · exact hy
  exact ite (fun _ => hw) fun _ => hw.ringEvent

/-! ### Heat, restarts and updates (R26, R245 to R251, R265 to R274) -/

theorem abortUsing {cause : Nat} (h : s.InOrder γ) : (s.abortUsing cl cause).InOrder γ := h.each _ fun _ _ hy => hy.markAbort

theorem effectClusterReturn (h : s.InOrder γ) : (effectClusterReturn cl s).InOrder γ := by
  unfold Machine.effectClusterReturn
  dsimp only
  split
  · exact ite (fun _ => h.abortUsing.frame beginRestart_keeps) fun _ => h
  · exact h

theorem thermalOut (h : s.InOrder γ) : (s.thermalOut cl k r).InOrder γ := by
  unfold State.thermalOut
  exact frame (abortUsing (ringEvent ((h.frame heldOut_keeps).frame modCluster_keeps))) modCluster_keeps

theorem relock (h : s.InOrder γ) : (s.relock cl).InOrder γ := by
  unfold State.relock
  refine frame (each ?_ _ fun _ _ hy => (hy.frame noteDrift_keeps).calFaults) settleProfile_keeps
  exact (h.frame draw_keeps).frame setCluster_keeps

theorem effectClusterRestartEnd (h : s.InOrder γ) : (effectClusterRestartEnd cl s).InOrder γ := by
  unfold Machine.effectClusterRestartEnd
  dsimp only
  split
  · exact ite (fun _ => h.relock) fun _ => h
  · exact h

theorem innerRing {err : Int} (h : s.InOrder γ) : (s.innerRing cl k r err).InOrder γ := by
  have hsignal {a : Int} : (s.toSignal a).1.InOrder γ := h.frame toSignal_keeps
  unfold State.innerRing
  refine ite (fun _ => h) fun _ => ite (fun _ => h.frame modCore_keeps) fun _ => ite (fun _ => ?_) fun _ => ?_
  · exact ringEvent ((hsignal.frame modCluster_keeps).frame modCore_keeps)
  · exact hsignal.frame modCore_keeps

theorem effectInnerUpdate {samples : List (List Nat)} (h : s.InOrder γ) : (effectInnerUpdate cl k samples s).InOrder γ := by
  have hsampled {f : Core → Core} : (s.modCore cl k f).InOrder γ := h.frame modCore_keeps
  unfold Machine.effectInnerUpdate
  refine ite (fun _ => ite (fun _ => ?_) fun _ => hsampled) fun _ => h
  extract_lets y z w
  have hz : z.InOrder γ := frame (hsampled.each _ fun _ _ hy => hy.innerRing) modCore_keeps
  split
  · exact hz.thermalOut
  · exact hz.checked
  · exact hz

theorem effectOuterUpdate (h : s.InOrder γ) : (effectOuterUpdate cl s).InOrder γ := by
  unfold Machine.effectOuterUpdate
  refine ite (fun _ => ite (fun _ => h.frame modCluster_keeps) fun _ => ?_) fun _ => h
  exact each ((h.frame draw_keeps).frame modCluster_keeps) _ fun _ _ hy => hy.checked

theorem effectFeedforwardUpdate {sensors : List Int} (h : s.InOrder γ) :
    (effectFeedforwardUpdate cl sensors s).InOrder γ := by
  unfold Machine.effectFeedforwardUpdate
  refine ite (fun _ => ?_) fun _ => h
  extract_lets xs band y heat z
  have hz : z.InOrder γ := each (h.frame modCluster_keeps) _ fun _ _ hy => hy.frame modCore_keeps
  split
  · exact ite (fun _ => (hz.frame closeQuiet_keeps).raise) fun _ => hz
  · exact hz

theorem openQuiet {cls : List Nat} {tens : Nat} (h : s.InOrder γ) : (s.openQuiet cls tens).InOrder γ := by
  refine h.each _ fun y c hy => ?_
  unfold State.openQuiet1
  exact ite (fun _ => raise (hy.frame modCluster_keeps)) fun _ => hy.frame modCluster_keeps

theorem effectLineRemapped {line : Nat} (h : s.InOrder γ) : (effectLineRemapped cl line s).InOrder γ := by
  have hout {g : Cluster → Cluster} : ((s.modCluster cl g).abortUsing cl 6).InOrder γ := abortUsing (h.frame modCluster_keeps)
  unfold Machine.effectLineRemapped
  refine ite (fun _ => ite (fun _ => ?_) fun _ => ite (fun _ => ?_) fun _ => hout.frame modCluster_keeps) fun _ => h
  · refine ringEvent (frame (frame (frame ?_ modCluster_keeps) beginRestart_keeps) modCluster_keeps)
    exact (hout.frame wears_keeps).frame shiftLines_keeps
  · exact ((hout.frame wears_keeps).frame modCluster_keeps).frame beginRestart_keeps

theorem effectCombWorn {ratio : Nat} (h : s.InOrder γ) : (effectCombWorn cl ratio s).InOrder γ := by
  have hseen {g : Cluster → Cluster} : (s.modCluster cl g).InOrder γ := h.frame modCluster_keeps
  unfold Machine.effectCombWorn
  exact ite (fun _ => ite (fun _ => hseen.ringEvent) fun _ => hseen) fun _ => h

/-! ### The angle timebase and the scheduler (R315 to R328) -/

theorem schedStart {img : Nat} (h : s.InOrder γ) : (s.schedStart img).InOrder γ := by
  unfold State.schedStart
  refine ite (fun _ => h) fun _ => ?_
  split
  · exact ite (fun _ => h.dropStart.modChan _ fun _ => Channel.Sends.busyStart) fun _ => h.startStep
  · exact h.startStep

theorem schedAction {e : Nat} {act : Word} (h : s.InOrder γ) : (s.schedAction e act).InOrder γ := by
  unfold State.schedAction
  split
  · exact h.schedStart
  · exact h.frame triggerConvs_keeps
  · exact h.frame tickOutputs_keeps
  · exact h.openQuiet
  · exact h.each _ fun _ _ hy => hy.frame advance_keeps
  · exact h.raise
  · exact h

theorem effectAngleUpdate (h : s.InOrder γ) : (effectAngleUpdate s).InOrder γ := by
  unfold Machine.effectAngleUpdate
  refine ite (fun _ => each (frame (frame ?_ sampleClock_keeps) sampleClock_keeps) _ fun _ _ hy => hy.schedAction) fun _ => h
  have hgroups : s.draw.nextGroups.InOrder γ := (h.frame draw_keeps).record
  exact hgroups.record

theorem loseSource (h : s.InOrder γ) : s.loseSource.InOrder γ := raise h.record

theorem effectThreePhaseLoss (h : s.InOrder γ) : (effectThreePhaseLoss s).InOrder γ := by
  unfold Machine.effectThreePhaseLoss
  exact ite (fun _ => h.loseSource) fun _ => h

theorem effectEncoderLoss (h : s.InOrder γ) : (effectEncoderLoss s).InOrder γ := by
  unfold Machine.effectEncoderLoss
  exact ite (fun _ => h.loseSource) fun _ => h

theorem effectPpcLoss (h : s.InOrder γ) : (effectPpcLoss s).InOrder γ := by
  unfold Machine.effectPpcLoss
  exact ite (fun _ => h.loseSource) fun _ => h

theorem effectEncoderEdge {a b c : Bool} (h : s.InOrder γ) : (effectEncoderEdge a b c s).InOrder γ := by
  have hangle {a : Angle} : State.InOrder { s with ang := a } γ := h.record
  unfold Machine.effectEncoderEdge
  exact ite (fun _ => ite (fun _ => hangle) fun _ => ite (fun _ => hangle.loseSource) fun _ => hangle) fun _ => h

theorem effectPpcEdge {falling : Bool} (h : s.InOrder γ) : (effectPpcEdge falling s).InOrder γ := by
  have hangle {a : Angle} : State.InOrder { s with ang := a } γ := h.record
  unfold Machine.effectPpcEdge
  exact ite (fun _ => ite (fun _ => hangle.loseSource) fun _ => hangle) fun _ => h

end State.InOrder
end Sys2Proof.Machine
end

section
-- One proof after another: each further thread reserves a whole stack.
set_option Elab.async false
/-! Resets, bring-up, watchdog and trip diodes: how the gauge moves, and that it agrees again (R415 to R431, R433, R436,
R443). -/

namespace Sys2Proof.Machine

/-! ### How the gauge moves -/

/-- The gauge after a reset of D1: the watchdog is off, firmware does not serve, the rings are empty (R373, R431, R433). -/
def Gauge.d1Down (γ : Gauge) : Gauge := { γ with d1Reset := true, armed := false, serving := false, fill := fun _ => 0 }

/-- The gauge after a reset of D1 to D4, which D1 alone may have gone through before (R431, R433). -/
def Gauge.allDown (γ : Gauge) : Gauge := { (if γ.d1Reset then γ else γ.d1Down) with inReset := true, stage := 5 }

/-- The gauge after D1 has left reset into Steep (R415, R425). -/
def Gauge.released (γ : Gauge) : Gauge := { γ with stage := 0, inReset := false, d1Reset := false, armed := true }

namespace Gauge.Agrees

variable {γ : Gauge}

/-- Where D1 is held, the watchdog is off and firmware does not serve. -/
theorem down (h : γ.Agrees) (hheld : (γ.inReset || γ.d1Reset) = true) :
    4 ≤ γ.stage.toNat ∧ γ.armed = false ∧ γ.serving = false := by
  have hstage : 4 ≤ γ.stage.toNat := by simpa [hheld] using h.reset.symm
  refine ⟨hstage, ?_, ?_⟩
  · rw [h.armed, decide_eq_false (by omega)]
  · rw [h.serving, decide_eq_false (p := γ.stage.toNat ≤ 3) (by omega), Bool.and_false]

/-- Where D1 runs, the stage is Steep to Tap and power is good. -/
theorem up (h : γ.Agrees) (hin : γ.inReset = false) (hd1 : γ.d1Reset = false) : γ.stage.toNat ≤ 3 := by
  have hstage := h.reset
  simp only [hin, hd1, Bool.or_self] at hstage
  exact Nat.lt_succ_iff.1 (by simpa using hstage)

theorem powered (h : γ.Agrees) (hin : γ.inReset = false) : γ.power = true := by
  by_contra hpower
  exact absurd (h.power (Bool.eq_false_iff.2 hpower)) (by simp [hin])

theorem low (h : γ.Agrees) (hstage : γ.stage.toNat ≤ 3) : γ.inReset = false ∧ γ.d1Reset = false := by
  have hreset := h.reset
  rwa [decide_eq_false (by omega), Bool.or_eq_false_iff] at hreset

/-- From Kiln to Tap the stage moves freely. -/
theorem advance (h : γ.Agrees) {st : BitVec 3} (hlow : 1 ≤ γ.stage.toNat) (hhigh : γ.stage.toNat ≤ 3)
    (hst : 1 ≤ st.toNat ∧ st.toNat ≤ 3) : ({ γ with stage := st } : Gauge).Agrees where
  stage := by dsimp only; omega
  reset := by
    obtain ⟨hin, hd1⟩ := h.low hhigh
    simp only [hin, hd1, Bool.or_self]
    exact (decide_eq_false (by omega)).symm
  armed := by
    have harmed := h.armed
    simp only [hhigh, hst.2, decide_true] at harmed ⊢
    exact harmed
  serving := by
    have hserving := h.serving
    simp only [hlow, hhigh, hst.1, hst.2, decide_true, Bool.and_self] at hserving ⊢
    exact hserving
  power := h.power
  fill := h.fill

/-- Firmware serves from the end of Steep (R415, R420). -/
theorem steeped (h : γ.Agrees) {st : BitVec 3} (hstage : γ.stage = 0) (hst : 1 ≤ st.toNat ∧ st.toNat ≤ 3) :
    ({ γ with serving := true, stage := st } : Gauge).Agrees where
  stage := by dsimp only; omega
  reset := by
    obtain ⟨hin, hd1⟩ := h.low (by simp [hstage])
    simp only [hin, hd1, Bool.or_self]
    exact (decide_eq_false (by omega)).symm
  armed := by
    have harmed := h.armed
    simp only [hstage, hst.2, decide_true] at harmed ⊢
    simpa using harmed
  serving := by simp only [hst.1, hst.2, decide_true, Bool.and_self]
  power := h.power
  fill := h.fill

/-- While D1 is held, the stage tells the hold (R418, R433). -/
theorem hold (h : γ.Agrees) {st : BitVec 3} (hheld : (γ.inReset || γ.d1Reset) = true)
    (hst : 4 ≤ st.toNat ∧ st.toNat ≤ 5) : ({ γ with stage := st } : Gauge).Agrees where
  stage := hst.2
  reset := by simpa only [hheld] using (decide_eq_true hst.1).symm
  armed := by
    obtain ⟨-, harmed, -⟩ := h.down hheld
    simpa only [harmed] using (decide_eq_false (by omega)).symm
  serving := by
    obtain ⟨-, -, hserving⟩ := h.down hheld
    simp only [hserving, decide_eq_false (show ¬ st.toNat ≤ 3 by omega), Bool.and_false]
  power := h.power
  fill := h.fill

/-- D1 leaves reset where power is good. -/
theorem released (h : γ.Agrees) (hheld : (γ.inReset || γ.d1Reset) = true) (hpower : γ.power = true) : γ.released.Agrees where
  stage := by simp [Gauge.released]
  reset := by simp [Gauge.released]
  armed := by simp [Gauge.released]
  serving := by
    obtain ⟨-, -, hserving⟩ := h.down hheld
    simp [Gauge.released, hserving]
  power := by simp [Gauge.released, hpower]
  fill := h.fill

/-- A reset of D1 with the stage that tells it (R431, R433). -/
theorem d1Down (h : γ.Agrees) : ({ γ.d1Down with stage := 5 } : Gauge).Agrees where
  stage := by simp
  reset := by simp [Gauge.d1Down]
  armed := by simp [Gauge.d1Down]
  serving := by simp [Gauge.d1Down]
  power := h.power
  fill := by simp [Gauge.d1Down]

theorem allDown (h : γ.Agrees) : γ.allDown.Agrees := by
  have hdown : ({ (if γ.d1Reset then γ else γ.d1Down) with stage := 5 } : Gauge).Agrees := by
    split
    next hd1 => exact h.hold (by simp [hd1]) (by decide)
    next => exact h.d1Down
  have hd1 : (if γ.d1Reset then γ else γ.d1Down).d1Reset = true := by
    split
    next hd1 => exact hd1
    next => rfl
  refine ⟨hdown.stage, ?_, hdown.armed, hdown.serving, fun _ => rfl, hdown.fill⟩
  simp [Gauge.allDown]

end Gauge.Agrees

/-! ### Jobs that end -/

/-- What of the always-on record a legal state is judged by. -/
def Aon.seen (a : Aon) := (a.stage, a.inReset, a.d1Reset, a.armed, a.power, a.cask, a.diodes)

namespace State.InOrder

variable {s x : State} {γ : Gauge} {n img : Nat} {code : Half}

/-- A change of the always-on record beside all that is judged. -/
theorem modAon (h : s.InOrder γ) {f : Aon → Aon} (hf : ∀ a : Aon, (f a).seen = a.seen := by exact fun _ => rfl) :
    (s.modAon f).InOrder γ := by
  have hseen := hf s.aon
  simp only [Aon.seen, Prod.mk.injEq] at hseen
  obtain ⟨hstage, hin, hd1, harmed, hpower, hcask, hdiodes⟩ := hseen
  refine h.record ?_ hcask hdiodes
  simp only [State.gauge, State.modAon, hstage, hin, hd1, harmed, hpower]
  rfl

/-- What landed for streams that go leaves the landing buffers (R405). -/
theorem freeLanding {ids : List Nat} (h : s.InOrder γ) : (s.freeLanding ids).InOrder γ := h.mapLinks

theorem linkLimits (h : s.InOrder γ) : s.linkLimits.InOrder γ :=
  h.each _ fun _ _ hy => ite (fun _ => hy) fun _ => hy.modLink _

theorem unplace (h : s.InOrder γ) : (s.unplace img).InOrder γ := by
  have hdescs {ks : List Nat} : (s.each ks fun s k => s.modDesc (k / 8192) (k % 8192) Desc.abort).InOrder γ :=
    h.each _ fun _ _ hy => hy.frame modDesc_keeps
  have hstreams {y : State} {is : List Nat} {f : Stream → Stream} (hy : y.InOrder γ) :
      (y.each is fun s i => s.modStream i f).InOrder γ := hy.each _ fun _ _ hz => hz.frame modStream_keeps
  unfold State.unplace
  extract_lets cls us descs remotes heard landed freed pools progs units record
  have hrecord : record.InOrder γ :=
    modImage (frame (each (each (hstreams (freeLanding (hstreams hdescs))) _ fun _ _ hy => hy.frame modPool_keeps) _
      fun _ _ hy => hy.frame setProg_keeps) unlistCores_keeps)
  exact frame (linkLimits (hrecord.each _ fun _ _ hy => hy.frame modCluster_keeps)) settleProfile_keeps

theorem jobsEnd {is : List Nat} (h : s.InOrder γ) :
    (s.each is fun s i => (s.abortStep i 9 0xFFFF).unplace i).InOrder γ := h.each _ fun _ _ hy => hy.abortStep.unplace

/-! ### Resets of domains (R429 to R431) -/

/-- A reset of D1 empties mailboxes, locks and loops, which are in order then. -/
theorem loseD1 (h : s.InOrder γ) {links : Tab Link} (hchans : x.chans = [] := by rfl) (hlocks : x.locks = {} := by rfl)
    (hloops : x.loops = [] := by rfl) (hfw : x.fw = {} := by rfl) (hlinks : x.links = links := by rfl)
    (hcredits : ∀ n, n < 64 → (Tab.get ({} : Link) links n).credits ≤ 64)
    (hcask : x.aon.cask = s.aon.cask := by rfl) (hdiodes : x.aon.diodes = s.aon.diodes := by rfl)
    {γ' : Gauge} (hgauge : x.gauge = γ') : x.InOrder γ' where
  gauge := hgauge
  cask := hcask ▸ h.cask
  diodes := hdiodes ▸ h.diodes
  turn := by rw [hfw]; decide
  rings ch _ := by
    have hchan : x.chan ch = {} := congrArg (fun m => Tab.get ({} : Channel) m ch) hchans
    rw [hchan]
    exact (Channel.inBounds_iff.1 Channel.inBounds_new).2
  credits n hn := by
    have hlink : x.link n = Tab.get {} links n := congrArg (fun m => Tab.get ({} : Link) m n) hlinks
    exact hlink ▸ hcredits n hn
  locks := by simp [hlocks]
  cfgErr := by
    have hloop (n : Nat) : x.fieldLoop n = State.reset.fieldLoop n :=
      congrArg (fun m => Tab.get ({} : FieldLoop) m n) hloops
    exact State.cfgCurrent_congr State.reset_cfgCurrent (fun n => congrArg _ (hloop n)) fun n => congrArg _ (hloop n)

theorem resetD1 (h : s.InOrder γ) : s.resetD1.InOrder γ.d1Down := by
  have hidle : State.InOrder { s with fw := { s.fw with serving := false } } { γ with serving := false } :=
    h.moved (by rw [← h.gauge]; rfl) h.cfgCurrent
  unfold State.resetD1
  extract_lets fw idle ended unlit records links clusters
  have hunlit : unlit.InOrder { γ with serving := false } := hidle.jobsEnd.each _ fun _ n hy => hy.frame modFout_keeps
  clear_value unlit
  refine frame (hunlit.loseD1 (links := links) (hcredits := fun n hn => ?_) (hgauge := ?_)) refreshIdle_keeps
  · exact (hunlit.mapLinks (f := fun x => x.2.d1Reset unlit.now)).credits n hn
  · have hgauge : unlit.gauge.d1Down = γ.d1Down := by rw [hunlit.gauge]; rfl
    have hempty : (fun _ : Nat => ({} : Channel).inFill) = fun _ => 0 := funext fun _ => Channel.inFill_new
    exact hgauge ▸ congrArg (fun f => ({ unlit.gauge.d1Down with fill := f } : Gauge)) hempty

theorem resetD2 {q : Nat} (h : s.InOrder γ) : (s.resetD2 q).InOrder γ := by
  unfold State.resetD2
  extract_lets ended unlit
  have hunlit : unlit.InOrder γ := (h.each _ fun _ _ hy => hy.abortStep).each _ fun _ _ hy => hy.frame faultOutput_keeps
  clear_value unlit
  exact hunlit.record

theorem resetD3 {q : Nat} (h : s.InOrder γ) : (s.resetD3 q).InOrder γ := by
  unfold State.resetD3
  extract_lets ended cold
  have hcold : cold.InOrder γ := h.jobsEnd.resetD2
  clear_value cold
  exact hcold.record

theorem resetD4 (h : s.InOrder γ) : (s.resetD4 n).InOrder γ := each h.modAon _ fun _ _ hy => hy.passThrough

/-! ### Stages and the release from reset (R415, R418 to R421) -/

theorem enterStage {st : BitVec 3} (h : s.InOrder γ) : (s.enterStage st).InOrder { γ with stage := st } := by
  refine raise (moved h ?_ h.cfgCurrent)
  rw [← h.gauge]
  rfl

theorem releaseD1 (h : s.InOrder γ) : s.releaseD1.InOrder γ.released := by
  have hout {a : Angle} : State.InOrder { s.modAon fun a => { a.releaseQuarters with
      d1Reset := false, inReset := false, d4Reset := 0, armed := true, beatAt := s.now } with ang := a }
      { γ with inReset := false, d1Reset := false, armed := true } :=
    h.moved (by rw [← h.gauge]; rfl) h.cfgCurrent
  exact hout.enterStage

theorem trainLinks (h : s.InOrder γ) : s.trainLinks.InOrder γ :=
  h.each _ fun _ _ hy => ite (fun _ => hy.passThrough) fun _ => ite (fun _ => hy) fun _ => hy.setLinkState

theorem enterTap (h : s.InOrder γ) : s.enterTap.InOrder { γ with stage := 3 } := by
  refine each (trainLinks (enterStage (modAon ?_))) _ fun _ _ hy => hy.sendPeerReady
  exact frame (frame h.modAon restoreDescs_keeps) restoreStores_keeps

theorem enterKiln (h : s.InOrder γ) : s.enterKiln.InOrder { γ with stage := 1 } :=
  enterStage (record (s := s.draw.modAon fun a => { a with taster := false, kilnDraw := s.free + 1 })
    (modAon (h.frame draw_keeps)))

theorem resetAll (h : s.InOrder γ) (hout : γ.inReset = false) : s.resetAll.InOrder γ.allDown := by
  have hin : ¬ s.aon.inReset = true := by
    have hgauge : s.aon.inReset = γ.inReset := congrArg Gauge.inReset h.gauge
    simp [hgauge, hout]
  unfold State.resetAll
  rw [if_neg hin]
  extract_lets held ended emptied dark silent
  have hdark : dark.InOrder γ := (h.jobsEnd.each _ fun _ _ hy => hy.resetD3).each _ fun _ _ hy => hy.resetD4
  clear_value dark
  have hsilent : silent.InOrder (if γ.d1Reset then γ else γ.d1Down) := by
    have hd1 : dark.aon.d1Reset = γ.d1Reset := congrArg Gauge.d1Reset hdark.gauge
    unfold silent
    rw [hd1]
    split
    · exact hdark
    · exact hdark.resetD1
  clear_value silent
  have hgauge : ({ silent.gauge with inReset := true, stage := 5 } : Gauge) = γ.allDown := by
    rw [Gauge.allDown, hsilent.gauge]
  exact hsilent.moved (hgauge ▸ rfl) hsilent.cfgCurrent

end State.InOrder
end Sys2Proof.Machine
end

section
-- One proof after another: each further thread reserves a whole stack.
set_option Elab.async false
/-! Power, bring-up, the watchdog, trips and resets on request leave a legal state legal (R415 to R431, R436, R443, R448). -/

namespace Sys2Proof.Machine
namespace State.Legal

variable {s x : State} {code : Half}

/-! ### Steps that leave the gauge, and steps that move it -/

theorem agrees (h : s.Legal) : s.gauge.Agrees := (State.legal_iff.1 h).1

theorem inOrder (h : s.Legal) : s.InOrder s.gauge := (State.legal_iff.1 h).2

/-- What keeps every state in order at its gauge keeps it legal. -/
theorem keep (h : s.Legal) (hx : ∀ γ, s.InOrder γ → x.InOrder γ) : x.Legal := (hx _ h.inOrder).legal h.agrees

theorem ite {p : Prop} [Decidable p] {y : State} (hx : p → x.Legal) (hy : ¬ p → y.Legal) : (if p then x else y).Legal := by
  split
  next hp => exact hx hp
  next hp => exact hy hp

/-- A change of the always-on record beside all that is judged. -/
theorem modAon (h : s.Legal) {f : Aon → Aon} (hf : ∀ a : Aon, (f a).seen = a.seen := by exact fun _ => rfl) :
    (s.modAon f).Legal := h.keep fun _ hy => hy.modAon hf

/-- A stage from Kiln to Tap after another. -/
theorem advance {st : BitVec 3} (h : s.Legal) (hx : x.InOrder { s.gauge with stage := st })
    (hlow : 1 ≤ s.aon.stage.toNat) (hhigh : s.aon.stage.toNat ≤ 3) (hst : 1 ≤ st.toNat ∧ st.toNat ≤ 3 := by decide) : x.Legal :=
  hx.legal (h.agrees.advance hlow hhigh hst)

/-! ### Reset and release (R418, R419, R431) -/

theorem resetAll (h : s.Legal) : s.resetAll.Legal := by
  by_cases hin : s.aon.inReset = true
  · unfold State.resetAll
    rw [if_pos hin]
    exact h
  · exact (h.inOrder.resetAll (Bool.eq_false_iff.2 hin)).legal h.agrees.allDown

theorem resetAll_inReset (s : State) : s.resetAll.aon.inReset = true := by
  unfold State.resetAll
  split
  next hin => exact hin
  next => rfl

/-- D1 leaves reset where power is good (R415, R425). -/
theorem releaseD1 (h : s.Legal) (hheld : (s.aon.inReset || s.aon.d1Reset) = true) (hpower : s.aon.power = true) :
    s.releaseD1.Legal := h.inOrder.releaseD1.legal (h.agrees.released hheld hpower)

/-- While D1 is held the stage tells the hold (R418, R433). -/
theorem tell (h : s.Legal) {f : Aon → Aon} {st : BitVec 3} (hheld : (s.aon.inReset || s.aon.d1Reset) = true)
    (hst : 4 ≤ st.toNat ∧ st.toNat ≤ 5) (hgauge : (s.modAon f).gauge = { s.gauge with stage := st })
    (hcask : (f s.aon).cask.length = s.aon.cask.length := by rfl) (hdiodes : (f s.aon).diodes = s.aon.diodes := by rfl) :
    (s.modAon f).Legal := by
  have horder : (s.modAon f).InOrder { s.gauge with stage := st } :=
    { h.inOrder with gauge := hgauge, cask := hcask.trans h.cask, diodes := hdiodes ▸ h.diodes }
  exact horder.legal (h.agrees.hold hheld hst)

theorem heldStage_range (a : Aon) : 4 ≤ a.heldStage.toNat ∧ a.heldStage.toNat ≤ 5 := by
  unfold Aon.heldStage
  split <;> decide

theorem tryRelease (h : s.Legal) : s.tryRelease.Legal := by
  unfold State.tryRelease
  refine ite (fun _ => h) fun hin => ?_
  have hheld : (s.aon.inReset || s.aon.d1Reset) = true := by
    simp only [Bool.not_eq_true', Bool.not_eq_false] at hin
    rw [hin, Bool.true_or]
  refine ite (fun hfree => h.releaseD1 hheld ?_) fun _ => h.tell hheld (heldStage_range s.aon) rfl
  simp only [Aon.noHold, Bool.and_eq_true] at hfree
  obtain ⟨⟨⟨⟨⟨hpower, -⟩, -⟩, -⟩, -⟩, -⟩ := hfree
  exact hpower

theorem retry (h : s.Legal) : s.retry.Legal := tryRelease h.resetAll.modAon

/-! ### Power and PERST# (R419, R436) -/

/-- D0 at power-good or without power: D1 to D4 in reset. -/
theorem powerUp {power : Bool} (h : s.Legal) : (s.powerUp power).Legal where
  stage := by simp [State.powerUp]
  reset := rfl
  armed := rfl
  serving := rfl
  power _ := rfl
  cask := rfl
  diodes := h.diodes
  turn := by simp [State.powerUp]
  rings _ _ := Channel.inBounds_new
  credits _ _ := Nat.zero_le _
  locks := by simp [State.powerUp]
  cfgErr := State.cfgCurrent_congr State.reset_cfgCurrent (fun _ => rfl) fun _ => rfl

theorem effectPowerGood {mv : Nat} (h : s.Legal) : (effectPowerGood mv s).Legal := by
  unfold Machine.effectPowerGood
  exact ite (fun _ => h.powerUp.tryRelease) fun _ => h

theorem effectPowerLoss {mv : Nat} (h : s.Legal) : (effectPowerLoss mv s).Legal := by
  unfold Machine.effectPowerLoss
  exact ite (fun _ => h.powerUp) fun _ => h

theorem effectSupplyHold {mv since : Nat} (h : s.Legal) : (effectSupplyHold mv since s).Legal := by
  unfold Machine.effectSupplyHold
  exact ite (fun _ => tryRelease h.resetAll.modAon) fun _ => h

theorem effectSupplyHoldRelease {mv since : Nat} (h : s.Legal) : (effectSupplyHoldRelease mv since s).Legal := by
  unfold Machine.effectSupplyHoldRelease
  exact ite (fun _ => tryRelease h.modAon) fun _ => h

theorem effectPerstAssert (h : s.Legal) : (effectPerstAssert s).Legal := by
  unfold Machine.effectPerstAssert
  exact ite (fun _ => tryRelease h.resetAll.modAon) fun _ => h.modAon

theorem effectPerstDeassert (h : s.Legal) : (effectPerstDeassert s).Legal := tryRelease h.modAon

/-! ### Stages (R415 to R424) -/

theorem effectSteepEnd (h : s.Legal) : (effectSteepEnd s).Legal := by
  unfold Machine.effectSteepEnd
  refine ite (fun hsteep => ?_) fun _ => h
  have hstage : s.aon.stage = 0 := by
    simp only [Bool.and_eq_true, decide_eq_true_eq] at hsteep
    exact hsteep.1.1.1
  extract_lets booted spared drawn fw served trained
  have hserved : served.InOrder { s.gauge with serving := true } := by
    have hspared : spared.InOrder s.gauge := h.inOrder.modAon.frame wearsWhen_keeps
    exact hspared.moved (by rw [← hspared.gauge]; rfl) hspared.cfgCurrent
  have hsteeped {st : BitVec 3} {y : State} (hy : y.InOrder { s.gauge with serving := true, stage := st })
      (hst : 1 ≤ st.toNat ∧ st.toNat ≤ 3) : y.Legal := hy.legal (h.agrees.steeped hstage hst)
  clear_value served
  exact ite (fun _ => hsteeped hserved.trainLinks.enterKiln (by decide)) fun _ =>
    ite (fun _ => hsteeped hserved.trainLinks.modAon.enterStage (by decide)) fun _ =>
      hsteeped hserved.trainLinks.enterTap (by decide)

theorem failStage (h : s.Legal) : (s.failStage code).Legal := by
  unfold State.failStage
  refine retry (modAon (ite (fun _ => ?_) fun _ => ?_))
  · exact (h.modAon.keep fun _ hy => hy.raise).keep fun _ hy =>
      hy.each _ fun _ _ hz => hz.modChan _ fun _ => Channel.Sends.drain
  · exact h.modAon.keep fun _ hy => hy.raise

theorem effectHbmTrainingEnd (h : s.Legal) : (effectHbmTrainingEnd s).Legal := by
  unfold Machine.effectHbmTrainingEnd
  exact ite (fun _ => modAon (h.keep fun _ hy => hy.each _ fun _ _ hz => hz.frame repairRows_keeps)) fun _ => h

theorem effectKilnEnd (h : s.Legal) : (effectKilnEnd s).Legal := by
  unfold Machine.effectKilnEnd
  refine ite (fun hkiln => ite (fun _ => h.failStage) fun _ => ?_) fun _ => h
  have hstage : s.aon.stage = 1 := by
    simp only [Bool.and_eq_true, decide_eq_true_eq] at hkiln
    exact hkiln.1.1.1
  have hlocked := h.inOrder.each (List.range 832) (f := fun y c =>
    if (y.cluster c).retired || (y.cluster c).locked then y else y.modCluster c (Cluster.lock s.aon.kilnDraw y.now))
    fun _ _ hy => State.InOrder.ite (fun _ => hy) fun _ => hy.frame modCluster_keeps
  exact h.advance hlocked.modAon.enterStage (by simp [hstage]) (by simp [hstage])

theorem effectMashEnd (h : s.Legal) : (effectMashEnd s).Legal := by
  unfold Machine.effectMashEnd
  refine ite (fun hmash => ite (fun _ => h.failStage) fun _ => ?_) fun _ => h
  have hstage : s.aon.stage = 2 := by
    simp only [Bool.and_eq_true, decide_eq_true_eq] at hmash
    exact hmash.1.1.1
  refine h.advance (State.InOrder.enterTap (State.InOrder.each (h.inOrder.frame draw_keeps) _ fun _ _ hy => ?_))
    (by simp [hstage]) (by simp [hstage])
  refine State.InOrder.ite (fun _ => hy) fun _ => State.InOrder.ite (fun _ => hy.frame modCluster_keeps) fun _ => ?_
  exact State.InOrder.each (hy.frame modCluster_keeps) _ fun _ _ hz => hz.calFaults

theorem failInExpiry (h : s.Legal) : (s.failInExpiry code).Legal := by
  unfold State.failInExpiry
  exact ite (fun _ => retry h.modAon) fun _ => h

theorem effectStageTimer (h : s.Legal) : (effectStageTimer s).Legal := by
  unfold Machine.effectStageTimer
  split
  · exact ite (fun _ => h.failStage) fun _ => h
  · exact ite (fun _ => h.failInExpiry) fun _ => h
  · exact h

theorem effectStageFailure (h : s.Legal) : (effectStageFailure code s).Legal := by
  unfold Machine.effectStageFailure
  split
  · exact ite (fun _ => h.failStage) fun _ => ite (fun _ => h.failInExpiry) fun _ => h
  · exact h

theorem effectBackoffEnd (h : s.Legal) : (effectBackoffEnd s).Legal := by
  unfold Machine.effectBackoffEnd
  split
  · exact ite (fun _ => tryRelease h.modAon) fun _ => h
  · exact h

/-! ### The watchdog, trips and resets on request (R425 to R431, R443) -/

theorem effectHeartbeat {beat : Half} (h : s.Legal) : (effectHeartbeat beat s).Legal := by
  unfold Machine.effectHeartbeat
  exact ite (fun _ => h.modAon) fun _ => h

/-- Cask keeps its length when a code shifts in (R428). -/
theorem latchCask_length {a : Aon} (ha : a.cask.length = 8) : a.latchCask.cask.length = a.cask.length := by
  simp [Aon.latchCask, ha]

theorem effectWatchdogExpiry (h : s.Legal) : (effectWatchdogExpiry s).Legal := by
  unfold Machine.effectWatchdogExpiry
  refine ite (fun _ => ?_) fun _ => ite (fun _ => ?_) fun _ => h
  · exact h.resetAll.tell (st := 5) (by rw [resetAll_inReset, Bool.true_or]) (by decide) rfl (latchCask_length h.resetAll.cask)
  · have horder : (s.modAon fun a => { a.latchCask with expiryAt := some s.now }).InOrder s.gauge :=
      { h.inOrder with gauge := rfl, cask := (latchCask_length h.cask).trans h.cask }
    exact horder.legal h.agrees

theorem readDiodes {xs : List Int} (h : s.Legal) (hxs : xs.length = 4) : (s.readDiodes xs).Legal := by
  have horder : (s.modAon fun a => { a with diodes := xs }).InOrder s.gauge := { h.inOrder with gauge := rfl, diodes := hxs }
  have hread := horder.legal h.agrees
  unfold State.readDiodes
  refine ite (fun _ => hread) fun _ => ite (fun _ => ite (fun _ => hread) fun _ => ?_) fun _ => ?_
  · exact ite (fun _ => tryRelease hread.modAon) fun _ => retry hread.modAon
  · exact ite (fun _ => tryRelease hread.modAon) fun _ => hread

/-- STAGE reads 0x5 where D1 is in reset, else it stays (R433). -/
theorem tellD1 {y : State} {γ : Gauge} {d1 : Bool} {d2 d3 : BitVec 4} {d4 : Half} {until_ : Nat} (hy : y.InOrder γ)
    (hγ : ({ γ with stage := if γ.d1Reset then 5 else γ.stage } : Gauge).Agrees) :
    (y.modAon fun a => { a.met d1 d2 d3 d4 with
      resetHold := some until_, stage := if a.d1Reset then 5 else a.stage }).Legal := by
  refine State.InOrder.legal (g := { γ with stage := if γ.d1Reset then 5 else γ.stage }) (hy.moved ?_ hy.cfgCurrent) hγ
  rw [← hy.gauge]
  rfl

theorem effectDomainReset {d1 : Bool} {d2 d3 : BitVec 4} {d4 : Half} (h : s.Legal) :
    (effectDomainReset d1 d2 d3 d4 s).Legal := by
  unfold Machine.effectDomainReset
  refine ite (fun _ => h) fun hgo => ite (fun _ => h.resetAll.modAon) fun _ => ?_
  extract_lets cold lost dark silent
  have hdark : dark.InOrder s.gauge := ((h.inOrder.each _ fun _ _ hy => hy.resetD2).each _ fun _ _ hy => hy.resetD3).each _
    fun _ _ hy => hy.resetD4
  by_cases hdown : (d1 && !dark.aon.d1Reset) = true
  · have hsilent : silent = dark.resetD1 := if_pos hdown
    exact hsilent ▸ tellD1 hdark.resetD1 h.agrees.d1Down
  · have hsilent : silent = dark := if_neg hdown
    refine hsilent ▸ tellD1 hdark ?_
    split
    next hd1 => exact h.agrees.hold (by simp [hd1]) (by decide)
    next => exact h.agrees

theorem effectResetRelease (h : s.Legal) : (effectResetRelease s).Legal := by
  unfold Machine.effectResetRelease
  split
  · refine ite (fun _ => ?_) fun _ => h
    extract_lets freed trained risen
    have hfreed : freed.Legal := h.modAon
    have htrained : trained.InOrder freed.gauge := hfreed.inOrder.modAon.trainLinks
    have hrisen : risen.InOrder freed.gauge := htrained.modAon
    clear_value risen trained
    refine ite (fun _ => hfreed.tryRelease) fun hin => ite (fun hd1 => ?_) fun hd1 =>
      ite (fun _ => htrained.legal hfreed.agrees) fun _ => ite (fun _ => hrisen.legal hfreed.agrees) fun hsteep => ?_
    · exact hfreed.releaseD1 (by simp [hd1]) (hfreed.agrees.powered (Bool.eq_false_iff.2 hin))
    · have hhigh : freed.aon.stage.toNat ≤ 3 := hfreed.agrees.up (Bool.eq_false_iff.2 hin) (Bool.eq_false_iff.2 hd1)
      have hstage : risen.aon.stage = freed.aon.stage := congrArg Gauge.stage hrisen.gauge
      have hlow : 1 ≤ freed.aon.stage.toNat := by
        rw [hstage] at hsteep
        bv_omega
      exact hfreed.advance hrisen.enterKiln hlow hhigh
  · exact h

theorem effectEvtPulseEnd (h : s.Legal) : (effectEvtPulseEnd s).Legal := by
  unfold Machine.effectEvtPulseEnd
  split
  · exact ite (fun _ => h.modAon) fun _ => h
  · exact h

theorem effectEvtFirstEvaluation (h : s.Legal) : (effectEvtFirstEvaluation s).Legal := by
  unfold Machine.effectEvtFirstEvaluation
  exact ite (fun _ => h.modAon) fun _ => h

end State.Legal
end Sys2Proof.Machine
end

section
-- One proof after another: each further thread reserves a whole stack.
set_option Elab.async false
/-! A state stays in order in firmware's handlers and in the host's register accesses. -/

namespace Sys2Proof.Machine

/-- A record written is the new one or was there before. -/
theorem Tab.mem_put {α : Type} [DecidableEq α] {d v : α} {m : Tab α} {i : Nat} {x : Nat × α} (h : x ∈ Tab.put d m i v) :
    x ∈ m ∨ x = (i, v) ∧ v ≠ d := by
  have hins (r : Tab α) (hx : x ∈ Tab.ins i v r) : x ∈ r ∨ x = (i, v) := by
    induction r with
    | nil => exact .inr (List.mem_singleton.1 hx)
    | cons y r ih =>
      simp only [Tab.ins] at hx
      split at hx
      · rcases List.mem_cons.1 hx with hx | hx
        · exact .inr hx
        · exact .inl hx
      · rcases List.mem_cons.1 hx with hx | hx
        · exact .inl (hx ▸ List.mem_cons_self ..)
        · exact (ih hx).imp_left (List.mem_cons_of_mem _)
  simp only [Tab.put] at h
  split at h
  · exact .inl (List.mem_of_mem_filter h)
  next hv => exact (hins _ h).imp List.mem_of_mem_filter fun hx => ⟨hx, hv⟩

/-- Firmware serves a channel that holds a command (R363). -/
theorem State.inFill_of_nextChannel {s : State} {ch : Nat} (h : s.nextChannel = some ch) : 0 < (s.chan ch).inFill := by
  have hserve := List.find?_some h
  simp only [Channel.serveable, Bool.and_eq_true, decide_eq_true_eq] at hserve
  exact hserve.1.1

namespace State.InOrder

variable {s x : State} {γ : Gauge} {ch n img : Nat}

/-! ### Locks (R369 to R372) -/

/-- Locks that are owned by functions or the test port. -/
theorem setLocks (h : s.InOrder γ) {l : Locks} (hl : ∀ x ∈ l.owner, 1 ≤ x.2 ∧ lockUser (x.2 - 1) = true) :
    State.InOrder { s with locks := l } γ := { h with locks := hl }

theorem effectLockRead {who : Nat} (h : s.InOrder γ) (hwho : lockUser who = true) : (effectLockRead who n s).InOrder γ := by
  unfold Machine.effectLockRead
  refine ite (fun _ => ite (fun _ => ite (fun _ => ?_) fun _ => h.record) fun _ => h.record) fun _ => h
  refine record (h.setLocks (l := s.acquire who n) fun x hx => ?_)
  have hput : x ∈ Tab.put 0 s.locks.owner n (who + 1) := hx
  rcases Tab.mem_put hput with hx | ⟨hx, -⟩
  · exact h.locks x hx
  · exact hx ▸ ⟨Nat.le_add_left .., hwho⟩

theorem freeLock (h : s.InOrder γ) : State.InOrder { s with locks := { s.locks with owner := Tab.put 0 s.locks.owner n 0 } } γ :=
  h.setLocks fun x hx => by
    have hput : x ∈ Tab.put 0 s.locks.owner n 0 := hx
    rcases Tab.mem_put hput with hx | ⟨-, hne⟩
    · exact h.locks x hx
    · exact absurd rfl hne

theorem effectLockWrite {who : Nat} {v : Word} (h : s.InOrder γ) : (effectLockWrite who n v s).InOrder γ := by
  unfold Machine.effectLockWrite
  exact ite (fun _ => ite (fun _ => h.record) fun _ => ite (fun _ => h.freeLock) fun _ => h.record) fun _ => h

theorem effectFunctionLevelReset (h : s.InOrder γ) : (effectFunctionLevelReset n s).InOrder γ :=
  h.setLocks fun x hx => h.locks x (List.mem_of_mem_filter hx)

/-! ### Handlers (R374 to R376, R380) -/

theorem ite1 {p : Prop} [Decidable p] {a b : Handled} (ha : p → a.1.InOrder γ) (hb : ¬ p → b.1.InOrder γ) :
    (if p then a else b).1.InOrder γ := by
  split
  next hp => exact ha hp
  next hp => exact hb hp

theorem behind {r : Option Reply} {f : State → Handled} (h : s.InOrder γ) (hf : (f s).1.InOrder γ) :
    (behind r s f).1.InOrder γ := by
  unfold Machine.behind
  split
  · exact h
  · exact hf

theorem accept {slot : List Byte} {r : Reply} {w : DoneWhen} (h : s.InOrder γ) : (accept s ch slot r w).1.InOrder γ := h.record

theorem okWith {r : List Byte} (h : s.InOrder γ) : (okWith s r).1.InOrder γ := h

/-! ### Images, jobs and steps (R380) -/

theorem finishPlace (h : s.InOrder γ) : (s.finishPlace img).InOrder γ := by
  unfold State.finishPlace
  exact modImage (each (h.frame writeStores_keeps) _ fun _ _ hy => hy.frame modCluster_keeps)

theorem placeJob {cls : List Nat} {noProbes : Bool} (h : s.InOrder γ) : (s.placeJob img cls noProbes).InOrder γ := by
  unfold State.placeJob
  extract_lets im waits permits reset sized pooled streamed stored unlisted described
  have hpooled : pooled.InOrder γ :=
    each (h.modImage.each _ fun _ _ hy => hy.frame modCluster_keeps) _ fun _ _ hy => hy.frame modPool_keeps
  have hstreamed : streamed.InOrder γ := freeLanding (hpooled.each _ fun _ _ hy => hy.frame modStream_keeps)
  have hdescribed : described.InOrder γ :=
    each ((hstreamed.frame writeStores_keeps).frame unlistCores_keeps) _ fun _ _ hy => hy.frame modDesc_keeps
  exact ite (fun _ => hdescribed.linkLimits) fun _ => hdescribed.finishPlace.linkLimits

theorem place {i : Nat} {noProbes : Bool} {pin : Option Nat} {slot : List Byte} (h : s.InOrder γ) :
    (s.place ch i noProbes pin slot).1.InOrder γ := by
  unfold State.place
  exact ite1 (fun _ => h) fun _ => ite1 (fun _ => h) fun _ => ite1 (fun _ => h) fun _ => ite1 (fun _ => h) fun _ =>
    accept h.modImage.placeJob

theorem removeJob (h : s.InOrder γ) : (s.removeJob img).InOrder γ := by
  unfold State.removeJob
  exact ite (fun _ => h.abortStep.unplace) fun _ => h

theorem restartClusters {cls : List Nat} (h : s.InOrder γ) : (s.restartClusters cls).InOrder γ :=
  h.each _ fun _ _ hy => frame (hy.each _ fun _ _ hz => hz.abortStep) beginRestart_keeps

theorem unpromise (h : s.InOrder γ) : s.unpromise.InOrder γ := h.record

theorem applyMode (h : s.InOrder γ) : (s.applyMode n).InOrder γ := by
  unfold State.applyMode
  exact ite (fun _ => h.passThrough) fun _ => ite (fun _ => ite (fun _ => h.setLinkState) fun _ => h.linkGoesDown) fun _ =>
    ite (fun _ => h) fun _ => h.setLinkState

/-- Subscriptions change neither service nor turn (R365, R380). -/
theorem eventRoute {code vec : Nat} {on : Bool} (h : s.InOrder γ) :
    State.InOrder { s with fw := s.fw.route' ch code on vec } γ := by
  have hroute : (s.fw.route' ch code on vec).serving = s.fw.serving ∧ (s.fw.route' ch code on vec).turn = s.fw.turn := by
    unfold Fw.route'
    split <;> exact ⟨rfl, rfl⟩
  exact h.modFw (f := fun q => q.route' ch code on vec) hroute.1 hroute.2

/-! ### Counters (R133, R236, R301, R414) -/

theorem setSnap {b : Snap} (h : s.InOrder γ) : State.InOrder { s with snap := b } γ := h.record

theorem clearStream {i : Nat} {q : Stream → Stream → Stream} (h : s.InOrder γ) : (s.clearStream i q).InOrder γ :=
  setSnap (h.frame (x := s.modStream i (q (Tab.get {} s.snap.streams i))) modStream_keeps)

theorem clearAll (h : s.InOrder γ) : s.clearAll.InOrder γ := by
  have hcleared {β : Type} (p : FieldLoop → β) (hp : ∀ b l : FieldLoop, p (b.clear l) = p l) (n : Nat) :
      p (Tab.get {} (Tab.clear {} FieldLoop.clear s.snap.loops s.loops) n) = p (s.fieldLoop n) :=
    Tab.get_map_measure {} (f := fun x => (Tab.get {} s.snap.loops x.1).clear x.2) (fun _ => hp _ _) s.loops n
  have hloops := h.loops fun n => ⟨hcleared FieldLoop.setup (fun _ _ => rfl) n, hcleared FieldLoop.cfgErr (fun _ _ => rfl) n⟩
  exact record (hloops.mapLinks (f := fun x => Link.clear s.now x.1 (Tab.get {} s.snap.links x.1) x.2))

theorem clearScope {scope i : Nat} (h : s.InOrder γ) : (s.clearScope scope i).InOrder γ := by
  unfold State.clearScope
  split
  · exact h.clearStream
  · exact h.clearStream
  · exact h.frame modPool_keeps
  · exact setSnap (h.frame (x := s.modStack i (Stack.clear (Tab.get {} s.snap.hbmStacks i))) modStack_keeps)
  · exact setSnap (h.frame (x := s.modCluster i (Cluster.clear (Tab.get {} s.snap.clusters i))) modCluster_keeps)
  · exact setSnap (frame (h.modLoop i (f := FieldLoop.clear (Tab.get {} s.snap.loops i)))
      (x := State.modPrf _ i (Profile.clear (Tab.get {} s.snap.prfs i))) modPrf_keeps)
  · exact h.clearStream
  · exact h.clearAll
  · exact h.frame modCluster_keeps
  · exact h

theorem countedTo {off : Nat} (h : s.InOrder γ) : (s.countedTo off).InOrder γ := by
  unfold State.countedTo
  exact ite (fun _ => h.frame modCluster_keeps) fun _ => ite (fun _ => h.countCodewords) fun _ => h

/-! ### Register reads (R10, R12, R369) -/

theorem clearRead {fn off : Nat} (h : s.InOrder γ) : (s.clearRead fn off).InOrder γ := by
  unfold State.clearRead
  refine ite (fun _ => ?_) fun _ => ite (fun _ => h.record) fun _ => ite (fun _ => ?_) fun _ => ite (fun _ => ?_) fun _ => h
  · exact setSnap (h.modChan_record fn (f := Channel.readLeft (Tab.get {} s.snap.chans fn)))
  · exact setSnap (h.frame (x := s.modConv _ (Conv.readLeft (Tab.get {} s.snap.convs _))) modConv_keeps)
  · exact setSnap (h.frame (x := s.modFout _ (Fout.readLeft (Tab.get {} s.snap.fouts _))) modFout_keeps)

theorem effectRcRead {who off : Nat} (h : s.InOrder γ) : (effectRcRead who off s).InOrder γ := by
  unfold Machine.effectRcRead
  refine ite (fun _ => h) fun hreach => ite (fun hlock => h.effectLockRead ?_) fun _ =>
    ite (fun _ => h.frame effectFinFifoRead_keeps) fun _ => ite (fun _ => h.frame effectAngCycLoRead_keeps) fun _ =>
      record h.countedTo.clearRead
  obtain ⟨hlow, hhigh⟩ := hlock
  have hmail : mailOff (wordOff off) = false := by
    simp only [mailOff, Bool.and_eq_false_iff, decide_eq_false_iff_not]
    omega
  simp only [State.reaches, if_neg (show ¬ wordOff off < 0x100000 by omega), hmail, Bool.or_false, Bool.not_eq_true',
    Bool.not_eq_false, Bool.and_eq_true, Bool.or_eq_true, decide_eq_true_eq] at hreach
  simp only [lockUser, Bool.or_eq_true, decide_eq_true_eq]
  exact hreach.2.imp_right fun hport => hport.1.1

end State.InOrder
end Sys2Proof.Machine
end

section
-- One proof after another: each further thread reserves a whole stack.
set_option Elab.async false
/-! Mailboxes, firmware's commands and register writes leave a legal state legal. -/

namespace Sys2Proof.Machine
namespace State.Legal

variable {s x : State} {ch n img : Nat}

/-! ### Mailboxes (R354 to R367) -/

/-- A channel's record changed within its bounds. -/
theorem modChan (h : s.Legal) (ch : Nat) {f : Channel → Channel} (hf : (s.chan ch).inBounds → (f (s.chan ch)).inBounds) :
    (s.modChan ch f).Legal := by
  refine { h with rings := fun i hi => ?_ }
  rw [State.modChan_set, State.chan_setChan]
  split
  next he => exact hf (he ▸ h.rings i hi)
  next => exact h.rings i hi

/-- Messages to the host on a channel. -/
theorem sends (h : s.Legal) (ch : Nat) {f : Channel → Channel} (hf : ∀ c : Channel, c.Sends (f c)) : (s.modChan ch f).Legal :=
  h.keep fun _ hy => hy.modChan ch hf

theorem effectDoorbell {v : Word} (h : s.Legal) : (effectDoorbell ch v s).Legal := by
  unfold Machine.effectDoorbell
  exact ite (fun _ => h.modChan ch Channel.doorbell_inBounds) fun _ => h

theorem effectMctpMessage {kind : Byte} {vendor : Half} {slot : List Byte} (h : s.Legal) :
    (effectMctpMessage kind vendor slot s).Legal := by
  unfold Machine.effectMctpMessage
  exact ite (fun _ => h.modChan 64 Channel.commitSlot_inBounds) fun _ => h

theorem effectMbxOutHeadWrite {v : Word} (h : s.Legal) : (effectMbxOutHeadWrite ch v s).Legal := by
  unfold Machine.effectMbxOutHeadWrite
  exact ite (fun _ => h.sends ch fun _ => Channel.Sends.outHeadWrite) fun _ => h

theorem effectEventDelivery (h : s.Legal) : (effectEventDelivery ch s).Legal := by
  unfold Machine.effectEventDelivery
  exact ite (fun _ => h.sends ch fun _ => Channel.Sends.deliverHeld) fun _ => h

/-- A link peer's slot enters the ring of channel 66 + link (R355, R394). -/
theorem takePart {part : List Byte} (h : s.Legal) : (s.takePart n part).Legal := by
  unfold State.takePart
  refine ite (fun _ => h) fun _ => h.modChan _ fun hc => ?_
  dsimp only
  split
  · exact hc
  · exact Channel.commitSlot_inBounds hc

theorem effectControlFrame {crc : Half} {part : List Byte} (h : s.Legal) : (effectControlFrame n crc part s).Legal := by
  unfold Machine.effectControlFrame
  exact ite (fun _ => h) fun _ => ite (fun _ => h.takePart) fun _ => h.keep fun _ hy => hy.modLink n

/-! ### Taking and answering a command (R363, R374 to R376) -/

/-- A channel that holds a command is answered. -/
theorem respond {slot : List Byte} {r : Reply} (h : s.Legal) (hone : 0 < (s.chan ch).inFill) : (s.respond ch slot r).Legal := by
  have hpassed : (s.modChan ch (Channel.advanceHead ch s.now)).Legal := h.modChan ch (Channel.advanceHead_inBounds hone)
  have hturn : (State.modFw (s.modChan ch (Channel.advanceHead ch s.now)) fun f => { f with turn := (ch + 1) % 160 }).Legal :=
    { hpassed with turn := Nat.mod_lt _ (by decide) }
  exact hturn.keep fun _ hy => hy.postKept

/-- A command keeps a legal state legal where its handler keeps every state in order. -/
theorem command {op least : Nat} {form : DescForm} {f : List Byte → State → Handled} (h : s.Legal)
    (hf : ∀ {γ : Gauge} slot y, y.InOrder γ → (f slot y).1.InOrder γ) : (s.command ch op least form f).Legal := by
  unfold State.command
  refine ite (fun htaken => ?_) fun _ => h
  simp only [Bool.and_eq_true, decide_eq_true_eq] at htaken
  have hone := State.inFill_of_nextChannel htaken.1.2
  dsimp only
  split
  · exact h.respond hone
  · have hdone := hf (cutSlot (s.chan ch).nextSlot) s h.inOrder
    have hfill : ((f (cutSlot (s.chan ch).nextSlot) s).1.chan ch).inFill = (s.chan ch).inFill :=
      congrFun (congrArg Gauge.fill hdone.gauge) ch
    exact respond (hdone.legal h.agrees) (hfill ▸ hone)

theorem effectBadOpcode (h : s.Legal) : (effectBadOpcode ch s).Legal := by
  unfold Machine.effectBadOpcode
  refine ite (fun htaken => ?_) fun _ => h
  simp only [Bool.and_eq_true, decide_eq_true_eq] at htaken
  exact h.respond (State.inFill_of_nextChannel htaken.1.2)

theorem effectCommandDone (h : s.Legal) : (effectCommandDone ch s).Legal := by
  unfold Machine.effectCommandDone
  refine ite (fun _ => h.keep fun γ hy => ?_) fun _ => h
  split
  · have htaken {q : List Accepted} : State.InOrder { s with fw := { s.fw with accepted := q } } γ := hy.record
    refine State.InOrder.postKept ?_
    split
    · exact State.InOrder.ite (fun _ => htaken.finishPlace) fun _ => htaken
    · exact htaken
  · exact hy

/-! ### Images, jobs, steps and memory (R380) -/

theorem effectJobPlace (h : s.Legal) : (effectJobPlace ch s).Legal :=
  h.command fun _ _ hy => .ite1 (fun _ => hy) fun _ => .ite1 (fun _ => hy) fun _ => hy.behind <|
    .ite1 (fun _ => hy) fun _ => .ite1 (fun _ => hy) fun _ => hy.place

theorem effectStepStart (h : s.Legal) : (effectStepStart ch s).Legal :=
  h.command fun _ _ hy => .ite1 (fun _ => hy) fun _ => hy.behind <| .ite1 (fun _ => hy) fun _ => .ite1 (fun _ => hy) fun _ =>
    .ite1 (fun _ => hy.dropStart) fun _ => hy.startStep.modImage.okWith

theorem effectStepAbort (h : s.Legal) : (effectStepAbort ch s).Legal :=
  h.command fun _ _ hy => hy.behind <| .ite1 (fun _ => hy.abortStep) fun _ => hy

theorem effectMemWrite {data : Option (List Byte)} (h : s.Legal) : (effectMemWrite ch data s).Legal := by
  refine h.command fun slot y hy => hy.behind ?_
  split
  · exact (hy.frame writeHbm_keeps).accept
  · exact hy

theorem effectMemRead {reachable : Bool} (h : s.Legal) : (effectMemRead ch reachable s).Legal := by
  refine h.command @fun γ slot y hy => hy.behind <| .ite1 (fun _ => hy) fun _ => ?_
  have hread : (y.readHbm (leAt slot 8 8) (leAt slot 24 4)).InOrder γ := hy.frame readHbm_keeps
  exact .ite1 (fun _ => hread.accept) fun _ => .accept hread.record

theorem effectDescArm (h : s.Legal) : (effectDescArm ch s).Legal := h.command fun _ _ hy => hy.behind hy.fwArm

theorem effectCounterClear (h : s.Legal) : (effectCounterClear ch s).Legal := by
  refine h.command fun slot y hy => ?_
  dsimp only
  split
  · exact hy
  · exact .ite1 (fun _ => hy) fun _ => hy.behind hy.clearScope

/-! ### Clusters (R380) -/

theorem effectCalSettings (h : s.Legal) : (effectCalSettings ch s).Legal := by
  refine h.command fun slot y hy => ?_
  split
  · exact hy
  · exact hy
  · exact hy.each _ fun _ _ hz => hz.frame modCluster_keeps

theorem effectQuietOpen (h : s.Legal) : (effectQuietOpen ch s).Legal := h.command fun _ _ hy => hy.openQuiet.okWith

theorem effectRotAdvance (h : s.Legal) : (effectRotAdvance ch s).Legal :=
  h.command fun _ _ hy => .okWith (hy.each _ fun _ _ hz => hz.frame advance_keeps)

theorem effectCombSwitch (h : s.Legal) : (effectCombSwitch ch s).Legal := by
  refine h.command fun slot y hy => ?_
  dsimp only
  split
  · exact hy
  · refine .ite1 (fun _ => hy) fun _ => .ite1 (fun _ => hy) fun _ => .accept (.each hy.restartClusters _ fun _ _ hz => ?_)
    exact (hz.frame wears_keeps).frame modCluster_keeps

theorem effectClusterRestart (h : s.Legal) : (effectClusterRestart ch s).Legal := by
  refine h.command fun slot y hy => ?_
  dsimp only
  split
  · exact hy
  · exact .ite1 (fun _ => hy) fun _ => hy.restartClusters.accept

theorem effectPowerProfile (h : s.Legal) : (effectPowerProfile ch s).Legal := by
  refine h.command fun slot y hy => .ite1 (fun _ => hy) fun _ => .ite1 (fun _ => hy) fun _ => ?_
  refine .accept (.frame (.each (.ite (fun _ => hy.modAon) fun _ => hy.modAon.unpromise) _ fun z c hz => ?_)
    settleProfile_keeps)
  exact .ite (fun _ => hz) fun _ => .ite (fun _ => hz.frame modCluster_keeps) fun _ => hz.frame modCluster_keeps

/-! ### Links, schedules, locks and upgrades (R380) -/

theorem effectSchedWrite (h : s.Legal) : (effectSchedWrite ch s).Legal :=
  h.command fun _ _ hy => .ite1 (fun _ => hy) fun _ => .ite1 (fun _ => hy) fun _ => .ite1 (fun _ => hy) fun _ =>
    .ite1 (fun _ => hy) fun _ => (hy.frame setSched_keeps).frame schedCheck_keeps

theorem effectLockRelease (h : s.Legal) : (effectLockRelease ch s).Legal :=
  h.command fun _ _ hy => .ite1 (fun _ => hy) fun _ => hy.freeLock

theorem effectEventRoute (h : s.Legal) : (effectEventRoute ch s).Legal :=
  h.command fun _ _ hy => .ite1 (fun _ => hy) fun _ => .ite1 (fun _ => hy) fun _ => .ite1 (fun _ => hy) fun _ =>
    hy.eventRoute.okWith

theorem effectLinkStatus (h : s.Legal) : (effectLinkStatus ch s).Legal :=
  h.command fun _ _ hy => .ite1 (fun _ => hy) fun _ => hy.countCodewords

theorem effectLinkMode (h : s.Legal) : (effectLinkMode ch s).Legal :=
  h.command fun _ _ hy => .ite1 (fun _ => hy) fun _ => .ite1 (fun _ => hy) fun _ => (hy.modLink _).applyMode.applyMode

theorem effectPeerReady (h : s.Legal) : (effectPeerReady ch s).Legal := h.command fun _ _ hy => hy.raise

theorem effectUpgradeBegin {data : Fetched (List Byte)} (h : s.Legal) : (effectUpgradeBegin ch data s).Legal := by
  refine h.command @fun γ slot y hy => ?_
  have hwrite {size : Nat} {bs : List Byte} : State.InOrder
      { y with
        aon := { y.aon with flash := Memory.write [] 0 bs }.setBank (!y.aon.bank) false
        fw := { y.fw with upgrade := some size } } γ := hy.record
  refine .ite1 (fun _ => ?_) fun _ => hwrite.accept
  split
  · exact hwrite.accept
  · exact hy

theorem effectUpgradeCommit {sigOk : Bool} (h : s.Legal) : (effectUpgradeCommit ch sigOk s).Legal := by
  refine h.command @fun γ slot y hy => .ite1 (fun _ => hy) fun _ => ?_
  have hover : State.InOrder { y with fw := { y.fw with upgrade := none } } γ := hy.record
  exact .ite1 (fun _ => hover.modAon.accept) fun _ => hover.modAon.accept

/-! ### Register writes (R301, R329, R349, R352, R359, R371, R373, R433) -/

theorem mailWrite {fn off : Nat} {v : Word} (h : s.Legal) : (s.mailWrite fn off v).Legal := by
  have hforeign : (s.foreignWrite fn).Legal := h.sends fn fun _ => ⟨rfl, id⟩
  unfold State.mailWrite
  refine ite (fun _ => ite (fun _ => h.sends fn fun _ => Channel.Sends.pageWrite) fun _ => hforeign) fun _ =>
    ite (fun _ => h) fun _ => ite (fun _ => ite (fun _ => ?_) fun _ => hforeign) fun _ =>
      ite (fun _ => h.sends fn fun _ => ⟨rfl, id⟩) fun _ =>
        ite (fun _ => h.sends fn fun _ => Channel.Sends.msixWrite) fun _ => h
  split
  · exact h.effectDoorbell
  · exact h.effectMbxOutHeadWrite
  · exact h

theorem aonWrite {off : Nat} {v : Word} (h : s.Legal) : (s.aonWrite off v).Legal := by
  unfold State.aonWrite
  split
  · exact ite (fun _ => h.modAon) fun _ => h
  · exact h.effectHeartbeat
  · exact h.modAon
  · exact h

theorem effectRegisterWrite {who off : Nat} {v : Word} (h : s.Legal) : (effectRegisterWrite who off v s).Legal := by
  have hlift {y : State} (hy : ∀ γ, s.InOrder γ → y.InOrder γ) : y.Legal := h.keep hy
  unfold Machine.effectRegisterWrite
  refine ite (fun _ => ite (fun _ => h.aonWrite) fun _ => h) fun _ => ite (fun _ => ite (fun _ => h.mailWrite) fun _ => h)
    fun _ => ite (fun _ => h) fun _ => ite (fun _ => hlift fun _ hy => hy.effectLockWrite) fun _ => ite (fun _ => h) fun _ =>
    ite (fun _ => hlift fun _ hy => ?fin) fun _ => ite (fun _ => hlift fun _ hy => ?fout) fun _ =>
    ite (fun _ => hlift fun _ hy => ?ang) fun _ => ite (fun _ => hlift fun _ hy => hy.loopWrite hy.loopRegion) fun _ => h
  case fin => exact .ite (fun _ => hy) fun _ => .ite (fun _ => hy.frame finWrite_keeps) fun _ => hy.record
  case fout =>
    exact .ite (fun _ => hy) fun _ => .ite (fun _ => .ite (fun _ => hy.frame foutReg_keeps) fun _ => hy) fun _ => hy.record
  case ang => exact .ite (fun _ => hy) fun _ => .ite (fun _ => hy.frame angRegion_keeps) fun _ => hy.record

end State.Legal
end Sys2Proof.Machine
end

section
-- One proof after another: each further thread reserves a whole stack.
set_option Elab.async false
/-! Every step keeps a legal state legal (R282, R285, R292, R356, R357, R365, R369, R405, R415, R425, R428, R433). -/

namespace Sys2Proof.Machine

namespace State.Legal

variable {s x : State}

theorem act {ok : Bool} {t : Nat} {f : State → State} (h : s.Legal) (hf : ok = true → ∀ y, y.Legal → (f y).Legal)
    (he : Machine.act ok t s f = .next x) : x.Legal := by
  unfold Machine.act at he
  split at he
  next hok => exact Host.Outcome.next.inj he ▸ hf hok _ (h.keep fun _ hy => hy.frame tick_keeps)
  · exact nomatch he

end State.Legal

/-- A command that completes leaves a legal state legal: the commands that may touch what is judged, then all others by their
frame. -/
theorem exec_legal {c : Instr} {s s' : State} (h : s.Legal) (he : exec c s = .next s') : s'.Legal := by
  have row {f : State → State} (hrow : exec c s = act c.wf c.time s f) (hf : ∀ y, y.Legal → (f y).Legal) :
      s'.Legal := h.act (fun _ => hf) (hrow ▸ he)
  have inOrder {f : State → State} (hrow : exec c s = act c.wf c.time s f)
      (hf : ∀ γ y, y.InOrder γ → (f y).InOrder γ) : s'.Legal := row hrow fun _ hy => hy.keep fun γ hz => hf γ _ hz
  cases c
  case event => exact inOrder rfl fun _ _ hy => hy.effectEvent
  case listFault => exact inOrder rfl fun _ _ hy => hy.effectListFault
  case quantEncode => exact inOrder rfl fun _ _ hy => hy.effectQuantEncode
  case recv => exact inOrder rfl fun _ _ hy => hy.effectRecv
  case send => exact inOrder rfl fun _ _ hy => hy.effectSend
  case xfer => exact inOrder rfl fun _ _ hy => hy.effectXfer
  case endOp => exact inOrder rfl fun _ _ hy => hy.effectEnd
  case fieldScalar => exact inOrder rfl fun _ _ hy => hy.effectFieldScalar
  case tokenInvalid => exact inOrder rfl fun _ _ hy => hy.effectTokenInvalid
  case fenceOrder => exact inOrder rfl fun _ _ hy => hy.effectFenceOrder
  case stall => exact inOrder rfl fun _ _ hy => hy.effectStall
  case stepAborted => exact inOrder rfl fun _ _ hy => hy.effectStepAborted
  case modelStepStart => exact inOrder rfl fun _ _ hy => hy.startSteps
  case packetEnd => exact inOrder rfl fun _ _ hy => hy.effectPacketEnd
  case verdict => exact inOrder rfl fun _ _ hy => hy.effectVerdict
  case probePacket => exact inOrder rfl fun _ _ hy => hy.effectProbePacket
  case transferComplete => exact inOrder rfl fun _ _ hy => hy.effectTransferComplete
  case descCompToken => exact inOrder rfl fun _ _ hy => hy.effectDescCompToken
  case innerUpdate => exact inOrder rfl fun _ _ hy => hy.effectInnerUpdate
  case outerUpdate => exact inOrder rfl fun _ _ hy => hy.effectOuterUpdate
  case feedforwardUpdate => exact inOrder rfl fun _ _ hy => hy.effectFeedforwardUpdate
  case quietWindowOpen => exact inOrder rfl fun _ _ hy => hy.openQuiet
  case handover => exact inOrder rfl fun _ _ hy => hy.effectHandover
  case calibrationDone => exact inOrder rfl fun _ _ hy => hy.effectCalibrationDone
  case calStarved => exact inOrder rfl fun _ _ hy => hy.effectCalStarved
  case wearSpareReady => exact inOrder rfl fun _ _ hy => hy.effectWearSpareReady
  case engineSpared => exact inOrder rfl fun _ _ hy => hy.effectEngineSpared
  case lineRemapped => exact inOrder rfl fun _ _ hy => hy.effectLineRemapped
  case combWorn => exact inOrder rfl fun _ _ hy => hy.effectCombWorn
  case clusterReturn => exact inOrder rfl fun _ _ hy => hy.effectClusterReturn
  case clusterRestartEnd => exact inOrder rfl fun _ _ hy => hy.effectClusterRestartEnd
  case loopUpdate => exact inOrder rfl fun _ _ hy => hy.effectLoopUpdate
  case loopTimer => exact inOrder rfl fun _ _ hy => hy.effectLoopTimer
  case svStale => exact inOrder rfl fun _ _ hy => hy.effectSvStale
  case conversionResult => exact inOrder rfl fun _ _ hy => hy.effectConversionResult
  case angleUpdate => exact inOrder rfl fun _ _ hy => hy.effectAngleUpdate
  case threePhaseLoss => exact inOrder rfl fun _ _ hy => hy.effectThreePhaseLoss
  case encoderLoss => exact inOrder rfl fun _ _ hy => hy.effectEncoderLoss
  case ppcLoss => exact inOrder rfl fun _ _ hy => hy.effectPpcLoss
  case encoderEdge => exact inOrder rfl fun _ _ hy => hy.effectEncoderEdge
  case ppcEdge => exact inOrder rfl fun _ _ hy => hy.effectPpcEdge
  case lockWrite => exact inOrder rfl fun _ _ hy => hy.effectLockWrite
  case functionLevelReset => exact inOrder rfl fun _ _ hy => hy.effectFunctionLevelReset
  case headerFrame => exact inOrder rfl fun _ _ hy => hy.effectHeaderFrame
  case packetLanded => exact inOrder rfl fun _ _ hy => hy.effectPacketLanded
  case ackFrame => exact inOrder rfl fun _ _ hy => hy.effectAckFrame
  case creditFrame => exact inOrder rfl fun _ _ hy => hy.effectCreditFrame
  case packetSend => exact inOrder rfl fun _ _ hy => hy.effectPacketSend
  case packetReplay => exact inOrder rfl fun _ _ hy => hy.effectPacketReplay
  case linkTimer => exact inOrder rfl fun _ _ hy => hy.effectLinkTimer
  case linkDown => exact inOrder rfl fun _ _ hy => hy.effectLinkDown
  case laneLockLoss => exact inOrder rfl fun _ _ hy => hy.effectLaneLockLoss
  case laneErrorRate => exact inOrder rfl fun _ _ hy => hy.laneFails
  case spareLaneSwitch => exact inOrder rfl fun _ _ hy => hy.effectSpareLaneSwitch
  case linkUp => exact inOrder rfl fun _ _ hy => hy.effectLinkUp
  case loopEnable => exact inOrder rfl fun _ _ hy => .ite (fun _ => hy.loopCtrl) fun _ => hy
  case loopDisable => exact inOrder rfl fun _ _ hy => .ite (fun _ => hy) fun _ => hy.loopCtrl
  case loopHold => exact inOrder rfl fun _ _ hy => hy.loopCtrl
  case injectionStart => exact inOrder rfl fun _ _ hy => .ite (fun _ => hy.injCtrl) fun _ => hy
  case injectionStop => exact inOrder rfl fun _ _ hy => .ite (fun _ => hy) fun _ => hy.injCtrl
  case loopOscRelease => exact inOrder rfl fun _ _ hy => hy.loopStat
  case doorbell => exact row rfl fun _ hy => hy.effectDoorbell
  case mbxOutHeadWrite => exact row rfl fun _ hy => hy.effectMbxOutHeadWrite
  case mctpMessage => exact row rfl fun _ hy => hy.effectMctpMessage
  case eventDelivery => exact row rfl fun _ hy => hy.effectEventDelivery
  case controlFrame => exact row rfl fun _ hy => hy.effectControlFrame
  case badOpcode => exact row rfl fun _ hy => hy.effectBadOpcode
  case commandDone => exact row rfl fun _ hy => hy.effectCommandDone
  case jobPlace => exact row rfl fun _ hy => hy.effectJobPlace
  case stepStart => exact row rfl fun _ hy => hy.effectStepStart
  case stepAbort => exact row rfl fun _ hy => hy.effectStepAbort
  case memWrite => exact row rfl fun _ hy => hy.effectMemWrite
  case memRead => exact row rfl fun _ hy => hy.effectMemRead
  case descArm => exact row rfl fun _ hy => hy.effectDescArm
  case counterClear => exact row rfl fun _ hy => hy.effectCounterClear
  case calSettings => exact row rfl fun _ hy => hy.effectCalSettings
  case quietOpen => exact row rfl fun _ hy => hy.effectQuietOpen
  case rotAdvance => exact row rfl fun _ hy => hy.effectRotAdvance
  case combSwitch => exact row rfl fun _ hy => hy.effectCombSwitch
  case clusterRestart => exact row rfl fun _ hy => hy.effectClusterRestart
  case schedWrite => exact row rfl fun _ hy => hy.effectSchedWrite
  case eventRoute => exact row rfl fun _ hy => hy.effectEventRoute
  case lockRelease => exact row rfl fun _ hy => hy.effectLockRelease
  case linkStatus => exact row rfl fun _ hy => hy.effectLinkStatus
  case linkMode => exact row rfl fun _ hy => hy.effectLinkMode
  case peerReady => exact row rfl fun _ hy => hy.effectPeerReady
  case upgradeBegin => exact row rfl fun _ hy => hy.effectUpgradeBegin
  case upgradeCommit => exact row rfl fun _ hy => hy.effectUpgradeCommit
  case powerProfile => exact row rfl fun _ hy => hy.effectPowerProfile
  case powerGood => exact row rfl fun _ hy => hy.effectPowerGood
  case powerLoss => exact row rfl fun _ hy => hy.effectPowerLoss
  case supplyHold => exact row rfl fun _ hy => hy.effectSupplyHold
  case supplyHoldRelease => exact row rfl fun _ hy => hy.effectSupplyHoldRelease
  case perstAssert => exact row rfl fun _ hy => hy.effectPerstAssert
  case perstDeassert => exact row rfl fun _ hy => hy.effectPerstDeassert
  case steepEnd => exact row rfl fun _ hy => hy.effectSteepEnd
  case hbmTrainingEnd => exact row rfl fun _ hy => hy.effectHbmTrainingEnd
  case kilnEnd => exact row rfl fun _ hy => hy.effectKilnEnd
  case mashEnd => exact row rfl fun _ hy => hy.effectMashEnd
  case stageTimer => exact row rfl fun _ hy => hy.effectStageTimer
  case stageFailure => exact row rfl fun _ hy => hy.effectStageFailure
  case backoffEnd => exact row rfl fun _ hy => hy.effectBackoffEnd
  case heartbeat => exact row rfl fun _ hy => hy.effectHeartbeat
  case watchdogExpiry => exact row rfl fun _ hy => hy.effectWatchdogExpiry
  case domainReset => exact row rfl fun _ hy => hy.effectDomainReset
  case resetRelease => exact row rfl fun _ hy => hy.effectResetRelease
  case evtPulseEnd => exact row rfl fun _ hy => hy.effectEvtPulseEnd
  case evtFirstEvaluation => exact row rfl fun _ hy => hy.effectEvtFirstEvaluation
  case lockRead => exact h.act (fun hok y hy => hy.keep fun _ hz => hz.effectLockRead (Bool.and_eq_true_iff.1 hok).1) he
  case rcRead => exact h.act (fun _ _ hy => hy.keep fun _ hz => hz.effectRcRead) he
  case registerWrite => exact h.act (fun _ _ hy => hy.effectRegisterWrite) he
  case thermalTrip | tripDiodeCrossing => exact row rfl fun _ hy => hy.readDiodes (by simp [hy.diodes])
  case thermalTripRelease => exact h.act (fun hok _ hy => hy.readDiodes (by simpa using hok)) he
  case identify | health | caskRead => exact row rfl fun _ hy => hy.command fun _ _ hz => hz.record
  case imageLoad =>
    refine row rfl fun _ hy => hy.command fun slot z hz => ?_
    unfold handleImageLoad
    split
    all_goals exact hz.record
  case jobRemove => exact row rfl fun _ hy => hy.command fun _ _ hz => hz.behind hz.removeJob.accept
  case clusterHealth | coreCounts | wearRead | memoryHealth | schedRead | clusterGroup
    | fieldOwner | safeWrite | permSet | permRead | routeWrite | addressSet | upgradeData | moduleReset =>
    refine row rfl fun _ hy => hy.command fun slot z hz => ?_
    dsimp only
    repeat' split
    all_goals exact hz.record
  case imageUnload | stepStatus | descWrite | descReset | descStatus | streamLimit | qntPolicy | qntCarryReset =>
    refine row rfl fun _ hy => hy.command fun slot z hz => hz.behind ?_
    repeat' split
    all_goals exact hz.record
  all_goals exact h.keep fun _ hy => (hy.frame State.tick_keeps).frame (exec_next he) (by simp [State.InOrder.judged, touches])

/-- Settles O59: an idle step changes nothing, any other is a command of the queue's front. -/
theorem legalKept : Obligations.LegalKept := by
  intro s s' h hstep
  unfold step at hstep
  split at hstep
  · exact Host.Outcome.next.inj hstep ▸ h
  · exact exec_legal (h.keep fun _ hy => hy.record) hstep

end Sys2Proof.Machine
end

section
-- One proof after another: each further thread reserves a whole stack.
set_option Elab.async false
/-! A field loop with limits out of order: updates leave it, and LOOP_STAT.CFG_ERR tells it (R282). -/

namespace Sys2Proof.Machine

/-! ### LOOP_STAT (R302) -/

theorem bitAt_eq (k : Nat) (b : Bool) : bitAt k b = 2 ^ k * b.toNat := by cases b <;> simp [bitAt]

/-- CFG_ERR is bit 4 of LOOP_STAT. -/
theorem FieldLoop.flag_statWord (l : FieldLoop) : flag l.statWord 4 = l.cfgErr := by
  have hset := l.set.isLt
  have hosc := Bool.toNat_le l.osc
  have hstale := Bool.toNat_le l.svStale
  have hbit : (l.set.toNat + bitAt 2 l.osc + bitAt 3 l.svStale + bitAt 4 l.cfgErr + bitAt 5 l.limOut + bitAt 6 l.limInt) /
      2 ^ 4 % 2 = l.cfgErr.toNat := by
    have hcfg := Bool.toNat_le l.cfgErr
    simp only [bitAt_eq]
    omega
  rw [FieldLoop.statWord, flag, BitVec.getLsbD_ofNat, Nat.testBit_eq_decide_div_mod_eq, hbit]
  cases l.cfgErr <;> rfl

section

variable {s : State} {k n t : Nat}

/-! ### What stops a loop (R282) -/

/-- Limits out of order stop the loop. -/
theorem State.loopStopped_of_limits (h : (s.fieldLoop n).imax.toInt < (s.fieldLoop n).imin.toInt ∨
    (s.fieldLoop n).omax.toInt < (s.fieldLoop n).omin.toInt) : s.loopStopped n = true := by
  rcases h with h | h <;> simp [State.loopStopped, h]

theorem State.cfgDue_of_stopped (h : s.loopStopped n = true) : s.cfgDue n = true := by simp [State.cfgDue, h]

/-- LOOP_STAT reads CFG_ERR as the check finds it where the marks are current. -/
theorem State.flag_statWord_of_current (h : s.cfgCurrent = true) (hn : n < 16) : flag (s.fieldLoop n).statWord 4 = s.cfgDue n :=
  (FieldLoop.flag_statWord _).trans (State.cfgCurrent_iff.1 h n hn)

/-! ### An update leaves other loops and stopped ones (R282, R286) -/

/-- A stopped loop does not come first. -/
theorem State.loopFirst_of_stopped (h : s.loopStopped n = true) : s.loopFirst n = false := by
  simp [State.loopFirst, State.loopReady, State.runsWith, h]

theorem State.setLoop_other {l : FieldLoop} (h : n ≠ k) : (s.setLoop k l).fieldLoop n = s.fieldLoop n := by
  rw [State.fieldLoop_setLoop, if_neg h]

theorem State.loopFreeze_other {set : Nat} {l : FieldLoop} (h : n ≠ k) : (s.loopFreeze k set l).fieldLoop n = s.fieldLoop n :=
  (State.refreshIdle_keeps.fieldLoop_eq (by decide) n).trans
    ((State.raise_keeps.fieldLoop_eq (by decide) n).trans (State.setLoop_other h))

theorem State.fieldLoop_ite {p : Prop} [Decidable p] {x y : State} {l : FieldLoop} (hx : x.fieldLoop n = l)
    (hy : y.fieldLoop n = l) : (if p then x else y).fieldLoop n = l := by
  split
  · exact hx
  · exact hy

theorem State.updateLoop_other (h : n ≠ k) : (s.updateLoop k).fieldLoop n = s.fieldLoop n := by
  obtain ⟨z, every, turn, start, done, u, hz, hparts⟩ := State.updateLoop_parts (s := s) (n := k) rfl rfl
  dsimp only at hparts
  generalize hb : State.toSignal (State.toSignal z _).1 _ = b at hparts
  have hloop : b.1.fieldLoop n = s.fieldLoop n := by
    have hkeep : State.Keeps [.loopEng, .free, .prfs] s b.1 := hb ▸ .into State.toSignal_keeps (by decide)
      (.into State.toSignal_keeps (by decide) (.into hz (by decide) (.into State.prfStep_keeps (by decide) .rfl)))
    exact hkeep.fieldLoop_eq (by decide) n
  rw [hparts]
  refine State.fieldLoop_ite ?_ (State.fieldLoop_ite ?_ ?_)
  · rw [State.loopFreeze_other h, hloop]
  · rw [State.loopOutput_keeps.fieldLoop_eq (by decide) n, State.setLoop_other h, hloop]
  · rw [State.setLoop_other h, hloop]

theorem effectLoopUpdate_other (h : n ≠ k) : (effectLoopUpdate k s).fieldLoop n = s.fieldLoop n := by
  unfold effectLoopUpdate
  split
  · refine (State.triggerConvs_keeps.fieldLoop_eq (by decide) n).trans ?_
    exact (State.capture_keeps.fieldLoop_eq (by decide) n).trans (State.updateLoop_other h)
  · split
    · exact State.setLoop_other h
    · rfl

/-- The update of a stopped loop at most drops what was due. -/
theorem effectLoopUpdate_stopped (h : s.loopStopped n = true) :
    ∃ d, (effectLoopUpdate n s).fieldLoop n = { s.fieldLoop n with due := d } := by
  unfold effectLoopUpdate
  rw [if_neg (by simp [State.loopFirst_of_stopped h])]
  split
  · exact ⟨false, by rw [State.modLoop, State.fieldLoop_setLoop, if_pos rfl]⟩
  · exact ⟨_, rfl⟩

/-- Whatever loop updates, a stopped loop keeps all but what was due. -/
theorem exec_loopUpdate_stopped (h : s.loopStopped n = true) (hk : k < 16) :
    Completes (.loopUpdate t k) s fun s' => ∃ d, s'.fieldLoop n = { s.fieldLoop n with due := d } := by
  refine ⟨effectLoopUpdate k (s.tick t), if_pos (decide_eq_true hk), ?_⟩
  by_cases hkn : n = k
  · exact hkn ▸ effectLoopUpdate_stopped (s := s.tick t) h
  · exact ⟨_, effectLoopUpdate_other hkn⟩

/-! ### Register writes of the loop engine's owner (R301, R302) -/

theorem regUser_writer {fn : Nat} (h : writer fn = true) : regUser fn = true := by
  simp only [writer, Bool.or_eq_true, decide_eq_true_eq] at h
  simp only [regUser, ringWriter, Bool.and_eq_true, Bool.or_eq_true, decide_eq_true_eq]
  omega

/-- REGISTER_WRITE of a word in a loop's record. -/
theorem exec_registerWrite_loop {fn r : Nat} {v : Word} (hfn : writer fn = true) (hup : s.hostUp = true)
    (hown : s.fw.loopOwner = some fn) (hn : n < 16) (hr : r < 0x400) (hal : r % 4 = 0) :
    exec (.registerWrite t fn (0x430000 + 0x400 * n + r) v) s = .next ((s.tick t).loopReg fn n r v) := by
  have hok : (regUser fn && decide (0x430000 + 0x400 * n + r < 0x4000000)) = true := by
    rw [regUser_writer hfn, Bool.true_and, decide_eq_true_eq]
    omega
  have hword : wordOff (0x430000 + 0x400 * n + r) = 0x430000 + 0x400 * n + r := wordOff_aligned (by omega)
  have hrec : (0x430000 + 0x400 * n + r - 0x430000) / 0x400 = n := by omega
  have hreg : (0x430000 + 0x400 * n + r) % 0x400 = r := by omega
  have hlow : fn < 130 := by
    simp only [writer, Bool.or_eq_true, decide_eq_true_eq] at hfn
    omega
  have hrun : ¬ (decide (130 ≤ fn) || !(s.tick t).hostUp) = true := by
    have hup' : (s.tick t).hostUp = true := hup
    rw [hup', decide_eq_false (by omega)]
    decide
  have hdown : ¬ (!(s.tick t).hostUp) = true := fun h => hrun (by rw [h, Bool.or_true])
  have hown' : (s.tick t).fw.loopOwner = some fn := hown
  refine (if_pos hok : act _ t s (effectRegisterWrite fn _ v) = _).trans (congrArg _ ?_)
  simp only [effectRegisterWrite, hword]
  rw [if_neg (by omega), if_neg (by omega), if_neg hrun]
  iterate 5 rw [if_neg (by omega)]
  rw [if_pos (by omega), State.loopWrite, if_neg hdown, if_pos hown', State.loopRegion, if_pos (by omega), hrec, hreg]

/-- After the write of a limit the marks are current. -/
theorem State.loopReg_limit_current {fn r : Nat} {v : Word} (hr : r ∈ [0x010, 0x014, 0x018, 0x01C]) :
    (s.loopReg fn n r v).cfgCurrent = true := by
  have hreg : s.loopReg fn n r v = (s.modLoop n (FieldLoop.write s.now r v)).refreshCfg.refreshIdle := by
    simp only [List.mem_cons, List.not_mem_nil, or_false] at hr
    rcases hr with rfl | rfl | rfl | rfl <;> rfl
  have hloop (k : Nat) := State.refreshIdle_keeps (s := (s.modLoop n (FieldLoop.write s.now r v)).refreshCfg)
    |>.fieldLoop_eq (by decide) k
  rw [hreg]
  exact State.cfgCurrent_congr (State.cfgCurrent_refreshCfg _) (fun k => congrArg _ (hloop k)) fun k => congrArg _ (hloop k)

end

/-- Settles O38: limits out of order stop the loop, so no update writes more than its due mark, and current marks tell it. -/
theorem badLimitsHoldTheLoop : Obligations.BadLimitsHoldTheLoop := by
  intro s t n hn bad
  refine ⟨fun hcur hbad => ?reads, fun hbad k hk => ?holds, fun fn v r hup hown hfn hr => ?written⟩
  case reads => rw [State.flag_statWord_of_current hcur hn, State.cfgDue_of_stopped (State.loopStopped_of_limits hbad)]
  case holds =>
    obtain ⟨s', hs', d, hloop⟩ := exec_loopUpdate_stopped (t := t) (State.loopStopped_of_limits hbad) hk
    exact ⟨s', hs', by dsimp only; rw [hloop]; exact ⟨rfl, rfl, rfl, rfl, rfl, rfl, rfl, rfl⟩⟩
  case written =>
    have hplace : r < 0x400 ∧ r % 4 = 0 := by
      simp only [List.mem_cons, List.not_mem_nil, or_false] at hr
      omega
    have hcur : ((s.tick t).loopReg fn n r v).cfgCurrent = true := State.loopReg_limit_current hr
    refine ⟨_, exec_registerWrite_loop hfn hup hown hn hplace.1 hplace.2, fun hbad => ?_, fun hgood hchain hord hinj => ?_⟩
    · rw [State.flag_statWord_of_current hcur hn, State.cfgDue_of_stopped (State.loopStopped_of_limits hbad)]
    · rw [State.flag_statWord_of_current hcur hn]
      simp only [bad, not_or] at hgood
      simp [State.cfgDue, State.loopStopped, hgood.1, hgood.2, hchain, hord, hinj]

end Sys2Proof.Machine
end

section
-- One proof after another: each further thread reserves a whole stack.
set_option Elab.async false
/-! Host writes to the loop engine: what the owner's leave in a loop, in its profile generator and in the capture, and that any
other sender's are only counted (R287, R294 to R302). -/

namespace Sys2Proof.Machine

/-! ### Bits of a word that is kept in part (R14) -/

section

variable {v w : Word} {k m lo n : Nat}

theorem flag_ofNat_field (hk : k < m) (hm : m ≤ 32) : flag (BitVec.ofNat 32 (field v 0 m)) k = flag v k := by
  have hword : k < 32 := by omega
  rw [flag, BitVec.getLsbD_ofNat, field, Nat.shiftRight_zero, Nat.testBit_mod_two_pow, BitVec.testBit_toNat,
    decide_eq_true hk, decide_eq_true hword]
  rfl

theorem field_ofNat_field (hn : lo + n ≤ m) (hm : m ≤ 32) :
    field (BitVec.ofNat 32 (field v 0 m)) lo n = field v lo n := by
  refine Nat.eq_of_testBit_eq fun i => ?_
  simp only [field, BitVec.toNat_ofNat, Nat.testBit_mod_two_pow, Nat.testBit_shiftRight, Nat.zero_add]
  by_cases hi : i < n
  · simp [hi, show lo + i < 32 by omega, show lo + i < m by omega]
  · simp [hi]

/-- Bit 0 replaced by bit 0 of another word. -/
theorem flag_putField_zero : flag (putField v 0 1 (field w 0 1)) 0 = flag w 0 := by
  have hbit (x : Word) : flag x 0 = decide (x.toNat % 2 = 1) := by
    rw [flag, ← BitVec.testBit_toNat, Nat.testBit_zero]
  have hput : (putField v 0 1 (field w 0 1)).toNat % 2 = w.toNat % 2 := by
    simp only [putField, field, BitVec.toNat_ofNat, Nat.shiftRight_zero, pow_zero, pow_one, Nat.mul_one]
    omega
  rw [hbit, hbit, hput]

end

/-! ### Plans at rest (R297, R300) -/

/-- An exact value is rounded to itself. -/
theorem roundEven_mul (z : Int) {d : Nat} (hd : 0 < d) : roundEven (z * d) d = z := by
  have hnat : roundEvenNat (z * d).natAbs d = z.natAbs := by
    rw [Int.natAbs_mul, Int.natAbs_natCast]
    simp [roundEvenNat, hd]
  unfold roundEven
  rw [hnat]
  split
  next hneg =>
    have hz : z < 0 := by
      by_contra hge
      exact absurd (Int.mul_nonneg (Int.not_lt.1 hge) (Int.natCast_nonneg d)) (by omega)
    omega
  next hpos =>
    have hz : 0 ≤ z := by
      by_contra hlt
      exact hpos (Int.mul_neg_of_neg_of_pos (by omega) (by omega))
    omega

/-- A motion at rest needs no leg to rest. -/
theorem Motion.toVel_rest (A J : Nat) (x : Int) : ({ pos := x } : Motion).toVel A J 0 = ([], { pos := x }) := by
  have hroot : isqrt 0 = 0 := by decide
  simp [Motion.toVel, Motion.after, hroot]

/-! ### Whose write it is (R301) -/

section

variable {s : State} {fn n : Nat} {w : Word} {f : State → State}

theorem act_eq {ok : Bool} {t : Nat} {x : State} (h : ok = true) (hf : f (s.tick t) = x) : act ok t s f = .next x :=
  (if_pos h).trans (congrArg _ hf)

theorem State.loopWrite_owner (hup : s.hostUp = true) (hown : s.fw.loopOwner = some fn) : s.loopWrite fn f = f s :=
  (if_neg (by simp [hup])).trans (if_pos hown)

theorem State.loopWrite_other (hup : s.hostUp = true) (hown : s.fw.loopOwner ≠ some fn) :
    s.loopWrite fn f = { s with loopEng := { s.loopEng with wrDenied := satInc s.loopEng.wrDenied } } :=
  (if_neg (by simp [hup])).trans (if_neg hown)

/-! ### After the check and LOOP_IDLE -/

theorem State.fieldLoop_refresh (hn : n < 16) :
    s.refreshCfg.refreshIdle.fieldLoop n = { s.fieldLoop n with cfgErr := s.cfgDue n } :=
  (State.refreshIdle_keeps.fieldLoop_eq (by decide) n).trans (State.fieldLoop_refreshCfg s hn)

theorem State.prf_refresh : s.refreshCfg.refreshIdle.prf n = s.prf n :=
  (State.refreshIdle_keeps.prf_eq (by decide) n).trans (State.refreshCfg_keeps.prf_eq (by decide) n)

/-! ### LOOP_CTRL (R287) -/

/-- The loop and its generator after LOOP_CTRL is set, before a start. -/
def State.setCtrl (s : State) (n : Nat) (w : Word) : State :=
  (s.setLoop n { s.fieldLoop n with
    ctrl := w, due := (s.fieldLoop n).due && flag w 0 && !flag w 1
    timerFrom := if flag w 8 && !flag (s.fieldLoop n).ctrl 8 then s.now else (s.fieldLoop n).timerFrom }).modPrf n
      (Profile.hold s.now (flag w 1))

theorem State.loopCtrl_owner (hup : s.hostUp = true) (hown : s.fw.loopOwner = some fn) (hsec : field w 2 3 ≤ 5) :
    let c := BitVec.ofNat 32 (field w 0 24)
    s.loopCtrl fn n w = (if flag c 0 && !flag (s.fieldLoop n).ctrl 0 then (s.setCtrl n c).loopStart n
      else s.setCtrl n c).refreshCfg.refreshIdle := by
  have hkept : ¬ 5 < field w 2 3 := by omega
  unfold State.loopCtrl
  rw [State.loopWrite_owner hup hown]
  dsimp only
  rw [if_neg hkept]
  rfl

theorem State.fieldLoop_setCtrl : (s.setCtrl n w).fieldLoop n = { s.fieldLoop n with
    ctrl := w, due := (s.fieldLoop n).due && flag w 0 && !flag w 1
    timerFrom := if flag w 8 && !flag (s.fieldLoop n).ctrl 8 then s.now else (s.fieldLoop n).timerFrom } := Tab.get_put_same ..

theorem State.prf_setCtrl : (s.setCtrl n w).prf n = (s.prf n).hold s.now (flag w 1) := Tab.get_put_same ..

theorem State.setCtrl_keeps : State.Keeps [.loops, .prfs] s (s.setCtrl n w) :=
  .into State.modPrf_keeps (by decide) (.into State.setLoop_keeps (by decide) .rfl)

/-- LOOP_CTRL written without a start. -/
theorem State.loopCtrl_plain (hup : s.hostUp = true) (hown : s.fw.loopOwner = some fn) (hsec : field w 2 3 ≤ 5)
    (hn : n < 16) (hstay : (flag w 0 && !flag (s.fieldLoop n).ctrl 0) = false) (hoff : (flag w 0 && !flag w 1) = false) :
    let l' := (s.loopCtrl fn n w).fieldLoop n
    l'.ctrl = BitVec.ofNat 32 (field w 0 24) ∧ l'.due = false ∧ l'.out = (s.fieldLoop n).out ∧
      l'.int = (s.fieldLoop n).int ∧ l'.sec = (s.fieldLoop n).sec ∧
      (s.loopCtrl fn n w).prf n = (s.prf n).hold s.now (flag w 1) := by
  have henable : flag (BitVec.ofNat 32 (field w 0 24)) 0 = flag w 0 := flag_ofNat_field (by decide) (by decide)
  have hhold : flag (BitVec.ofNat 32 (field w 0 24)) 1 = flag w 1 := flag_ofNat_field (by decide) (by decide)
  have hctrl := State.loopCtrl_owner (n := n) hup hown hsec
  dsimp only at hctrl
  rw [henable, if_neg (by simp [hstay])] at hctrl
  generalize BitVec.ofNat 32 (field w 0 24) = c at *
  have hdue : ((s.fieldLoop n).due && flag c 0 && !flag w 1) = false := by
    rw [henable, Bool.and_assoc, hoff, Bool.and_false]
  dsimp only
  rw [hctrl, State.fieldLoop_refresh hn, State.prf_refresh, State.fieldLoop_setCtrl, State.prf_setCtrl, hhold]
  exact ⟨rfl, hdue, rfl, rfl, rfl, rfl⟩

/-- LOOP_CTRL written with ENABLE going to 1. -/
theorem State.loopCtrl_start (hup : s.hostUp = true) (hown : s.fw.loopOwner = some fn) (hsec : field w 2 3 ≤ 5)
    (hn : n < 16) (hon : flag w 0 = true) (hwas : flag (s.fieldLoop n).ctrl 0 = false) :
    let l := s.fieldLoop n
    let l' := (s.loopCtrl fn n w).fieldLoop n
    let ch := field l.src 6 5
    let u := codeToLoop (s.fout ch).range.toNat (usedCode ch ((s.fout ch).atPin s.now))
    l'.ctrl = BitVec.ofNat 32 (field w 0 24) ∧ l'.sec = [] ∧
      l'.int = BitVec.ofInt 32 (if ch < 16 then clampInt u l.imin.toInt l.imax.toInt else 0) ∧ l'.out = l.out ∧
      l'.due = false ∧ (s.loopCtrl fn n w).prf n =
        ((s.prf n).hold s.now (flag w 1)).rest (BitVec.ofInt 32 (s.slotValue (field l.src 0 6))) := by
  have henable : flag (BitVec.ofNat 32 (field w 0 24)) 0 = flag w 0 := flag_ofNat_field (by decide) (by decide)
  have hhold : flag (BitVec.ofNat 32 (field w 0 24)) 1 = flag w 1 := flag_ofNat_field (by decide) (by decide)
  have hctrl := State.loopCtrl_owner (n := n) hup hown hsec
  dsimp only at hctrl
  rw [henable, if_pos (by simp [hon, hwas])] at hctrl
  generalize BitVec.ofNat 32 (field w 0 24) = c at *
  have hvalue (i : Nat) : (s.setCtrl n c).slotValue i = s.slotValue i := State.setCtrl_keeps.slotValue_eq (by decide) i
  have hprf : ((s.setCtrl n c).loopStart n).prf n = ((s.setCtrl n c).prf n).rest
      (BitVec.ofInt 32 ((s.setCtrl n c).slotValue (field ((s.setCtrl n c).fieldLoop n).src 0 6))) := Tab.get_put_same ..
  have hloop : ((s.setCtrl n c).loopStart n).fieldLoop n = _ := Tab.get_put_same ..
  dsimp only
  rw [hctrl, State.fieldLoop_refresh hn, State.prf_refresh, hprf, hloop, hvalue, State.prf_setCtrl, State.fieldLoop_setCtrl, hhold]
  exact ⟨rfl, rfl, rfl, rfl, rfl, rfl⟩

/-! ### LOOP_STAT and LOOP_INJ_CTRL (R294, R295) -/

/-- A frozen loop released. -/
theorem State.loopStat_release (hup : s.hostUp = true) (hown : s.fw.loopOwner = some fn)
    (hset : w1c s.now (s.fieldLoop n).fresh w 2 true = false) (hosc : (s.fieldLoop n).osc = true) :
    (s.loopStat fn n w).fieldLoop n = { s.fieldLoop n with
      osc := false, set := 0, setNext := 0, schedHold := true, oscWin := {}, due := false } := by
  unfold State.loopStat
  rw [State.loopWrite_owner hup hown, if_pos (by rw [hosc, hset]; rfl), State.refreshIdle_keeps.fieldLoop_eq (by decide) n,
    State.modLoop, State.fieldLoop_setLoop, if_pos rfl]

/-- A loop whose injection is started, with the first state of its pseudo-random sequence. -/
def FieldLoop.injStarted (c : Word) (seed : Nat) (l : FieldLoop) : FieldLoop :=
  { l with injCtrl := c, injErr := false, injIdx := 0, lfsr := seed }

/-- A loop whose injection does not start: RUN as it was, and the fault. -/
def FieldLoop.injRefused (c : Word) (l : FieldLoop) : FieldLoop :=
  { l with injCtrl := putField c 0 1 (field l.injCtrl 0 1), injErr := true }

/-- The injection of loop n started and the loops checked. -/
def State.injBegun (s : State) (n : Nat) (c : Word) : State :=
  (s.draw.modLoop n (.injStarted c (Config.prbsSeed s.free % (2 ^ (prbsTaps (field c 5 2)).1 - 1) + 1))).refreshCfg

/-- A capture armed for the injection's start begins (R296). -/
def State.captureBegun (s : State) (n : Nat) : State :=
  if s.loopEng.armed && !s.loopEng.capRunning && flag s.loopEng.capCtrl 1 && field s.loopEng.capCtrl 2 4 = n then
    { s with loopEng := { s.loopEng with capRunning := true, capCount := 0, capSkip := 0 } }
  else s

theorem State.fieldLoop_captureBegun {k : Nat} : (s.captureBegun k).fieldLoop n = s.fieldLoop n :=
  State.fieldLoop_ite rfl rfl

/-- An injection's settings with TYPE and POINT listed. -/
theorem State.injCtrl_owner (hup : s.hostUp = true) (hown : s.fw.loopOwner = some fn) (htype : field w 1 2 ≠ 3)
    (hpoint : field w 3 2 ≠ 3) :
    let c := BitVec.ofNat 32 (field w 0 15)
    let l := s.fieldLoop n
    s.injCtrl fn n w = if !flag w 0 then s.modLoop n fun l => { l with injCtrl := c }
      else if !l.freqsOk (field w 1 2) (s.ratePeriod 4 n) then (s.modLoop n (.injRefused c)).refreshCfg
      else if flag l.injCtrl 0 then s.modLoop n fun l => { l with injCtrl := c }
      else (s.injBegun n c).captureBegun n := by
  have hrun : flag (BitVec.ofNat 32 (field w 0 15)) 0 = flag w 0 := flag_ofNat_field (by decide) (by decide)
  have hkind : field (BitVec.ofNat 32 (field w 0 15)) 1 2 = field w 1 2 := field_ofNat_field (by decide) (by decide)
  unfold State.injCtrl
  rw [State.loopWrite_owner hup hown]
  dsimp only
  rw [if_neg htype, if_neg hpoint, hrun, hkind]
  rfl

theorem State.fieldLoop_injBegun (hn : n < 16) :
    let l' := (s.injBegun n w).fieldLoop n
    l'.injCtrl = w ∧ l'.injErr = false ∧ l'.injIdx = 0 := by
  dsimp only
  rw [State.injBegun, State.fieldLoop_refreshCfg _ hn, State.modLoop, State.fieldLoop_setLoop, if_pos rfl]
  exact ⟨rfl, rfl, rfl⟩

/-- RUN 1 with frequencies in range starts the injection. -/
theorem State.injCtrl_starts (hup : s.hostUp = true) (hown : s.fw.loopOwner = some fn) (htype : field w 1 2 ≠ 3)
    (hpoint : field w 3 2 ≠ 3) (hon : flag w 0 = true) (hoff : flag (s.fieldLoop n).injCtrl 0 = false)
    (hfreq : (s.fieldLoop n).freqsOk (field w 1 2) (s.ratePeriod 4 n) = true) :
    (s.injCtrl fn n w).fieldLoop n = (s.injBegun n (BitVec.ofNat 32 (field w 0 15))).fieldLoop n := by
  have hctrl := State.injCtrl_owner (n := n) hup hown htype hpoint
  dsimp only at hctrl
  rw [hctrl, if_neg (by simp [hon]), if_neg (by simp [hfreq]), if_neg (by simp [hoff]), State.fieldLoop_captureBegun]

/-- RUN 1 with a frequency out of range sets CFG_ERR. -/
theorem State.injCtrl_fails (hup : s.hostUp = true) (hown : s.fw.loopOwner = some fn) (htype : field w 1 2 ≠ 3)
    (hpoint : field w 3 2 ≠ 3) (hn : n < 16) (hon : flag w 0 = true)
    (hfreq : (s.fieldLoop n).freqsOk (field w 1 2) (s.ratePeriod 4 n) = false) :
    let l' := (s.injCtrl fn n w).fieldLoop n
    flag l'.injCtrl 0 = flag (s.fieldLoop n).injCtrl 0 ∧ l'.cfgErr = true := by
  have hctrl := State.injCtrl_owner (n := n) hup hown htype hpoint
  dsimp only at hctrl
  rw [if_neg (by simp [hon]), if_pos (by simp [hfreq])] at hctrl
  have hset : (s.modLoop n (.injRefused (BitVec.ofNat 32 (field w 0 15)))).fieldLoop n =
      (s.fieldLoop n).injRefused (BitVec.ofNat 32 (field w 0 15)) := Tab.get_put_same ..
  dsimp only
  rw [hctrl, State.fieldLoop_refreshCfg _ hn, hset]
  exact ⟨flag_putField_zero, by simp [State.cfgDue, FieldLoop.injRefused]⟩

/-! ### LOOP_CAP_CTRL (R296) -/

theorem State.capCtrl_owner (hup : s.hostUp = true) (hown : s.fw.loopOwner = some fn) (hon : flag w 0 = true)
    (hdone : flag w 20 = false) (hsig : field w 6 3 ≤ 5) (hsig' : field w 9 3 ≤ 5) :
    let g := s.loopEng
    let cap := BitVec.ofNat 32 (field w 1 19 * 2)
    s.capCtrl fn w = if g.armed then { s with loopEng := { g with capCtrl := cap, capRefused := satInc g.capRefused } }
      else { s with loopEng := { g with
        capCtrl := cap, armed := true, capRunning := !flag cap 1, capCount := 0, capSkip := 0 } } := by
  have hkept : w1c s.now s.loopEng.fresh w 20 s.loopEng.done = s.loopEng.done := by simp [w1c, hdone]
  unfold State.capCtrl
  rw [State.loopWrite_owner hup hown]
  dsimp only
  rw [hkept, if_neg (Nat.not_lt.2 hsig), if_neg (Nat.not_lt.2 hsig'), if_neg (by simp [hon])]

/-! ### The profile generator (R297 to R300) -/

/-- HOLD freezes the motion (R287). -/
theorem Profile.motion_hold {p : Profile} (now x : Nat) (h : p.heldAt = none) :
    (p.hold now true).motion x = p.motion now := by
  simp [Profile.hold, Profile.motion, Profile.clock, h]

/-- A generator with a target written, before the move is planned. -/
def Profile.aimed (now : Nat) (w : Word) (p : Profile) : Profile :=
  let x := clampInt w.toInt p.pmin.toInt p.pmax.toInt
  { (p.begin now).takeLimits with
    target := BitVec.ofInt 32 x, targetAt := some (now / Config.cycle), clamps := if x = w.toInt then p.clamps else satInc p.clamps }

/-- A target written: with BYPASS a step at the next update, otherwise a move planned (R297, R300). -/
theorem State.prf_prfTarget : (s.prfTarget n w).prf n =
    let q := (s.prf n).aimed s.now w
    if (s.prf n).bypass then { q with moving := true, plan := [], returnAt := 0 } else q.replan := by
  rw [State.prfTarget, State.prf_setPrf, if_pos rfl]
  rfl

theorem Profile.writeLimit_bad {p : Profile} {cyc which : Nat} (h : limitOk w = false) : p.writeLimit cyc which w = p :=
  if_pos (congrArg Bool.not h)

/-- A limit in range is pending unless a target was written in its cycle (R299). -/
theorem Profile.writeLimit_pends {p : Profile} {cyc which : Nat} (h : limitOk w = true) (hcyc : p.targetAt ≠ some cyc) :
    p.writeLimit cyc which w = match which with
      | 0 => { p with vNew := some w }
      | 1 => { p with aNew := some w }
      | _ => { p with jNew := some w } := by
  have hgood : ¬ (!limitOk w) = true := fun hbad => Bool.noConfusion ((congrArg Bool.not h).symm.trans hbad)
  unfold Profile.writeLimit
  rw [if_neg hgood]
  rcases which with _ | _ | which <;> exact if_neg hcyc

/-- STOP plans the least-time way to rest, whose end is the target (R300). -/
theorem State.prf_prfCtrl_stop (hup : s.hostUp = true) (hown : s.fw.loopOwner = some fn) (hstop : flag w 1 = true) :
    let p := s.prf n
    let g := (p.motion s.now).toVel (limitOf p.amax) (limitOf p.jmax) 0
    (s.prfCtrl fn n w).prf n = { p with
      bypass := flag w 0, start := p.motion s.now, planAt := p.heldAt.getD s.now
      target := BitVec.ofInt 32 (s.toSignal (roundEven g.2.pos (2 ^ 68))).2
      plan := g.1, returnAt := 0, moving := !g.1.isEmpty, targetAt := none } := by
  unfold State.prfCtrl
  rw [State.loopWrite_owner hup hown]
  dsimp only
  rw [if_pos hstop, State.prf_setPrf, if_pos rfl]
  rfl

/-- At rest STOP plans nothing and the position is the target (R300). -/
theorem Profile.stop_rest {p : Profile} {A J now : Nat} (h : p.moving = false) :
    (p.motion now).toVel A J 0 = ([], { pos := fxOfQ p.pos }) ∧ roundEven (fxOfQ p.pos) (2 ^ 68) = p.pos.toInt := by
  have hrest : p.motion now = { pos := fxOfQ p.pos } := by simp [Profile.motion, h]
  have hround (x : Int) : roundEven (x * 2 ^ 68) (2 ^ 68) = x := by
    rw [show ((2 : Int) ^ 68) = ((2 ^ 68 : Nat) : Int) from rfl]
    exact roundEven_mul x (Nat.two_pow_pos 68)
  exact ⟨by rw [hrest, Motion.toVel_rest], hround _⟩

theorem State.prf_prfCtrl_rest (hup : s.hostUp = true) (hown : s.fw.loopOwner = some fn) (hstop : flag w 1 = true)
    (hstill : (s.prf n).moving = false) :
    ((s.prfCtrl fn n w).prf n).target = (s.prf n).pos ∧ ((s.prfCtrl fn n w).prf n).moving = false := by
  obtain ⟨hplan, hround⟩ := Profile.stop_rest (A := limitOf (s.prf n).amax) (J := limitOf (s.prf n).jmax) (now := s.now) hstill
  rw [State.prf_prfCtrl_stop hup hown hstop, hplan]
  dsimp only
  rw [hround, State.toSignal_inQ (toInt_inQ _)]
  exact ⟨BitVec.ofInt_toInt, rfl⟩

/-! ### Each command's write (R301) -/

section

variable {t : Nat}

/-- Another sender's write is counted, whichever of the ten it is. -/
theorem exec_loopWrite_other (hup : s.hostUp = true) (hfn : writer fn = true) (hn : n < 16) (hown : s.fw.loopOwner ≠ some fn)
    {c : Instr} (hc : c = .loopHold t fn n w ∨ (flag w 0 = true ∧ c = .loopEnable t fn n w) ∨
      (flag w 0 = false ∧ c = .loopDisable t fn n w) ∨ c = .loopOscRelease t fn n w ∨
      (flag w 0 = true ∧ c = .injectionStart t fn n w) ∨ (flag w 0 = false ∧ c = .injectionStop t fn n w) ∨
      c = .captureArm t fn w ∨ c = .prfTargetWrite t fn n w ∨ c = .prfLimitWrite t fn n 0 w ∨
      (flag w 1 = true ∧ c = .prfStop t fn n w)) :
    exec c s = .next { s.tick t with loopEng := { s.loopEng with wrDenied := satInc s.loopEng.wrDenied } } := by
  have hok : (writer fn && decide (n < 16)) = true := by rw [hfn, decide_eq_true hn, Bool.and_self]
  have hlimit : (writer fn && decide (n < 16) && decide (0 < 3)) = true := by rw [hok]; rfl
  have hcount (f : State → State) : (s.tick t).loopWrite fn f =
      { s.tick t with loopEng := { s.loopEng with wrDenied := satInc s.loopEng.wrDenied } } := State.loopWrite_other hup hown
  have hctrl : (s.tick t).loopCtrl fn n w = _ := hcount _
  have hcap : (s.tick t).capCtrl fn w = _ := hcount _
  rcases hc with rfl | ⟨hw, rfl⟩ | ⟨hw, rfl⟩ | rfl | ⟨hw, rfl⟩ | ⟨hw, rfl⟩ | rfl | rfl | rfl | ⟨hw, rfl⟩
  · exact act_eq hok hctrl
  · exact act_eq hok ((if_pos hw).trans hctrl)
  · exact act_eq hok ((if_neg (Bool.eq_false_iff.1 hw)).trans hctrl)
  · exact act_eq hok (hcount _)
  · exact act_eq hok ((if_pos hw).trans (hcount _))
  · exact act_eq hok ((if_neg (Bool.eq_false_iff.1 hw)).trans (hcount _))
  · exact act_eq hfn hcap
  · exact act_eq hok (hcount _)
  · exact act_eq hlimit (hcount _)
  · exact act_eq hok ((if_pos hw).trans (hcount _))

/-- The owner's write of a limit reaches the generator. -/
theorem exec_prfLimitWrite_owner (hup : s.hostUp = true) (hfn : writer fn = true) (hn : n < 16)
    (hown : s.fw.loopOwner = some fn) {which : Nat} (hwhich : which < 3) :
    exec (.prfLimitWrite t fn n which w) s =
      .next ((s.tick t).setPrf n ((s.prf n).writeLimit (max s.now t / Config.cycle) which w)) := by
  have hok : (writer fn && decide (n < 16) && decide (which < 3)) = true := by
    rw [hfn, decide_eq_true hn, decide_eq_true hwhich]
    rfl
  have hwrite (f : State → State) : (s.tick t).loopWrite fn f = f (s.tick t) := State.loopWrite_owner hup hown
  exact act_eq hok (hwrite _)

end

end

/-- Settles O40: a write of the ten takes the engine's ownership first, then what its register does. -/
theorem loopEngineWrites : Obligations.LoopEngineWrites := by
  intro s t fn n w hup hfn hn v now l p g ctrl inj cap plain x
  refine ⟨fun hown c hc => exec_loopWrite_other hup hfn hn hown hc, fun hown => ?_⟩
  have hok : (writer fn && decide (n < 16)) = true := by rw [hfn, decide_eq_true hn, Bool.and_self]
  have hupv : v.hostUp = true := hup
  have hownv : v.fw.loopOwner = some fn := hown
  refine ⟨fun hon hsec hwas => ?enable, fun hoff hsec => ?disable, fun hhold hsame hsec => ?hold, fun hset hosc => ?release,
    fun hon hplain hoff => ?start, fun hoff hplain => ?stop, fun hon hdone hsig hsig' => ?arm, ?target,
    fun hgood hcyc => ?limit, fun hbad which hwhich => ?bad, fun hstop => ?rest⟩
  case enable =>
    obtain ⟨hctrl, hstates, hint, hout, hdue, hprf⟩ := State.loopCtrl_start (n := n) hupv hownv hsec hn hon hwas
    refine ⟨v.loopCtrl fn n w, act_eq hok (if_pos hon), hctrl, hstates, hint, hout, hdue, ?_⟩
    rw [hprf]
    exact ⟨rfl, rfl, rfl, rfl, rfl⟩
  case disable =>
    obtain ⟨hctrl, hdue, hout, hint, hstates, -⟩ :=
      State.loopCtrl_plain (n := n) hupv hownv hsec hn (by simp [hoff]) (by simp [hoff])
    exact ⟨v.loopCtrl fn n w, act_eq hok (if_neg (Bool.eq_false_iff.1 hoff)), hctrl, hdue, hout, hint, hstates⟩
  case hold =>
    have hstay : (flag w 0 && !flag (v.fieldLoop n).ctrl 0) = false := by
      rw [hsame]
      exact Bool.and_not_self _
    obtain ⟨hctrl, hdue, hout, hint, hstates, hprf⟩ :=
      State.loopCtrl_plain (n := n) hupv hownv hsec hn hstay (by simp [hhold])
    refine ⟨v.loopCtrl fn n w, act_eq hok rfl, hctrl, hdue, hout, hint, hstates, fun hfree x => ?_⟩
    rw [hprf, hhold]
    exact Profile.motion_hold v.now x hfree
  case release =>
    have hloop := State.loopStat_release (n := n) hupv hownv hset hosc
    refine ⟨v.loopStat fn n w, act_eq hok rfl, ?_⟩
    dsimp only
    rw [hloop]
    exact ⟨rfl, rfl, rfl, rfl, rfl, rfl, rfl⟩
  case start =>
    obtain ⟨htype, hpoint⟩ := hplain
    refine ⟨v.injCtrl fn n w, act_eq hok (if_pos hon), fun hfreq => ?_, fun hfreq => ?_⟩
    · rw [State.injCtrl_starts hupv hownv htype hpoint hon hoff hfreq]
      exact State.fieldLoop_injBegun hn
    · obtain ⟨hrun, hfault⟩ := State.injCtrl_fails (n := n) hupv hownv htype hpoint hn hon hfreq
      exact ⟨hrun.trans hoff, hfault⟩
  case stop =>
    obtain ⟨htype, hpoint⟩ := hplain
    have hctrl := State.injCtrl_owner (n := n) hupv hownv htype hpoint
    dsimp only at hctrl
    rw [if_pos (by simp [hoff])] at hctrl
    exact act_eq hok ((if_neg (Bool.eq_false_iff.1 hoff)).trans hctrl)
  case arm =>
    have hcap := State.capCtrl_owner (w := w) hupv hownv hon hdone hsig hsig'
    exact ⟨fun hfree => ⟨_, act_eq hfn rfl, congrArg State.loopEng (hcap.trans (if_neg (Bool.eq_false_iff.1 hfree)))⟩,
      fun harmed => act_eq hfn (hcap.trans (if_pos harmed))⟩
  case target =>
    have hwrite : v.loopWrite fn (fun z => z.prfTarget n w) = v.prfTarget n w := State.loopWrite_owner hupv hownv
    refine ⟨v.prfTarget n w, act_eq hok hwrite, ?_⟩
    dsimp only
    rw [State.prf_prfTarget]
    by_cases hbypass : (v.prf n).bypass = true
    · rw [if_pos hbypass]
      exact ⟨rfl, rfl, rfl, rfl, rfl, fun _ => ⟨rfl, rfl⟩⟩
    · rw [if_neg hbypass]
      exact ⟨rfl, rfl, rfl, rfl, rfl, fun h => absurd h hbypass⟩
  case limit =>
    have hpend (which : Nat) (hwhich : which < 3) :=
      (exec_prfLimitWrite_owner (t := t) hup hfn hn hown hwhich).trans
        (congrArg (fun q => Host.Outcome.next (v.setPrf n q)) (Profile.writeLimit_pends hgood hcyc))
    exact ⟨hpend 0 (by decide), hpend 1 (by decide), hpend 2 (by decide)⟩
  case bad =>
    rw [exec_prfLimitWrite_owner hup hfn hn hown hwhich, Profile.writeLimit_bad hbad]
  case rest =>
    have hprf := State.prf_prfCtrl_stop (n := n) hupv hownv hstop
    have hends := State.prf_prfCtrl_rest (n := n) hupv hownv hstop
    refine ⟨v.prfCtrl fn n w, act_eq hok (if_pos hstop), ?_⟩
    dsimp only at hprf ⊢
    refine ⟨?_, ?_, ?_, fun hlow hhigh => ?_, hends⟩ <;> rw [hprf]
    · rfl
    · rfl
    · exact congrArg (fun z : State × Int => BitVec.ofInt 32 z.2) (State.toSignal_inQ ⟨hlow, hhigh⟩)

end Sys2Proof.Machine
end

section
-- One proof after another: each further thread reserves a whole stack.
set_option Elab.async false
/-! Sorilait commands that set owners, records, subscriptions, classes, locks, routes, links and the inactive bank (R301, R341,
R366, R368, R380, R384). -/

namespace Sys2Proof.Machine

/-- UPGRADE_BEGIN has ended where an upgrade is open and no BEGIN is still accepted (R384). -/
theorem State.beginRuns_iff {s : State} :
    s.beginRuns = true ↔ s.fw.upgrade = none ∨ (s.fw.accepted.any fun a => a.op = 0x0800) = true := by
  rw [State.beginRuns, Bool.or_eq_true, Option.isNone_iff_eq_none]

/-- Settles O54: each command is taken, and its handler refuses by the first check that fails or sets its record. -/
theorem firmwareSetsFieldsLinksAndBank : Obligations.FirmwareSetsFieldsLinksAndBank := by
  intro s t ch v b n k no who mv rec_ i m lastOwner via opened closed len
  refine ⟨fun h => ?owner, fun h => ?safe, fun h => ?route, fun h => ?perm, fun h => ?lock, fun h => ?routes, fun h => ?address,
    fun h => ?mode, fun h => ?peer, fun h => ?begin_, fun h => ?data, fun h ok => ?commit⟩
  case owner =>
    have hrow : exec (.fieldOwner t ch) s = _ := act_command _ h
    rw [hrow]
    refine ⟨fun hn => ?none_, fun hn hlow hhigh => ?nobody, fun hwho => ?given⟩
    case none_ =>
      obtain ⟨j, hj⟩ : ∃ j, leAt (s.cmdSlot ch) 8 1 = j + 2 := ⟨_, (Nat.sub_add_cancel hn).symm⟩
      have hunit : 1 < j + 2 := Nat.lt_add_left j (by decide)
      simp only [hj, hunit, if_true, ite_self]; rfl
    case nobody =>
      have hbad : (decide (63 < leAt (s.cmdSlot ch) 9 1) && decide (leAt (s.cmdSlot ch) 9 1 ≠ 0xFF)) = true := by
        rw [decide_eq_true hlow, decide_eq_true hhigh, Bool.and_self]
      have hunit : ¬ 1 < leAt (s.cmdSlot ch) 8 1 := Nat.not_lt.2 hn
      simp only [hbad, if_true, hunit, if_false]; rfl
    case given =>
      have hgood : (decide (63 < leAt (s.cmdSlot ch) 9 1) && decide (leAt (s.cmdSlot ch) 9 1 ≠ 0xFF)) = false := by
        rw [Bool.and_eq_false_iff, decide_eq_false_iff_not, decide_eq_false_iff_not, Nat.not_lt, not_not]
        exact hwho
      refine ⟨fun hn => ?_, fun hn => ?_⟩
      · simp only [hgood, show leAt (s.cmdSlot ch) 8 1 = 0 from hn]; rfl
      · simp only [hgood, show leAt (s.cmdSlot ch) 8 1 = 1 from hn]; rfl
  case peer => exact act_command _ h
  case begin_ =>
    refine ⟨fun hsize d => (act_command _ h).trans ?_, fun hdesc bs => (act_command _ h).trans ?_,
      fun hdesc j => (act_command _ h).trans ?_⟩
    · simp only [show slotDesc (s.cmdSlot ch) = false from hsize]; rfl
    · simp only [show slotDesc (s.cmdSlot ch) = true from hdesc]; rfl
    · simp only [show slotDesc (s.cmdSlot ch) = true from hdesc]; rfl
  case data =>
    exact (act_command _ h).trans (by simp only [answerOut_ite, answerOut_refuse, answerOut_okWith, State.beginRuns_iff]; rfl)
  case safe | route | perm | lock | routes | address | mode | commit =>
    exact (act_command _ h).trans (by simp only [answerOut_ite, answerOut_refuse, answerOut_okWith, answerOut_accept]; rfl)

end Sys2Proof.Machine
end
